-- ==== Sys2Proof/Word.lean ====
section
/-! DEFINITION. Machine words and the small plain records that the operands of instructions and events are made of. -/

namespace Sys2Proof

/-- A 32-bit register or instruction word (R5, R50). -/
abbrev Word := BitVec 32

/-- A double word: an even/odd register pair, an address, a table entry. -/
abbrev DWord := BitVec 64

/-- A 7-bit register field of an instruction word (R15). -/
abbrev RegField := BitVec 7

/-- What every instruction word carries beside its own fields: the STALL count (R56) and the modifier
words that follow it, as they stand in the code (R57). Bit M of the instruction word is set exactly when a
modifier word follows. -/
structure Tail where
  stall : BitVec 3
  mods : List Word
  deriving DecidableEq, Repr

/-- Whom a kill-and-drain names (R396): a virtual device, or one context of it. -/
structure Victim where
  vdev : Nat
  ctx : Option Nat
  deriving DecidableEq, Repr

/-- The header fields of a Stack Port request (R318): the stack, the request tag, the stack physical
address, the trust domain, the command's argument, and NOALLOC. -/
structure PortHdr where
  stack : Nat
  tag : Nat
  spa : Nat
  domain : Nat
  arg : Nat
  noalloc : Bool := false
  deriving DecidableEq, Repr

/-- A PATSET request (R318, R320): its header and its payload of 32 bytes. -/
structure PatReq where
  hdr : PortHdr
  data : List (BitVec 8)
  deriving DecidableEq, Repr

/-- An engine command (R318, R327): the stack, the Crucible's sequence number of the command and its arguments, and the tag and domain of
the request that carries it. -/
structure EngHdr where
  stack : Nat
  seq : Nat
  arg0 : Nat
  arg1 : Nat
  tag : Nat
  domain : Nat
  deriving DecidableEq, Repr

/-- The two's-complement value of a word. -/
def sint {n : Nat} (x : BitVec n) : Int := x.toInt

/-- An integer reduced modulo `2^n`. -/
def wrap (n : Nat) (v : Int) : BitVec n := BitVec.ofInt n v

/-- Clamp to a range (the specification's `sat`). -/
def sat (v lo hi : Int) : Int := if v < lo then lo else if hi < v then hi else v

end Sys2Proof
end

