-- ==== Sys2Proof/Config.lean ====
section
/-! DEFINITION. What an implementation fixes and the specification leaves open: constants without a body, so that
nothing can be proved of their values. -/

namespace Sys2Proof.Config

/-- A free value (DESIGN CHOICE: log 7): the specification leaves it open; the step that draws it counts `State.free` on. -/
opaque free : Nat → Nat

/-- Which of the two values that bracket the exact result FRSQ, FEXP2, FLOG2, FSIN and FCOS return in .F32 (R111):
a fixed choice for each function and operand (DESIGN CHOICE: log 9). -/
opaque faithfulUp : Nat → BitVec 32 → Bool

/-- AES-256 (R359, DESIGN CHOICE: log 10): the specification names the cipher and does not give it. -/
opaque aes : BitVec 256 → BitVec 128 → BitVec 128

/-- AES-256-CMAC (R359, R363, R364, DESIGN CHOICE: log 10) of a message under a key: its most significant 56 bits. -/
opaque cmac : BitVec 256 → List (BitVec 8) → BitVec 56

/-- SHA-256 (R367, DESIGN CHOICE: log 10). -/
opaque sha256 : List (BitVec 8) → BitVec 256

/-- ECDSA over P-256 with the package's identity key (R367, R368, DESIGN CHOICE: log 10): the signature `r ++ s` of a digest. -/
opaque sign : BitVec 256 → BitVec 512

/-- The random bits that the key store draws (R353, DESIGN CHOICE: log 10): a fresh value for each draw. -/
opaque randomKey : Nat → BitVec 256

/-- Whether a firmware image carries a valid signature (R423, DESIGN CHOICE: log 10). -/
opaque imageSigned : List (BitVec 8) → Bool

/-- Whether the host's root port completes AtomicOps (R408). -/
opaque hostAtomics : Bool

/-- The first row beyond the keyed portion of a stack, which the Crucible sets at boot (R358). -/
opaque keyedRows : Nat → Nat

/-- The images that configuration flash holds when the package is first powered (R423, DESIGN CHOICE: log 6), by `2 KIND + slot`. -/
opaque flash : Nat → List (BitVec 8)

/-- The boot ROM's contents (R367). -/
opaque bootRom : List (BitVec 8)

/-- Whether a die's disabled physical row passed manufacturing test (R434). -/
opaque spareGood : Nat → Bool

/-- The package ID and the port number at the other end of a fabric port (R410, R413). -/
opaque portPeer : Nat → Nat
opaque portNumber : Nat → Nat

/-- HKDF with SHA-256 (R412, DESIGN CHOICE: log 10): a key of 32 bytes from a key and an info string, for Expand and for the extraction with a salt of zeros. -/
opaque hkdf : Bool → BitVec 256 → List (BitVec 8) → BitVec 256

/-- AES-256-GCM (R411, R412, DESIGN CHOICE: log 10) of a payload under a key, an IV and additional data: the encrypted payload and the tag. -/
opaque gcm : BitVec 256 → BitVec 96 → List (BitVec 8) → List (BitVec 8) → List (BitVec 8)

/-- CRC-32 (R411), whose polynomial the specification does not give. -/
opaque crc32 : List (BitVec 8) → BitVec 32

end Sys2Proof.Config
end

