-- ==== Sys2Proof/Machine/Table.lean ====
section
/-! DEFINITION. Sparse tables in one canonical form: association lists with strictly rising keys. -/

namespace Sys2Proof.Machine

/-- A sparse table: keys strictly rising. -/
abbrev Table (α : Type) := List (Nat × α)

namespace Table

/-- The entry at a key. -/
def find {α : Type} : Table α → Nat → Option α
  | [], _ => none
  | (k, v) :: t, i => if i = k then some v else find t i

/-- The entry at a key, or a default. -/
def getD {α : Type} (t : Table α) (i : Nat) (d : α) : α := (find t i).getD d

/-- Set the entry at a key. -/
def put {α : Type} : Table α → Nat → α → Table α
  | [], i, x => [(i, x)]
  | (k, v) :: t, i, x =>
    if i < k then (i, x) :: (k, v) :: t
    else if i = k then (i, x) :: t
    else (k, v) :: put t i x

/-- Remove the entry at a key. -/
def del {α : Type} (t : Table α) (i : Nat) : Table α := t.filter fun kv => kv.1 != i

/-- Set the entry at a key, an entry equal to the default being removed. -/
def setD {α : Type} [DecidableEq α] (t : Table α) (i : Nat) (d x : α) : Table α :=
  if x = d then del t i else put t i x

/-- Change the entry at a key, if there is one. -/
def modify {α : Type} (t : Table α) (i : Nat) (f : α → α) : Table α :=
  t.map fun kv => if kv.1 = i then (kv.1, f kv.2) else kv

/-- Change every entry. -/
def mapVals {α : Type} (t : Table α) (f : Nat → α → α) : Table α := t.map fun kv => (kv.1, f kv.1 kv.2)

/-- The entries that satisfy a predicate. -/
def keep {α : Type} (t : Table α) (p : Nat → α → Bool) : Table α := t.filter fun kv => p kv.1 kv.2

/-- The keys. -/
def keys {α : Type} (t : Table α) : List Nat := t.map Prod.fst

/-- The canonical form: keys strictly rising. -/
def wf {α : Type} : Table α → Bool
  | [] => true
  | [_] => true
  | (a, _) :: (b, y) :: t => decide (a < b) && wf ((b, y) :: t)

/-- The smallest key from `n` on that the table does not hold, looking at most `fuel` keys far. -/
def fresh {α : Type} (t : Table α) : Nat → Nat → Nat
  | n, 0 => n
  | n, fuel + 1 => match find t n with
    | none => n
    | some _ => fresh t (n + 1) fuel

end Table

/-- Registers of one width: a table in which an unlisted register holds 0. -/
abbrev Regs (w : Nat) := Table (BitVec w)

/-- Read a register: an unlisted one is 0. -/
def Regs.get {w : Nat} (r : Regs w) (i : Nat) : BitVec w := Table.getD r i 0

/-- Write a register, keeping the canonical form. -/
def Regs.set {w : Nat} (r : Regs w) (i : Nat) (x : BitVec w) : Regs w := Table.setD r i 0 x

/-- The values of a list of decisions, up to the first that fails. -/
def collect {α β ε : Type} (f : α → Except ε β) : List α → Except ε (List β)
  | [] => .ok []
  | x :: xs => match f x with
    | .error e => .error e
    | .ok y => match collect f xs with
      | .error e => .error e
      | .ok ys => .ok (y :: ys)

/-- Fold a list with a step that may stop. -/
def foldE {α β ε : Type} (f : β → α → Except ε β) : β → List α → Except ε β
  | b, [] => .ok b
  | b, x :: xs => match f b x with
    | .error e => .error e
    | .ok b' => foldE f b' xs

/-- The first error of a list of checks. -/
def allOk {α ε : Type} (f : α → Except ε Unit) : List α → Except ε Unit
  | [] => .ok ()
  | x :: xs => match f x with
    | .error e => .error e
    | .ok () => allOk f xs

end Sys2Proof.Machine
end

