-- ==== Sys2Proof/Syntax.lean ====
section
/-! DEFINITION. The abstract instructions: one constructor for every row of the table of operations and
events. A row with an encoding carries its bit fields (the letters of the table) and a `Tail`; a row without
one is an event of an engine, a queue, a link or the host, and carries what tells one such event from another. -/

namespace Sys2Proof

/-- Every operation and event of the part. -/
inductive Instr where
  /-- NOP, R102: Does nothing. -/
  | nop (t : Tail)
  /-- IADD, R79: Adds two registers with optional saturation. -/
  | iadd (d a b : BitVec 7) (t : Tail)
  /-- IADD_IMM, R79: Adds a signed 7-bit immediate to a register. -/
  | iaddImm (d a i : BitVec 7) (t : Tail)
  /-- ISUB, R79: Subtracts two registers. -/
  | isub (d a b : BitVec 7) (t : Tail)
  /-- IMUL, R79: Multiplies two registers, keeping the stored low word. -/
  | imul (d a b : BitVec 7) (t : Tail)
  /-- IMULHI_S32, R80: Gives the upper word of the signed 64-bit product. -/
  | imulhiS32 (d a b : BitVec 7) (t : Tail)
  /-- IMULHI_N32, R80: Gives the upper word of the unsigned 64-bit product. -/
  | imulhiN32 (d a b : BitVec 7) (t : Tail)
  /-- IMAD, R79: Multiplies two registers and adds a third. -/
  | imad (d a b : BitVec 7) (t : Tail)
  /-- IMIN_S32, R81: Signed minimum. -/
  | iminS32 (d a b : BitVec 7) (t : Tail)
  /-- IMIN_N32, R81: Unsigned minimum. -/
  | iminN32 (d a b : BitVec 7) (t : Tail)
  /-- IMAX_S32, R81: Signed maximum. -/
  | imaxS32 (d a b : BitVec 7) (t : Tail)
  /-- IMAX_N32, R81: Unsigned maximum. -/
  | imaxN32 (d a b : BitVec 7) (t : Tail)
  /-- CSUB, R81: Subtracts B from A only when A is at least B, unsigned. -/
  | csub (d a b : BitVec 7) (t : Tail)
  /-- IADD64, R82: Adds two 64-bit register pairs. -/
  | iadd64 (d a b : BitVec 7) (t : Tail)
  /-- LEA, R82: Adds a shifted sign-extended register to a 64-bit pair. -/
  | lea (d a b : BitVec 7) (t : Tail)
  /-- AND, R83: Bitwise and. -/
  | iand (d a b : BitVec 7) (t : Tail)
  /-- OR, R83: Bitwise or. -/
  | ior (d a b : BitVec 7) (t : Tail)
  /-- XOR, R83: Bitwise exclusive or. -/
  | ixor (d a b : BitVec 7) (t : Tail)
  /-- ANDN, R83: A and not B. -/
  | iandn (d a b : BitVec 7) (t : Tail)
  /-- SHL, R84: Logical left shift by a register amount. -/
  | shl (d a b : BitVec 7) (t : Tail)
  /-- SHR, R84: Logical right shift by a register amount. -/
  | shr (d a b : BitVec 7) (t : Tail)
  /-- SAR, R84: Arithmetic right shift by a register amount. -/
  | sar (d a b : BitVec 7) (t : Tail)
  /-- ROT, R84: Left rotation by a register amount. -/
  | rot (d a b : BitVec 7) (t : Tail)
  /-- SHL_IMM, R84: Logical left shift by an immediate amount. -/
  | shlImm (d a : BitVec 7) (n : BitVec 5) (t : Tail)
  /-- SHR_IMM, R84: Logical right shift by an immediate amount. -/
  | shrImm (d a : BitVec 7) (n : BitVec 5) (t : Tail)
  /-- SAR_IMM, R84: Arithmetic right shift by an immediate amount. -/
  | sarImm (d a : BitVec 7) (n : BitVec 5) (t : Tail)
  /-- ROT_IMM, R84: Left rotation by an immediate amount. -/
  | rotImm (d a : BitVec 7) (n : BitVec 5) (t : Tail)
  /-- BFX, R85: Extracts a bit field, optionally sign-extended. -/
  | bfx (d a b : BitVec 7) (t : Tail)
  /-- BFI, R85: Inserts a bit field into C. -/
  | bfi (d a b : BitVec 7) (t : Tail)
  /-- IABS, R81: Signed absolute value, wrapping. -/
  | iabs (d a : BitVec 7) (t : Tail)
  /-- POPC, R86: Counts 1 bits. -/
  | popc (d a : BitVec 7) (t : Tail)
  /-- CLZ, R86: Counts leading zero bits. -/
  | clz (d a : BitVec 7) (t : Tail)
  /-- BREV, R86: Reverses the bits of a word. -/
  | brev (d a : BitVec 7) (t : Tail)
  /-- ISETP, R87: Compares two integers and writes a predicate. -/
  | isetp (c : BitVec 4) (p : BitVec 3) (a b : BitVec 7) (t : Tail)
  /-- PAND, R88: Predicate and. -/
  | pand (p : BitVec 3) (n : BitVec 1) (a : BitVec 3) (g : BitVec 1) (b : BitVec 3) (t : Tail)
  /-- POR, R88: Predicate or. -/
  | por (p : BitVec 3) (n : BitVec 1) (a : BitVec 3) (g : BitVec 1) (b : BitVec 3) (t : Tail)
  /-- PXOR, R88: Predicate exclusive or. -/
  | pxor (p : BitVec 3) (n : BitVec 1) (a : BitVec 3) (g : BitVec 1) (b : BitVec 3) (t : Tail)
  /-- PNOT, R88: Predicate not. -/
  | pnot (p : BitVec 3) (n : BitVec 1) (a : BitVec 3) (t : Tail)
  /-- SEL, R89: Selects A or B per lane by a predicate, with tangents. -/
  | sel (d a b : BitVec 7) (t : Tail)
  /-- MOV, R90: Copies a 32-bit register with its tangents. -/
  | mov (d a : BitVec 7) (t : Tail)
  /-- MOVI, R91: Places a constant in a register. -/
  | movi (d : BitVec 7) (l : BitVec 14) (t : Tail)
  /-- MOVHI, R91: Places a constant in the odd half of a pair. -/
  | movhi (d : BitVec 7) (l : BitVec 14) (t : Tail)
  /-- RDSP, R92: Reads a special register. -/
  | rdsp (d n : BitVec 7) (t : Tail)
  /-- WRSP, R92: Writes a writable special register from a scalar. -/
  | wrsp (a n : BitVec 7) (t : Tail)
  /-- IXSET, R94: Installs an index window and sets an index register. -/
  | ixset (k : BitVec 2) (a b : BitVec 7) (t : Tail)
  /-- IXADD, R95: Adds a signed value to an index register. -/
  | ixadd (k : BitVec 2) (b : BitVec 7) (t : Tail)
  /-- BRA, R97: Branches to a PC-relative target. -/
  | bra (o : BitVec 21) (t : Tail)
  /-- BRX, R97: Branches to an address in a register pair. -/
  | brx (a : BitVec 7) (t : Tail)
  /-- CALL, R97: Writes the return address to V0:V1 and branches. -/
  | call (o : BitVec 21) (t : Tail)
  /-- MEET, R98: Sets each active lane's meeting point. -/
  | meet (o : BitVec 21) (t : Tail)
  /-- MEETX, R98: Saves MEET into a V pair. -/
  | meetx (d : BitVec 7) (t : Tail)
  /-- MEETR, R98: Restores MEET from a register pair. -/
  | meetr (a : BitVec 7) (t : Tail)
  /-- REFILL, R99: Refills finished lanes with items from an item queue, or sends them to an exit label. -/
  | refill (d : BitVec 7) (p : BitVec 3) (q : BitVec 2) (x : BitVec 9) (t : Tail)
  /-- RET, R97: Returns to an address in a register pair. -/
  | ret (a : BitVec 7) (t : Tail)
  /-- EXIT, R100: Ends each active thread. -/
  | exit (t : Tail)
  /-- YIELD, R100: Ends the run, continuing every lane at the next word. -/
  | yield (t : Tail)
  /-- TRAP, R101: Raises SOFTWARE_TRAP with a code when a lane is active. -/
  | trap (c : BitVec 14) (t : Tail)
  /-- BRK, R101: Raises BREAKPOINT with a code when a lane is active. -/
  | brk (c : BitVec 14) (t : Tail)
  /-- FADD_F32, R107: FP32 addition. -/
  | faddF32 (d a b : BitVec 7) (t : Tail)
  /-- FADD_F16, R107: FP16 addition. -/
  | faddF16 (d a b : BitVec 7) (t : Tail)
  /-- FADD_BF16, R107: BF16 addition. -/
  | faddBf16 (d a b : BitVec 7) (t : Tail)
  /-- FSUB_F32, R107: FP32 subtraction. -/
  | fsubF32 (d a b : BitVec 7) (t : Tail)
  /-- FSUB_F16, R107: FP16 subtraction. -/
  | fsubF16 (d a b : BitVec 7) (t : Tail)
  /-- FSUB_BF16, R107: BF16 subtraction. -/
  | fsubBf16 (d a b : BitVec 7) (t : Tail)
  /-- FMUL_F32, R107: FP32 multiplication. -/
  | fmulF32 (d a b : BitVec 7) (t : Tail)
  /-- FMUL_F16, R107: FP16 multiplication. -/
  | fmulF16 (d a b : BitVec 7) (t : Tail)
  /-- FMUL_BF16, R107: BF16 multiplication. -/
  | fmulBf16 (d a b : BitVec 7) (t : Tail)
  /-- FFMA_F32, R107: FP32 fused multiply-add. -/
  | ffmaF32 (d a b : BitVec 7) (t : Tail)
  /-- FFMA_F16, R107: FP16 fused multiply-add. -/
  | ffmaF16 (d a b : BitVec 7) (t : Tail)
  /-- FFMA_BF16, R107: BF16 fused multiply-add. -/
  | ffmaBf16 (d a b : BitVec 7) (t : Tail)
  /-- FMIN_F32, R108: FP32 minimum. -/
  | fminF32 (d a b : BitVec 7) (t : Tail)
  /-- FMIN_F16, R108: FP16 minimum. -/
  | fminF16 (d a b : BitVec 7) (t : Tail)
  /-- FMIN_BF16, R108: BF16 minimum. -/
  | fminBf16 (d a b : BitVec 7) (t : Tail)
  /-- FMAX_F32, R108: FP32 maximum. -/
  | fmaxF32 (d a b : BitVec 7) (t : Tail)
  /-- FMAX_F16, R108: FP16 maximum. -/
  | fmaxF16 (d a b : BitVec 7) (t : Tail)
  /-- FMAX_BF16, R108: BF16 maximum. -/
  | fmaxBf16 (d a b : BitVec 7) (t : Tail)
  /-- FSETP_F32, R109: FP32 comparison writing a predicate. -/
  | fsetpF32 (c : BitVec 4) (p : BitVec 3) (a b : BitVec 7) (t : Tail)
  /-- FSETP_F16, R109: FP16 comparison writing a predicate. -/
  | fsetpF16 (c : BitVec 4) (p : BitVec 3) (a b : BitVec 7) (t : Tail)
  /-- FSETP_BF16, R109: BF16 comparison writing a predicate. -/
  | fsetpBf16 (c : BitVec 4) (p : BitVec 3) (a b : BitVec 7) (t : Tail)
  /-- FDIV_F32, R107: FP32 division. -/
  | fdivF32 (d a b : BitVec 7) (t : Tail)
  /-- FDIV_F16, R107: FP16 division. -/
  | fdivF16 (d a b : BitVec 7) (t : Tail)
  /-- FDIV_BF16, R107: BF16 division. -/
  | fdivBf16 (d a b : BitVec 7) (t : Tail)
  /-- PADD2_F16, R110: Packed FP16 addition of two elements. -/
  | padd2F16 (d a b : BitVec 7) (t : Tail)
  /-- PADD2_BF16, R110: Packed BF16 addition of two elements. -/
  | padd2Bf16 (d a b : BitVec 7) (t : Tail)
  /-- PMUL2_F16, R110: Packed FP16 multiplication. -/
  | pmul2F16 (d a b : BitVec 7) (t : Tail)
  /-- PMUL2_BF16, R110: Packed BF16 multiplication. -/
  | pmul2Bf16 (d a b : BitVec 7) (t : Tail)
  /-- PFMA2_F16, R110: Packed FP16 fused multiply-add. -/
  | pfma2F16 (d a b : BitVec 7) (t : Tail)
  /-- PFMA2_BF16, R110: Packed BF16 fused multiply-add. -/
  | pfma2Bf16 (d a b : BitVec 7) (t : Tail)
  /-- FRCP, R111: Correctly rounded reciprocal. -/
  | frcp (d a : BitVec 7) (ty : BitVec 2) (t : Tail)
  /-- FRSQ, R111: Reciprocal square root. -/
  | frsq (d a : BitVec 7) (ty : BitVec 2) (t : Tail)
  /-- FSQRT, R111: Correctly rounded square root. -/
  | fsqrt (d a : BitVec 7) (ty : BitVec 2) (t : Tail)
  /-- FEXP2, R111: Base-2 exponential. -/
  | fexp2 (d a : BitVec 7) (ty : BitVec 2) (t : Tail)
  /-- FLOG2, R111: Base-2 logarithm. -/
  | flog2 (d a : BitVec 7) (ty : BitVec 2) (t : Tail)
  /-- FSIN, R111: Sine in radians. -/
  | fsin (d a : BitVec 7) (ty : BitVec 2) (t : Tail)
  /-- FCOS, R111: Cosine in radians. -/
  | fcos (d a : BitVec 7) (ty : BitVec 2) (t : Tail)
  /-- FCVT, R113: Converts between float formats, or between float and integer types, in a named rounding direction. -/
  | fcvt (d a : BitVec 7) (c : BitVec 5) (r : BitVec 2) (t : Tail)
  /-- FRND_F32, R116: Rounds an FP32 value to an integral value. -/
  | frndF32 (d a : BitVec 7) (r : BitVec 2) (t : Tail)
  /-- FRND_F16, R116: Rounds an FP16 value to an integral value. -/
  | frndF16 (d a : BitVec 7) (r : BitVec 2) (t : Tail)
  /-- FRND_BF16, R116: Rounds a BF16 value to an integral value. -/
  | frndBf16 (d a : BitVec 7) (r : BitVec 2) (t : Tail)
  /-- FCLASS_F32, R117: Tests an FP32 value's class into a predicate. -/
  | fclassF32 (c : BitVec 4) (p : BitVec 3) (a : BitVec 7) (t : Tail)
  /-- FCLASS_F16, R117: Tests an FP16 value's class into a predicate. -/
  | fclassF16 (c : BitVec 4) (p : BitVec 3) (a : BitVec 7) (t : Tail)
  /-- FCLASS_BF16, R117: Tests a BF16 value's class into a predicate. -/
  | fclassBf16 (c : BitVec 4) (p : BitVec 3) (a : BitVec 7) (t : Tail)
  /-- XCH_IDX, R119: Reads A from the lane named in B. -/
  | xchIdx (d a b : BitVec 7) (t : Tail)
  /-- XCH_UP, R119: Reads A from lane i − n. -/
  | xchUp (d a : BitVec 7) (n : BitVec 6) (t : Tail)
  /-- XCH_DOWN, R119: Reads A from lane i + n. -/
  | xchDown (d a : BitVec 7) (n : BitVec 6) (t : Tail)
  /-- XCH_XOR, R119: Reads A from lane i ^ n. -/
  | xchXor (d a : BitVec 7) (n : BitVec 6) (t : Tail)
  /-- VOTE, R121: Combines a predicate over the active lanes. -/
  | vote (d : BitVec 7) (n : BitVec 1) (p v : BitVec 3) (t : Tail)
  /-- BCAST, R120: Broadcasts A from a lane named by a scalar. -/
  | bcast (d a b : BitVec 7) (t : Tail)
  /-- BCAST_IMM, R120: Broadcasts A from a lane named by an immediate. -/
  | bcastImm (d a : BitVec 7) (l : BitVec 6) (t : Tail)
  /-- GRED, R122: Reduces A over the active lanes in a fixed tree. -/
  | gred (d a : BitVec 7) (f : BitVec 4) (t : Tail)
  /-- GSCAN, R123: Computes a running combination of A in lane order. -/
  | gscan (d a : BitVec 7) (f : BitVec 4) (e : BitVec 1) (t : Tail)
  /-- DUALGET, R124: Reads a tangent shadow into a register. -/
  | dualget (d a n : BitVec 7) (t : Tail)
  /-- DUALSET, R124: Writes a value into a tangent shadow. -/
  | dualset (d a n : BitVec 7) (t : Tail)
  /-- DUALZERO, R124: Zeroes every shadow of a register. -/
  | dualzero (d : BitVec 7) (t : Tail)
  /-- LD, R163: Loads a typed value per active lane. -/
  | ld (d a : BitVec 7) (h : BitVec 2) (ty : BitVec 4) (t : Tail)
  /-- ST, R163: Enters a typed store of each active lane into the store FIFO. -/
  | st (d a : BitVec 7) (h : BitVec 2) (ty : BitVec 4) (t : Tail)
  /-- LDM, R164: Loads N consecutive words into a register run. -/
  | ldm (d a : BitVec 7) (h : BitVec 2) (f : BitVec 1) (n : BitVec 3) (t : Tail)
  /-- STM, R164: Stores a register run to N consecutive words. -/
  | stm (d a : BitVec 7) (h : BitVec 2) (f : BitVec 1) (n : BitVec 3) (t : Tail)
  /-- ATOM, R165: Performs an atomic read-modify-write per active lane. -/
  | atom (d a b : BitVec 7) (t : Tail)
  /-- CAS, R167: Compare-and-swap of up to 8 bytes per active lane. -/
  | cas (d a b : BitVec 7) (t : Tail)
  /-- CAS128, R168: Compare-and-swap of one 16-byte value per active lane. -/
  | cas128 (d a b : BitVec 7) (t : Tail)
  /-- FENCE, R171: Orders the group's accesses at a flavour and scope. -/
  | fence (t : Tail)
  /-- PREF, R172: Prefetches data or asks the pager for a page without waiting. -/
  | pref (l : BitVec 2) (a : BitVec 7) (t : Tail)
  /-- BUFDCL, R173: Declares a buffer's range, making it EMPTY. -/
  | bufdcl (n : BitVec 6) (a : BitVec 7) (t : Tail)
  /-- BUFSET, R174: Sets a buffer EMPTY or FULL. -/
  | bufset (n : BitVec 6) (e : BitVec 2) (t : Tail)
  /-- BUFQ, R175: Reads a buffer's state and pointer. -/
  | bufq (d a : BitVec 7) (t : Tail)
  /-- BARINIT, R178: Initialises a barrier object with a count. -/
  | barinit (d a : BitVec 7) (t : Tail)
  /-- BAREXP, R178: Adds expected bytes to a barrier. -/
  | barexp (d a : BitVec 7) (t : Tail)
  /-- BARARV, R178: Arrives at a barrier and returns the phase. -/
  | bararv (d a : BitVec 7) (t : Tail)
  /-- BARWAIT, R179: Waits until a barrier's phase differs from a token. -/
  | barwait (d a : BitVec 7) (t : Tail)
  /-- BARTEST, R178: Reads a barrier's phase. -/
  | bartest (d a : BitVec 7) (t : Tail)
  /-- TSYNC, R180: Waits for every group of the team and releases them together. -/
  | tsync (t : Tail)
  /-- CBARARV, R243: Marks the group arrived at a cluster barrier, arriving for the team once all its groups have. -/
  | cbararv (d a : BitVec 7) (t : Tail)
  /-- CBARWAIT, R242: Waits until a cluster barrier's phase differs from a token. -/
  | cbarwait (d a : BitVec 7) (t : Tail)
  /-- AQLOAD, R183: Stops every stream, empties the queues and loads stream records. -/
  | aqload (n : BitVec 4) (a : BitVec 7) (t : Tail)
  /-- AQSTART, R183: Starts the named stream records at entry 0. -/
  | aqstart (a : BitVec 7) (t : Tail)
  /-- AQSTOP, R183: Stops the named streams. -/
  | aqstop (a : BitVec 7) (t : Tail)
  /-- QFLUSH, R183: Discards the entries of the named queues. -/
  | qflush (a : BitVec 7) (t : Tail)
  /-- ITEMPUSH, R184: Appends items to a PUSH-mode item queue. -/
  | itempush (q : BitVec 2) (a : BitVec 7) (t : Tail)
  /-- MMA, R199: Issues a dense matrix operation from a descriptor quad. -/
  | mma (d : BitVec 7) (t : Tail)
  /-- MMAS, R199: Issues a sparse matrix operation from a descriptor quad. -/
  | mmas (d : BitVec 7) (t : Tail)
  /-- MMZ, R203: Zeroes a tile and sets its tag. -/
  | mmz (g : BitVec 1) (n : BitVec 6) (t : Tail)
  /-- ACCLD, R203: Loads a tile from memory. -/
  | accld (g : BitVec 1) (n : BitVec 6) (a : BitVec 7) (t : Tail)
  /-- ACCST, R203: Stores a tile to memory. -/
  | accst (n : BitVec 6) (a : BitVec 7) (t : Tail)
  /-- ACCMV, R203: Copies one tile to another. -/
  | accmv (ty u : BitVec 6) (t : Tail)
  /-- ACCADD, R203: Adds one tile into another. -/
  | accadd (g : BitVec 1) (ty u : BitVec 6) (t : Tail)
  /-- OMSET, R200: Writes an operand map. -/
  | omset (n : BitVec 4) (a : BitVec 7) (t : Tail)
  /-- MSTCFG, R201: Configures a muster register's mask. -/
  | mstcfg (n : BitVec 4) (a : BitVec 7) (t : Tail)
  /-- MSIGN, R202: Signs a muster, issuing its operation at the last signature. -/
  | msign (n : BitVec 4) (a : BitVec 7) (t : Tail)
  /-- MMWAIT, R204: Waits for the group's matrix operations and delivers any kept cause. -/
  | mmwait (t : Tail)
  /-- MMSTAT, R205: Reads the team's matrix status. -/
  | mmstat (d : BitVec 7) (c : BitVec 1) (t : Tail)
  /-- CPY, R221: Issues a raw copy command to a channel. -/
  | cpy (c : BitVec 4) (a : BitVec 7) (t : Tail)
  /-- CPYT, R213: Issues a storage-to-canonical expansion command. -/
  | cpyt (c : BitVec 4) (a : BitVec 7) (t : Tail)
  /-- CPYO, R213: Issues a canonical-to-storage compression command. -/
  | cpyo (c : BitVec 4) (a : BitVec 7) (t : Tail)
  /-- CPYG, R215: Issues a gathered copy command. -/
  | cpyg (c : BitVec 4) (a : BitVec 7) (t : Tail)
  /-- CPYS, R215: Issues a scattered copy command. -/
  | cpys (c : BitVec 4) (a : BitVec 7) (t : Tail)
  /-- CPYFILL, R221: Issues a fill command. -/
  | cpyfill (c : BitVec 4) (a : BitVec 7) (t : Tail)
  /-- CMCAST, R244: Issues a multicast copy to several cluster ranks. -/
  | cmcast (c : BitVec 4) (a : BitVec 7) (t : Tail)
  /-- CHWAIT, R222: Waits on a channel and delivers its kept cause. -/
  | chwait (c : BitVec 4) (a : BitVec 7) (t : Tail)
  /-- CHSTAT, R223: Reads a channel's status. -/
  | chstat (d : BitVec 7) (l : BitVec 1) (c : BitVec 4) (t : Tail)
  /-- FMTSET, R224: Validates and writes a format register. -/
  | fmtset (n : BitVec 5) (a : BitVec 7) (t : Tail)
  /-- FMTGET, R224: Reads a format register. -/
  | fmtget (d : BitVec 7) (n : BitVec 5) (t : Tail)
  /-- CPYP, R419: Issues a copy between local memory and a peer endpoint's export. -/
  | cpyp (c : BitVec 4) (a : BitVec 7) (t : Tail)
  /-- PSIG, R420: Issues an 8-byte signal to a peer endpoint after the channel's earlier commands. -/
  | psig (c : BitVec 4) (a : BitVec 7) (t : Tail)
  /-- NBAXPY, R342: Near-bank a × X + Y. -/
  | nbaxpy (d a : BitVec 7) (t : Tail)
  /-- NBSCAL, R342: Near-bank a × X. -/
  | nbscal (d a : BitVec 7) (t : Tail)
  /-- NBADD, R342: Near-bank X + Y. -/
  | nbadd (d a : BitVec 7) (t : Tail)
  /-- NBMUL, R342: Near-bank X × Y. -/
  | nbmul (d a : BitVec 7) (t : Tail)
  /-- NBDOT, R342: Near-bank dot product. -/
  | nbdot (d a : BitVec 7) (t : Tail)
  /-- NBGEMV, R343: Near-bank matrix-vector product. -/
  | nbgemv (d a : BitVec 7) (t : Tail)
  /-- NBCOPY, R342: Near-bank copy with conversion. -/
  | nbcopy (d a : BitVec 7) (t : Tail)
  /-- NBRED, R342: Near-bank sum reduction. -/
  | nbred (d a : BitVec 7) (t : Tail)
  /-- NBFILL, R342: Near-bank fill with a pattern. -/
  | nbfill (d a : BitVec 7) (t : Tail)
  /-- NBLD, R344: Loads a word per lane through its bank pair's queue. -/
  | nbld (d a : BitVec 7) (t : Tail)
  /-- NBST, R344: Stores a word per lane through its bank pair's queue. -/
  | nbst (d a : BitVec 7) (t : Tail)
  /-- NBFENCE, R345: Orders ordinary CC-frame accesses against near-bank work of named bank pairs. -/
  | nbfence (d a : BitVec 7) (t : Tail)
  /-- RNGINIT, R273: Initialises a range slot. -/
  | rnginit (d a : BitVec 7) (t : Tail)
  /-- GRAB, R274: Takes one shrinking chunk from a range slot. -/
  | grab (d a : BitVec 7) (t : Tail)
  /-- LAUNCH, R275: Launches a child grid from a grid record. -/
  | launch (d a : BitVec 7) (t : Tail)
  /-- JOIN, R276: Waits until the team's child count is at or below a threshold. -/
  | join (a : BitVec 7) (t : Tail)
  /-- LSTAT, R277: Reads launch, pool, range or item-queue status. -/
  | lstat (d a : BitVec 7) (t : Tail)
  /-- SETHDLR, R305: Sets the context's trap handler address. -/
  | sethdlr (a : BitVec 7) (t : Tail)
  /-- TRAPRET, R306: Leaves trap mode and resumes the trapping set. -/
  | trapret (a : BitVec 7) (t : Tail)
  /-- RDCAUSE, R307: Reads a field of the group's trap state. -/
  | rdcause (d a : BitVec 7) (t : Tail)
  /-- PROBE, R308: Translates an address without accessing it and reports the outcome. -/
  | probe (d a : BitVec 7) (t : Tail)
  /-- SEQNEW, R355: Makes a free key slot LIVE and returns its slot and generation. -/
  | seqnew (d : BitVec 7) (t : Tail)
  /-- SEQEND, R356: Ends a sequence at its end point and returns whether it was live. -/
  | seqend (d a : BitVec 7) (t : Tail)
  /-- RUN_BEGIN, R133: When a sub-core's issue slot is free, the ready group with the smallest run stamp (lowest slot on a tie) wins arbitration and begins a run. -/
  | runBegin (sc : Nat)
  /-- LOAD_RETURN, R163: The data of an outstanding load, atomic or compare-and-swap returns and is written to its destination; a return tagged with an old slot generation is dropped. -/
  | loadReturn (slot id : Nat)
  /-- STORE_FIFO_PERFORM, R169: The head entry of a group's store FIFO is translated and performed; it parks on a P cause and is dropped whole on a T cause. -/
  | storeFifoPerform (slot : Nat)
  /-- IMPRECISE_STORE_TRAP, R170: A T cause met by a dropped store entry stops the group at its next instruction boundary, or is recorded with EXITED set if the group has exited. -/
  | impreciseStoreTrap (slot : Nat)
  /-- STREAM_FILL, R135: The stream engine reads the next entry of an active stream record into its operand queue, keeping the cause with the stream if a T cause is met. -/
  | streamFill (slot r : Nat)
  /-- COALESCER_CLOSE, R151: A trap coalescer record closes 512 clocks after it opens, is written to the context's trap ring with TCOUNT, and every group in its bitmap enters its handler. -/
  | coalescerClose (core seq : Nat)
  /-- PREEMPT, R145: The leaf controller pre-empts a context: issue stops, outstanding accesses become replay packets, generations advance and the state stays HELD. -/
  | preempt (core vd ctx : Nat)
  /-- RESUME, R146: A pre-empted context resumes; each group replays its store packets and then its load and atomic packets before it issues again. -/
  | resume (core vd ctx : Nat)
  /-- WORLD_CHANGE, R150: The leaf controller changes a core's latched world: it pre-empts, spills, zeroes the register files, slice, accumulators and L1, then sets the latch. -/
  | worldChange (core world : Nat)
  /-- GROUP_RETIRE, R100: A group whose 64 lanes have exited retires once every access it made has completed or been discarded. -/
  | groupRetire (slot : Nat)
  /-- TEAM_RETIRE, R187: A team retires when every group has retired and every operation it issued has completed; its tiles, maps, musters and bound item queues are released. -/
  | teamRetire (team : Nat)
  /-- ITEM_QUEUE_GRAB, R144: A RANGE-mode item queue holding fewer than 64 items performs a GRAB on its slot and appends the items, or marks itself DRY on a zero length. -/
  | itemQueueGrab (core q : Nat)
  /-- MATRIX_STEP, R43: The matrix unit executes one k-step of one pass of an operation, accumulating each element as R43, R44 or R45 gives. -/
  | matrixStep (core op : Nat)
  /-- MATRIX_COMPLETE, R196: A matrix operation completes, counts its bytes into its barrier, and clears its signers' MATRIX counts. -/
  | matrixComplete (core op : Nat)
  /-- COPY_ROW, R215: A copy channel reads, converts and writes one row of its current command, advancing WP and driving buffer transitions. -/
  | copyRow (team ch : Nat)
  /-- COPY_COMPLETE, R218: A copy command completes and adds each pass's destination extent to its barrier by counted(). -/
  | copyComplete (team ch : Nat)
  /-- NB_COLUMN, R339: A near-bank unit makes one 32-byte column access of the part at the head of its queue: it reads the sources, computes and writes the result column. -/
  | nbColumn (stack pair : Nat)
  /-- NB_COMMAND_COMPLETE, R342: Every part of a near-bank command has completed; the base die writes any single-element result and counts the command's bytes into its barrier. -/
  | nbCommandComplete (cmd : Nat)
  /-- NBCMD, R338: A Stack Port request carrying a near-bank command, whose parts enter every touched bank pair's queue in one step once all have room. -/
  | nbcmd (h : PortHdr) (data : List (BitVec 8))
  /-- NBDRAIN, R320: A Stack Port request that drains the near-bank queues of a range of bank pairs for NBFENCE. -/
  | nbdrain (h : PortHdr)
  /-- WALK_STEP, R292: A table read of a translation walk returns and the walk advances, completes, raises its cause or parks on an absent table page. -/
  | walkStep (die walk : Nat)
  /-- PAGER_SERVE, R297: The pager takes the request with the lowest sequence number, takes or evicts a frame, and starts filling the granule from host backing. -/
  | pagerServe
  /-- PAGER_FILL_COMPLETE, R297: A granule's fill completes; the pager sets RES, BUFIDX, BOFF and RUNL and replays every waiting access in sequence order. -/
  | pagerFillComplete
  /-- CLUSTER_PLACE, R265: The die scheduler places the next cluster of the grid it serves on the first rectangle of the placement set that can take it. -/
  | clusterPlace (die : Nat)
  /-- TEAM_PLACE, R266: A leaf controller places a team once all its groups and resources fit, reading its format values first. -/
  | teamPlace (team : Nat)
  /-- GRID_COMPLETE, R270: A grid completes; the status block is written, the parent's JCNT is decremented and a dispatched grid's queue is signalled. -/
  | gridComplete (grid : Nat)
  /-- QUEUE_SLOT_GRANT, R386: A hardware queue slot is granted to the waiting queue with the oldest unserved kick. -/
  | queueSlotGrant (vd q : Nat)
  /-- PACKET_FETCH, R388: The packet engine fetches one 64-byte packet before the write index, consuming it whole and advancing RDIDX. -/
  | packetFetch (vd q : Nat)
  /-- DISPATCH, R387: A DISPATCH packet's first step validates the grid record and enters it into a die's pending pool. -/
  | dispatch (vd q : Nat)
  /-- WRITE, R387: A WRITE packet writes 64 bits as a release at SYSTEM scope. -/
  | write (vd q : Nat)
  /-- SIGNAL, R389: A SIGNAL packet performs SET, ADD or SUB on an 8-byte signal as an indivisible release. -/
  | signal (vd q : Nat)
  /-- WAIT, R389: A WAIT packet compares a signal with VALUE and ends as an acquire when COND holds, otherwise yields. -/
  | wait (vd q : Nat)
  /-- WAIT_REEVALUATE, R389: A pending WAIT is re-evaluated on a write to its line or at least every 10 µs. -/
  | waitReevaluate (vd q : Nat)
  /-- WRITE_SIGNAL, R387: A WRITE_SIGNAL packet writes 64 bits in one step and performs a signal operation in the next. -/
  | writeSignal (vd q : Nat)
  /-- FENCE_PACKET, R389: A FENCE packet waits for every earlier packet of the queue and, with INVAL, invalidates the context's translations. -/
  | fencePacket (vd q : Nat)
  /-- INDIRECT, R390: An INDIRECT packet executes COUNT packets from a buffer, one step each, in order. -/
  | indirect (vd q : Nat)
  /-- SEQUENCE_END, R387: A SEQUENCE_END packet ends a sequence as SEQEND does and writes the result to RESADDR. -/
  | sequenceEnd (vd q : Nat)
  /-- SLICE_END, R392: At a slice boundary the eligible device with the smallest finish tag is chosen for the placement set and the virtual time advances. -/
  | sliceEnd (set : Nat)
  /-- CORE_KILL, R155: KILL stops issue for the victim's groups and refuses further teams of the victim on the core. -/
  | coreKill (core : Nat) (v : Victim)
  /-- CORE_DRAIN, R155: DRAIN increments the victim slots' generations, discards FIFO entries and parked accesses, and acknowledges when no request of the victim remains. -/
  | coreDrain (core : Nat) (v : Victim)
  /-- MATRIX_KILL, R206: KILL makes the matrix unit refuse new operations of the victim. -/
  | matrixKill (core : Nat) (v : Victim)
  /-- MATRIX_DRAIN, R206: DRAIN discards the victim's queued and running matrix operations and drops their returns, counting no barrier. -/
  | matrixDrain (core : Nat) (v : Victim)
  /-- CASTER_KILL, R217: KILL makes the caster refuse the victim's copy commands. -/
  | casterKill (core : Nat) (v : Victim)
  /-- CASTER_DRAIN, R217: DRAIN discards the victim's queued and running copy commands and drops their returns, counting no barrier. -/
  | casterDrain (core : Nat) (v : Victim)
  /-- NEARBANK_KILL, R347: KILL makes the dispatch and the base dies refuse the victim's near-bank commands. -/
  | nearbankKill (die : Nat) (v : Victim)
  /-- NEARBANK_DRAIN, R347: DRAIN discards the victim's queued parts and stops its running parts after the current column, counting no barrier. -/
  | nearbankDrain (die : Nat) (v : Victim)
  /-- WALKER_KILL, R301: KILL makes the walkers refuse walks for the victim. -/
  | walkerKill (die : Nat) (v : Victim)
  /-- WALKER_DRAIN, R301: DRAIN abandons the victim's walks, frees its fault slots and cancels its pager requests not yet begun. -/
  | walkerDrain (die : Nat) (v : Victim)
  /-- QSLOT_KILL, R396: KILL stops a queue slot of the victim fetching packets or beginning steps. -/
  | qslotKill (v : Victim)
  /-- QSLOT_DRAIN, R396: DRAIN completes or drops the victim's step in progress, drops WAITs and puts its queues in ERROR with KILLED. -/
  | qslotDrain (v : Victim)
  /-- ENDPOINT_KILL, R421: KILL makes the I/O die refuse the victim's CPYP and PSIG and NACK requests for its endpoints. -/
  | endpointKill (v : Victim)
  /-- ENDPOINT_DRAIN, R421: DRAIN waits for the victim's outgoing requests' responses and drops them while incoming requests complete. -/
  | endpointDrain (v : Victim)
  /-- KILL_ACK, R396: A participant acknowledges kill-and-drain; when all have, the victim is contained with KILLED. -/
  | killAck (part : Nat) (v : Victim)
  /-- SEQUENCE_DRAIN_DONE, R357: The last access that passed under an ended sequence completes; its lines are discarded and the key is zeroised. -/
  | sequenceDrainDone (slot : Nat)
  /-- POINT_OF_COHERENCE_ARRIVAL, R249: A write, atomic or barrier operation that has left its issuer reaches its point of coherence (home L2 bank, another rank's slice, host or peer) and is performed there at every wider scope. -/
  | pointOfCoherenceArrival (id : Nat)
  /-- KICK, R385: A write to a queue's KICK register checks the ring and accepts a new write index, or puts the queue in ERROR with QUEUE_RING. -/
  | kick (vd q w : Nat)
  /-- QUEUE_SLOT_RELEASE, R386: A queue idle for 100 µs, or whose device stops or runs dry, gives up its slot and saves its step index. -/
  | queueSlotRelease (vd q : Nat)
  /-- PROGRESS_HANG, R154: A context's progress monitor expires after HANGT with no instruction issued and no access completed, raising HANG and fencing the context. -/
  | progressHang (vd ctx : Nat)
  /-- NB_QUEUE_FAILURE, R347: A parity error in a queue entry or a faulty unit raises NB_QUEUE_ERROR against every context with a part in that queue, which is cleared. -/
  | nbQueueFailure (stack pair : Nat)
  /-- RD64, R320: A Stack Port request that reads one 64-byte line. -/
  | rd64 (h : PortHdr)
  /-- RD256, R320: A Stack Port request that reads four 256-byte-aligned lines. -/
  | rd256 (h : PortHdr)
  /-- WR64, R320: A Stack Port request that writes the masked bytes of one line. -/
  | wr64 (h : PortHdr) (data : List (BitVec 8)) (mask : BitVec 64)
  /-- WR256, R320: A Stack Port request that writes four whole lines. -/
  | wr256 (h : PortHdr) (data : List (BitVec 8))
  /-- CFGRD, R321: A Stack Port request that reads a base-die configuration register. -/
  | cfgrd (h : PortHdr)
  /-- CFGWR, R320: A Stack Port request that writes a base-die configuration register. -/
  | cfgwr (h : PortHdr) (data : List (BitVec 8))
  /-- PATSET, R331: The Crucible updates the physical allocation table; a change that breaks the guard rule is answered GUARD. -/
  | patset (h : PatReq)
  /-- STACK_PORT_BADCMD, R320: A Stack Port request with an undefined CMD is answered BADCMD, changes nothing and is reported as a die event. -/
  | stackPortBadcmd (h : PortHdr) (cmd : Nat)
  /-- RASREAD, R327: The base-die engine returns up to three RAS log entries from a given index. -/
  | rasread (h : EngHdr)
  /-- PATROL, R327: The base-die engine sets its scrub period or pauses its patrol. -/
  | patrol (h : EngHdr)
  /-- PATSTAT, R327: The base-die engine returns the next SPA to patrol and the passes completed. -/
  | patstat (h : EngHdr)
  /-- ENGSTAT, R327: The base-die engine returns its version, uptime and queue and command counters. -/
  | engstat (h : EngHdr)
  /-- IMGCHUNK, R327: The base-die engine stores 48 bytes of a firmware image at an offset. -/
  | imgchunk (h : EngHdr) (data : List (BitVec 8))
  /-- IMGACT, R327: The base-die engine checks the assembled image and switches to it, or answers BADARG. -/
  | imgact (h : EngHdr)
  /-- QRESET, R327: The base-die engine clears the near-bank queues of a range of bank pairs. -/
  | qreset (h : EngHdr)
  /-- ENGCMD_BADOP, R327: An ENGCMD with an undefined OP is answered BADOP and changes nothing. -/
  | engcmdBadop (h : EngHdr) (op : Nat)
  /-- CHANNEL_RECALIBRATE, R321: A Stack Port channel recalibrates online every 100 ms or on its error threshold, pausing for at most 1 µs. -/
  | channelRecalibrate (stack ch : Nat)
  /-- PATROL_READ, R325: The base-die engine's patrol reads a line at lowest priority and logs and reports any detection without raising a cause. -/
  | patrolRead (stack : Nat)
  /-- BASE_DIE_ENGINE_HANG, R326: A base-die engine stops responding; a die event is reported and the stack's near-bank commands wait. -/
  | baseDieEngineHang (stack : Nat)
  /-- ROW_LINK_FLIT, R316: A flit arrives on a row link or die link; a bad CRC is resent from the sender's retry buffer and counted. -/
  | rowLinkFlit (link : Nat) (good : Bool)
  /-- LINK_RETRAIN_TIMEOUT, R316: A link that has not retrained within 20 µs is retired and its traffic moves to the nearest working row link. -/
  | linkRetrainTimeout (link : Nat)
  /-- IO_LINK_CUT, R333: A compute die's link to the I/O die fails; every context with a team resident on that die is contained with LINK_DOWN. -/
  | ioLinkCut (die : Nat)
  /-- ROW_LINK_RECAL, R433: A row link recalibrates every 100 ms, pausing for 1 µs. -/
  | rowLinkRecal (link : Nat)
  /-- WALK_TIMEOUT, R292: A walk not completed within 100 µs, not counting parked time, raises WALK_TIMEOUT against its context. -/
  | walkTimeout (die walk : Nat)
  /-- REMOTE_TIMEOUT, R241: A remote access, cluster barrier operation or multicast delivery without response for 100 µs contains the context with REMOTE_UNREACHABLE. -/
  | remoteTimeout (vd ctx : Nat)
  /-- COMPACT_WAIT_EXPIRY, R267: The oldest waiting team of a core has waited longer than COMPACT_WAIT, so compaction is due at the next slice boundary. -/
  | compactWaitExpiry (core : Nat)
  /-- QCTL_RESET, R383: Writing 1 to QCTL bit 0 resets the queue, which becomes DISABLED with RDIDX 0. -/
  | qctlReset (vd q : Nat)
  /-- QUEUE_ENABLE, R383: A change of ENABLE in a queue descriptor enables the queue as IDLE, or resets it to DISABLED. -/
  | queueEnable (vd q : Nat) (on : Bool)
  /-- CONTEXT_ENABLE, R382: ENABLE 0 to 1 in a DISABLED context descriptor makes the context ACTIVE. -/
  | contextEnable (vd ctx : Nat)
  /-- CONTEXT_TEARDOWN, R382: ENABLE 1 to 0 in a context descriptor performs kill-and-drain, frees HELD state and makes the context DISABLED. -/
  | contextTeardown (vd ctx : Nat)
  /-- WORLD_REPORT_REQUEST, R368: Writing 1 to the report register of a function requests a signed world report over the nonce. -/
  | worldReportRequest (vd : Nat)
  /-- REGISTER_WRITE, R376: A write to a function or management register that has no behaviour of its own stores the value, or is ignored and counted in the device's state. -/
  | registerWrite (vd off size val : Nat)
  /-- FUNCTION_LEVEL_RESET, R379: A function-level reset of a virtual function acts as RESET of its virtual device. -/
  | functionLevelReset (vd : Nat)
  /-- BUCKET_EMPTY, R393: A device's token bucket reaches 0, ending its slice at once and unmapping its queues. -/
  | bucketEmpty (vd : Nat)
  /-- BUCKET_RECOVER, R393: A device's bucket again holds min(DEPTH, n × T) tokens and the device becomes eligible. -/
  | bucketRecover (vd : Nat)
  /-- KILL_ACK_TIMEOUT, R397: A participant that has not acknowledged within 100 µs is reset, and the affected virtual devices are contained. -/
  | killAckTimeout (part : Nat) (v : Victim)
  /-- WATCHDOG_EXPIRY, R399: A Crucible core's 50 ms watchdog expires; the Crucible restarts and recovers any layout change from its journal. -/
  | watchdogExpiry (kind : Nat)
  /-- ACQUIRE, R427: An MLOCK write with operation ACQUIRE takes the free management lock with a 2,000 ms lease, or gives the writer BUSY. -/
  | acquire (r : Nat)
  /-- RENEW, R427: An MLOCK write with operation RENEW by the owner resets the lease to 2,000 ms. -/
  | renew (r : Nat)
  /-- RELEASE, R427: An MLOCK write with operation RELEASE by the owner frees the lock. -/
  | release (r : Nat)
  /-- LEASE_EXPIRY, R427: The management lock's lease reaches 0 and the lock is freed. -/
  | leaseExpiry
  /-- FEATLOCK, R425: Writing 1 to FEATLOCK fixes FEATEN to FEATSUP and FEATREQ until package reset. -/
  | featlock
  /-- POWERCAP_WRITE, R431: The lock holder writes a package power cap of 1,200 to 2,800 W, which takes effect within 10 ms. -/
  | powercapWrite (r w : Nat)
  /-- POWER_SAMPLE, R431: Every 1 ms POWER is updated with the average package power and the hottest junction temperature. -/
  | powerSample (power temp : Nat)
  /-- CREATE, R379: Management command that creates a virtual device from a profile and sets up its world, key pool, remap entries, slots and allotment. -/
  | create (r : Nat)
  /-- CONFIGURE, R378: Management command that changes a device's profile, restricted to scheduling fields while RUNNING. -/
  | configure (r : Nat)
  /-- START, R379: Management command that makes a CONFIGURED or STOPPED device RUNNING. -/
  | start (r : Nat)
  /-- STOP, R379: Management command that pre-empts every context of a RUNNING device and unmaps its queues. -/
  | stop (r : Nat)
  /-- RESET, R380: Management command that kills every context of a device, ends its sequences, disables its queues and contexts, and frees its state. -/
  | reset (r : Nat)
  /-- DESTROY, R380: Management command that resets a device and releases its resources, zeroing its unkeyed frames. -/
  | destroy (r : Nat)
  /-- PROFILE_READ, R430: Management command that returns a device's profile in the bulk window. -/
  | profileRead (r : Nat)
  /-- METER_READ, R430: Management command that returns a device's five meters. -/
  | meterRead (r : Nat)
  /-- CTX_KILL, R430: Management command that kills and drains one context, which enters ERROR with KILLED. -/
  | ctxKill (r : Nat)
  /-- S2MAP, R430: Management command that creates a buffer entry, its PAT rows and its stage-2 leaves. -/
  | s2map (r : Nat)
  /-- S2UNMAP, R430: Management command that clears stage-2 leaves, invalidates, and frees the buffer and its rows. -/
  | s2unmap (r : Nat)
  /-- WAYMAP_SET, R350: Management command that changes a die's L2 way map as a partition-layout change. -/
  | waymapSet (r : Nat)
  /-- PROFILE_SET, R322: Management command that sets an interleave profile as a partition-layout change. -/
  | profileSet (r : Nat)
  /-- EP_BIND, R430: Management command that binds a virtual fabric endpoint entry. -/
  | epBind (r : Nat)
  /-- EP_UNBIND, R430: Management command that kills and drains an endpoint's traffic and invalidates the entry. -/
  | epUnbind (r : Nat)
  /-- ROUTE_SET, R414: Management command that sets the port mask for a peer package. -/
  | routeSet (r : Nat)
  /-- PKGID_SET, R430: Management command that sets this package's ID, refused once any port is past KEYING. -/
  | pkgidSet (r : Nat)
  /-- PORT_KEY, R412: Management command that runs the SPDM session on a port in KEYING and brings it UP with new keys. -/
  | portKey (r : Nat)
  /-- BACKING_GRANT, R431: Management command that delivers a part of the host paging-backing grant, closing it with LAST. -/
  | backingGrant (r : Nat)
  /-- RETIRE_CORE, R434: Management command that replaces a failing core's row with the spare row, or takes the core OFFLINE. -/
  | retireCore (r : Nat)
  /-- RETIRE_ROW, R434: Management command that retires a DRAM row in the PAT and migrates its granules to new frames. -/
  | retireRow (r : Nat)
  /-- REBUILD_MIRROR, R430: Management command that rebuilds a failed counter-tree copy named by a report. -/
  | rebuildMirror (r : Nat)
  /-- RECOVER_BOUNDARY, R430: Management command that ends the die-boundary restriction once a row link is UP again. -/
  | recoverBoundary (r : Nat)
  /-- UPDATE_WRITE, R432: Management command that writes image bytes to the inactive slot of a firmware kind. -/
  | updateWrite (r : Nat)
  /-- UPDATE_ACTIVATE, R432: Management command that checks the inactive image and switches the firmware kind to it live. -/
  | updateActivate (r : Nat)
  /-- UPDATE_COMMIT, R432: Management command that fuses the ACTIVE image's SVN as the new minimum. -/
  | updateCommit (r : Nat)
  /-- ERRLOG_READ, R430: Management command that returns up to 16 error-collection reports from a sequence number. -/
  | errlogRead (r : Nat)
  /-- UNDEFINED_COMMAND, R429: A mailbox command with an undefined CMD completes with INVALID. -/
  | undefinedCommand (r : Nat)
  /-- BOOT, R424: At power-on the boot ROM loads and checks the Crucible image, which loads the other firmware, trains links and awaits negotiation and the backing grant. -/
  | boot
  /-- THERMAL_TRIP, R435: A junction reaching 115 deg C trips a hardware shutdown of the package, logged for the next boot. -/
  | thermalTrip
  /-- FABRIC_FLIT_SEND, R412: A fabric port sends a flit encrypted under its current key step, stepping the key after FSEQ 2^32 − 1. -/
  | fabricFlitSend (port : Nat)
  /-- FABRIC_FLIT_RECEIVE, R411: A fabric port receives a flit; a bad CRC sends a NAK, a failed tag makes the port FAILED, otherwise the flit is delivered in order. -/
  | fabricFlitReceive (port : Nat) (crcOk tagOk : Bool)
  /-- CREDIT_FLIT, R413: A received CREDIT flit returns credits, acknowledges flits from the retry buffer and, with NAK, triggers a resend. -/
  | creditFlit (port : Nat) (data : List (BitVec 8)) (nak : Bool)
  /-- FABRIC_RECAL, R433: Each direction of a fabric port recalibrates every second, pausing for 2 µs. -/
  | fabricRecal (port : Nat)
  /-- FABRIC_ROUTE_TIMEOUT, R414: An access that finds no UP port to its peer for 100 µs contains its context with REMOTE_UNREACHABLE. -/
  | fabricRouteTimeout (vd ctx : Nat)
  /-- PEER_REQUEST, R416: An incoming peer request is checked against its target endpoint entry and performed, parked or answered NACK. -/
  | peerRequest (ep kind addr size : Nat) (data : List (BitVec 8))
  /-- PEER_RESPONSE, R416: A peer's acknowledgement, data or NACK returns to the requester; a NACK raises PEER_XLATE. -/
  | peerResponse (id : Nat) (ok : Bool) (data : List (BitVec 8))
  /-- HOST_COMPLETION, R408: A host completion arrives; UR or CA raises HOST_XLATE and poisoned data raises HOST_PAGE_ERROR. -/
  | hostCompletion (id status : Nat) (data : List (BitVec 8))
  /-- HOST_COMPLETION_TIMEOUT, R408: A host read whose completion times out raises HOST_PAGE_ERROR against the context. -/
  | hostCompletionTimeout (id : Nat)
  /-- HOST_POISONED_REQUEST, R408: A poisoned request received for a device resource is dropped and reported with its requester ID. -/
  | hostPoisonedRequest (requester : Nat)
  /-- HOST_MEMORY_WRITE, R254: The host writes host memory that the device may read, such as signals, page tables or HOSTCACHE pages, becoming visible under the host's own ordering rules. -/
  | hostMemoryWrite (addr : Nat) (data : List (BitVec 8))
  /-- SPDM_REQUEST, R367: An SPDM 1.3 request, such as GET_MEASUREMENTS, a certificate request or an IDE_KM key message, arrives on the management interface or the host port and is answered. -/
  | spdmRequest (chan : Nat) (data : List (BitVec 8))
  /-- LINK_RETRAIN_DONE, R316: A link that is retraining completes its training within 20 µs and resumes carrying the traffic that waited. -/
  | linkRetrainDone (link : Nat)
  /-- POWER_OFF, R398: The package loses power, and all state, including the I/O-die retention SRAM journal, is lost. -/
  | powerOff
  deriving DecidableEq, Repr

end Sys2Proof
end

