-- ==== Sys2Proof/Machine/Types.lean ====
section
/-! DEFINITION. The plain data of lanes, groups, teams, grids and cores: what chapters 01, 03, 07, 08, 13, 14
and 15 of the specification give them. -/

namespace Sys2Proof.Machine

/-- The cause codes (R309), in the order of their numbers. -/
inductive Cause where
  | none | illegalOpcode | illegalField | badHeader | classMismatch | runTooLong | stallUndersized | regRange
  | indexBounds | illegalDest | breakpoint | softwareTrap | fpTrap | meetInvalid | queueUnderflow
  | tangentUnsupported
  | align | bufState | bufBounds | sramRange | writeReadonly | atomicType | orderAttr | barrierOverflow
  | musterMismatch | itemQueue | queueRing | launchPoolFull | joinInvalid | rangeSlot | clusterShape
  | remoteUnreachable
  | xlateNotPresent | xlateRights | xlateRangeInvalid | xlateStage2 | hostPageError | deadSequence | keyWorld
  | ccAttr | bufferTable | ownerMismatch | guardRow | pagerOvercommit | walkTimeout | peerXlate | hostXlate
  | tlbParity
  | matrixCheck | matrixShape | matrixFormat | sparseBitmap | copyFormat | copyBounds | copyChannelState
  | nbCross | nbLayout | nbQueueError | residue | memUncorrectable | integrity | linkDown | hang | killed
  deriving DecidableEq, Repr

/-- Sixteen cause codes in order (R309). -/
def Cause.row0 : List Cause :=
  [.none, .illegalOpcode, .illegalField, .badHeader, .classMismatch, .runTooLong, .stallUndersized, .regRange, .indexBounds, .illegalDest, .breakpoint, .softwareTrap, .fpTrap, .meetInvalid, .queueUnderflow, .tangentUnsupported]

/-- Sixteen cause codes in order (R309). -/
def Cause.row1 : List Cause :=
  [.align, .bufState, .bufBounds, .sramRange, .writeReadonly, .atomicType, .orderAttr, .barrierOverflow, .musterMismatch, .itemQueue, .queueRing, .launchPoolFull, .joinInvalid, .rangeSlot, .clusterShape, .remoteUnreachable]

/-- Sixteen cause codes in order (R309). -/
def Cause.row2 : List Cause :=
  [.xlateNotPresent, .xlateRights, .xlateRangeInvalid, .xlateStage2, .hostPageError, .deadSequence, .keyWorld, .ccAttr, .bufferTable, .ownerMismatch, .guardRow, .pagerOvercommit, .walkTimeout, .peerXlate, .hostXlate, .tlbParity]

/-- Sixteen cause codes in order (R309). -/
def Cause.row3 : List Cause :=
  [.matrixCheck, .matrixShape, .matrixFormat, .sparseBitmap, .copyFormat, .copyBounds, .copyChannelState, .nbCross, .nbLayout, .nbQueueError, .residue, .memUncorrectable, .integrity, .linkDown, .hang, .killed]

/-- The place of a value in a list. -/
def indexIn {α : Type} [DecidableEq α] (x : α) : List α → Nat
  | [] => 0
  | y :: ys => if x = y then 0 else indexIn x ys + 1

/-- The number of a cause (R309): the constructors stand in code order. -/
def Cause.code (c : Cause) : Nat := c.ctorIdx

/-- The cause with a number (R309). -/
def Cause.ofCode (n : Nat) : Cause :=
  match n / 16 with
  | 0 => Cause.row0.getD (n % 16) .none
  | 1 => Cause.row1.getD (n % 16) .none
  | 2 => Cause.row2.getD (n % 16) .none
  | _ => Cause.row3.getD (n % 16) .none

/-- The kind of a cause (R309, R152): T goes to the handler, P to the pager, F contains the context. -/
inductive CauseKind where
  | T | P | F
  deriving DecidableEq, Repr

/-- The kind of each cause (R309). -/
def Cause.kind (c : Cause) : CauseKind :=
  if c = .xlateNotPresent then .P
  else if c ∈ [Cause.queueRing, .remoteUnreachable, .xlateStage2, .hostPageError, .keyWorld, .bufferTable,
      .ownerMismatch, .guardRow, .pagerOvercommit, .walkTimeout, .tlbParity, .matrixCheck, .nbQueueError,
      .residue, .memUncorrectable, .integrity, .linkDown, .hang, .killed] then .F
  else .T

/-- A register by name (R15, R20, R19), as R66 counts them. -/
inductive RegName where
  | v (n : Nat) | s (n : Nat) | p (n : Nat) | ix (k : Nat) | win (k : Nat)
  deriving DecidableEq, Repr

/-- One write to group or lane registers. A vector word is keyed `8 n + j`, with `j = 0` the register `Vn` and
`j = 1 … 4` its tangent shadows (R21). -/
inductive RCell where
  | v (lane key : Nat) (x : Word)
  | s (n : Nat) (x : Word)
  | p (lane i : Nat) (x : Bool)
  | ix (lane k : Nat) (x : BitVec 8)
  | win (k : Nat) (lo hi : BitVec 7)
  deriving DecidableEq, Repr

/-- A place of a group's storage that carries a code of its own (R22): a register word or queue element with its residue; PC, MEET, the
predicates, an IX register and a window with their parity; and the result that a unit forms next. A queue element is named by
the queue, the entry's place from the head on, and its key. -/
inductive Stored where
  | v (lane key : Nat) | s (n : Nat) | q (queue n key : Nat) | p (lane : Nat) | ix (lane k : Nat) | win (k : Nat)
  | pc (lane : Nat) | meet (lane : Nat) | unit
  deriving DecidableEq, Repr

/-- The place that a cell is written to. -/
def RCell.stored : RCell → Stored
  | .v l key _ => .v l key
  | .s n _ => .s n
  | .p l _ _ => .p l
  | .ix l k _ => .ix l k
  | .win k _ _ => .win k

/-- The state that a thread owns (R13), with the parts of R14 that are per thread. -/
structure Lane where
  pc : BitVec 56
  meet : BitVec 56
  preds : BitVec 8
  ix : Regs 8
  v : Regs 32
  held : Bool
  exited : Bool
  stamp : Nat
  /-- the header word of the clause that holds the PC and the words of it from the PC on; none when the PC is
  at a header (R54, R14) -/
  clause : Option (Word × Nat)
  /-- waits at the word after a TSYNC (R180) -/
  tsync : Bool
  /-- the group's run count when the lane's set entered the clause that holds the PC: inside a clause a set merges with no other (R24) -/
  entry : Nat := 0
  deriving DecidableEq, Repr

/-- A lane that holds no live thread. -/
def Lane.gone : Lane := ⟨0, 0, 0, [], [], false, true, 0, none, false, 0⟩

/-- A fixed-latency result not yet available (R64 to R66): the values that the registers had before, the clocks
left by the stall counts, and the producer's PC. -/
structure Hazard where
  regs : List RegName
  old : List RCell
  left : Nat
  pc : BitVec 56
  deriving DecidableEq, Repr

/-- A location of memory after translation: a byte of a core's slice, of a stack, of the host or of a peer. -/
inductive Place where
  | sram (core off : Nat)
  | dram (stack spa : Nat)
  | host (addr : Nat)
  | peer (buf off : Nat)
  deriving DecidableEq, Repr

/-- The key under which a page's lines are held (R289, R359): slot, generation, the virtual device, and the GPA of the
first byte accessed. -/
structure KeyUse where
  slot : Nat
  gen : Nat
  vdev : Nat
  gpa : Nat
  deriving DecidableEq, Repr

/-- A location with the rights of its page that an access needs once it is translated: its key, the attribute word, and
the trust domain of the access. -/
structure Loc where
  place : Place
  key : Option KeyUse
  attr : DWord
  vdev : Nat
  /-- the GPA of the first byte accessed; 0 in a slice -/
  gpa : Nat := 0
  deriving DecidableEq, Repr

/-- One access of one lane: its lane, the tangent it moves (0 for the primal), its address, size and, for a
write, its bytes; `cmp` holds the value that a compare-and-swap compares with. -/
structure Acc where
  lane : Nat
  j : Nat
  ea : DWord
  size : Nat
  data : List (BitVec 8)
  cmp : List (BitVec 8)
  deriving DecidableEq, Repr

/-- Where an access's result goes: S registers or, in the access's lane, vector words; and the shadows that
receive +0 (R161). -/
structure Dest where
  scalar : Bool
  keys : List Nat
  zeros : List Nat
  deriving DecidableEq, Repr

/-- What a store FIFO entry does (R142, R165, R167). -/
inductive FifoKind where
  | store
  | atom (op ty : Nat)
  | cas
  deriving DecidableEq, Repr

/-- An entry of a group's store FIFO (R142, R169). -/
structure FifoEntry where
  seq : Nat
  pc : BitVec 56
  gen : BitVec 8
  kind : FifoKind
  accs : List Acc
  /-- the locations, for a read-modify-write, whose translation is made at issue (R158) -/
  locs : List Loc
  flav : Nat
  scope : Nat
  /-- the load entry that receives the old values, for an atomic or compare-and-swap -/
  load : Option Nat
  /-- the fault sequence number of a parked entry (R169, R296) -/
  parked : Option Nat
  deriving DecidableEq, Repr

/-- An outstanding load, atomic or compare-and-swap (R53 LOAD, R163). -/
structure Load where
  id : Nat
  seq : Nat
  gen : BitVec 8
  pc : BitVec 56
  /-- the TYPE code by which the value is converted (R159) -/
  ty : Nat
  accs : List (Acc × Dest)
  flav : Nat
  scope : Nat
  /-- the predicate that a compare-and-swap writes, 0 for none (R167) -/
  pp : Nat
  /-- the locations of the accesses, as translated at issue -/
  locs : List Loc
  /-- values fixed by the operation itself (atomics) or by a peer's answer, by the access's place in the list -/
  got : Table (List (BitVec 8))
  /-- the values come from a FIFO entry, so the load does not fix them itself -/
  deferred : Bool
  /-- strongly ordered (R163) -/
  ord : Bool
  deriving DecidableEq, Repr

/-- A stream record with its position and state (R181 to R183, R16). -/
structure Stream where
  base : DWord
  counts : List Nat
  strides : List Int
  lstride : Int
  ty : Nat
  queue : Nat
  scope : Nat
  hint : Nat
  running : Bool
  pos : Nat
  kept : Option (Cause × DWord)
  parked : Option Nat
  deriving DecidableEq, Repr

/-- An entry of an operand queue: one element per lane with its tangents, keyed `8 lane + j` (R16, R135). -/
abbrev QEntry := Regs 32

/-- Trap state (R303, R307). -/
structure TrapState where
  active : Bool
  cause : Cause
  kind : BitVec 2
  addrv : Bool
  replayed : Bool
  exited : Bool
  addr : DWord
  tpc : DWord
  lanes : BitVec 64
  aux : DWord
  seq : Word
  /-- THDR, and the words left of its clause from TPC on; none when TPC is at a header (R303, R54) -/
  hdr : Option (Word × Nat)
  /-- the trapping PC-set (R302) -/
  set : BitVec 64
  /-- the enabled exceptions that FP_TRAP names (R34) -/
  excs : BitVec 6 := 0
  deriving DecidableEq, Repr

/-- Before the first trap every field reads 0 (R307). -/
def TrapState.none : TrapState :=
  ⟨false, .none, 0, false, false, false, 0, 0, 0, 0, 0, Option.none, 0, 0⟩

/-- A T cause to be delivered to a group's handler when its coalescer record closes (R151, R303). -/
structure Pending where
  cause : Cause
  addr : Option DWord
  replayed : Bool
  /-- the PC of the instruction concerned -/
  pc : BitVec 56
  /-- the PC at which TRAPRET resumes, and the clause that holds it -/
  tpc : BitVec 56
  hdr : Option (Word × Nat)
  lanes : BitVec 64
  aux : DWord
  set : BitVec 64
  /-- the generation of the slot when the store issued (R169) -/
  gen : BitVec 8
  /-- the enabled exceptions that FP_TRAP names (R34) -/
  excs : BitVec 6 := 0
  deriving DecidableEq, Repr

/-- Why a group is suspended, and what ends it (R134, R179, R180, R204, R222, R276). -/
inductive WaitCond where
  | parked (die seq : Nat)
  | barrier (key : Nat) (token : Word)
  | tsync
  | matrix
  /-- room in the matrix operation queue (R192) -/
  | mqueue
  /-- a channel's kept cause, idleness, or write pointer (R222) -/
  | channel (ch : Nat) (wp : Option Nat)
  /-- room in a channel's queue (R209) -/
  | chanRoom (ch : Nat)
  | join (threshold : Nat)
  | itemRoom (q : Nat)
  /-- room for a near-bank command at the dispatch (R341), and the end of an acquiring NBFENCE's drain (R345) -/
  | nbRoom
  | nbDrain
  /-- the end of the sequence that the group's SEQEND ended (R357) -/
  | seqEnd (slot : Nat)
  | trap
  deriving DecidableEq, Repr

/-- A cause that an engine keeps for a group (R194, R216): the cause, the address if it carries one, and the PC
of the instruction that issued the operation. -/
structure Kept where
  cause : Cause
  addr : Option DWord
  pc : BitVec 56
  /-- the access had been replayed (R206, R217) -/
  replayed : Bool := false
  deriving DecidableEq, Repr

/-- The state that a group owns (R13, R14, R131, R133, R134). -/
structure Group where
  team : Nat
  num : Nat
  /-- the first register block of the group in its sub-core (R21, R131) -/
  base : Nat
  lanes : Table Lane
  s : Regs 32
  queues : Table (List QEntry)
  wins : Table (BitVec 7 × BitVec 7)
  fpx : Word
  streams : Table Stream
  fifo : List FifoEntry
  loads : List Load
  hazards : List Hazard
  /-- the number of memory operations issued: it orders loads and stores -/
  seq : Nat
  runCount : Nat
  runStamp : Nat
  wait : Option WaitCond
  trap : TrapState
  pending : Option Pending
  mkept : List Kept
  imprecise : List Pending
  /-- the fault sequence number under which the group's waiting access is replayed (R146, R300) -/
  replay : Option Nat
  /-- the writes in flight that the group has read (R250) -/
  readFrom : List Nat
  /-- the group is pre-empted: its state is HELD (R145, R147) -/
  preempted : Bool
  /-- a kill stops its issue (R155) -/
  stopped : Bool
  /-- the group's memory operations below this number are replayed before it issues again (R146) -/
  replayTo : Nat
  /-- the unit that took the last word of the clause that the group is in (R52) -/
  unit : Option Nat := none
  /-- the generation that the slot took when the group was last pre-empted (R145) -/
  heldGen : BitVec 8 := 0
  /-- the codes stored with register words and lane control state (R22); a place that is not listed holds the code of its value -/
  codes : List (Stored × Nat) := []
  /-- the threshold of a JOIN that the group waits in and whose condition a change of JCNT has met (R276) -/
  joinMet : Option Nat := none
  deriving DecidableEq, Repr

/-- The state of a register block or an SRAM unit (R147). -/
inductive OwnState where
  | active | held | spilling
  deriving DecidableEq, Repr

/-- The owner tag of a block or unit (R147); a FREE one is not listed. -/
structure Owner where
  world : Nat
  vdev : Nat
  ctx : Nat
  team : Nat
  state : OwnState
  deriving DecidableEq, Repr

/-- An item queue (R143, R144). -/
structure ItemQueue where
  grid : Nat
  items : List Word
  logCap : Nat
  range : Bool
  slot : Nat
  dry : Bool
  /-- an append that waits for room: runs of consecutive items still to enter (R144, R184) -/
  tail : List (Nat × Nat)
  deriving DecidableEq, Repr

/-- A trap coalescer record (R151, R152). -/
structure CoalRec where
  /-- the groups of the record enter their handler; a record of a contained context enters none -/
  deliver : Bool
  kind : CauseKind
  cause : Cause
  addr : Option DWord
  replayed : Bool
  exited : Bool
  count : Nat
  pc : BitVec 56
  groups : List Nat
  vdev : Nat
  ctx : Nat
  grid : Nat
  gen : BitVec 8
  seq : Nat
  team : Nat
  /-- the write of the record waits on an absent page (R382) -/
  parked : Option (Nat × Nat)
  /-- package time when the record was opened -/
  opened : Nat := 0
  /-- the enabled exceptions that FP_TRAP names (R34) -/
  excs : BitVec 6 := 0
  /-- the first event's team (R152): when it has retired, TEAM is all ones -/
  tid : Nat := 0
  deriving DecidableEq, Repr

/-- The run that holds a sub-core's issue slot (R55): the group's core-wide slot, the lanes of the issuing
PC-set and the instructions issued so far. -/
structure Run where
  slot : Nat
  set : BitVec 64
  issued : Nat
  deriving DecidableEq, Repr

/-- The state of a declared buffer (R138). -/
inductive BufState where
  | empty | filling | full | draining
  deriving DecidableEq, Repr

/-- A declared buffer (R138). -/
structure Buffer where
  base : Nat
  size : Nat
  state : BufState
  ch : Nat
  wp : Nat
  deriving DecidableEq, Repr

/-- The earlier accesses of a group after which an engine's operation stands (R196, R218): the stores that the group issued before
the operation, and the writes in flight that it had read. -/
structure After where
  slot : Nat
  /-- the group's operations numbered below this one -/
  seq : Nat
  reads : List Nat
  deriving DecidableEq, Repr

/-- What a matrix operation does (R199, R203). -/
inductive MatKind where
  | mm
  | mmz (tile : Nat) (s32 : Bool)
  | accld (tile : Nat) (s32 : Bool)
  | accst (tile : Nat)
  | accmv (d s : Nat)
  | accadd (d s : Nat) (sat : Bool)
  deriving DecidableEq, Repr

/-- An operation in a core's matrix queue (R186, R192, R194, R195). -/
structure MatrixOp where
  id : Nat
  team : Nat
  /-- the numbers of the groups that signed it -/
  signers : List Nat
  after : List After
  kind : MatKind
  /-- the PC of the issuing instruction -/
  pc : BitVec 56
  /-- the latched descriptor or address quad -/
  quad : BitVec 128
  /-- the latched operand maps: A, B, and the bitmap maps of A and of B -/
  maps : List (BitVec 128)
  begun : Bool
  /-- the row-progress register: pass, step and row -/
  pass : Nat
  step : Nat
  row : Nat
  /-- bytes fetched or written, and products formed -/
  bytes : Nat
  work : Nat
  parked : Option Nat
  /-- the products formed in the present step so far, and the array clocks of the passes that are done (R193) -/
  formed : Nat := 0
  spent : Nat := 0
  /-- the present step is computed again, its sums having disagreed once (R197) -/
  rerun : Bool := false
  deriving DecidableEq, Repr

/-- A muster register (R201, R202): MASK, SIGNED, DESC, and, from the first signature on, the maps latched, the PC of the last
accepted signature, and what each signature orders the operation after. -/
structure Muster where
  mask : Nat
  signed : Nat
  desc : BitVec 128
  maps : List (BitVec 128)
  pc : BitVec 56
  after : List After
  deriving DecidableEq, Repr

/-- The commands of copy channels (R221, R244, R418). -/
inductive CopyKind where
  | cpy | cpyt | cpyo | cpyg | cpys | fill | mcast
  /-- a copy to (`get` false) or from an endpoint of the package's table -/
  | peer (get : Bool) (ep : Nat)
  /-- a signal: 0 SET, 1 ADD -/
  | sig (op ep : Nat)
  deriving DecidableEq, Repr

/-- A command accepted by a copy channel (R209 to R217). -/
structure CopyCmd where
  kind : CopyKind
  /-- the latched descriptor, one word for each register -/
  desc : List Word
  /-- the latched control word -/
  ctl : BitVec 28
  /-- the latched format register -/
  fmt : BitVec 64
  pc : BitVec 56
  after : List After
  pass : Nat
  row : Nat
  /-- the buffers that it holds in FILLING and in DRAINING (R140), keyed `64 team + n` -/
  dst : Option Nat
  src : List Nat
  /-- the primal's bitmap, of a sparse tile (R219) -/
  bitmap : List Bool
  /-- a signal has been sent (R420) -/
  sent : Bool
  parked : Option Nat
  /-- the element at which the row goes on after a park (R217): the bytes of the row read so far, and the number of bytes written -/
  got : List (BitVec 8) := []
  pos : Nat := 0
  deriving DecidableEq, Repr

/-- A copy channel (R208, R216). PARKED and BUSY are what the command at the head says. -/
structure Channel where
  queue : List CopyCmd
  failed : Bool
  wp : Nat
  flags : BitVec 6
  kept : Option Kept
  deriving DecidableEq, Repr

/-- A channel at placement (R208). -/
def Channel.idle : Channel := ⟨[], false, 0, 0, none⟩

/-- A resident or HELD team: its place (R3, R92, R240, R266), its SRAM units in order (R136), and its state of
R14: buffers, cluster barrier marks, the count of its TSYNC releases, the join counter and the children
whose completion JOIN reports (R269, R276). -/
structure Team where
  grid : Nat
  index : Nat
  rank : Nat
  cluster : Nat
  core : Nat
  /-- the global slots of its groups that have not retired, and the numbers of groups it began with -/
  slots : List Nat
  units : List Nat
  held : Bool
  bufs : Table Buffer
  jcnt : Nat
  childBad : List DWord
  /-- cluster barrier marks: for each object, the numbers of the groups marked (R243) -/
  marks : Table (List Nat)
  tsyncs : Nat
  /-- accumulator planes of 4,096 words, keyed `8 tile + j`; one not listed holds zeros (R186, R187) -/
  acc : Table (List Word)
  /-- the residues stored with accumulator words (R186), by plane and word; a word that is not listed holds that of its value -/
  accCodes : List (Nat × Nat × Nat) := []
  /-- the tiles with tag S32 (R186) -/
  s32 : List Nat
  maps : Table (BitVec 128)
  musters : Table Muster
  /-- the team's matrix FLAGS and FAILED (R194, R205) -/
  mflags : BitVec 6
  mfailed : Option Kept
  /-- format registers; one not listed is unset (R36) -/
  fmts : Regs 64
  chans : Table Channel
  /-- the team has its resources (R266); a HELD team keeps what has not been claimed (R148) -/
  placed : Bool
  /-- the bytes of units that were spilled, by their index in `units` (R148) -/
  saved : Table (Table (BitVec 8))
  /-- groups whose slots were taken while the team was HELD, by their old slots (R146, R148) -/
  away : List (Nat × Group)
  /-- the read of the team's format values waits on an absent page (R261) -/
  fpark : Option Nat
  /-- when the team was last pre-empted: HELD resources are taken from the team that ran least recently (R148) -/
  lastRun : Nat
  /-- package time at which the team entered the pending pool to be placed (R267) -/
  since : Nat := 0
  /-- it was pre-empted because every group of it had exited or waited in JOIN (R271) -/
  joining : Bool := false
  deriving DecidableEq, Repr

/-- A grid in the pending pool or running (R260, R262, R263, R270). -/
structure Grid where
  /-- the 192 bytes of its record -/
  record : List (BitVec 8)
  seq : Nat
  vdev : Nat
  ctx : Nat
  die : Nat
  /-- the pool's order of entry (R264) -/
  entry : Nat
  parent : Option Nat
  /-- the queue and packet index of a dispatched grid (R270, R391) -/
  queue : Option (Nat × Nat)
  nextCluster : Nat
  ret0 : Nat
  ret1 : Nat
  dropped : Nat
  imprecise : Nat
  cause : Cause
  /-- child grids counted against the grid (R269) -/
  orphans : List Nat
  /-- the write of its status block waits on an absent page (R270) -/
  parked : Option Nat
  /-- its status block has been written, or is not to be (R270) -/
  statDone : Bool
  /-- the write of its status block met a T cause (R270) -/
  statBad : Option Cause
  /-- the launching team, and what the child's accesses stand after (R275) -/
  launcher : Option (Nat × After)
  /-- package time since which its next cluster waits to be placed (R267) -/
  since : Nat := 0
  deriving DecidableEq, Repr

/-- A placed cluster: the top-left core of its rectangle, its shape, and the team of each rank (R239, R240). -/
structure Cluster where
  grid : Nat
  core0 : Nat
  cw : Nat
  ch : Nat
  teams : List Nat
  /-- for each event of R278, the teams that have arrived with their cores, the latest last -/
  arrivals : Table (List (Nat × Nat))
  deriving DecidableEq, Repr

/-- What stage 2 gives for a stage-1 page (R291): residence, rights, pin and the buffer place of its first byte; or
no valid entry. -/
inductive S2Result where
  | leaf (res rd wr pin : Bool) (buf off : Nat)
  | missing
  deriving DecidableEq, Repr

/-- A complete translation (R282, R293): the virtual interval, the GPA of its first byte, the leaf's attribute
word, its size code (R308), and what stage 2 gives for the first byte of the interval. -/
structure Xlation where
  vdev : Nat
  ctx : Nat
  epoch : Nat
  vlo : Nat
  vhi : Nat
  gpa : Nat
  attr : DWord
  size : Nat
  /-- the leaf is a 2 MiB page, or a range record whose base, length and GPA are multiples of 2 MiB (R335) -/
  big : Bool
  s2 : S2Result
  /-- the parity bits of its tag and of its data do not fit (R294) -/
  tagBad : Bool := false
  dataBad : Bool := false
  deriving DecidableEq, Repr

/-- An entry of a die's walk cache (R292, R294): the tag, the bytes of a range-tree node that is no leaf or of a pointer entry, and whether the
parity of its tag and of its data fails. -/
structure WalkEntry where
  vdev : Nat
  ctx : Nat
  epoch : Nat
  gpa : Nat
  bytes : List (BitVec 8)
  tagBad : Bool := false
  dataBad : Bool := false
  deriving DecidableEq, Repr

/-- Where a walk stands (R285, R287): reading a range-tree node (its GPA, its depth, and the 64-byte lines read so far), reading a page-table
entry (the level, the GPA of the entry, the granule bit of the pointer that led there, and the first half once it has been read), looking up stage 2 for a leaf that it found, or ended with a cause or a translation. -/
inductive WalkPhase where
  | node (gpa depth : Nat) (lines : Table (List (BitVec 8)))
  | pte (level gpa : Nat) (gran : Bool) (half : List (BitVec 8))
  | stage2 (x : Xlation)
  | failed (c : Cause) (gpa : Nat)
  | done (x : Xlation)
  deriving DecidableEq, Repr

/-- A walk (R292): the context, the address, where it stands, and the fault slot's sequence number when it is
parked on an absent table page (R296). -/
structure Walk where
  vdev : Nat
  ctx : Nat
  ea : Nat
  phase : WalkPhase
  parked : Option Nat
  deriving DecidableEq, Repr

/-- Which engine made an access (R299). -/
inductive Engine where
  | core | fetch | stream | matrix | caster | nearBank | walker | endpoint | packet
  deriving DecidableEq, Repr

/-- A parked access (R296, R299). -/
structure FaultSlot where
  seq : Nat
  replayed : Bool
  write : Bool
  table : Bool
  engine : Engine
  core : Nat
  vdev : Nat
  ctx : Nat
  va : Nat
  gpa : Nat
  /-- the record that a core's P cause goes to the pager in (R151) -/
  met : Option CoalRec := none
  deriving DecidableEq, Repr

/-- A pager request (R296, R297): the granule, the dies and sequence numbers of the accesses that wait on it,
whether its fill has begun, and the device's granule that is being evicted for it. -/
structure PagerReq where
  vdev : Nat
  granule : Nat
  waiters : List (Nat × Nat)
  filling : Bool
  /-- the frame that the fill goes to: buffer and granule -/
  frame : Option (Nat × Nat)
  /-- the granule that is being evicted for it, and its leaf as it was (R298) -/
  victim : Option Nat := none
  /-- the contexts whose accesses have waited for it (R301) -/
  askers : List (Nat × Nat) := []
  deriving DecidableEq, Repr

/-- A write or read-modify-write that has left its issuer and is not yet performed at its point of coherence (R247
to R250). -/
structure Flight where
  id : Nat
  slot : Nat
  core : Nat
  die : Nat
  vdev : Nat
  ctx : Nat
  gen : BitVec 8
  /-- the number of the group's memory operation -/
  seq : Nat
  pc : BitVec 56
  kind : FifoKind
  /-- the bytes to write, ascending lanes, or the operand and compared value of a read-modify-write, each with its place
  in the instruction's list of accesses -/
  parts : List (Nat × Acc × Loc)
  load : Option Nat
  /-- a write to a peer that has been sent and awaits its response (R416) -/
  sent : Bool
  deriving DecidableEq, Repr

/-- A request of a group to a peer that the group waits for: a read, or a read-modify-write (R416, R417). -/
structure PeerReq where
  id : Nat
  slot : Nat
  gen : BitVec 8
  /-- the group's memory operation that it belongs to -/
  seq : Nat
  parts : List (Nat × Acc × Loc)
  /-- a read-modify-write: it may have been performed, so a pre-emption keeps it (R145) -/
  rmw : Bool
  /-- the answer: a NACK, or the values -/
  answer : Option (Option (List (BitVec 8)))
  deriving DecidableEq, Repr

/-- A compute die's own state (R262, R268, R292, R293, R296, R350, R247, R417). -/
structure Die where
  pool : List Nat
  poolSeq : Nat
  ranges : Table (Nat × Nat × Nat × Nat)
  tlc : List Xlation
  walks : Table Walk
  faults : Table FaultSlot
  faultSeq : Nat
  ways : Regs 16
  hostCopies : Table (BitVec 8)
  peerCopies : Table (BitVec 8)
  mhz : Nat
  ioDown : Bool
  refused : List Victim
  /-- victims whose near-bank commands the dispatch and the base dies refuse (R347) -/
  nbRefused : List Victim
  /-- the walk cache, the latest entry first (R292) -/
  wcache : List WalkEntry := []
  /-- entries discarded for the parity of their tags (R294) -/
  tagErrors : Nat := 0
  deriving DecidableEq, Repr

end Sys2Proof.Machine
end

