-- ==== Sys2Proof/Machine/PackageTypes.lean ====
section
/-! DEFINITION. The plain data of virtual devices, contexts' queues, keys, buffers and the stacks: what chapters
17, 19 and 21 of the specification give them. -/

namespace Sys2Proof.Machine

/-- The lifecycle state of a virtual device (R379), in the order of VSTATE (R376). -/
inductive VState where
  | absent | configured | running | stopped | resetting | error
  deriving DecidableEq, Repr

/-- A stage-2 leaf (R291): resident, rights, pin, buffer index, offset in granules and run length. -/
structure S2Leaf where
  res : Bool
  rd : Bool
  wr : Bool
  pin : Bool
  buf : Nat
  boff : Nat
  runl : Nat
  deriving DecidableEq, Repr

/-- A packet held by a queue's slot (R387, R388): its ring index, its eight words, the next step to perform, and,
for an INDIRECT, the next packet of its buffer and that packet's next step. -/
structure Packet where
  idx : Nat
  words : Regs 64
  step : Nat
  begun : Bool
  done : Bool
  sub : Nat
  subStep : Nat
  subWords : Option (Regs 64)
  /-- the grids that its DISPATCHes entered and whose signals are still to come: SIGADDR, and whether CVEC is raised for one inside a buffer -/
  grids : List (Nat × Nat × Bool)
  deriving DecidableEq, Repr

/-- The state of a queue (R384). -/
inductive QState where
  | disabled | idle | active | error
  deriving DecidableEq, Repr

/-- A queue of a virtual device (R383 to R388). -/
structure Queue where
  rbase : Nat
  rlog : Nat
  ctx : Nat
  enable : Bool
  cvec : Nat
  evec : Nat
  qstat : Nat
  w : Word
  rdidx : Word
  state : QState
  cause : Cause
  failIdx : Word
  failTag : Word
  /-- fetched packets, oldest first -/
  packets : List Packet
  /-- the order number of the first unserved kick (R386) -/
  kicked : Option Nat
  mapped : Bool
  /-- the status block is to be written before anything else is served (R384) -/
  statDue : Bool
  /-- EVEC is to be raised once the status block is written (R391, R394) -/
  evecDue : Bool
  /-- the status block is no longer written (R384) -/
  noStat : Bool
  /-- a status write or step parked on a replayable fault -/
  parked : Option (Nat × Nat)
  /-- DISPATCHed grids of before a reset, whose second step writes the status block only (R383) -/
  quiet : List Nat
  /-- the sequence whose end the packet at the head awaits (R356) -/
  ending : Option Nat
  deriving DecidableEq, Repr

/-- A context (R381, R382, R302, R197, R293). -/
structure Ctx where
  rtroot : Nat
  ptroot : Nat
  tring : Nat
  trlog : Nat
  tcount : Nat
  enable : Bool
  schk : Bool
  hangt : Nat
  tvec : Nat
  /-- STATE: 0 DISABLED, 1 ACTIVE, 2 ERROR, 3 TEARDOWN -/
  state : Nat
  cause : Cause
  written : Nat
  hdlr : BitVec 56
  reruns : Nat
  epoch : Nat
  /-- the roots in use: a new one takes effect at the next FENCE with INVAL (R382) -/
  rtlive : Nat
  ptlive : Nat
  /-- T causes met by requests of peers to the context's exports (R416) -/
  peerBad : Nat
  deriving DecidableEq, Repr

/-- A fraction: the finish tags and virtual times of R392 are kept exactly. -/
structure Frac where
  num : Int
  den : Nat
  deriving DecidableEq, Repr

/-- The backing of a granule (R332): the host address of its 64 KiB and, for one with keyed lines, that of its counter blocks. -/
structure Backed where
  data : Nat
  counters : Option Nat
  deriving DecidableEq, Repr

/-- A virtual device (R376, R377, R379, R381, R383, R291, R392, R393, R332). -/
structure VDev where
  state : VState
  profile : BitVec 1024
  /-- a CONFIGURE of a RUNNING device takes effect at its next slice boundary (R378) -/
  configured : Option (BitVec 1024)
  world : Nat
  gridCount : Nat
  tag : Frac
  eligible : Bool
  /-- tokens, and the package time of the last refill (R393) -/
  bucket : Nat
  bucketAt : Nat
  /-- the five meters (R393) -/
  meters : Regs 64
  verrvec : Nat
  nonce : BitVec 256
  report : List (BitVec 8)
  repPending : Bool
  repReady : Bool
  ignored : Nat
  save : Option Nat
  s2 : Table S2Leaf
  /-- granules that have been written back, each with its place in host backing (R297, R332) -/
  back : Table Backed
  /-- granules in the order of use, the least recent first (R298) -/
  lru : List Nat
  /-- the buffers that S2MAP created, by the GPA at which they are mapped: size in 2 MiB units and buffer index (R430) -/
  maps : Table (Nat × Nat)
  ctxs : Table Ctx
  queues : Table Queue
  /-- queued MSI-X: the pending bits (R394) -/
  msixMask : List Nat
  msixPending : List Nat
  deriving DecidableEq, Repr

/-- A context that nothing has written: DISABLED, every field 0 (R380, R381). -/
def Ctx.zero : Ctx := ⟨0, 0, 0, 0, 0, false, false, 0, 0, 0, .none, 0, 0, 0, 0, 0, 0, 0⟩

/-- A queue that nothing has written: DISABLED, every field 0 (R380, R383). -/
def Queue.zero : Queue :=
  ⟨0, 0, 0, false, 0, 0, 0, 0, 0, .disabled, .none, 0, 0, [], none, false, false, false, false, none, [], none⟩

/-- A virtual device before its creation (R379). -/
def VDev.absent : VDev :=
  ⟨.absent, 0, none, 0, 0, ⟨0, 1⟩, false, 0, 0, [], 0, 0, [], false, false, 0, none, [], [], [], [], [], [], [], []⟩

/-- A valid entry of the buffer table (R328). -/
structure BufEntry where
  rd : Bool
  wr : Bool
  /-- 0 device, 1 host, 2 peer -/
  kind : Nat
  owner : Nat
  prof : Nat
  size : Nat
  base : Nat
  deriving DecidableEq, Repr

/-- A valid entry of the endpoint table (R415). -/
structure Endpoint where
  up : Bool
  vdev : Nat
  ctx : Nat
  vep : Nat
  peer : Nat
  rep : Nat
  exr : Bool
  exw : Bool
  exa : Bool
  exbase : Nat
  exsize : Nat
  deriving DecidableEq, Repr

/-- An interleave profile (R322). -/
structure Profile where
  glog : Nat
  stks : BitVec 8
  channels : BitVec 32
  mscWays : BitVec 16
  deriving DecidableEq, Repr

/-- The state of a key slot (R352, R353). -/
inductive KeyState where
  | free | live | save | retired
  deriving DecidableEq, Repr

/-- A key slot (R352). `draining` is the generation whose accesses are still to complete (R357). -/
structure KeySlot where
  state : KeyState
  owner : Nat
  world : Nat
  kgen : Nat
  key : BitVec 256
  draining : Option Nat
  /-- the groups, by slot and team, whose SEQENDs ended a generation and have no result yet (R356) -/
  enders : List (Nat × Nat)
  deriving DecidableEq, Repr

/-- A key slot at package reset (R352). -/
def KeySlot.reset : KeySlot := ⟨.free, 0, 0, 0, 0, none, []⟩

/-- A counter block (R360): MAJOR, the generation and slot of its key when KEYV, the sixteen MINORs, and SEAL. -/
structure CtrBlock where
  major : Nat
  kgen : Nat
  minors : Regs 20
  sealMac : BitVec 56
  kslot : Nat
  keyv : Bool
  deriving DecidableEq, Repr

/-- A counter block that no key has used (R360). -/
def CtrBlock.zero : CtrBlock := ⟨0, 0, [], 0, 0, false⟩

/-- An entry of a stack's RAS log (R327). -/
structure RasEntry where
  spa : Nat
  kind : Nat
  domain : Nat
  time : Nat
  deriving DecidableEq, Repr

/-- A part of a near-bank command in a bank pair's queue (R338, R343, R344): the command, which part of it this is (its pair's place, the
read of the vector, or a lane's access), and the next column. -/
inductive NbPartKind where
  | cols (n : Nat)
  | vector
  | lane (n : Nat)
  deriving DecidableEq, Repr

/-- An entry of a bank pair's queue (R338). -/
structure NbPart where
  cmd : Nat
  kind : NbPartKind
  col : Nat
  deriving DecidableEq, Repr

/-- A near-bank command, or the accesses of an NBLD or NBST (R338 to R347). -/
structure NbCmd where
  id : Nat
  slot : Nat
  num : Nat
  gen : BitVec 8
  pc : BitVec 56
  team : Nat
  core : Nat
  vdev : Nat
  ctx : Nat
  /-- FN7 (R342, R344) -/
  fn : Nat
  /-- the descriptor octet -/
  octet : List Word
  bar : Nat
  stack : Nat
  /-- the SPAs of X, Y and Z -/
  x : Nat
  y : Nat
  z : Nat
  after : After
  /-- the lanes' SPAs and, for NBST, their words -/
  accs : List (Nat × List (BitVec 8))
  load : Option Nat
  /-- parts entered in queues: all at once for a command, one by one for lanes -/
  entered : Nat
  /-- parts completed -/
  finished : Nat
  /-- the F32 partials of pairs (R340) -/
  partials : Table (BitVec 32)
  /-- the vector of NBGEMV, once read (R343) -/
  vec : Option (List (BitVec 8))
  /-- a part met an error: no barrier is counted (R347) -/
  failed : Bool
  deriving DecidableEq, Repr

/-- The NBDRAIN of an acquiring NBFENCE (R320, R345): the group's slot, the pairs, and, once it has arrived, the commands that it waits for and
whether it has been answered. -/
structure NbDrain where
  slot : Nat
  team : Nat
  stack : Nat
  pair0 : Nat
  pairs : Nat
  cmds : Option (List Nat)
  answered : Bool := false
  deriving DecidableEq, Repr

/-- A response of the Stack Port (R320) or of a base-die engine (R327): the request's tag or SEQ, its status, and its data. -/
structure PortRsp where
  tag : Nat
  status : Nat
  data : List (BitVec 8)
  deriving DecidableEq, Repr

/-- A stack and its base die (R317 to R327, R331, R358 to R365). -/
structure Stack where
  absent : Bool
  prev : Nat
  height : Nat
  dens : Nat
  rows : Nat
  cap : Nat
  engver : Nat
  /-- the physical allocation table: `(channel, row)` keyed `65536 channel + row` to its domain; FREE is not listed
  (R331) -/
  pat : Table Nat
  /-- rows and channels retired (R434, R321) -/
  retired : List Nat
  deadChans : List Nat
  /-- row indices below this one form the keyed portion (R358) -/
  keyedRow : Nat
  /-- counter blocks, by 1 KiB of address (R358, R360), and line MACs, by line (R359) -/
  blocks : Table CtrBlock
  macs : Regs 56
  /-- lines that read with a detected error (R324) -/
  bad : List Nat
  /-- the counter tree's key, drawn at package reset, and the entries of its nodes, in the first copy and in the mirror, by `treeSlot`; an entry
  over counter blocks that nothing has written is not listed (R364, R365) -/
  treeKey : BitVec 256 := 0
  tree : Table (BitVec 56) := []
  mirror : Table (BitVec 56) := []
  /-- copies of nodes that read with a detected error, and copies that stay out of use until they are rebuilt: level, number, and whether it is
  the mirror (R324, R365) -/
  treeBad : List (Nat × Nat × Bool)
  treeOut : List (Nat × Nat × Bool) := []
  /-- detected errors of each channel since it was last recalibrated (R321) -/
  chanErrors : Table Nat := []
  ras : List RasEntry
  patrolHours : Nat
  patrolPaused : Bool
  patrolNext : Nat
  patrolPasses : Nat
  uptime : Nat
  parity : Nat
  served : Nat
  image : Regs 8
  hung : Bool
  /-- the queues of the bank pairs (R338) -/
  queues : Table (List NbPart)
  /-- configuration registers that have been written (R321) -/
  cfg : Regs 64
  /-- responses sent, the latest last (R320, R327) -/
  responses : List PortRsp
  deriving DecidableEq, Repr

/-- A stack after reset: the 64 GB variant (DESIGN CHOICE: log 4), all FREE. -/
def Stack.reset : Stack :=
  ⟨false, 0, 16, 32, 16384, 64, 0, [], [], [], 0, [], [], [], 0, [], [], [], [], [], [], 24, false, 0, 0, 0, 0, 0, [], false, [], [], []⟩

/-- A placement set (R392): its virtual time, the device that holds the slice, and the package time at which the slice began. -/
structure PlaceSet where
  v : Frac
  running : Option Nat
  began : Nat
  deriving DecidableEq, Repr

/-- A kill-and-drain in progress (R396): the phase is 0 while KILL goes out, 1 while DRAIN does, and the
participants that have still to acknowledge. -/
structure Kill where
  victim : Victim
  phase : Nat
  waiting : List Nat
  /-- what follows: 0 containment only, 1 teardown of the context, 2 RESET of the device, 3 DESTROY -/
  then_ : Nat
  /-- the management requester to be answered (R429) -/
  reply : Option Nat
  deriving DecidableEq, Repr

/-- A row link (0 to 7), or the link of compute die d to the I/O die (8 + d) (R315, R316): failures of a resend in succession, resends
counted, and whether it retrains or is retired. -/
structure Link where
  fails : Nat
  resends : Nat
  retraining : Bool
  retired : Bool
  deriving DecidableEq, Repr

/-- A working link (R316). -/
def Link.up : Link := ⟨0, 0, false, false⟩

/-- The states of a fabric port (R410). -/
inductive PortState where
  | down | training | keying | up | failed
  deriving DecidableEq, Repr

/-- What a flit carries: nothing, an outgoing request by its number, an answer to a peer by its number, or credits (R411, R413). -/
inductive FlitLoad where
  | idle
  | request (id : Nat)
  | reply (n : Nat)
  | credit (payload : Nat)
  deriving DecidableEq, Repr

/-- A flit in a retry buffer (R413). -/
structure Flit where
  load : FlitLoad
  fseq : Nat
  keyStep : Nat
  deriving DecidableEq, Repr

/-- One direction of a port (R412): the key of the present step, the step, and the number of the next flit. -/
structure PortDir where
  key : BitVec 256
  keyStep : Nat
  fseq : Nat
  deriving DecidableEq, Repr

/-- A fabric port (R410 to R413). -/
structure Port where
  st : PortState
  tx : PortDir
  rx : PortDir
  /-- keys of earlier steps that the retry buffer still needs -/
  oldKeys : Table (BitVec 256)
  credits : Regs 16
  retry : List Flit
  /-- flits of the retry buffer to be sent again, oldest first -/
  again : List Flit
  /-- flits received since a CREDIT flit was last sent, and buffers freed in each channel -/
  received : Nat
  freed0 : Nat
  freed1 : Nat
  /-- a CREDIT flit with NAK is due; flits are dropped until the resend arrives -/
  nak : Bool
  dropping : Bool
  resends : Nat
  /-- the requests that the port has sent -/
  carried : List Nat
  /-- the flit sent last, its 256 bytes -/
  last : List (BitVec 8)
  deriving DecidableEq, Repr

/-- A port that is DOWN. -/
def Port.down : Port := ⟨.down, ⟨0, 0, 0⟩, ⟨0, 0, 0⟩, [], [], [], [], 0, 0, 0, false, false, 0, [], []⟩

/-- An answer of this package to a peer's request (R416): the endpoint, whether it is an acknowledgement, its data, and whether it has been
sent. -/
structure PeerReply where
  n : Nat
  ep : Nat
  ok : Bool
  data : List (BitVec 8)
  sent : Bool
  deriving DecidableEq, Repr

/-- An incoming peer request that waits: on an absent page, or for the earlier ones of its pair (R416, R417). Kinds: 0 read, 1 write, 2 releasing
write, 3 SET, 4 ADD, 5 CAS, 16 + 16 ty + op an atomic. -/
structure PeerIn where
  ep : Nat
  kind : Nat
  addr : Nat
  size : Nat
  data : List (BitVec 8)
  parked : Option (Nat × Nat)
  deriving DecidableEq, Repr

/-- A management mailbox with its bulk window (R428, R429). -/
structure Mbox where
  cmd : Nat
  tag : Nat
  args : Regs 64
  /-- STATE: 0 IDLE, 1 BUSY, 2 DONE -/
  st : Nat
  result : Nat
  cause : Nat
  tagOut : Nat
  res : Regs 64
  bulk : Regs 8
  ignored : Nat
  deriving DecidableEq, Repr

/-- A mailbox that nothing has written. -/
def Mbox.zero : Mbox := ⟨0, 0, [], 0, 0, 0, 0, [], [], 0⟩

/-- A change of the partition layout (R398). -/
inductive LayoutChange where
  | wayMap (die : Nat) (entries : Regs 16)
  | profile (p : Nat) (v : Profile)
  deriving DecidableEq, Repr

/-- The management interface, firmware, the layout journal and what configuration flash holds (R398, R423 to R435). -/
structure Mgmt where
  /-- the lock (R426): HELD, OWNER, LEASE, and LAST of each requester -/
  held : Bool
  owner : Nat
  lease : Nat
  last0 : Nat
  last1 : Nat
  featReq : BitVec 256
  featEn : BitVec 256
  featLocked : Bool
  cap : Nat
  power : Nat
  temp : Nat
  mbox : Table Mbox
  /-- backing ranges granted: address and size in 2 MiB units (R431) -/
  ranges : List (Nat × Nat)
  grantClosed : Bool
  /-- BOOT has started the Crucible (R424); or no Crucible image is valid -/
  booted : Bool
  recovery : Bool
  /-- images in flash, keyed `2 KIND + slot`, that have been written; the ACTIVE slot and the fused SVN minimum of each KIND -/
  images : Table (List (BitVec 8))
  active : Table Nat
  svnMin : Table Nat
  /-- the image that runs, by KIND -/
  running : Table (List (BitVec 8))
  /-- the Crucible runs on an image that was activated live, and the times of its watchdog resets since (R432) -/
  fresh : Bool
  watchdogs : List Nat
  /-- the journal: GEN, DONE, the generations of IMG0 and IMG1, and the change in progress with the requester to be answered -/
  gen : Nat
  done : Nat
  img0 : Nat
  img1 : Nat
  change : Option (LayoutChange × Nat)
  /-- retirement lists in flash: `(0, core, 0)` and `(1, stack, key of the row)` (R434) -/
  retired : List (Nat × Nat × Nat)
  /-- a thermal trip was logged (R435) -/
  tripped : Bool
  /-- the thresholds that the Crucible sets: resends of a link before it is reported (R12), and detected errors of a channel before it is
  recalibrated (R321) -/
  linkLimit : Nat
  chanLimit : Nat
  /-- messages to requester 0 (R429), and answers to SPDM requests (R367) -/
  mctp : List Nat
  spdm : List (Nat × List (BitVec 8))
  /-- commands that have been accepted and go on: requester and CMD (R429) -/
  pending : List (Nat × Nat)
  /-- granules whose frames a command is emptying, by device: not resident until they have moved (R298, R434) -/
  moving : List (Nat × Nat) := []
  deriving DecidableEq, Repr

/-- The management interface after reset (R426, R431; DESIGN CHOICE: log 6). -/
def Mgmt.reset : Mgmt :=
  ⟨false, 0, 0, 0, 0, 0, 0x7F, false, 2800, 0, 0, [], [], false, false, false, [], [], [], [], false, [], 0, 0, 0, 0, none, [], false, 0, 0, [], [], [], []⟩

/-- A report in the error collection (R12, R152, R299, R366). A containment that a core met carries the core's record, its number and its
world. -/
inductive Report where
  | record (r : CoalRec) (kind : CauseKind) (core world : Nat)
  | context (c : Cause) (vdev ctx : Nat) (engine : Engine) (addr : Nat) (met : Option (CoalRec × Nat × Nat) := none)
  | die (kind a b : Nat)
  | integrity (stack level chan row0 rows : Nat) (mirrored : Bool) (owners : List Nat)
  | devices (kind : Nat) (list : List Nat)
  /-- a repair (R11, R12, R197): the matrix unit has recomputed a step for a context's operation -/
  | rerun (vd ctx team : Nat) (pc : BitVec 56)
  /-- a detected error in the SRAM slice of a core (R153): the unit, the bank and the owner's device, context and team; none for a FREE unit -/
  | slice (core unit bank : Nat) (owner : Option (Nat × Nat × Nat))
  /-- the 32-byte entry that the pager keeps for an access, written when it raises a cause (R299) -/
  | entry (bytes : List (BitVec 8))
  deriving DecidableEq, Repr

end Sys2Proof.Machine
end

