-- ==== Sys2Proof/Machine/State.lean ====
section
/-! DEFINITION. The machine's state as plain data, the reasons a step can stop, and the state after reset. -/

namespace Sys2Proof.Machine

/-- The reasons a step stops the machine. -/
inductive Fault where
  /-- Raised by `step` when the package has no power and the next event is not BOOT: nothing runs (R398,
  R424). Safe: the machine has stopped. -/
  | noPower
  deriving DecidableEq, Repr

/-- The reasons the model gives no next state. -/
inductive Refusal where
  /-- Raised by `exec` for a row that has no meaning yet. Safe. -/
  | notModelled (mnemonic : String)
  /-- Raised by the meaning of an instruction word when no run of the sub-core that has the turn issues it: `step`
  never asks for it, so no step of the machine is left out. Safe. -/
  | noIssuingGroup
  deriving DecidableEq, Repr

/-- A core's own state (R130 to R155); a unit, block or queue that is not listed is FREE, unbound or at 0. -/
structure Core where
  world : Nat
  clock : Nat
  lag : Int
  offline : Bool
  /-- the run of each sub-core (R55), and the runs it has begun (R133) -/
  runs : Table Run
  runsBegun : Table Nat
  /-- the 8-bit generation of each slot (R131) -/
  slotGen : Regs 8
  /-- owners of the register blocks, keyed `256 sc + b`, and of the SRAM units (R147) -/
  blocks : Table Owner
  units : Table Owner
  l1 : Table (BitVec 8)
  iq : Table ItemQueue
  /-- item queues of pre-empted grids whose place another grid has taken, keyed `4 grid + q` (R143, R148) -/
  iqAway : Table ItemQueue
  /-- compaction is due at the next slice boundary (R267) -/
  compact : Bool
  coal : List CoalRec
  recSeq : Nat
  /-- the matrix unit's operation queue (R186) -/
  mq : List MatrixOp
  /-- the team whose operation ran a step last (R192), and the channel that wrote a row last (R209) -/
  mturn : Nat
  cturn : Nat
  /-- victims whose operations the matrix unit and the caster refuse (R206, R217) -/
  mrefused : List Victim
  crefused : List Victim
  refused : List Victim
  permits : Nat
  /-- the stream record that was served last (R135), as `8 slot + record` -/
  sturn : Nat
  /-- private copies of translations, the latest first (R293) -/
  tlb : List Xlation
  /-- words of the slice, by their offset in 8 bytes, and lines of the L1, by the key of their first byte, that read with a detected error
  (R153); and the errors counted in FREE units -/
  sramBad : List Nat
  l1Bad : List Nat
  sramErrors : Nat
  /-- steps of the multiplier array still to come whose sums disagree (R197) -/
  assayBad : Nat
  /-- coalescer records that a world change has spilled (R150) -/
  coalAway : List CoalRec
  /-- the sub-cores that are compacted as soon as no run of theirs goes on (R267) -/
  compacting : List Nat
  deriving DecidableEq, Repr

/-- A core after reset (R92, R131, R147, R152, R278, R375; DESIGN CHOICE: log 2). -/
def Core.reset : Core :=
  ⟨0, 0, 0, false, [], [], [], [], [], [], [], [], false, [], 0, [], 0, 0, [], [], [], 16, 0, [], [], [], 0, 0, [], []⟩

/-- A compute die after reset (R268, R292, R293, R296; DESIGN CHOICE: log 2 for the way map, R350). -/
def Die.reset : Die :=
  ⟨[], 0, [], [], [], [], 0, [(15, 2)], [], [], 1750, false, [], [], [], 0⟩

/-- The whole package. -/
structure State where
  /-- the MODEL's own: the events that occur next, in order (DESIGN CHOICE: log 1) -/
  agenda : List Instr
  /-- the MODEL's own: the sub-core whose run issues when no event is due, `12 core + sc` (DESIGN CHOICE: log 1) -/
  turn : Nat
  /-- the MODEL's own: the run that has the turn waits, so another sub-core or engine goes on (DESIGN CHOICE: log 1) -/
  waiting : Bool
  /-- the MODEL's own: events of engines begun so far, by which their turns rotate (DESIGN CHOICE: log 1) -/
  tick : Nat
  /-- the MODEL's own: free values drawn so far (DESIGN CHOICE: log 7) -/
  free : Nat
  /-- the MODEL's own: the next unused number for a team, grid, load or flight -/
  nextId : Nat
  powered : Bool
  mem : List Host.Cell
  groups : Table Group
  cores : Table Core
  teams : Table Team
  grids : Table Grid
  clusters : Table Cluster
  dies : Table Die
  flight : List Flight
  /-- requests to peers that groups wait for (R416) -/
  peers : List PeerReq
  vdevs : Table VDev
  bufs : Table BufEntry
  profs : Table Profile
  /-- the endpoint table (R415) -/
  endpoints : Table Endpoint
  keys : Table KeySlot
  stackDies : Table Stack
  /-- the die boundary is DOWN (R316, R333) -/
  boundaryDown : Bool
  /-- no cluster is placed across the boundary until the host orders recovery (R333, R430) -/
  boundaryHeld : Bool
  pager : List PagerReq
  /-- near-bank commands that have not completed, oldest first, and the drains of NBFENCEs (R338, R345) -/
  nb : List NbCmd
  drains : List NbDrain
  sets : Table PlaceSet
  kills : List Kill
  /-- the interrupt-remap table (R394) -/
  remap : Regs 64
  /-- MSI-X messages sent, the latest last: function and vector (R394) -/
  msix : List (Nat × Nat)
  msixDropped : Nat
  errors : List Report
  /-- row links and die links (R316) -/
  links : Table Link
  ports : Table Port
  pkgId : Nat
  /-- the route table: a peer package's mask of ports (R414) -/
  routes : Table Nat
  /-- answers to peers, and their requests that wait (R416) -/
  replies : List PeerReply
  incoming : List PeerIn
  /-- lines of host memory that the host does not complete: 1 UR, 2 CA, 3 poisoned, 4 no completion (R408) -/
  hostBad : Table Nat
  /-- victims whose queues and endpoints refuse work (R396, R421) -/
  qrefused : List Victim
  erefused : List Victim
  mgmt : Mgmt
  gtime : Nat
  deriving DecidableEq, Repr

/-- The state right after reset. -/
def State.reset : State :=
  { agenda := [], turn := 0, waiting := false, tick := 0, free := 0, nextId := 0, powered := true, mem := [], groups := [], cores := [],
    teams := [], grids := [], clusters := [], dies := [], flight := [], peers := [], vdevs := [], bufs := [], profs := [], endpoints := [],
    keys := [], stackDies := [], boundaryDown := false, boundaryHeld := false, pager := [], nb := [], drains := [], sets := [], kills := [], remap := [], msix := [], msixDropped := 0, errors := [],
    links := [], ports := [], pkgId := 0, routes := [], replies := [], incoming := [], hostBad := [], qrefused := [], erefused := [], mgmt := Mgmt.reset,
    gtime := 0 }

end Sys2Proof.Machine
end

