-- ==== Sys2Proof/Machine/Ops.lean ====
section
/-! DEFINITION. The named operations over the state: memory bytes, registers, groups, runs, and taking an
exception (R9, R10, R151, R302). -/

namespace Sys2Proof.Machine

/-! ## Memory bytes -/

/-- The cell number of a location that the package's memory holds: the kinds lie apart. -/
def Place.key : Place → Nat
  | .sram core off => core * 2 ^ 25 + off
  | .dram stack spa => 2 ^ 60 + stack * 2 ^ 44 + spa
  | .host addr => 2 ^ 70 + addr
  | .peer buf off => 2 ^ 80 + buf * 2 ^ 45 + off

/-- The place `n` bytes on, within one access. -/
def Place.plus (p : Place) (n : Nat) : Place :=
  match p with
  | .sram c o => .sram c (o + n)
  | .dram st a => .dram st (a + n)
  | .host a => .host (a + n)
  | .peer b o => .peer b (o + n)

/-- The byte of a memory cell: a cell that is not listed reads 0 (DESIGN CHOICE: log 3). -/
def readCell (m : List Host.Cell) (k : Nat) : BitVec 8 := Regs.get m k

/-- Write a memory cell, keeping the canonical form. -/
def writeCell (m : List Host.Cell) (k : Nat) (b : BitVec 8) : List Host.Cell := Regs.set m k b

/-- The canonical form of memory: addresses strictly rising, and no entry that reads as an unlisted one. -/
def Memory.wf (m : List Host.Cell) : Bool := Table.wf m && m.all fun c => c.2 != 0

/-- `n` bytes from a cell on. -/
def readCells (m : List Host.Cell) (k n : Nat) : List (BitVec 8) := (List.range n).map fun i => readCell m (k + i)

/-- Write bytes from a cell on. -/
def writeCells (m : List Host.Cell) (k : Nat) : List (BitVec 8) → List Host.Cell
  | [] => m
  | b :: bs => writeCells (writeCell m k b) (k + 1) bs

/-- Set `n` cells from one on to 0. -/
def zeroCells (m : List Host.Cell) (k n : Nat) : List Host.Cell :=
  m.filter fun c => decide (c.1 < k) || decide (k + n ≤ c.1)

/-- A number from its bytes, the lowest address first (R5). -/
def ofBytes : List (BitVec 8) → Nat
  | [] => 0
  | b :: bs => b.toNat + 256 * ofBytes bs

/-- The `n` bytes of a number, the lowest address first (R5). -/
def toBytes : Nat → Nat → List (BitVec 8)
  | 0, _ => []
  | n + 1, x => BitVec.ofNat 8 x :: toBytes n (x / 256)

/-- A field `[hi:lo]` of a number (R5). -/
def bits (x hi lo : Nat) : Nat := x / 2 ^ lo % 2 ^ (hi + 1 - lo)

/-- One bit of a number (R5). -/
def bit (x i : Nat) : Bool := x / 2 ^ i % 2 = 1

/-! ## Where things are -/

/-- The core of a global slot number `192 core + 16 sc + s` (R131). -/
def slotCore (slot : Nat) : Nat := slot / 192

/-- The core-wide slot number (R131). -/
def slotIn (slot : Nat) : Nat := slot % 192

/-- The sub-core of a slot (R131). -/
def slotSub (slot : Nat) : Nat := slot % 192 / 16

/-- The compute die of a logical core: columns 0 to 3 are die 0 (R2). -/
def coreDie (core : Nat) : Nat := if core % 8 < 4 then 0 else 1

/-- The compute die of a stack (R1). -/
def stackDie (stack : Nat) : Nat := if stack < 4 then 0 else 1

/-- A core. -/
def State.core (s : State) (c : Nat) : Core := s.cores.getD c Core.reset

/-- Set a core. -/
def State.setCore (s : State) (c : Nat) (x : Core) : State := { s with cores := s.cores.put c x }

/-- A compute die. -/
def State.die (s : State) (d : Nat) : Die := s.dies.getD d Die.reset

/-- The parked access still waits. -/
def State.isParked (s : State) (die seq : Nat) : Bool := ((s.die die).faults.find seq).isSome

/-- Set a compute die. -/
def State.setDie (s : State) (d : Nat) (x : Die) : State := { s with dies := s.dies.put d x }

/-- Set a group. -/
def State.setGroup (s : State) (slot : Nat) (g : Group) : State := { s with groups := s.groups.put slot g }

/-- A team that does not exist. -/
def Team.gone : Team := ⟨0, 0, 0, 0, 0, [], [], false, [], 0, [], [], 0, [], [], [], [], [], 0, none, [], [], true, [], [], none, 0, 0, false⟩

/-- A team. -/
def State.team (s : State) (t : Nat) : Team := s.teams.getD t Team.gone

/-- Set a team. -/
def State.setTeam (s : State) (t : Nat) (x : Team) : State := { s with teams := s.teams.put t x }

/-- A grid that does not exist. -/
def Grid.gone : Grid := ⟨[], 0, 0, 0, 0, 0, none, none, 0, 0, 0, 0, 0, .none, [], none, false, none, none, 0⟩

/-- A grid. -/
def State.grid (s : State) (n : Nat) : Grid := s.grids.getD n Grid.gone

/-- Set a grid. -/
def State.setGrid (s : State) (n : Nat) (x : Grid) : State := { s with grids := s.grids.put n x }

/-- A virtual device. -/
def State.vdev (s : State) (v : Nat) : VDev := s.vdevs.getD v VDev.absent

/-- Set a virtual device. -/
def State.setVdev (s : State) (v : Nat) (x : VDev) : State := { s with vdevs := s.vdevs.put v x }

/-- A context of a virtual device. -/
def State.ctx (s : State) (v c : Nat) : Ctx := (s.vdev v).ctxs.getD c Ctx.zero

/-- Set a context. -/
def State.setCtx (s : State) (v c : Nat) (x : Ctx) : State :=
  s.setVdev v { s.vdev v with ctxs := (s.vdev v).ctxs.put c x }

/-- A queue of a virtual device. -/
def State.queue (s : State) (v q : Nat) : Queue := (s.vdev v).queues.getD q Queue.zero

/-- Set a queue. -/
def State.setQueue (s : State) (v q : Nat) (x : Queue) : State :=
  s.setVdev v { s.vdev v with queues := (s.vdev v).queues.put q x }

/-- A field of a grid's record at a byte offset, `[hi:lo]` of the 64-bit word there (R260). -/
def Grid.field (g : Grid) (off hi lo : Nat) : Nat := bits (ofBytes ((g.record.drop off).take 8)) hi lo

/-- The tangent count k of a grid's groups (R260, R21). -/
def Grid.tangents (g : Grid) : Nat := g.field 0x10 53 51

/-- The vector blocks per group b (R260, R17). -/
def Grid.regb (g : Grid) : Nat := g.field 0x10 50 47

/-- The team's SRAM allocation in bytes (R260). -/
def Grid.sramsz (g : Grid) : Nat := g.field 0x18 31 0

/-- TSTRIDE in bytes (R260, R161). -/
def Grid.tstride (g : Grid) : Nat := g.field 0x18 63 32

/-- The grid of a team. -/
def State.gridOf (s : State) (team : Nat) : Grid := s.grid (s.team team).grid

/-- A feature bit is enabled (R425). -/
def State.feature (s : State) (n : Nat) : Bool := s.mgmt.featEn.getLsbD n

/-- Whose turn it is after the one that had it last, among those that can go on (R192, R209). -/
def turnAfter (last : Nat) (l : List Nat) : Option Nat :=
  let later := l.filter fun n => decide (last < n)
  (if later.isEmpty then l else later).min?

/-! ## Stacks: addresses, rows, the RAS log and counter blocks (R319, R327, R331, R360) -/

/-- A stack and its base die. -/
def State.stack (s : State) (n : Nat) : Stack := s.stackDies.getD n Stack.reset

/-- Set a stack. -/
def State.setStack (s : State) (n : Nat) (x : Stack) : State := { s with stackDies := s.stackDies.put n x }

/-- The row index of an SPA (R319). -/
def spaRow (spa : Nat) : Nat := spa / 2 ^ 22

/-- The channel of an SPA (R319). -/
def spaChan (spa : Nat) : Nat := bits spa 20 16

/-- The bank pair of an SPA (R319). -/
def spaPair (spa : Nat) : Nat := bits spa 20 10

/-- The channel-local address of an SPA (R319). -/
def spaLocal (spa : Nat) : Nat := spa / 2 ^ 21 * 65536 + spa % 65536

/-- The row of the physical allocation table that holds an SPA: 128 KiB of channel-local address (R331). -/
def patKey (spa : Nat) : Nat := spaChan spa * 65536 + spaRow spa

/-- The owner of an SPA's row, none when FREE (R331). -/
def Stack.owner (k : Stack) (spa : Nat) : Option Nat := k.pat.find (patKey spa)

/-- The SPA lies in the keyed portion of its stack (R358). -/
def Stack.keyed (k : Stack) (spa : Nat) : Bool := decide (spaRow spa < k.keyedRow)

/-- The counter block of an SPA (R358, R360). -/
def Stack.block (k : Stack) (spa : Nat) : CtrBlock := k.blocks.getD (spa / 1024) CtrBlock.zero

/-- The Crucible's domain (R318). -/
def crucible : Nat := 0xFFE

/-- Add an entry to the RAS log, which keeps the latest 4,096 (R327). -/
def Stack.log (k : Stack) (e : RasEntry) : Stack := { k with ras := (k.ras ++ [e]).drop (k.ras.length + 1 - 4096) }

/-- The 64 bytes of a counter block. -/
def CtrBlock.bytes (b : CtrBlock) : List (BitVec 8) :=
  toBytes 8 (b.major + 2 ^ 44 * b.kgen) ++
  toBytes 40 ((List.range 16).foldl (fun n i => n + (b.minors.get i).toNat * 2 ^ (20 * i)) 0) ++
  toBytes 8 b.sealMac.toNat ++ toBytes 8 (b.kslot + (if b.keyv then 2 ^ 14 else 0))

/-- The counter block of 64 bytes. -/
def CtrBlock.ofBytes (bs : List (BitVec 8)) : CtrBlock :=
  let n := Machine.ofBytes bs
  ⟨bits n 43 0, bits n 63 44,
   (List.range 16).foldl (fun (r : Regs 20) i => r.set i (BitVec.ofNat 20 (bits n (64 + 20 * i + 19) (64 + 20 * i)))) [],
   BitVec.ofNat 56 (bits n 439 384), bits n 461 448, bit n 462⟩

/-! ## The counter tree (R364, R365; DESIGN CHOICE: log 10) -/

/-- The number of the 8 KiB of channel-local address that holds an SPA, counted channel by channel (R364, R366). -/
def treeIndex (spa : Nat) : Nat := spaChan spa * 2 ^ 18 + spaLocal spa / 8192

/-- The first SPA of the 8 KiB with a number. -/
def treeSpa (n : Nat) : Nat :=
  let l := n % 2 ^ 18 * 8192
  l / 65536 * 2 ^ 21 + n / 2 ^ 18 * 65536 + l % 65536

/-- The place of an entry: that of child `n` in the nodes of a level. Node `m` of the level holds the entries of children `8 m` to `8 m + 7`, and
level 8 is the root (R364). -/
def treeSlot (level n : Nat) : Nat := level * 2 ^ 24 + n

/-- The 64 bytes of a node (R364): eight entries, and 64 reserved bits. -/
def nodeBytes (t : Table (BitVec 56)) (level n : Nat) : List (BitVec 8) :=
  (List.range 8).flatMap (fun e => toBytes 7 (t.getD (treeSlot level (8 * n + e)) 0).toNat) ++ List.replicate 8 0

/-- One copy of the tree's nodes. -/
def Stack.nodes (k : Stack) (mirror : Bool) : Table (BitVec 56) := if mirror then k.mirror else k.tree

/-- What the entry of a child at a level is to hold (R364): the CMAC, under the tree key, of the eight counter blocks of its 8 KiB, or of the child
node, and the position; none over a child that nothing has written. -/
def Stack.childMac (k : Stack) (t : Table (BitVec 56)) (level n : Nat) : Option (BitVec 56) :=
  if level ≤ 1 then
    let bs := (List.range 8).map fun i => k.blocks.find (treeSpa n / 1024 + i)
    if bs.all Option.isNone then none
    else some (Config.cmac k.treeKey (bs.flatMap (fun b => (b.getD CtrBlock.zero).bytes) ++ toBytes 8 (treeSlot level n)))
  else if (List.range 8).all fun e => (t.find (treeSlot (level - 1) (8 * n + e))).isNone then none
  else some (Config.cmac k.treeKey (nodeBytes t (level - 1) n ++ toBytes 8 (treeSlot level n)))

/-- The first row of a node's span, by channel and row, and its rows (R365, R366); rows of a channel are counted from `2^14` times its number. -/
def nodeSpan (level n : Nat) : Nat × Nat := (n * 8 ^ level / 16, max 1 (8 ^ level / 16))

/-- The owners of rows in a node's span (R331, R365). -/
def Stack.spanOwners (k : Stack) (level n : Nat) : List Nat :=
  let (r0, rs) := nodeSpan level n
  ((k.pat.filter fun e => let r := e.1 / 65536 * 2 ^ 14 + e.1 % 65536
    decide (r0 ≤ r) && decide (r < r0 + rs)).map Prod.snd).dedup

/-- A node has a mirror (R365): an inner node whose span holds rows of more than one owner, unless the stack is the only one. -/
def Stack.mirrored (k : Stack) (lone : Bool) (level n : Nat) : Bool :=
  !lone && decide (2 ≤ level) && decide (2 ≤ (k.spanOwners level n).length)

/-- The copy of a node that a check uses (R364, R365): the first copy, or else the mirror, of those that are in use, read without a detected error
and have the CMAC that the parent's entry gives; none when no copy passes. `fuel` levels lie above it, the last being the root, which is held on
the I/O die. -/
def Stack.goodCopy (k : Stack) (lone : Bool) : Nat → Nat → Nat → Option Bool
  | 0, _, _ => some false
  | fuel + 1, level, n => match k.goodCopy lone fuel (level + 1) (n / 8) with
    | none => none
    | some up =>
      let want := (k.nodes up).find (treeSlot (level + 1) n)
      let passes (m : Bool) : Bool :=
        !k.treeBad.contains (level, n, m) && !k.treeOut.contains (level, n, m) && k.childMac (k.nodes m) (level + 1) n == want
      if passes false then some false else if k.mirrored lone level n && passes true then some true else none

/-- The counter block of an SPA passes the check up the tree (R364). -/
def Stack.blockOk (k : Stack) (lone : Bool) (spa : Nat) : Bool :=
  match k.goodCopy lone 7 1 (treeIndex spa / 8) with
  | none => false
  | some m => k.childMac [] 1 (treeIndex spa) == (k.nodes m).find (treeSlot 1 (treeIndex spa))

/-- Set an entry of one copy. -/
def setEntry (t : Table (BitVec 56)) (level n : Nat) (x : Option (BitVec 56)) : Table (BitVec 56) :=
  match x with
  | some v => t.put (treeSlot level n) v
  | none => t.del (treeSlot level n)

/-- Bring the path from a counter block to the root up to date, in both copies (R364, R365). -/
def Stack.updatePath (k : Stack) (spa : Nat) : Stack :=
  (List.range 8).foldl (fun (k : Stack) i =>
    let n := treeIndex spa / 8 ^ i
    { k with tree := setEntry k.tree (i + 1) n (k.childMac k.tree (i + 1) n),
             mirror := setEntry k.mirror (i + 1) n (k.childMac k.mirror (i + 1) n) }) k

/-- Write a counter block, by the KiB of its SPA, or take it out of its frame. -/
def Stack.putBlock (k : Stack) (a : Nat) (b : Option CtrBlock) : Stack :=
  match b with
  | some x => ({ k with blocks := k.blocks.put a x } : Stack).updatePath (1024 * a)
  | none => ({ k with blocks := k.blocks.del a } : Stack).updatePath (1024 * a)

/-- No other stack is fitted (R365). -/
def State.lone (s : State) (st : Nat) : Bool := (List.range 8).all fun n => n == st || (s.stack n).absent

/-! ## Free values -/

/-- Draw a free value (DESIGN CHOICE: log 7). -/
def State.draw (s : State) : Nat × State := (Config.free s.free, { s with free := s.free + 1 })

/-! ## Register cells -/

/-- The register that a cell belongs to (R66). -/
def RCell.name : RCell → RegName
  | .v _ key _ => .v (key / 8)
  | .s n _ => .s n
  | .p _ i _ => .p i
  | .ix _ k _ => .ix k
  | .win k _ _ => .win k

/-- Two register cells name the same place. -/
def RCell.samePlace : RCell → RCell → Bool
  | .v l k _, .v l' k' _ => l == l' && k == k'
  | .s n _, .s n' _ => n == n'
  | .p l i _, .p l' i' _ => l == l' && i == i'
  | .ix l k _, .ix l' k' _ => l == l' && k == k'
  | .win k _ _, .win k' _ _ => k == k'
  | _, _ => false

/-- A lane of a group. -/
def Group.lane (g : Group) (l : Nat) : Lane := g.lanes.getD l Lane.gone

/-- Change a lane of a group. -/
def Group.setLane (g : Group) (l : Nat) (x : Lane) : Group := { g with lanes := g.lanes.put l x }

/-- The index window k: empty (1, 0) until IXSET sets one (R13, R19). -/
def Group.win (g : Group) (k : Nat) : BitVec 7 × BitVec 7 := g.wins.getD k (1, 0)

/-- Predicate i of a lane: P0 is true (R13, R20). -/
def Lane.pred (x : Lane) (i : Nat) : Bool := i == 0 || x.preds.getLsbD i

/-- Set predicate i of a lane: writes to P0 are discarded (R20). -/
def Lane.setPred (x : Lane) (i : Nat) (b : Bool) : Lane :=
  if i = 0 then x
  else { x with preds := if b then x.preds ||| ((1 : BitVec 8) <<< i) else x.preds &&& ~~~((1 : BitVec 8) <<< i) }

/-- The residue of a register word: 0 to 6, so that the code 7 is never valid (R22). -/
def residue (x : Word) : Nat := x.toNat % 7

/-- The parity of a number's low `n` bits (R22). -/
def parity (n x : Nat) : Nat := ((List.range n).filter (bit x)).length % 2

/-- The code of the value that a place holds (R22). -/
def Group.codeOf (g : Group) : Stored → Nat
  | .v l key => residue ((g.lane l).v.get key)
  | .s n => residue (g.s.get n)
  | .q q n key => residue (((g.queues.getD q []).getD n []).get key)
  | .p l => parity 8 (g.lane l).preds.toNat
  | .ix l k => parity 8 ((g.lane l).ix.get k).toNat
  | .win k => parity 14 ((g.win k).1 ++ (g.win k).2).toNat
  | .pc l => parity 56 (g.lane l).pc.toNat
  | .meet l => parity 56 (g.lane l).meet.toNat
  | .unit => 0

/-- A place whose stored code is not that of its value (R23). -/
def Group.mismatch (g : Group) (c : Stored) : Bool := g.codes.any fun x => x.1 = c && x.2 != g.codeOf c

/-- A write stores its value's code (R22). -/
def Group.encoded (g : Group) (cs : List Stored) : Group := { g with codes := g.codes.filter fun x => !cs.contains x.1 }

/-- Write one register cell, not its code. -/
def Group.write (g : Group) : RCell → Group
  | .v l key x => g.setLane l { g.lane l with v := (g.lane l).v.set key x }
  | .s n x => { g with s := g.s.set n x }
  | .p l i b => g.setLane l ((g.lane l).setPred i b)
  | .ix l k x => g.setLane l { g.lane l with ix := (g.lane l).ix.set k x }
  | .win k lo hi => { g with wins := g.wins.put k (lo, hi) }

/-- The cell that a write would overwrite, with the value that it holds. -/
def Group.before (g : Group) : RCell → RCell
  | .v l key _ => .v l key ((g.lane l).v.get key)
  | .s n _ => .s n (g.s.get n)
  | .p l i _ => .p l i ((g.lane l).pred i)
  | .ix l k _ => .ix l k ((g.lane l).ix.get k)
  | .win k _ _ => .win k (g.win k).1 (g.win k).2

/-- Write cells in order. -/
def Group.writes (g : Group) (cs : List RCell) : Group := cs.foldl Group.write g

/-- The registers as a reader that issues now obtains them: where a fixed-latency result is not available, the
value before the oldest such producer's write (R66, SCHK clear). -/
def Group.seen (g : Group) : Group := g.hazards.foldr (fun h g => g.writes h.old) g

/-- A scoreboarded write to registers has landed: writes to one register land in issue order, so the earlier fixed-latency results in
them have landed too (R64). -/
def Group.landed (g : Group) (names : List RegName) : Group :=
  let left := g.hazards.map fun h =>
    { h with regs := h.regs.filter fun r => !names.contains r, old := h.old.filter fun c => !names.contains c.name }
  { g with hazards := left.filter fun h => !h.regs.isEmpty }

/-- Write an instruction's results. With a fixed latency they become available after that many clocks
(R64, R65); otherwise at once. -/
def Group.commit (g : Group) (lat : Option Nat) (pc : BitVec 56) (cs : List RCell) : Group :=
  match lat with
  | none => ((g.encoded (cs.map RCell.stored)).writes cs).landed (cs.map RCell.name)
  | some n =>
    { (g.encoded (cs.map RCell.stored)).writes cs with
      hazards := g.hazards ++ [⟨(cs.map RCell.name).dedup, cs.map g.before, n, pc⟩] }

/-- The pending results, the oldest first, after those whose time is up have become available: an older result of the same register and
lane no longer shows (R64, R66). The cells that have become available come with them. -/
def Hazard.expire : List Hazard → List Hazard × List RCell
  | [] => ([], [])
  | h :: hs =>
    let (rest, done) := Hazard.expire hs
    if h.left = 0 then (rest, h.old ++ done)
    else
      let old := h.old.filter fun c => !done.any c.samePlace
      (if old.length = h.old.length then h :: rest
       else if old.isEmpty then rest
       else { h with old := old, regs := (old.map RCell.name).dedup } :: rest, done)

/-- Count `n` clocks of stall counts against the pending fixed-latency results (R66). -/
def Group.age (g : Group) (n : Nat) : Group :=
  { g with hazards := (Hazard.expire (g.hazards.map fun h => { h with left := h.left - n })).1 }

/-- The lanes of a lane set, ascending. -/
def lanesOf (m : BitVec 64) : List Nat := (List.range 64).filter fun l => m.getLsbD l

/-- The set of a list of lanes. -/
def laneSet (ls : List Nat) : BitVec 64 := ls.foldl (fun m l => m ||| ((1 : BitVec 64) <<< l)) 0

/-- Change the lanes of a list. -/
def Group.onLanes (g : Group) (ls : List Nat) (f : Lane → Lane) : Group :=
  ls.foldl (fun g l => g.setLane l (f (g.lane l))) g

/-! ## Runs and stops -/

/-- What a trap's record and trap state say beside where it was met (R151, R303): the cause; the address, when
the cause carries one; TAUX; the lanes, when they are not the active ones; whether the group resumes after the
instruction; and the floating-point exceptions that FP_TRAP leaves in FLAGS (R34). -/
structure Trap where
  cause : Cause
  addr : Option DWord := none
  aux : DWord := 0
  lanes : Option (BitVec 64) := none
  after : Bool := false
  /-- the lanes of the set that are not active go on to the next word (R101) -/
  leave : Bool := false
  flags : BitVec 6 := 0
  /-- the enabled ones of them, which the record names (R34) -/
  excs : BitVec 6 := 0
  /-- the engine that met the cause (R299) -/
  eng : Engine := .core
  /-- the bytes whose read met it: what a detected error is logged with (R153, R324) -/
  read : List (Place × Nat) := []
  /-- the kept cause that is cleared as it is raised (R204, R222, R276): 0 the group's matrix cause, `n + 1` that of channel n, 17 that of the
  team's children -/
  clears : Option Nat := none
  /-- the access of an engine that met a kept cause had been replayed (R206, R217) -/
  replayed : Bool := false
  deriving DecidableEq, Repr

/-- Why an instruction or an engine's step does not take effect: a trap, or a wait, which carries the state in
which the wait goes on and the events that it waits for. -/
inductive Stop where
  | trap (t : Trap)
  | wait (s : State) (deps : List Instr)
  deriving DecidableEq, Repr

/-- A trap that carries no address. -/
def trapE {α : Type} (c : Cause) : Except Stop α := .error (.trap { cause := c })

/-- A trap of R27: TAUX is the register field value (R303). -/
def trapR {α : Type} (c : Cause) (field : RegField) : Except Stop α :=
  .error (.trap { cause := c, aux := field.setWidth 64 })

/-- A trap that carries an address (R151). -/
def trapA {α : Type} (c : Cause) (addr : DWord) : Except Stop α := .error (.trap { cause := c, addr := some addr })

/-- A wait: what is waited for occurs next, and then others have their turn before the waiting is looked at again
(DESIGN CHOICE: log 1). -/
def State.await (s : State) (deps : List Instr) : State := { s with agenda := deps ++ s.agenda, waiting := true }

/-- The outcome of an event whose effect may have to wait. -/
def waitFor : Except Stop State → State → Host.Outcome State Fault Refusal
  | .ok s, _ => .next s
  | .error (.wait s deps), _ => .next (s.await deps)
  | .error (.trap _), s => .next s

/-- End the run of a sub-core (R55): every fixed-latency result is written before the next run (R64). -/
def State.endRun (s : State) (core sc : Nat) : State :=
  match (s.core core).runs.find sc with
  | none => s
  | some r =>
    let s := s.setCore core { s.core core with runs := (s.core core).runs.del sc }
    { s with groups := s.groups.modify r.slot fun g => { g with hazards := [] } }

/-- The virtual device and context of a group. -/
def State.owner (s : State) (g : Group) : Nat × Nat := ((s.gridOf g.team).vdev, (s.gridOf g.team).ctx)

/-- Whether a victim names a context. -/
def victimHits (v : Victim) (vd ctx : Nat) : Bool :=
  v.vdev == vd && (match v.ctx with | none => true | some c => c == ctx)

/-- The slots of the groups of a victim. -/
def State.victimSlots (s : State) (v : Victim) : List Nat :=
  (s.groups.filter fun kg => victimHits v (s.owner kg.2).1 (s.owner kg.2).2).map Prod.fst

/-- Stop issue for groups: their runs end, and none of them is ready again (R10, R155). -/
def State.stopGroups (s : State) (slots : List Nat) : State :=
  slots.foldl (fun s slot =>
    let s := match (s.core (slotCore slot)).runs.find (slotSub slot) with
      | some r => if r.slot = slot then s.endRun (slotCore slot) (slotSub slot) else s
      | none => s
    { s with groups := s.groups.modify slot fun g => { g with stopped := true } }) s

/-- A field `[hi:lo]` of the 64-bit word at a byte offset of a device's profile (R377). -/
def VDev.prof (d : VDev) (off hi lo : Nat) : Nat := bits (d.profile.toNat / 2 ^ (8 * off)) hi lo

/-- Raise vector `n` of a device (R394): dropped and counted unless its remap entry names the device; otherwise counted in the
entry, and sent as an MSI-X message, or left pending when the vector is masked. -/
def State.interrupt (s : State) (vd n : Nat) : State :=
  let d := s.vdev vd
  let k := d.prof 0x20 44 32 + n
  let e := (s.remap.get k).toNat
  if d.prof 0x20 57 45 ≤ n || !bit e 0 || bits e 11 1 != vd then { s with msixDropped := s.msixDropped + 1 }
  else
    let s := { s with remap := s.remap.set k (BitVec.ofNat 64 (e + 2 ^ 24)) }
    if d.msixMask.contains n then s.setVdev vd { d with msixPending := (d.msixPending ++ [n]).dedup }
    else { s with msix := s.msix ++ [(vd, n)] }

/-- Raise a vector field: 0xFFF names none (R376, R381). -/
def State.interruptField (s : State) (vd f : Nat) : State := if f = 0xFFF then s else s.interrupt vd f

/-- The devices that a report names (R12). -/
def Report.named : Report → List Nat
  | .record r _ _ _ => [r.vdev]
  | .context _ vd _ _ _ _ => [vd]
  | .die kind a b => if kind = 14 then [a] else if kind = 2 then [b] else []
  | .integrity _ _ _ _ _ _ owners => owners
  | .devices _ list => list
  | .rerun vd _ _ _ => [vd]
  | .slice _ _ _ owner => (owner.map fun o => o.1).toList
  | .entry _ => []

/-- Report to error collection (R12), which raises the error vector of each device that the report names (R309; DEDUCED: log 26), and tells the physical-function driver through MSI-X entry 0 of function 0 (R309, R429). -/
def State.report (s : State) (r : Report) : State :=
  let s := { s with errors := s.errors ++ [r], msix := s.msix ++ [(0, 0)] }
  (r.named.filter fun v => (s.vdevs.find v).any fun d => d.state != .absent).foldl (fun s v => s.interruptField v (s.vdev v).verrvec) s

/-- Put a queue in ERROR (R384, R391): the failing packet's ring index and TAG are recorded, the status block is
to be written, and EVEC raised. A queue that is DISABLED or already in ERROR is left. -/
def Queue.fail (q : Queue) (c : Cause) (idx tag : Word) : Queue :=
  if q.state = .error ∨ q.state = .disabled then q
  else { q with state := .error, cause := c, failIdx := idx, failTag := tag, statDue := true, evecDue := true }

/-- The packet that R384 names when a queue's context is contained: the oldest that had begun and not
completed, a DISPATCH completing with its grid; otherwise RDIDX and 0. -/
def Queue.failPoint (q : Queue) : Word × Word :=
  match q.packets.find? fun p => p.begun && !(p.done && p.grids.isEmpty) with
  | some p => (BitVec.ofNat 32 p.idx, ((p.words.get 0) >>> 32).setWidth 32)
  | none => (q.rdidx, 0)

/-- Fence a context (R9, R10): it enters ERROR with the cause, its groups stop, and its queues enter ERROR. A context that is in ERROR already
keeps its first cause. -/
def State.fence (s : State) (vd ctx : Nat) (c : Cause) : State :=
  let x := s.ctx vd ctx
  let s := if x.state = 2 then s else s.setCtx vd ctx { x with state := 2, cause := c }
  let s := s.stopGroups (s.victimSlots ⟨vd, some ctx⟩)
  let d := s.vdev vd
  s.setVdev vd { d with
    queues := d.queues.mapVals fun _ q => if q.ctx = ctx then q.fail c q.failPoint.1 q.failPoint.2 else q }

/-- Contain a context (R9, R10, R302): it is fenced, and the report goes to error collection (R309), with the record of the core that met the
cause, if one did. -/
def State.contain (s : State) (vd ctx : Nat) (c : Cause) (e : Engine) (addr : Nat) (met : Option (CoalRec × Nat × Nat) := none) : State :=
  (s.report (.context c vd ctx e addr met)).fence vd ctx c

/-! ## Detected errors (R153, R324, R364, R365) -/

/-- Contain every context of a device that is ACTIVE. -/
def State.containAll (s : State) (vd : Nat) (c : Cause) (e : Engine) : State :=
  ((s.vdev vd).ctxs.filter fun x => x.2.state == 1).foldl (fun s x => s.contain vd x.1 c e 0) s

/-- The nodes on the path of a counter block that are served from their mirrors, their first copies having failed (R365). -/
def Stack.repairs (k : Stack) (lone : Bool) (spa : Nat) : List (Nat × Nat) :=
  ((List.range 7).map fun i => (i + 1, treeIndex spa / 8 ^ (i + 1))).filter fun x =>
    k.goodCopy lone (8 - x.1) x.1 x.2 == some true && !k.treeOut.contains (x.1, x.2, false)

/-- The report of R366 for a node, or for a counter block at level 0. -/
def State.reportNode (s : State) (st level n : Nat) (mirrored : Bool) (owners : List Nat) : State :=
  let (r, rows) := nodeSpan level n
  s.report (.integrity st level (r / 2 ^ 14) (r % 2 ^ 14) rows mirrored owners)

/-- A counter block has been read: each first copy on its path that failed stays out of use, and the repair is counted and reported
(R11, R365). -/
def State.mirrorServed (s : State) (st spa : Nat) : State :=
  if !(s.stack st).keyed spa then s
  else ((s.stack st).repairs (s.lone st) spa).foldl (fun s x =>
    (s.setStack st { s.stack st with treeOut := (s.stack st).treeOut ++ [(x.1, x.2, false)] }).reportNode st x.1 x.2 true []) s

/-- The owners that have a keyed line in a node's span (R365). -/
def Stack.keyedOwners (k : Stack) (level n : Nat) : List Nat :=
  (k.spanOwners level n).filter fun o => k.blocks.any fun b =>
    b.2.keyv && !b.2.minors.isEmpty && k.owner (1024 * b.1) == some o && treeIndex (1024 * b.1) / 8 ^ level == n

/-- A counter block has failed the check up the tree (R365): every owner with a keyed line in the span of the node that failed, or under the
block's own entry, is contained with INTEGRITY, in one report. -/
def State.treeFailed (s : State) (st spa : Nat) : State :=
  let k := s.stack st
  if !k.keyed spa || k.blockOk (s.lone st) spa then s
  else
    let x := (((List.range 7).reverse.map fun i => (i + 1, treeIndex spa / 8 ^ (i + 1))).find? fun x =>
      (k.goodCopy (s.lone st) (8 - x.1) x.1 x.2).isNone).getD (0, treeIndex spa)
    if k.treeOut.contains (x.1, x.2, true) then s
    else
      let owners := (k.keyedOwners x.1 x.2).mergeSort
      let s := s.setStack st { k with treeOut := k.treeOut ++ [(x.1, x.2, false), (x.1, x.2, true)] }
      (owners.foldl (fun s o => s.containAll o .integrity .walker) s).reportNode st x.1 x.2 false owners

/-- A channel is recalibrated (R321). Whether that succeeds is open (DESIGN CHOICE: log 7): a channel that fails answers UNCORR until it is
retired. -/
def State.recalibrate (s : State) (stack ch : Nat) : State :=
  let (x, s) := s.draw
  let s := s.setStack stack { s.stack stack with chanErrors := (s.stack stack).chanErrors.del ch }
  if x % 2 = 0 then s
  else
    let k := s.stack stack
    (s.setStack stack { k.log ⟨ch * 65536, 2, crucible, s.gtime⟩ with deadChans := (k.deadChans ++ [ch]).dedup }).report (.die 8 stack ch)

/-- A read of a line has met a detected error (R321, R324): it is logged with its SPA and the owner of its row, counted against its channel, and,
in a region of the Crucible, reported. A count that passes the threshold makes the channel be recalibrated. -/
def State.detect (s : State) (stack spa kind : Nat) : State :=
  let k := s.stack stack
  let own := (k.owner spa).getD crucible
  let n := k.chanErrors.getD (spaChan spa) 0 + 1
  let s := s.setStack stack { k.log ⟨spa, kind, own, s.gtime⟩ with chanErrors := k.chanErrors.put (spaChan spa) n }
  let s := if own = crucible then s.report (.die 5 stack spa) else s
  if n = s.mgmt.chanLimit + 1 then s.recalibrate stack (spaChan spa) else s

/-- The words of a slice that hold bytes from an offset on and read with a detected error (R153). -/
def Core.badWords (k : Core) (off n : Nat) : List Nat := k.sramBad.filter fun w => decide (8 * w < off + n) && decide (off < 8 * w + 8)

/-- Report a detected error of a slice (R136, R153): the report names the unit, the bank and the owner; one in a FREE unit is counted. -/
def State.reportSlice (s : State) (core off : Nat) : State :=
  let k := s.core core
  let own := (k.units.find (off / 65536)).map fun o => (o.vdev, o.ctx, o.team)
  let s := if own.isNone then s.setCore core { k with sramErrors := k.sramErrors + 1 } else s
  s.report (.slice core (off / 65536) (off / 64 % 128) own)

/-- Something that is no access of a context has read a slice's bytes and met a detected error (R153): the owner of the unit is contained. -/
def State.sliceError (s : State) (core off n : Nat) (e : Engine) : State :=
  match (s.core core).badWords off n with
  | [] => s
  | w :: ws =>
    let s := (w :: ws).foldl (fun s w => s.reportSlice core (8 * w)) s
    match (s.core core).units.find (off / 65536) with
    | some o => s.contain o.vdev o.ctx .memUncorrectable e 0
    | none => s

/-- The bytes of an access of which a read has met a detected error, or which failed the check of their counter block: what is logged and reported
beside the containment of the context (R153, R324, R365). -/
def State.detected (s : State) (c : Cause) (ps : List (Place × Nat)) : State :=
  ps.foldl (fun s p => match p.1 with
    | .dram st spa =>
      if c = .integrity then s.treeFailed st spa
      else if c != .memUncorrectable then s
      else
        let k := s.stack st
        ((List.range (p.2 / 64 + 2)).map fun i => spa / 64 * 64 + 64 * i).foldl (fun s a =>
          if a < spa + p.2 && (k.bad.contains (a / 64) || k.deadChans.contains (spaChan a)) then s.detect st a 0 else s) s
    | .sram core off => if c != .memUncorrectable then s else ((s.core core).badWords off p.2).foldl (fun s w => s.reportSlice core (8 * w)) s
    | _ => s) s

/-! ## Records -/

/-- Open a record in a core's coalescer; when all eight are open the oldest closes next (R151). -/
def State.addRecord (s : State) (core : Nat) (r : CoalRec) : State :=
  let k := s.core core
  let s := s.setCore core { k with coal := k.coal ++ [{ r with seq := k.recSeq, opened := s.gtime }], recSeq := (k.recSeq + 1) % 2 ^ 32 }
  match k.coal with
  | x :: _ => if 8 ≤ k.coal.length then { s with agenda := .coalescerClose core x.seq :: s.agenda } else s
  | [] => s

/-- The key by which coalescer records merge (R151): the 4 KiB page of the address, or else the PC. -/
def CoalRec.mergeKey (addr : Option DWord) (pc : BitVec 56) : Bool × Nat :=
  match addr with
  | some a => (true, a.toNat / 4096)
  | none => (false, pc.toNat)

/-- The open record that an event merges into (R151): that of the same context, cause and key. The events of a context that is contained and those
whose groups go on merge apart. -/
def Core.mergesInto (k : Core) (r : CoalRec) : Option CoalRec :=
  k.coal.find? fun x => x.deliver == r.deliver && x.vdev == r.vdev && x.ctx == r.ctx && x.cause = r.cause &&
    CoalRec.mergeKey x.addr x.pc == CoalRec.mergeKey r.addr r.pc

/-- All eight records are open and an event merges into none of them: the oldest closes first (R151). -/
def Core.coalFull (k : Core) (r : CoalRec) : Bool := decide (8 ≤ k.coal.length) && (k.mergesInto r).isNone

/-- Record an event in a core's coalescer (R151): merge it into an open record, or open a new one. The answer is the record's number. -/
def State.coalesce (s : State) (core : Nat) (r : CoalRec) : State × Nat :=
  let k := s.core core
  match k.mergesInto r with
  | some x =>
    (s.setCore core { k with coal := k.coal.map fun y =>
      if y.seq = x.seq then
        { y with groups := y.groups ++ r.groups, count := min 65535 (y.count + r.count), excs := y.excs ||| r.excs }
      else y }, x.seq)
  | none => (s.addRecord core r, k.recSeq)

/-- Where an instruction stands: its group's slot, the lanes of the issuing set and its active lanes, its PC,
the clause that holds it, and the words that it takes. -/
structure Site where
  slot : Nat
  set : BitVec 64
  act : BitVec 64
  pc : BitVec 56
  clause : Word × Nat
  len : Nat
  deriving DecidableEq, Repr

/-- The clause position `n` words on: none at the clause's end (R54). -/
def clauseOn (c : Word × Nat) (n : Nat) : Option (Word × Nat) := if n < c.2 then some (c.1, c.2 - n) else none

/-- Advance the lanes of a set past an instruction (R54). -/
def Group.advance (g : Group) (ls : List Nat) (len : Nat) : Group :=
  g.onLanes ls fun x =>
    { x with pc := x.pc + BitVec.ofNat 56 (4 * len), clause := x.clause.bind fun c => clauseOn c len }

/-- The record of an event of a group (R151, R152). -/
def State.recordOf (s : State) (slot : Nat) (g : Group) (c : Cause) (addr : Option DWord) (pc : BitVec 56)
    (replayed exited deliver : Bool) : CoalRec :=
  { deliver := deliver, kind := c.kind, cause := c, addr := addr, replayed := replayed, exited := exited,
    count := 1, pc := pc, groups := [slotIn slot], vdev := (s.owner g).1, ctx := (s.owner g).2,
    grid := (s.gridOf g.team).seq, gen := (s.core (slotCore slot)).slotGen.get (slotIn slot), seq := 0,
    team := (s.team g.team).index, parked := none, tid := g.team }

/-- Contain the context of a record that a core has made (R151, R382): the record is written to the trap ring like any, delivers no group, and
goes to error collection. -/
def State.containRecord (s : State) (core : Nat) (r : CoalRec) (e : Engine) (addr : Nat) : State :=
  let r := { r with deliver := false }
  let (s, n) := s.coalesce core r
  s.contain r.vdev r.ctx r.cause e addr (some ({ r with seq := n, opened := s.gtime }, core, (s.core core).world))

/-- Contain a context for a cause that a core's access met elsewhere than at an instruction (R9, R151, R382); `slot` is its group's, if that
is still there. -/
def State.containAccess (s : State) (slot vd ctx : Nat) (c : Cause) (e : Engine) (addr : Nat) (pc : BitVec 56) (replayed : Bool) : State :=
  match s.groups.find slot with
  | some g => s.containRecord (slotCore slot) (s.recordOf slot g c (some (BitVec.ofNat 64 addr)) pc replayed (g.lanes.all fun l => l.2.exited) false) e addr
  | none => s.contain vd ctx c e addr

/-- Contain a context for a cause that an engine of a core met for groups of a team (R9, R151, R382): the record names those that are still
there. -/
def State.containEngine (s : State) (core team vd ctx : Nat) (nums : List Nat) (c : Cause) (e : Engine) (addr : Nat) (pc : BitVec 56)
    (replayed : Bool) : State :=
  let slots := (s.groups.filter fun kg => kg.2.team == team && nums.contains kg.2.num).map Prod.fst
  match slots.head?.bind fun slot => (s.groups.find slot).map fun g => (slot, g) with
  | some (slot, g) =>
    s.containRecord core { s.recordOf slot g c (some (BitVec.ofNat 64 addr)) pc replayed false false with groups := slots.map slotIn } e addr
  | none => s.contain vd ctx c e addr

/-- Contain a context for a cause that no access of it met (R151, R154, R333, R396): the core of the first of its groups makes the record. -/
def State.containResident (s : State) (vd ctx : Nat) (c : Cause) : State :=
  let slots := s.victimSlots ⟨vd, some ctx⟩
  match slots.head?.bind fun slot => (s.groups.find slot).map fun g => (slot, g) with
  | some (slot, g) =>
    let pc := ((g.lanes.find? fun l => !l.2.exited).map fun l => l.2.pc).getD 0
    s.containRecord (slotCore slot)
      { s.recordOf slot g c none pc false false false with
        vdev := vd, ctx := ctx,
        groups := (slots.filter fun x => slotCore x == slotCore slot).map slotIn } .core 0
  | none => s.contain vd ctx c .core 0

/-- A walk that serves an address of a context. -/
def Walk.serves (w : Walk) (vd ctx ea : Nat) : Bool := w.vdev == vd && w.ctx == ctx && w.ea / 4096 == ea / 4096

/-- The walk has ended. -/
def WalkPhase.ended : WalkPhase → Bool
  | .failed _ _ => true
  | .done _ => true
  | _ => false

/-- Forget the ended walks of a page once the access that waited for them has met their outcome. -/
def State.dropWalks (s : State) (die vd ctx ea : Nat) : State :=
  s.setDie die { s.die die with walks := (s.die die).walks.keep fun _ w => !(w.serves vd ctx ea && w.phase.ended) }

/-- A team's matrix state leaves FAILED when no group of it holds a kept cause (R194). -/
def State.settleFailed (s : State) (team : Nat) : State :=
  if s.groups.any fun kg => kg.2.team == team && !kg.2.mkept.isEmpty then s
  else s.setTeam team { s.team team with mfailed := none }

/-- Discard the copies that an acquire at a scope requires (R250). -/
def State.discard (s : State) (core scope : Nat) : State :=
  let s := if 3 ≤ scope then s.setCore core { s.core core with l1 := [], l1Bad := [] } else s
  let d := coreDie core
  let s := if 5 ≤ scope then s.setDie d { s.die d with peerCopies := [] } else s
  if scope = 6 then s.setDie d { s.die d with hostCopies := [] } else s

/-- Clear the kept cause that is raised (R204, R222, R276): a team's matrix state leaves FAILED when no group of it holds a kept cause
(R194), a channel becomes IDLE, and the children that made a JOIN invalid are forgotten by the JOIN that has completed, which acquires. -/
def State.clearKept (s : State) (slot : Nat) (n : Option Nat) : State :=
  match n, s.groups.find slot with
  | some 0, some g =>
    let s := { s with groups := s.groups.modify slot fun g => { g with mkept := [] } }
    s.settleFailed g.team
  | some 17, some g =>
    let s := s.setTeam g.team { s.team g.team with childBad := [] }
    { s with groups := s.groups.modify slot fun g => { g with joinMet := none } }.discard (slotCore slot) 5
  | some (n + 1), some g =>
    let t := s.team g.team
    s.setTeam g.team { t with chans := t.chans.modify n fun c => { c with failed := false, kept := none } }
  | _, _ => s

/-- TAKING AN EXCEPTION (R9, R27, R151, R302). The group stops before the instruction, its run ends, and

* a cause of kind F contains the context and is recorded;
* a T cause of a group in trap mode contains the context;
* any other T cause is recorded in the core's coalescer, where it waits for the record to close; when all eight
  records are open the oldest closes first (the instruction then stands and traps again). -/
def State.raise (s : State) (w : Site) (t : Trap) : State :=
  match s.groups.find w.slot with
  | none => s
  | some g =>
    let c := t.cause
    let addr := t.addr
    let core := slotCore w.slot
    let again := g.replay.isSome || t.replayed
    let r := { s.recordOf w.slot g c addr w.pc again false true with excs := t.excs }
    if c.kind = .F || g.trap.active then
      ((s.clearKept w.slot t.clears).containRecord core r t.eng (addr.getD 0).toNat).detected c t.read
    else if (s.core core).coalFull r then
      s.await [.coalescerClose core (((s.core core).coal.head?.map CoalRec.seq).getD 0)]
    else
      let p : Pending :=
        { cause := c, addr := addr, replayed := again, pc := w.pc,
          tpc := if t.after then w.pc + BitVec.ofNat 56 (4 * w.len) else w.pc,
          hdr := if w.clause.2 = 0 then none else if t.after then clauseOn w.clause w.len else some w.clause,
          lanes := t.lanes.getD w.act, aux := t.aux, set := if t.leave then w.act else w.set, gen := r.gen, excs := t.excs }
      let s := ((s.clearKept w.slot t.clears).coalesce core r).1
      let s := s.endRun core (slotSub w.slot)
      let s := match addr with
        | some a => s.dropWalks (coreDie core) r.vdev r.ctx a.toNat
        | none => s
      { s with groups := s.groups.modify w.slot fun g =>
          let g := if t.leave then g.advance (lanesOf (w.set &&& ~~~w.act)) w.len else g
          { g with wait := some .trap, pending := some p, replay := none, fpx := g.fpx ||| t.flags.setWidth 32 } }

end Sys2Proof.Machine
end

