-- ==== Sys2Proof/Machine/Operands.lean ====
section
/-! DEFINITION. Modifier words (R57 to R63), operand forms (R15 to R19), queue pops (R16), and the frame in which
every instruction word issues (R20, R52, R55, R64, R70). -/

namespace Sys2Proof.Machine

/-! ## Modifier words -/

/-- The ARITH word (R58). -/
structure Arith where
  nega : Bool
  absa : Bool
  negb : Bool
  absb : Bool
  negc : Bool
  absc : Bool
  res : Nat
  ftz : Bool
  scale : BitVec 6
  pov : Bool
  poneg : Bool
  poidx : Nat
  c : RegField
  deriving DecidableEq, Repr

/-- An instruction without an ARITH word: every field 0. -/
def Arith.none : Arith := ⟨false, false, false, false, false, false, 0, false, 0, false, false, 0, 0⟩

/-- The fields of an ARITH word (R58). -/
def Arith.of (w : Word) : Arith :=
  { nega := w.getLsbD 28, absa := w.getLsbD 27, negb := w.getLsbD 26, absb := w.getLsbD 25,
    negc := w.getLsbD 24, absc := w.getLsbD 23, res := (w.extractLsb' 21 2).toNat, ftz := w.getLsbD 20,
    scale := w.extractLsb' 14 6, pov := w.getLsbD 13, poneg := w.getLsbD 12,
    poidx := (w.extractLsb' 9 3).toNat, c := w.extractLsb' 2 7 }

/-- The modifier words of one instruction (R57): at most one of each kind. -/
structure Mods where
  arith : Option Arith
  /-- INDEX: K and OFFSET (R60) -/
  index : Option (Nat × Nat)
  /-- DUAL: TMASK and TSTEP (R61) -/
  dual : Option (BitVec 4 × Nat)
  /-- ORDER: FLAV and SCOPE (R62) -/
  order : Option (Nat × Nat)
  /-- EXT: IMM28 (R63) -/
  ext : Option (BitVec 28)
  deriving DecidableEq, Repr

/-- No modifier word. -/
def Mods.none : Mods := ⟨.none, .none, .none, .none, .none⟩

/-- Add one modifier word: none when its kind is reserved or given twice, or a reserved bit is set
(R57 to R63). -/
def Mods.add (m : Mods) (w : Word) : Option Mods :=
  match (w.extractLsb' 29 3).toNat with
  | 0 => if m.arith.isNone && !w.getLsbD 1 then some { m with arith := some (Arith.of w) } else .none
  | 1 => if m.index.isNone && w.extractLsb' 1 19 == 0 then
      some { m with index := some ((w.extractLsb' 27 2).toNat, (w.extractLsb' 20 7).toNat) } else .none
  | 2 => if m.dual.isNone && w.extractLsb' 1 17 == 0 then
      some { m with dual := some (w.extractLsb' 25 4, (w.extractLsb' 18 7).toNat) } else .none
  | 3 => if m.order.isNone && w.extractLsb' 1 22 == 0 && decide ((w.extractLsb' 26 3).toNat < 5) then
      some { m with order := some ((w.extractLsb' 26 3).toNat, (w.extractLsb' 23 3).toNat) } else .none
  | 4 => if m.ext.isNone then some { m with ext := some (w.extractLsb' 1 28) } else .none
  | _ => .none

/-- Read the modifier words of an instruction; none when they are not well formed (R57). -/
def Mods.parse : List Word → Mods → Option Mods
  | [], m => some m
  | w :: ws, m => match m.add w with
    | .none => .none
    | some m => Mods.parse ws m

/-- A field of the EXT word, 0 without one (R63). -/
def Mods.extField (m : Mods) (lo n : Nat) : Nat := ((m.ext.getD 0).extractLsb' lo n).toNat

/-- The number of registers that a TYPE names (R159). -/
def typeWords (ty : Nat) : Nat := if ty = 5 then 2 else if ty = 6 then 4 else 1

/-- The ARITH fields, all 0 without an ARITH word. -/
def Mods.ar (m : Mods) : Arith := m.arith.getD Arith.none

/-- How SCALE is accepted (R59): not at all, 0 to 7 by LEA, or any value by the float instructions. -/
inductive ScaleUse where
  | no | lea | float
  deriving DecidableEq, Repr

/-- The modifier fields and words that an instruction accepts (R59, R437): NEG and ABS of how many sources (A, B,
C in order), RES up to which value, FTZ, SCALE, whether C is used, and which modifier words; `flavs` lists the
flavours that an ORDER word may name, `bank` whether its scope may be BANK. -/
structure Accept where
  neg : Nat := 0
  abs : Nat := 0
  res : Nat := 0
  ftz : Bool := false
  scale : ScaleUse := .no
  useC : Bool := false
  index : Bool := false
  dual : Bool := false
  ext : Bool := false
  needExt : Bool := false
  needOrder : Bool := false
  flavs : List Nat := []
  bank : Bool := false
  /-- it computes or moves tangents in a vector pipe (R64, R77, R106) -/
  moves : Bool := false
  deriving DecidableEq, Repr

/-- Whether the ARITH fields given are accepted (R57 to R59); every instruction accepts POV, PONEG and POIDX. -/
def Accept.arithOk (a : Accept) (x : Arith) : Bool :=
  (!x.nega || decide (0 < a.neg)) && (!x.negb || decide (1 < a.neg)) && (!x.negc || decide (2 < a.neg)) &&
  (!x.absa || decide (0 < a.abs)) && (!x.absb || decide (1 < a.abs)) && (!x.absc || decide (2 < a.abs)) &&
  decide (x.res ≤ a.res) && (!x.ftz || a.ftz) &&
  (match a.scale with
    | .no => x.scale == 0
    | .lea => decide (x.scale.toNat < 8)
    | .float => true) &&
  (a.useC || x.c == 0)

/-- Whether the modifier words given are those that the instruction accepts and requires; DUAL apart, which is
decided after it (R57, R59, R62, R70). -/
def Accept.ok (a : Accept) (m : Mods) : Bool :=
  (match m.arith with
    | none => !a.useC
    | some x => a.arithOk x) &&
  (m.index.isNone || a.index) && (m.ext.isNone || a.ext || a.needExt) && (m.ext.isSome || !a.needExt) &&
  (match m.order with
    | none => !a.needOrder
    | some (f, sc) => a.flavs.contains f && ((sc == 7) == a.bank))

/-! ## Classes (R52) -/

/-- The class of an opcode (R52, R67). -/
inductive OpClass where
  | any | lane | vector | scalar | memory | matrix | copy | near | system
  deriving DecidableEq, Repr

/-- Whether an instruction may stand in a clause of an ENGINE (R52). -/
def OpClass.accepts (c : OpClass) (engine : Nat) (scalarForm : Bool) : Bool :=
  engine == 7 ||
  match c with
  | .any => true
  | .lane => engine == 0 || (engine == 1 && scalarForm)
  | .vector => engine == 0
  | .scalar => engine == 1
  | .memory => engine == 2
  | .matrix => engine == 3
  | .copy => engine == 4
  | .near => engine == 5
  | .system => engine == 6

/-- The field names an S register (R15). -/
def isS (f : RegField) : Bool := decide (96 ≤ f.toNat) && decide (f.toNat < 120)

/-- The field names a V register (R15). -/
def isV (f : RegField) : Bool := decide (f.toNat < 96)

/-- The field names a queue (R15). -/
def isQ (f : RegField) : Bool := decide (120 ≤ f.toNat) && decide (f.toNat < 126)

/-- The field names ZERO (R15). -/
def isZero (f : RegField) : Bool := f == 126

/-- The field is IND (R15, R19). -/
def isInd (f : RegField) : Bool := f == 127

/-- The field names an S register or ZERO. -/
def isSZ (f : RegField) : Bool := isS f || isZero f

/-! ## Operands -/

/-- A register operand: its field, how many 32-bit registers it names (1, 2 or 4), and whether it carries
tangents (R16, R21, R61); `count` consecutive ones in LDM and STM (R164). -/
structure Opnd where
  f : RegField
  width : Nat := 1
  tan : Bool := true
  count : Nat := 1
  deriving DecidableEq, Repr

/-- The frame of an instruction that issues: where it stands, the group as it is and as its readers see it, the
active lanes, the tangents that it computes and where they lie, the modifier words, the entries popped. -/
structure Issue where
  site : Site
  g : Group
  seen : Group
  act : List Nat
  k : Nat
  tans : List Nat
  tstep : Nat
  alloc : Nat
  mods : Mods
  pops : List QEntry
  deriving DecidableEq, Repr

/-- The key of tangent j of vector register n: its shadow, or, in a group with k = 0 under a DUAL word, the
register `n + j TSTEP` (R21, R61). -/
def Issue.tanKey (i : Issue) (n j : Nat) : Nat := if i.k = 0 then 8 * (n + j * i.tstep) else 8 * n + j

/-- The register that IND names in a lane: `IXk + OFFSET` (R19). -/
def Issue.indReg (i : Issue) (lane : Nat) : Nat :=
  match i.mods.index with
  | none => 0
  | some (k, off) => ((i.seen.lane lane).ix.get k).toNat + off

/-- The V register that a field names in a lane, if it names one (R15, R19). -/
def Issue.vreg (i : Issue) (lane : Nat) (f : RegField) : Option Nat :=
  if isV f then some f.toNat else if isInd f then some (i.indReg lane) else none

/-- A 64-bit value from two words, the low word first. -/
def pair (lo hi : Word) : DWord := hi ++ lo

/-- Read `width` words of a lane from key `key` on (registers lie 8 keys apart), at most 64 bits. -/
def Issue.vword (i : Issue) (lane key width : Nat) : DWord :=
  let v := (i.seen.lane lane).v
  if width = 1 then (v.get key).setWidth 64 else pair (v.get key) (v.get (key + 8))

/-- The value of an operand in a lane, and its tangents in the order of `tans` (R15, R16, R21). `nth` numbers the
queue operands before it. -/
def Issue.read (i : Issue) (lane : Nat) (o : Opnd) (nth : Nat) : List DWord :=
  let zeros := i.tans.map fun _ => (0 : DWord)
  match i.vreg lane o.f with
  | some n => i.vword lane (8 * n) o.width :: i.tans.map fun j => i.vword lane (i.tanKey n j) o.width
  | none =>
    if isS o.f then
      let n := o.f.toNat - 96
      (if o.width = 1 then (i.seen.s.get n).setWidth 64 else pair (i.seen.s.get n) (i.seen.s.get (n + 1))) :: zeros
    else if isQ o.f then
      let e := i.pops.getD nth []
      (e.get (8 * lane)).setWidth 64 ::
        i.tans.map fun j => if i.k = 0 then 0 else (e.get (8 * lane + j)).setWidth 64
    else 0 :: zeros

/-- The operands of a lane, in order (R16: pops are numbered in operand order). -/
def Issue.readAll (i : Issue) (lane : Nat) : List Opnd → Nat → List (List DWord)
  | [], _ => []
  | o :: os, nth => i.read lane o nth :: i.readAll lane os (if isQ o.f then nth + 1 else nth)

/-- The register names that an operand reads or writes in the lanes given (R66). -/
def Issue.names (i : Issue) (lanes : List Nat) (o : Opnd) : List RegName :=
  let span (n : Nat) := (List.range (o.width * o.count)).map (n + ·)
  let vs (n : Nat) := span n ++ (if i.k = 0 && o.tan then i.tans.flatMap fun j => span (n + j * i.tstep) else [])
  if isV o.f then (vs o.f.toNat).map RegName.v
  else if isS o.f then (span (o.f.toNat - 96)).map RegName.s
  else if isInd o.f then
    (match i.mods.index with
      | none => []
      | some (k, _) => [RegName.ix k, RegName.win k]) ++
    ((lanes.map i.indReg).dedup.flatMap vs).map RegName.v
  else []

/-! ### The checks of R27, in its order -/

/-- ILLEGAL_FIELD: IND without an INDEX word, an odd register as a 64-bit operand, a quad not at a multiple of
four (R16, R19, R159). -/
def Issue.checkField (i : Issue) (o : Opnd) : Except Stop Unit :=
  if isInd o.f && i.mods.index.isNone then trapR .illegalField o.f
  else if decide (1 < o.width) && (isV o.f || isS o.f) && decide (o.f.toNat % o.width ≠ 0) then
    trapR .illegalField o.f
  else .ok ()

/-- Which registers an instruction's destination and sources may be: R16 and R18; any destination but a queue (BCAST,
VOTE, GRED); a V register or ZERO only (XCH, GSCAN, the dual instructions, REFILL); scalar sources only (WRSP). -/
inductive DestRule where
  | std | anyS | vOnly | scalarSrc
  deriving DecidableEq, Repr

/-- ILLEGAL_DEST: a queue as destination; an S destination with a source that is not scalar (R16, R18), or with an
instruction that takes none. -/
def Issue.checkDest (rule : DestRule) (d : Option Opnd) (srcs : List Opnd) : Except Stop Unit :=
  let scalarSrcs : Except Stop Unit :=
    match srcs.find? fun o => !(isSZ o.f) with
    | some o => trapR .illegalDest o.f
    | none => .ok ()
  match d with
  | none => if rule = .scalarSrc then scalarSrcs else .ok ()
  | some d =>
    if isQ d.f || (decide (rule = .vOnly) && isS d.f) then trapR .illegalDest d.f
    else if isS d.f && rule != .anyS then scalarSrcs
    else .ok ()

/-- REG_RANGE: a V register, or any half or tangent register of an operand, beyond the allocation (R17, R61). -/
def Issue.checkRange (i : Issue) (o : Opnd) : Except Stop Unit :=
  let past (n : Nat) := decide (i.alloc < n + o.width)
  let tanPast (n : Nat) := o.tan && i.k == 0 && i.tans.any fun j => past (n + j * i.tstep)
  if isV o.f then if past o.f.toNat || tanPast o.f.toNat then trapR .regRange o.f else .ok ()
  else if isInd o.f then if i.act.any fun l => tanPast (i.indReg l) then trapR .regRange o.f else .ok ()
  else .ok ()

/-- INDEX_BOUNDS: the indexed register outside its window, or misaligned, in any active lane (R19). -/
def Issue.checkIndex (i : Issue) (o : Opnd) : Except Stop Unit :=
  match i.mods.index with
  | none => .ok ()
  | some (k, _) =>
    let w := i.seen.win k
    if isInd o.f && i.act.any fun l =>
        let n := i.indReg l
        decide (n < w.1.toNat) || decide (w.2.toNat < n + o.width - 1) || decide (n % o.width ≠ 0)
    then trapR .indexBounds o.f else .ok ()

/-- The places that an operand's values lie in, in the active lanes (R22); a queue element is looked at where it is popped. -/
def Issue.stored (i : Issue) (o : Opnd) : List Stored :=
  let span := List.range (o.width * o.count)
  let vs (l n : Nat) := span.flatMap fun w => .v l (8 * (n + w)) :: i.tans.map fun j => Stored.v l (i.tanKey (n + w) j)
  if isV o.f then i.act.flatMap fun l => vs l o.f.toNat
  else if isS o.f then span.map fun w => .s (o.f.toNat - 96 + w)
  else if isInd o.f then
    i.act.flatMap fun l =>
      (match i.mods.index with
        | none => []
        | some (k, _) => [Stored.ix l k, .win k]) ++ vs l (i.indReg l)
  else []

/-- A queue entry that the operand pops has an element whose residue does not match: one of the first `n` entries (R16, R22). -/
def Group.badEntry (g : Group) (f : RegField) (n : Nat) : Bool :=
  isQ f && g.codes.any fun x => match x.1 with
    | .q q m key => q == f.toNat - 120 && decide (m < n) && g.mismatch (.q q m key)
    | _ => false

/-- RESIDUE (R22, R23, R27): a value that the instruction reads, or the result that its unit forms, does not match its code. -/
def Issue.checkResidue (i : Issue) (srcs : List Opnd) (reads : List RegName) (result : Bool) : Except Stop Unit :=
  match srcs.find? fun o => (i.stored o).any i.g.mismatch || i.g.badEntry o.f (srcs.filter fun p => p.f == o.f).length with
  | some o => trapR .residue o.f
  | none =>
    let places : List Stored := (reads.flatMap fun r => match r with
      | .p _ => i.act.map Stored.p
      | .ix k => i.act.map fun l => Stored.ix l k
      | _ => []) ++ if result then [.unit] else []
    if places.any i.g.mismatch then trapR .residue 0 else .ok ()

/-- Every operand check of R27, the cause of the higher row first. -/
def Issue.checkOperands (i : Issue) (rule : DestRule) (d : Option Opnd) (srcs : List Opnd) : Except Stop Unit := do
  let all := srcs ++ d.toList
  allOk i.checkField all
  Issue.checkDest rule d srcs
  allOk i.checkRange all
  allOk i.checkIndex all

/-! ### Queue pops (R16) -/

/-- The stream that fills a queue: the running record that names it (R16, R183). -/
def Group.streamOf (g : Group) (q : Nat) : Option (Nat × Stream) :=
  (g.streams.find? fun x => x.2.queue == q && x.2.running)

/-- The records of a group whose streams can take an entry in: running, not parked, with room in the queue (R135). -/
def State.fillable (s : State) (slot : Nat) (g : Group) : List Nat :=
  if g.preempted || g.stopped then []
  else (g.streams.filter fun x => x.2.running && decide ((g.queues.getD x.2.queue []).length < 4) &&
    !x.2.parked.any (s.isParked (coreDie (slotCore slot)))).map Prod.fst

/-- The record that a core's stream engine serves next (R135): the records in order of slot number and then of record number, one entry
each in turn (DEDUCED: log 65). -/
def State.streamWork (s : State) (core : Nat) : List Instr :=
  let all := (s.groups.filter fun kg => slotCore kg.1 == core).flatMap fun kg => (s.fillable kg.1 kg.2).map fun r => 8 * kg.1 + r
  (((all.find? fun n => decide ((s.core core).sturn < n)).or all.head?).map fun n => Instr.streamFill (n / 8) (n % 8)).toList

/-- Suspend a group (R134, R179): its run ends, and it is ready again when the condition has come about. -/
def State.suspendOn (s : State) (slot : Nat) (w : WaitCond) : Stop :=
  let s := s.endRun (slotCore slot) (slotSub slot)
  .wait { s with groups := s.groups.modify slot fun g => { g with wait := some w } } []

/-- Suspend a group on an access of its own, or of a stream of its own, that is parked (R134): its run ends. -/
def State.suspendParked (s : State) (slot seq : Nat) : State :=
  let s := s.endRun (slotCore slot) (slotSub slot)
  { s with groups := s.groups.modify slot fun g => { g with wait := some (.parked (coreDie (slotCore slot)) seq) } }

/-- The cause kept with the stopped stream of a queue (R16, R182). -/
def Group.keptOf (g : Group) (q : Nat) : Option (Cause × DWord) :=
  (g.streams.filterMap fun x => if x.2.queue == q && !x.2.running then x.2.kept else none).head?

/-- An entry has left a queue: the codes of the entries behind it move on with them (R22). -/
def Group.popped (g : Group) (q : Nat) (es : List QEntry) : Group :=
  { g with queues := g.queues.put q es,
           codes := g.codes.filterMap fun x => match x.1 with
             | .q p n key => if p = q then (if n = 0 then none else some (.q p (n - 1) key, x.2)) else some x
             | _ => some x }

/-- Pop one entry (R16). An empty queue waits for its running stream, and the group is suspended while that stream is parked (R134); else
it raises the kept cause, or QUEUE_UNDERFLOW. -/
def popOne (s : State) (slot : Nat) (g : Group) (f : RegField) : Except Stop (QEntry × Group) :=
  let q := f.toNat - 120
  match (g.queues.getD q []) with
  | e :: es => .ok (e, g.popped q es)
  | [] => match g.streamOf q with
    | some (_, st) => match st.parked with
      | some seq =>
        if s.isParked (coreDie (slotCore slot)) seq then .error (.wait (s.suspendParked slot seq) [])
        else .error (.wait s (s.streamWork (slotCore slot)))
      | none => .error (.wait s (s.streamWork (slotCore slot)))
    | none => match g.keptOf q with
      | some (c, a) => trapA c a
      | none => trapR .queueUnderflow f

/-- Pop for every queue operand, in order. -/
def popAll (s : State) (slot : Nat) : Group → List Opnd → Except Stop (List QEntry × Group)
  | g, [] => .ok ([], g)
  | g, o :: os =>
    if isQ o.f then do
      let (e, g) ← popOne s slot g o.f
      let (es, g) ← popAll s slot g os
      .ok (e :: es, g)
    else popAll s slot g os

/-! ## Issue -/

/-- What an instruction is, beside its effect: its class, what it accepts, its destination and its register
sources in operand order, the predicates, IX registers and windows that it reads (R66) and the predicates that it
writes, what its fields and modifier words must not be (R70 ILLEGAL_FIELD), and what it raises before its queues are popped (R27). -/
structure Form where
  cls : OpClass
  acc : Accept := {}
  dst : Option Opnd := none
  srcs : List Opnd := []
  reads : List RegName := []
  writes : List RegName := []
  /-- C is a register source (R59) -/
  regC : Bool := true
  rule : DestRule := .std
  bad : Mods → Bool := fun _ => false
  pre : Issue → Except Stop Unit := fun _ => .ok ()
  /-- a wait that comes before the checks of the word's fields (R209, R221), for a group by its slot -/
  first : State → Nat → Group → Except Stop Unit := fun _ _ _ => .ok ()

/-- The register sources, with C when the instruction uses it as a register (R58, R59). -/
def Form.sources (f : Form) (m : Mods) : List Opnd :=
  if f.acc.useC && f.regC then f.srcs ++ [{ f.srcs.getLastD { f := 0 } with f := m.ar.c }] else f.srcs

/-- The scalar form of R52: the destination is an S register, ZERO or ISETP's predicate, every register source
is an S register or ZERO, and no IND is named. -/
def Form.scalarForm (f : Form) (m : Mods) : Bool :=
  (match f.dst with
    | some d => isSZ d.f
    | none => true) && (f.sources m).all fun o => isSZ o.f

/-- The tangents that an instruction computes and the TSTEP by which they are found (R61): ILLEGAL_FIELD before
TANGENT_UNSUPPORTED (R70), which every DUAL word that is well formed raises while TANGENT is not enabled (R425). -/
def dualOf (cls : OpClass) (a : Accept) (k : Nat) (wide on : Bool) (m : Mods) : Except Stop (List Nat × Nat) :=
  match m.dual with
  | none => .ok ((List.range k).map (· + 1), 0)
  | some (mask, step) =>
    if cls = .matrix ∨ cls = .copy ∨ cls = .near ∨ cls = .system then trapE .tangentUnsupported
    else if !a.dual then trapE .illegalField
    else
      let sel := (List.range 4).filterMap fun j => if mask.getLsbD j then some (j + 1) else none
      if k = 0 then
        if !([1, 3, 7, 15].contains mask.toNat) || step == 0 || decide (95 < step) || (wide && step % 2 == 1) then
          trapE .illegalField
        else if !on then trapE .tangentUnsupported
        else .ok (sel, step)
      else if mask == 0 || step != 0 then trapE .illegalField
      else if !on || sel.any fun j => decide (k < j) then trapE .tangentUnsupported
      else .ok (sel, 0)

/-- The outstanding load, if any, whose destination is among the registers: a reader or a later writer waits
for it (R64). -/
def Group.pendingOn (g : Group) (names : List RegName) : Option Nat :=
  (g.loads.find? fun ld =>
    (ld.pp != 0 && names.contains (.p ld.pp)) ||
    ld.accs.any fun ad =>
      if ad.2.scalar then ad.2.keys.any fun n => names.contains (.s n)
      else (ad.2.keys ++ ad.2.zeros).any fun key => names.contains (.v (key / 8))).map Load.id

/-- The sub-core that has the turn: its core and number, its run and its group (DESIGN CHOICE: log 1). -/
def State.issuing (s : State) : Option (Nat × Nat × Run × Group) :=
  match (s.core (s.turn / 12)).runs.find (s.turn % 12) with
  | none => none
  | some r => match s.groups.find r.slot with
    | none => none
    | some g => some (s.turn / 12, s.turn % 12, r, g)

/-- The lowest lane of a set. -/
def lowest (m : BitVec 64) : Nat := (lanesOf m).headD 0

/-- The predicate that governs an instruction (R20): the clause's, unless an override replaces it. -/
def predOf (hdr : Word) (m : Mods) : Nat × Bool :=
  if m.ar.pov then (m.ar.poidx, m.ar.poneg) else ((hdr.extractLsb' 24 3).toNat, hdr.getLsbD 27)

/-- The lanes of a set that are active under a predicate (R20). -/
def activeLanes (g : Group) (set : BitVec 64) (p : Nat × Bool) : List Nat :=
  (lanesOf set).filter fun l => (g.lane l).pred p.1 != p.2

/-- Where the next instruction of the issuing run stands, its modifier words taking `len` words in all. -/
def siteOf (r : Run) (g : Group) (len : Nat) (act : List Nat) : Site :=
  let l := g.lane (lowest r.set)
  { slot := r.slot, set := r.set, act := laneSet act, pc := l.pc, clause := l.clause.getD (0, 0), len := len }

/-- The latest pending fixed-latency result that one of the registers names (R66). -/
def Group.hazardOn (g : Group) (names : List RegName) : Option Hazard :=
  g.hazards.reverse.find? fun h => h.regs.any fun r => names.contains r

/-- A check: the cause is raised unless the condition holds. -/
def require (ok : Bool) (c : Cause) : Except Stop Unit := if ok then .ok () else trapE c

/-- A check whose cause carries an address. -/
def requireA (ok : Bool) (c : Cause) (addr : DWord) : Except Stop Unit := if ok then .ok () else trapA c addr

/-- The header word of the clause that a run stands in. -/
def Run.hdr (r : Run) (g : Group) : Word := ((g.lane (lowest r.set)).clause.getD (0, 0)).1

/-- The modifier words of a tail; none of them when they are not well formed. -/
def Tail.modifiers (t : Tail) : Mods := (Mods.parse t.mods Mods.none).getD Mods.none

/-- The frame of a word before its queue operands are popped, given the tangents that it computes. -/
def Run.frame (r : Run) (t : Tail) (s : State) (g : Group) (tan : List Nat × Nat) : Issue :=
  let act := activeLanes g.seen r.set (predOf (r.hdr g) (Tail.modifiers t))
  { site := siteOf r g (1 + t.mods.length) act, g := g, seen := g.seen, act := act, k := (s.gridOf g.team).tangents,
    tans := tan.1, tstep := tan.2, alloc := 8 * (s.gridOf g.team).regb, mods := Tail.modifiers t, pops := [] }

/-- The registers that a word reads (R65, R66): its sources; the IX register and the window by which IND names a register, as source
or destination; and its predicates, of which P0 is no register that anything writes (R20). -/
def Form.readNames (f : Form) (i : Issue) (hdr : Word) : List RegName :=
  (f.sources i.mods).flatMap (i.names i.act) ++ ((f.dst.toList.flatMap (i.names i.act)).filter fun r => match r with
    | .ix _ => true
    | .win _ => true
    | _ => false) ++ ((f.reads ++ [RegName.p (predOf hdr i.mods).1]).filter fun r => r != .p 0)

/-- The registers that a word reads or writes: it waits for a scoreboarded write to any of them (R64). -/
def Form.allNames (f : Form) (i : Issue) (hdr : Word) : List RegName :=
  f.readNames i hdr ++ (f.dst.toList).flatMap (i.names i.act) ++ f.writes

/-- STALL_UNDERSIZED (R66): a register read is the result of an instruction whose latency the stall counts have not covered, in a
context with SCHK set. -/
def checkStall (s : State) (g : Group) (names : List RegName) : Except Stop Unit :=
  match g.hazardOn names with
  | some h => if (s.ctx (s.owner g).1 (s.owner g).2).schk then .error (.trap { cause := .stallUndersized, aux := h.pc.setWidth 64 }) else .ok ()
  | none => .ok ()

/-- The same at the time of issue: a word that has to wait for a scoreboarded write issues later, and is looked at again then (R64). -/
def checkHazards (s : State) (g : Group) (reads all : List RegName) : Except Stop Unit :=
  if (g.pendingOn all).isSome then .ok () else checkStall s g reads

/-- The wait for an outstanding load to a register that the word reads or writes (R64). -/
def checkPending (s : State) (slot : Nat) (g : Group) (names : List RegName) : Except Stop Unit :=
  match g.pendingOn names with
  | some id => .error (.wait s [.loadReturn slot id])
  | none => .ok ()

/-- The unit that a word goes to (R52, R132): 0 the vector pipes, 1 the scalar unit, then the engines; a NOP changes none (DEDUCED: log 19). -/
def Form.unit (f : Form) (m : Mods) (last : Option Nat) : Nat :=
  match f.cls with
  | .any => last.getD 0
  | .lane => if f.scalarForm m then 1 else 0
  | .vector => 0
  | .scalar => 1
  | .memory => 2
  | .matrix => 3
  | .copy => 4
  | .near => 5
  | .system => 6

/-- The clocks that pass before a word issues, beside the stall counts (DEDUCED: log 19): a vector word that computes or moves tangents issues at
the last of the 1 + k clocks that it occupies its pipe, or of the 1 + m under a DUAL word with k = 0 (R64, R106); a mixed clause adds one at each
change of class (R52). -/
def Form.clocks (f : Form) (t : Tail) (s : State) (r : Run) (g : Group) : Nat :=
  let m := Tail.modifiers t
  let k := (s.gridOf g.team).tangents
  let u := f.unit m g.unit
  (if u != 0 || !f.acc.moves || f.dst.all (fun d => isS d.f) then 0
    else if k != 0 then k
    else match m.dual with
      | none => 0
      | some d => ((List.range 4).filter fun j => d.1.getLsbD j).length) +
  if (r.hdr g).extractLsb' 9 3 == 7 && g.unit.any fun x => x != u then 1 else 0

/-- The group as it stands when a word issues (R64). -/
def Form.arrive (f : Form) (t : Tail) (s : State) (r : Run) (g : Group) : Group := g.age (f.clocks t s r g)

/-- A wait inside a run has taken some clocks, how many is open (R64, R66, R92): results may have become available. -/
def State.elapse (s : State) (slot : Nat) : State :=
  let (v, s) := s.draw
  let s := { s with groups := s.groups.modify slot fun g => g.age v }
  let k := s.core (slotCore slot)
  s.setCore (slotCore slot) { k with clock := k.clock + v }

/-- The issue checks of an instruction word, in the order of R70 and R27: class, modifier words, tangents,
undersized stall count, operands (DEDUCED: log 62, for TANGENT_UNSUPPORTED against R27's causes); then the wait on scoreboarded registers
(R64), the queue pops (R16), and the codes of what is read (R23). The answer is the frame of the instruction, and the state with the
entries popped. -/
def prepare (f : Form) (t : Tail) (s : State) (r : Run) (g : Group) : Except Stop (Issue × State) := do
  let m := Tail.modifiers t
  require (!(f.cls == .near) || s.feature 1) .illegalOpcode
  require (f.cls.accepts ((r.hdr g).extractLsb' 9 3).toNat (f.scalarForm m)) .classMismatch
  f.first s r.slot g
  require ((Mods.parse t.mods Mods.none).isSome && f.acc.ok m && !f.bad m) .illegalField
  let tan ← dualOf f.cls f.acc (s.gridOf g.team).tangents
    ((f.sources m ++ f.dst.toList).any fun o => o.tan && decide (1 < o.width) && (isV o.f || isInd o.f)) (s.feature 0) m
  let i := r.frame t s g tan
  checkHazards s g (f.readNames i (r.hdr g)) (f.allNames i (r.hdr g))
  i.checkOperands f.rule f.dst (f.sources m)
  f.pre i
  checkPending s r.slot g (f.allNames i (r.hdr g))
  let p ← popAll s r.slot g (f.sources m)
  i.checkResidue (f.sources m) (f.readNames i (r.hdr g)) (f.dst.isSome && decide (f.unit m g.unit < 2))
  let g' := { p.2 with unit := some (f.unit m g.unit) }
  .ok ({ i with g := g', pops := p.1 }, s.setGroup r.slot g')

/-- The lanes of a set that still issue: neither exited, held nor waiting in TSYNC. -/
def Group.live (g : Group) (m : BitVec 64) : List Nat :=
  (lanesOf m).filter fun l => let x := g.lane l; !x.exited && !x.held && !x.tsync

/-- The lanes of a list all stand at one PC. -/
def Group.together (g : Group) : List Nat → Bool
  | [] => true
  | l :: ls => ls.all fun n => (g.lane n).pc == (g.lane l).pc && (g.lane n).clause == (g.lane l).clause

/-- After an instruction has taken effect (R54, R55, R64, R66): the lanes that it has not moved go on to the next
word; the instruction counts in the run; its own clocks count against the pending results; and the run ends
when its set has split (the sets formed take the group's run count as stamp, R24) or nothing of it is left, or a clause with
END completes. -/
def State.finish (s : State) (core sc : Nat) (w : Site) (stall : BitVec 3) (moved : BitVec 64) : State :=
  let rest := lanesOf (w.set &&& ~~~moved)
  let s := { s with groups := s.groups.modify w.slot fun g =>
    { ((g.advance rest w.len).age (1 + stall.toNat)) with replay := none } }
  let k := s.core core
  let s := s.setCore core { k with clock := k.clock + 1 + stall.toNat }
  match k.runs.find sc, s.groups.find w.slot with
  | some r, some g =>
    let ls := g.live r.set
    let s := if g.together ls then s else s.setGroup w.slot (g.onLanes ls fun x => { x with stamp := g.runCount })
    let s := s.setCore core { s.core core with
      runs := k.runs.put sc { r with issued := r.issued + 1, set := laneSet ls } }
    if ls.isEmpty || !g.together ls || (w.clause.1.getLsbD 8 && decide (w.clause.2 ≤ w.len)) then s.endRun core sc
    else s
  | _, _ => s

/-- A wait undoes a word's pops, which take place at issue (R16), and what they leave of the unit that it goes to. -/
def State.unpop (s : State) (slot : Nat) (g : Group) : State :=
  { s with groups := s.groups.modify slot fun x => { x with queues := g.queues, codes := g.codes, unit := g.unit } }

/-- ISSUE OF AN INSTRUCTION WORD. Its checks are made, its body is run on the state with the operands popped; the
body answers the new state and the lanes that it has moved itself. A trap leaves the state as it was and takes
the exception; a wait keeps the instruction where it stands, and its queue entries in their queues. -/
def issue (f : Form) (t : Tail) (s : State) (body : Issue → State → Except Stop (State × BitVec 64)) :
    Host.Outcome State Fault Refusal :=
  match s.issuing with
  | none => .refused .noIssuingGroup
  | some (core, sc, r, g₀) =>
    let g := f.arrive t s r g₀
    match (prepare f t s r g).bind fun x => (body x.1 x.2).map fun y => (x.1.site, y) with
    | .ok (w, s', moved) => .next (s'.finish core sc w t.stall moved)
    | .error (.trap tr) =>
      .next (s.raise (siteOf r g (1 + t.mods.length) (activeLanes g.seen r.set (predOf (r.hdr g) (Tail.modifiers t)))) tr)
    | .error (.wait s' deps) => .next (((s'.unpop r.slot g).elapse r.slot).await deps)

/-! ## Lane instructions -/

/-- The result of a lane computation: the value and its tangents, and the exceptions that the primal and the
tangent computations raised (R34). -/
structure LaneRes where
  vals : List DWord
  flags : BitVec 6 := 0
  tflags : BitVec 6 := 0
  deriving DecidableEq, Repr

/-- The low and high words of a value. -/
def words (width : Nat) (x : DWord) : List Word :=
  if width = 1 then [x.setWidth 32] else [x.setWidth 32, (x >>> 32).setWidth 32]

/-- The cells that receive consecutive words, from a key on. -/
def cellsAt (lane key : Nat) (ws : List Word) : List RCell :=
  (List.range ws.length).map fun n => RCell.v lane (key + 8 * n) (ws.getD n 0)

/-- The cells of a predicate in the lanes given: a write to P0 is discarded (R20). -/
def predCells (p : BitVec 3) (lanes : List Nat) (f : Nat → Bool) : List RCell :=
  if p = 0 then [] else lanes.map fun l => RCell.p l p.toNat (f l)

/-- The cells that a lane's result is written to (R15, R21, R61, R77): the destination and its tangents. -/
def Issue.destCells (i : Issue) (lane : Nat) (d : Opnd) (vals : List DWord) : List RCell :=
  match i.vreg lane d.f with
  | some n =>
    cellsAt lane (8 * n) (words d.width (vals.headD 0)) ++
    if d.tan then
      (List.range i.tans.length).flatMap fun x =>
        cellsAt lane (i.tanKey n (i.tans.getD x 0)) (words d.width (vals.getD (x + 1) 0))
    else []
  | none =>
    if isS d.f then
      let ws := words d.width (vals.headD 0)
      (List.range ws.length).map fun n => RCell.s (d.f.toNat - 96 + n) (ws.getD n 0)
    else []

/-- The lanes for which a result is computed: once for an S destination, whatever the predicates (R52, R76);
otherwise every active lane. -/
def Issue.doers (i : Issue) (d : Opnd) : List Nat := if isS d.f then [lowest i.site.set] else i.act

/-- Write a group back with cells committed (R64). -/
def Issue.commit (i : Issue) (s : State) (lat : Option Nat) (cs : List RCell) : State :=
  { s with groups := s.groups.modify i.site.slot fun g => g.commit lat i.site.pc cs }

/-- A result whose tangents are all +0 (R77). -/
def Issue.plain (i : Issue) (x : DWord) : LaneRes := { vals := x :: i.tans.map fun _ => 0 }

/-- An instruction of the lane classes that writes one destination: `comp` gives each lane's result from its
operands' values and tangents. -/
def laneInstr (f : Form) (lat : Option Nat) (t : Tail) (s : State)
    (comp : Issue → Nat → List (List DWord) → LaneRes) : Host.Outcome State Fault Refusal :=
  issue f t s fun i s =>
    match f.dst with
    | none => .ok (s, 0)
    | some d =>
      .ok (i.commit s lat ((i.doers d).flatMap fun l =>
        i.destCells l d (comp i l (i.readAll l (f.sources i.mods) 0)).vals), 0)

end Sys2Proof.Machine
end

