-- ==== Sys2Proof/Machine/Flags.lean ====
section
/-! DEFINITION. The floating-point exception flags (R34): the order of the bits, how a group's FPX is set, and
FP_TRAP. -/

namespace Sys2Proof.Machine

/-- NX, inexact: FLAGS[0] (R34). -/
def flagNX : BitVec 6 := 1
/-- UF, underflow: FLAGS[1]. -/
def flagUF : BitVec 6 := 2
/-- OF, overflow: FLAGS[2]. -/
def flagOF : BitVec 6 := 4
/-- DZ, divide by zero: FLAGS[3]. -/
def flagDZ : BitVec 6 := 8
/-- NV, invalid: FLAGS[4]. -/
def flagNV : BitVec 6 := 16
/-- FZ, flushed: FLAGS[5]. -/
def flagFZ : BitVec 6 := 32

/-- FPX.ENABLE for NV, DZ, OF, UF, NX, in the order of FLAGS; FZ has no enable (R34). -/
def fpxEnable (fpx : Word) : BitVec 6 := (fpx.extractLsb' 16 5).setWidth 6

/-- OR exceptions into FLAGS and tangent exceptions into TFLAGS (R34). -/
def fpxRaise (fpx : Word) (flags tflags : BitVec 6) : Word :=
  fpx ||| flags.setWidth 32 ||| (tflags.setWidth 32 <<< 8)

/-- The bits of FPX that a write keeps: the reserved bits are ignored and read 0 (R34, R93). -/
def fpxMask : Word := 0x001F3F3F

/-- Record the exceptions of a floating-point instruction (R34): FP_TRAP, with nothing changed but FLAGS, when an
exception is raised whose ENABLE bit is set; else FLAGS and TFLAGS receive them. `rs` gives for each step the lanes that it
is attributed to and its exceptions; a computation made once for an S register is attributed to the active lanes. -/
def floatFlags (i : Issue) (once : Bool) (rs : List (List Nat × BitVec 6 × BitVec 6)) (s : State) : Except Stop State :=
  let en := fpxEnable i.g.fpx
  let fl := rs.foldl (fun (x : BitVec 6) r => x ||| r.2.1) 0
  let tf := rs.foldl (fun (x : BitVec 6) r => x ||| r.2.2) 0
  if fl &&& en != 0 then
    .error (.trap
      { cause := .fpTrap, flags := fl, excs := fl &&& en,
        lanes := if once then none else some (laneSet (rs.flatMap fun r => if r.2.1 &&& en != 0 then r.1 else [])) })
  else .ok { s with groups := s.groups.modify i.site.slot fun g => { g with fpx := fpxRaise g.fpx fl tf } }

/-- A floating-point lane instruction: as `laneInstr`, with the exceptions of the active lanes recorded (R34). -/
def floatInstr (f : Form) (lat : Option Nat) (t : Tail) (s : State)
    (comp : Issue → Nat → List (List DWord) → LaneRes) : Host.Outcome State Fault Refusal :=
  issue f t s fun i s =>
    match f.dst with
    | none => .ok (s, 0)
    | some d =>
      let rs := (i.doers d).map fun l => (l, comp i l (i.readAll l (f.sources i.mods) 0))
      match floatFlags i (isS d.f) (rs.map fun r => ([r.1], r.2.flags, r.2.tflags)) s with
      | .error e => .error e
      | .ok s => .ok (i.commit s lat (rs.flatMap fun r => i.destCells r.1 d r.2.vals), 0)

end Sys2Proof.Machine
end

