-- ==== Sys2Proof/Machine/FloatNum.lean ====
section
/-! DEFINITION. Floating-point numbers (R30 to R33): formats, values, rounding, and the exactly rounded operations on
codes that the lane instructions, the caster, the matrix unit and the near-bank units share. -/

namespace Sys2Proof.Machine

/-- An IEEE binary format (R30): its exponent and fraction widths. -/
structure Fmt where
  ew : Nat
  mw : Nat
  deriving DecidableEq, Repr

/-- .F32 (R30). -/
def f32 : Fmt := ⟨8, 23⟩
/-- .F16 (R30). -/
def f16 : Fmt := ⟨5, 10⟩
/-- .BF16 and .C16 (R30, R35). -/
def bf16 : Fmt := ⟨8, 7⟩

/-- The bias of a format. -/
def Fmt.bias (f : Fmt) : Nat := 2 ^ (f.ew - 1) - 1
/-- The code of +∞, the smallest code with an all-ones exponent. -/
def Fmt.inf (f : Fmt) : Nat := (2 ^ f.ew - 1) * 2 ^ f.mw
/-- The sign bit. -/
def Fmt.sign (f : Fmt) : Nat := 2 ^ (f.ew + f.mw)
/-- The canonical NaN (R30). -/
def Fmt.nan (f : Fmt) : Nat := f.inf + 2 ^ (f.mw - 1)
/-- The code of 1. -/
def Fmt.one (f : Fmt) : Nat := f.bias * 2 ^ f.mw
/-- The smallest exponent of a unit in the last place. -/
def Fmt.emin (f : Fmt) : Int := 1 - (f.bias : Int) - (f.mw : Int)
/-- A code with a sign. -/
def Fmt.signed (f : Fmt) (neg : Bool) (mag : Nat) : Nat := if neg then f.sign + mag else mag
/-- The sign bit of a code. -/
def Fmt.neg (f : Fmt) (c : Nat) : Bool := c / f.sign % 2 = 1
/-- The code without its sign. -/
def Fmt.mag (f : Fmt) (c : Nat) : Nat := c % f.sign
/-- A NaN code (R31). -/
def Fmt.isNaN (f : Fmt) (c : Nat) : Bool := decide (f.inf < f.mag c)
/-- A signalling NaN (R31). -/
def Fmt.isSNaN (f : Fmt) (c : Nat) : Bool := f.isNaN c && decide (f.mag c < f.nan)
/-- An infinity. -/
def Fmt.isInf (f : Fmt) (c : Nat) : Bool := f.mag c = f.inf
/-- A zero. -/
def Fmt.isZero (f : Fmt) (c : Nat) : Bool := f.mag c = 0
/-- A subnormal. -/
def Fmt.isSub (f : Fmt) (c : Nat) : Bool := f.mag c ≠ 0 && decide (f.mag c < 2 ^ f.mw)
/-- The code with its sign changed. -/
def Fmt.flip (f : Fmt) (c : Nat) : Nat := f.signed (!f.neg c) (f.mag c)

/-- The value of a code (R31). -/
inductive FVal where
  | nan (signalling : Bool)
  | inf (neg : Bool)
  | fin (neg : Bool) (m : Nat) (e : Int)
  deriving DecidableEq, Repr

/-- The value of a code: a finite one is `±m × 2^e` (R31). -/
def Fmt.value (f : Fmt) (c : Nat) : FVal :=
  let x := f.mag c
  if f.isNaN c then .nan (f.isSNaN c)
  else if x = f.inf then .inf (f.neg c)
  else if x < 2 ^ f.mw then .fin (f.neg c) x f.emin
  else .fin (f.neg c) (x % 2 ^ f.mw + 2 ^ f.mw) (f.emin + (x / 2 ^ f.mw - 1 : Nat))

/-- The four rounding directions (R32, R69). -/
inductive Dir where
  | nearest | zero | down | up
  deriving DecidableEq, Repr

/-- A rounding direction by its number (R69). -/
def Dir.of (n : Nat) : Dir := match n with | 0 => .nearest | 1 => .zero | 2 => .down | _ => .up

/-- Round `m / 2^d` to an integer. -/
def Dir.div (r : Dir) (neg : Bool) (m d : Nat) : Nat :=
  let q := m / 2 ^ d
  let rem := m % 2 ^ d
  let up := match r with
    | .nearest => decide (2 ^ d < 2 * rem) || (decide (2 * rem = 2 ^ d) && rem != 0 && q % 2 == 1)
    | .zero => false
    | .down => neg && rem != 0
    | .up => !neg && rem != 0
  if up then q + 1 else q

/-- `m × 2^n` for a natural shift, or the quotient and the exponent left: bring `m × 2^e` to a unit of `2^q`. -/
def toUnit (r : Dir) (neg : Bool) (m : Nat) (e q : Int) : Nat × Bool :=
  if q ≤ e then (m * 2 ^ (e - q).toNat, false)
  else (r.div neg m (q - e).toNat, m % 2 ^ (q - e).toNat != 0)

/-- Round `±m × 2^e` to a format, with its exceptions (R32, R34). -/
def Fmt.round (f : Fmt) (r : Dir) (ftz : Bool) (neg : Bool) (m : Nat) (e : Int) : Nat × BitVec 6 :=
  if m = 0 then (f.signed neg 0, 0)
  else
    let top : Int := e + (Nat.log2 m : Int)
    let low : Int := 1 - (f.bias : Int)
    if ftz && decide (top < low) then (f.signed neg 0, flagUF ||| flagNX ||| flagFZ)
    else
      let q := max (top - f.mw) f.emin
      let (n, inexact) := toUnit r neg m e q
      let mag := (q - f.emin).toNat * 2 ^ f.mw + n
      if f.inf ≤ mag then
        let big := match r with
          | .nearest => true
          | .zero => false
          | .down => neg
          | .up => !neg
        (f.signed neg (if big then f.inf else f.inf - 1), flagOF ||| flagNX)
      else
        let tiny := decide (top < low - 1) ||
          (decide (top = low - 1) && decide ((toUnit r neg m e (top - f.mw)).1 < 2 ^ (f.mw + 1)))
        (f.signed neg mag, if inexact then (if tiny then flagUF ||| flagNX else flagNX) else 0)

/-! ## Exact sums of products -/

/-- An exact intermediate value: NaN with the invalid exception or without; infinity; or `±m × 2^e`. -/
inductive Exact where
  | nan (invalid : Bool)
  | inf (neg : Bool)
  | fin (neg : Bool) (m : Nat) (e : Int)
  deriving DecidableEq, Repr

/-- A value as an exact one. -/
def FVal.exact : FVal → Exact
  | .nan s => .nan s
  | .inf n => .inf n
  | .fin n m e => .fin n m e

/-- The product of two exact values (R33): 0 × ∞ is invalid. -/
def Exact.mul : Exact → Exact → Exact
  | .nan x, .nan y => .nan (x || y)
  | .nan x, _ => .nan x
  | _, .nan y => .nan y
  | .inf a, .inf b => .inf (a != b)
  | .inf a, .fin b m _ => if m = 0 then .nan true else .inf (a != b)
  | .fin a m _, .inf b => if m = 0 then .nan true else .inf (a != b)
  | .fin a m e, .fin b n d => .fin (a != b) (m * n) (e + d)

/-- The sum of two exact values (R33, R107): ∞ − ∞ is invalid; an exact zero is −0 only when both are. -/
def Exact.add : Exact → Exact → Exact
  | .nan x, .nan y => .nan (x || y)
  | .nan x, _ => .nan x
  | _, .nan y => .nan y
  | .inf a, .inf b => if a = b then .inf a else .nan true
  | .inf a, .fin _ _ _ => .inf a
  | .fin _ _ _, .inf b => .inf b
  | .fin a m e, .fin b n d =>
    let q := min e d
    let x : Int := (m * 2 ^ (e - q).toNat : Nat)
    let y : Int := (n * 2 ^ (d - q).toNat : Nat)
    let v := (if a then -x else x) + (if b then -y else y)
    .fin (if v = 0 then a && b else decide (v < 0)) v.natAbs q

/-- The product of a list of values. -/
def prodOf : List FVal → Exact
  | [] => .fin false 1 0
  | [x] => x.exact
  | x :: xs => x.exact.mul (prodOf xs)

/-- The exact sum of a list of values. -/
def sumOf : List Exact → Exact
  | [] => .fin false 0 0
  | [x] => x
  | x :: xs => x.add (sumOf xs)

/-- Round an exact value, scaled by `2^scale`, to a format (R32, R33, R105). -/
def Exact.toFmt (f : Fmt) (r : Dir) (ftz : Bool) (scale : Int) : Exact → Nat × BitVec 6
  | .nan bad => (f.nan, if bad then flagNV else 0)
  | .inf n => (f.signed n f.inf, 0)
  | .fin n m e => f.round r ftz n m (e + scale)

/-- A sum of products of codes of a format, rounded once to nearest-even (R107, R48). -/
def Fmt.sumProd (f : Fmt) (ftz : Bool) (scale : Int) (terms : List (List Nat)) : Nat × BitVec 6 :=
  (sumOf (terms.map fun t => prodOf (t.map f.value))).toFmt f .nearest ftz scale

/-- The quotient of two positive integers to 80 bits and more, its last bit set when it is not exact. -/
def stickyDiv (m n : Nat) : Nat × Int :=
  let s := 80 + Nat.log2 n
  (m * 2 ^ s / n * 2 + (if m * 2 ^ s % n = 0 then 0 else 1), -((s : Int) + 1))

/-- The exact quotient, as far as rounding needs it (R107): a finite value by zero raises DZ. -/
def FVal.div : FVal → FVal → Exact × BitVec 6
  | .nan x, .nan y => (.nan (x || y), 0)
  | .nan x, _ => (.nan x, 0)
  | _, .nan y => (.nan y, 0)
  | .inf _, .inf _ => (.nan true, 0)
  | .inf a, .fin b _ _ => (.inf (a != b), 0)
  | .fin a _ _, .inf b => (.fin (a != b) 0 0, 0)
  | .fin a m e, .fin b n d =>
    if n = 0 then (if m = 0 then (.nan true, 0) else (.inf (a != b), flagDZ))
    else
      let q := stickyDiv m n
      (.fin (a != b) q.1 (e - d + q.2), 0)

/-- A quotient of codes, rounded to nearest-even (R107). -/
def Fmt.div (f : Fmt) (ftz : Bool) (scale : Int) (x y : Nat) : Nat × BitVec 6 :=
  let q := (f.value x).div (f.value y)
  let r := q.1.toFmt f .nearest ftz scale
  (r.1, r.2 ||| q.2)

/-- The integer square root from bit `k` down. -/
def isqrtFrom (n : Nat) : Nat → Nat → Nat
  | 0, r => r
  | k + 1, r => isqrtFrom n k (if (r + 2 ^ k) * (r + 2 ^ k) ≤ n then r + 2 ^ k else r)

/-- The integer square root. -/
def isqrt (n : Nat) : Nat := isqrtFrom n (Nat.log2 n / 2 + 1) 0

/-- The exact square root of `m × 2^e`, as far as rounding needs it. -/
def rootOf (m : Nat) (e : Int) : Nat × Int :=
  let s : Int := 160 + (e % 2)
  let x := m * 2 ^ s.toNat
  let r := isqrt x
  (r * 2 + (if r * r = x then 0 else 1), (e - s) / 2 - 1)

/-! ## Comparison -/

/-- A key that orders the codes of a format other than NaNs: both zeros are 0. -/
def Fmt.key (f : Fmt) (c : Nat) : Int := if f.neg c then -(f.mag c : Int) else f.mag c

/-- FMIN and FMAX (R108): true when the first operand's value is returned; none for the canonical NaN. -/
def Fmt.pickFirst (f : Fmt) (larger : Bool) (x y : Nat) : Option Bool :=
  if f.isNaN x && f.isNaN y then none
  else if f.isNaN x then some false
  else if f.isNaN y then some true
  else if f.key x = f.key y then
    some (f.neg x == f.neg y || (if larger then !f.neg x else f.neg x))
  else some (if larger then decide (f.key y < f.key x) else decide (f.key x < f.key y))

/-- NV of an operation that signalling NaNs make invalid. -/
def Fmt.snanFlag (f : Fmt) (xs : List Nat) : BitVec 6 := if xs.any f.isSNaN then flagNV else 0

/-! ## Transcendental functions in fixed point (DESIGN CHOICE: log 9) -/

/-- π × 2^640. -/
def piFix : Nat :=
  0x3243f6a8885a308d313198a2e03707344a4093822299f31d0082efa98ec4e6c89452821e638d01377be5466cf34e90c6cc0ac29b7c97c50dd3f84d5b5b54709179216d5d98979fb1bd1310ba698dfb5ac

/-- ln 2 × 2^384. -/
def ln2Fix : Nat :=
  0xb17217f7d1cf79abc9e3b39803f2f6af40f343267298b62d8a0d175b8baafa2be7b876206debac98559552fb4afa1b10

/-- A signed series in fixed point: from a term, the next is `term × x / (n (n + 1)) / 2^320`, of alternating sign;
`n` rises by two. -/
def altSeries (x2 : Nat) : Nat → Nat → Nat → Int
  | 0, _, _ => 0
  | k + 1, n, term => (term : Int) - altSeries x2 k (n + 2) (term * x2 / 2 ^ 320 / (n * (n + 1)))

/-- sin and cos of `r / 2^320`, in units of `2^-320`. -/
def sinFix (r : Nat) : Nat := (altSeries (r * r / 2 ^ 320) 50 2 r).toNat
def cosFix (r : Nat) : Nat := (altSeries (r * r / 2 ^ 320) 50 1 (2 ^ 320)).toNat

/-- The exponential series: `k` terms, the next one being `term × x / n`. -/
def expSeries (x : Nat) : Nat → Nat → Nat → Nat
  | 0, _, _ => 0
  | k + 1, n, term => term + expSeries x k (n + 1) (term * x / 2 ^ 320 / n)

/-- The series of artanh: `k` terms, the powers in `p`. -/
def atanhSeries (z2 : Nat) : Nat → Nat → Nat → Nat
  | 0, _, _ => 0
  | k + 1, n, p => p / n + atanhSeries z2 k (n + 2) (p * z2 / 2 ^ 320)

/-- A result that is not representable: `x / 2^320` with its last bits replaced by a bit that says so. -/
def sticky320 (neg : Bool) (x : Nat) : Exact := .fin neg (x / 2 ^ 24 * 2 + 1) (-297)

/-- A value just below or just above `m × 2^e`. -/
def nearly (neg below : Bool) (m : Nat) (e : Int) : Exact :=
  .fin neg (if below then m * 2 ^ 64 - 1 else m * 2 ^ 64 + 1) (e - 64)

/-- sin (`quad` 0) or cos (`quad` 1) of `±m × 2^e`, not zero. -/
def trigExact (quad : Nat) (neg : Bool) (m : Nat) (e : Int) : Exact :=
  let top := e + (Nat.log2 m : Int)
  if top < -40 then (if quad = 0 then nearly neg true m e else nearly false true 1 0)
  else
    let x := m * 2 ^ (e + 641).toNat
    let k := x / piFix
    let r := x % piFix / 2 ^ 321
    let q := (k + quad) % 4
    let v := if q % 2 = 0 then sinFix r else cosFix r
    sticky320 ((if quad = 0 then neg else false) != decide (2 ≤ q)) v

/-- 2 to the `±m × 2^e`, not zero. -/
def exp2Exact (neg : Bool) (m : Nat) (e : Int) : Exact :=
  let top := e + (Nat.log2 m : Int)
  if top < -70 then nearly false neg 1 0
  else if 9 < top then .fin false (2 ^ 64 + 1) (if neg then -2000 else 2000)
  else
    let fx : Int := (toUnit .zero false m e (-320)).1
    let v : Int := if neg then -fx else fx
    let n := v / 2 ^ 320
    let fr := (v % 2 ^ 320).toNat
    if fr = 0 then .fin false 1 n
    else match sticky320 false (expSeries (fr * ln2Fix / 2 ^ 384) 80 1 (2 ^ 320)) with
      | .fin s m e => .fin s m (e + n)
      | x => x

/-- log2 of `m × 2^e`, positive. -/
def log2Exact (m : Nat) (e : Int) : Exact :=
  let l := Nat.log2 m
  let n : Int := e + (l : Int)
  if m = 2 ^ l then .fin (decide (n < 0)) n.natAbs 0
  else
    let z := (m - 2 ^ l) * 2 ^ 320 / (m + 2 ^ l)
    let ln := 2 * atanhSeries (z * z / 2 ^ 320) 120 1 z
    let v : Int := n * 2 ^ 320 + ((ln * 2 ^ 384 / ln2Fix : Nat) : Int)
    sticky320 (decide (v < 0)) v.natAbs

/-- The functions of opcode 0x4E (R68). -/
inductive Fn where
  | rcp | rsq | sqrt | exp2 | log2 | sin | cos
  deriving DecidableEq, Repr

/-- The exact value of a function of opcode 0x4E and the exceptions of its special operands (R112). -/
def Fn.exact (fn : Fn) : FVal → Exact × BitVec 6
  | .nan s => (.nan s, 0)
  | .inf n => match fn with
    | .rcp => (.fin n 0 0, 0)
    | .rsq => if n then (.nan true, 0) else (.fin false 0 0, 0)
    | .sqrt => if n then (.nan true, 0) else (.inf false, 0)
    | .exp2 => if n then (.fin false 0 0, 0) else (.inf false, 0)
    | .log2 => if n then (.nan true, 0) else (.inf false, 0)
    | .sin => (.nan true, 0)
    | .cos => (.nan true, 0)
  | .fin n m e =>
    if m = 0 then match fn with
      | .rcp => (.inf n, flagDZ)
      | .rsq => (.inf n, flagDZ)
      | .sqrt => (.fin n 0 0, 0)
      | .exp2 => (.fin false 1 0, 0)
      | .log2 => (.inf true, flagDZ)
      | .sin => (.fin n 0 0, 0)
      | .cos => (.fin false 1 0, 0)
    else match fn with
      | .rcp => let q := stickyDiv 1 m; (.fin n q.1 (q.2 - e), 0)
      | .rsq =>
        if n then (.nan true, 0)
        else
          let r := rootOf m e
          let q := stickyDiv 1 r.1
          (.fin false (if r.1 % 2 = 1 then q.1 / 2 * 2 + 1 else q.1) (q.2 - r.2), 0)
      | .sqrt => if n then (.nan true, 0) else let r := rootOf m e; (.fin false r.1 r.2, 0)
      | .exp2 => (exp2Exact n m e, 0)
      | .log2 => if n then (.nan true, 0) else (log2Exact m e, 0)
      | .sin => (trigExact 0 n m e, 0)
      | .cos => (trigExact 1 n m e, 0)

/-- The function is rounded faithfully in .F32 (R111). -/
def Fn.faithful (fn : Fn) : Bool := !(fn == .rcp || fn == .sqrt)

/-- The rounded result of a function (R105, R111, R112): correctly rounded, or in .F32 one of the two bracketing values
(DESIGN CHOICE: log 9), which is then scaled and rounded again; with FTZ the unscaled result is flushed before it is scaled (DEDUCED:
log 63). `key` tells the operand and modifiers. -/
def Fn.apply (fn : Fn) (f : Fmt) (ftz : Bool) (scale : Int) (key : Nat × BitVec 32) (c : Nat) : Nat × BitVec 6 :=
  let x := fn.exact (f.value c)
  if fn.faithful && f == f32 then
    let big := match x.1 with
      | .fin _ m e => decide ((f.bias : Int) < e + (Nat.log2 m : Int))
      | _ => false
    let neg := match x.1 with
      | .fin n _ _ => n
      | _ => false
    let up := Config.faithfulUp (8 * key.1 + fn.ctorIdx) key.2
    let r := x.1.toFmt f (if big then .nearest else if up then (if neg then .down else .up) else .zero) ftz 0
    if scale = 0 then (r.1, r.2 ||| x.2)
    else
      let z := f.sumProd ftz scale [[r.1]]
      (z.1, r.2 ||| x.2 ||| z.2)
  else
    let r := x.1.toFmt f .nearest ftz scale
    (r.1, r.2 ||| x.2)

/-- ln 2 rounded to a format (R48). -/
def Fmt.ln2 (f : Fmt) : Nat := (f.round .nearest false false ln2Fix (-384)).1

end Sys2Proof.Machine
end

