-- ==== Sys2Proof/Machine/Float.lean ====
section
/-! DEFINITION. Floating-point instructions of the lanes (R104 to R117). -/

namespace Sys2Proof.Machine

open Sys2Proof

/-- What an operation raises on its way: exceptions so far. -/
abbrev Raised := BitVec 6

/-! ## Operands and result modifiers (R58, R49, R105) -/

/-- A source as its operation reads it: the primal, its tangents, and the exceptions that reading them raised. -/
structure FOpd where
  v : Nat
  ts : List Nat
  fl : BitVec 6 := 0
  tfl : BitVec 6 := 0
  deriving DecidableEq, Repr

/-- A subnormal read as zero under :ftz (R32). -/
def Fmt.flush (f : Fmt) (ftz : Bool) (c : Nat) : Nat × BitVec 6 :=
  if ftz && f.isSub c then (f.signed (f.neg c) 0, flagFZ) else (c, 0)

/-- Apply ABS, then NEG, then the flush to a source and its tangents (R58, R49, R32). -/
def Fmt.source (f : Fmt) (neg abs ftz : Bool) (x : List Nat) : FOpd :=
  let c := x.headD 0
  let swap := (abs && f.neg c) != neg
  let v := f.flush ftz (f.signed ((!abs && f.neg c) != neg) (f.mag c))
  let ts := (x.drop 1).map fun t => f.flush ftz (if swap then f.flip t else t)
  { v := v.1, ts := ts.map Prod.fst, fl := v.2, tfl := (ts.map Prod.snd).foldl (· ||| ·) 0 }

/-- RES on a result (R105). -/
def Fmt.range (f : Fmt) (res : Nat) (c : Nat) : Nat :=
  match res with
  | 1 => if f.isInf c then f.signed (f.neg c) (f.inf - 1) else c
  | 2 => if f.isNaN c || f.neg c then 0 else if f.one < c then f.one else c
  | 3 => if f.isNaN c then 0 else if f.one < f.mag c then f.signed (f.neg c) f.one else c
  | _ => c

/-- The primal before RES lies strictly outside its range, or is a NaN: the tangents become +0 (R49). -/
def Fmt.outside (f : Fmt) (res : Nat) (c : Nat) : Bool :=
  match res with
  | 1 => f.isNaN c || f.isInf c
  | 2 => f.isNaN c || (f.neg c && !f.isZero c) || (!f.neg c && decide (f.one < c))
  | 3 => f.isNaN c || decide (f.one < f.mag c)
  | _ => false

/-- The two result modifiers on a tangent (R49): the scale, rounded, then +0 where the primal was clamped. -/
def Fmt.tangentOut (f : Fmt) (ar : Arith) (outside : Bool) (t : Nat × BitVec 6) : Nat × BitVec 6 :=
  let t := if ar.scale = 0 then t
    else
      let r := f.sumProd ar.ftz ar.scale.toInt [[t.1]]
      (r.1, t.2 ||| r.2)
  (if outside then 0 else t.1, t.2)

/-- The result of one lane: from the primal at a scale (called at scale 0 for the `y` of R48), and the tangent rule, which is
given `y` and the tangents of the operands; `zero` is the operands' format. -/
def floatLane (f : Fmt) (ar : Arith) (xs : List FOpd) (n : Nat) (prim : Int → Nat × BitVec 6)
    (tang : Nat → List Nat → Nat × BitVec 6) (zero : Fmt := f) : LaneRes :=
  let r := prim ar.scale.toInt
  let y := if ar.scale = 0 then r.1 else (prim 0).1
  let outside := f.outside ar.res r.1
  let ts := (List.range n).map fun j =>
    let ds := xs.map fun x => x.ts.getD j 0
    f.tangentOut ar outside (if ds.all zero.isZero then (0, 0) else tang y ds)
  { vals := BitVec.ofNat 64 (f.range ar.res r.1) :: ts.map fun t => BitVec.ofNat 64 t.1,
    flags := xs.foldl (fun (a : BitVec 6) x => a ||| x.fl) r.2,
    tflags := xs.foldl (fun (a : BitVec 6) x => a ||| x.tfl) (ts.foldl (fun (a : BitVec 6) t => a ||| t.2) 0) }

/-- The width in bits of a format. -/
def Fmt.bits (f : Fmt) : Nat := 1 + f.ew + f.mw

/-- The codes of an operand and its tangents, from bit `lo` of each word (R31). -/
def Fmt.codes (f : Fmt) (lo : Nat) (x : List DWord) : List Nat := x.map fun w => w.toNat / 2 ^ lo % 2 ^ f.bits

/-- The three sources with their modifiers (R58). -/
def Fmt.sources (f : Fmt) (ar : Arith) (lo : Nat) (ops : List (List DWord)) : List FOpd :=
  let one (n : Nat) (neg abs : Bool) : List FOpd :=
    match ops[n]? with
    | none => []
    | some x => [f.source neg abs ar.ftz (f.codes lo x)]
  one 0 ar.nega ar.absa ++ one 1 ar.negb ar.absb ++ one 2 ar.negc ar.absc

/-- What the float instructions accept (R59): NEG and ABS of `n` sources, RES, FTZ, SCALE. -/
def accFloat (n : Nat) : Accept :=
  { neg := n, abs := n, res := 3, ftz := true, scale := .float, index := true, dual := true, moves := true }

/-- Continue with one more rounded step (R48). -/
def thenDo (x : Nat × BitVec 6) (f : Nat → Nat × BitVec 6) : Nat × BitVec 6 :=
  let y := f x.1
  (y.1, x.2 ||| y.2)

/-! ## The arithmetic operations on one element (R107, R48) -/

/-- What FADD, FSUB, FMUL, FFMA and FDIV compute. -/
inductive FOp where
  | add | sub | mul | fma | div
  deriving DecidableEq, Repr

/-- The result of an arithmetic operation and its tangents, on one element. -/
def FOp.lane (op : FOp) (f : Fmt) (ar : Arith) (n : Nat) (xs : List FOpd) : LaneRes :=
  let a := (xs.getD 0 ⟨0, [], 0, 0⟩).v
  let b := (xs.getD 1 ⟨0, [], 0, 0⟩).v
  let c := (xs.getD 2 ⟨0, [], 0, 0⟩).v
  let sum := f.sumProd ar.ftz
  match op with
  | .add => floatLane f ar xs n (fun sc => sum sc [[a], [b]]) fun _ d => sum 0 [[d.getD 0 0], [d.getD 1 0]]
  | .sub => floatLane f ar xs n (fun sc => sum sc [[a], [f.flip b]]) fun _ d =>
      sum 0 [[d.getD 0 0], [f.flip (d.getD 1 0)]]
  | .mul => floatLane f ar xs n (fun sc => sum sc [[a, b]]) fun _ d => sum 0 [[a, d.getD 1 0], [b, d.getD 0 0]]
  | .fma => floatLane f ar xs n (fun sc => sum sc [[a, b], [c]]) fun _ d =>
      sum 0 [[a, d.getD 1 0], [b, d.getD 0 0], [d.getD 2 0]]
  | .div => floatLane f ar xs n (fun sc => f.div ar.ftz sc a b) fun y d =>
      thenDo (sum 0 [[d.getD 0 0], [f.flip y, d.getD 1 0]]) fun t => f.div ar.ftz 0 t b

/-- The register sources of an instruction. -/
def regs (fs : List RegField) : List Opnd := fs.map fun r => { f := r }

/-- An unpacked arithmetic instruction (R107). -/
def arithInstr (op : FOp) (f : Fmt) (lat : Option Nat) (d a b : RegField) (t : Tail) (s : State) :
    Host.Outcome State Fault Refusal :=
  let acc := if op = .fma then { accFloat 3 with useC := true } else accFloat 2
  floatInstr { cls := .lane, acc := acc, dst := some { f := d }, srcs := regs [a, b] } lat t s
    fun i _ o => op.lane f i.mods.ar i.tans.length (f.sources i.mods.ar 0 o)

/-- FADD.F32 (R107). -/
def execFaddF32 (d a b : RegField) (t : Tail) (s : State) : Host.Outcome State Fault Refusal := arithInstr .add f32 (some 6) d a b t s
/-- FADD.F16 (R107). -/
def execFaddF16 (d a b : RegField) (t : Tail) (s : State) : Host.Outcome State Fault Refusal := arithInstr .add f16 (some 6) d a b t s
/-- FADD.BF16 (R107). -/
def execFaddBf16 (d a b : RegField) (t : Tail) (s : State) : Host.Outcome State Fault Refusal := arithInstr .add bf16 (some 6) d a b t s
/-- FSUB.F32 (R107). -/
def execFsubF32 (d a b : RegField) (t : Tail) (s : State) : Host.Outcome State Fault Refusal := arithInstr .sub f32 (some 6) d a b t s
/-- FSUB.F16 (R107). -/
def execFsubF16 (d a b : RegField) (t : Tail) (s : State) : Host.Outcome State Fault Refusal := arithInstr .sub f16 (some 6) d a b t s
/-- FSUB.BF16 (R107). -/
def execFsubBf16 (d a b : RegField) (t : Tail) (s : State) : Host.Outcome State Fault Refusal := arithInstr .sub bf16 (some 6) d a b t s
/-- FMUL.F32 (R107). -/
def execFmulF32 (d a b : RegField) (t : Tail) (s : State) : Host.Outcome State Fault Refusal := arithInstr .mul f32 (some 6) d a b t s
/-- FMUL.F16 (R107). -/
def execFmulF16 (d a b : RegField) (t : Tail) (s : State) : Host.Outcome State Fault Refusal := arithInstr .mul f16 (some 6) d a b t s
/-- FMUL.BF16 (R107). -/
def execFmulBf16 (d a b : RegField) (t : Tail) (s : State) : Host.Outcome State Fault Refusal := arithInstr .mul bf16 (some 6) d a b t s
/-- FFMA.F32 (R107). -/
def execFfmaF32 (d a b : RegField) (t : Tail) (s : State) : Host.Outcome State Fault Refusal := arithInstr .fma f32 (some 6) d a b t s
/-- FFMA.F16 (R107). -/
def execFfmaF16 (d a b : RegField) (t : Tail) (s : State) : Host.Outcome State Fault Refusal := arithInstr .fma f16 (some 6) d a b t s
/-- FFMA.BF16 (R107). -/
def execFfmaBf16 (d a b : RegField) (t : Tail) (s : State) : Host.Outcome State Fault Refusal := arithInstr .fma bf16 (some 6) d a b t s
/-- FDIV.F32 (R107). -/
def execFdivF32 (d a b : RegField) (t : Tail) (s : State) : Host.Outcome State Fault Refusal := arithInstr .div f32 none d a b t s
/-- FDIV.F16 (R107). -/
def execFdivF16 (d a b : RegField) (t : Tail) (s : State) : Host.Outcome State Fault Refusal := arithInstr .div f16 none d a b t s
/-- FDIV.BF16 (R107). -/
def execFdivBf16 (d a b : RegField) (t : Tail) (s : State) : Host.Outcome State Fault Refusal := arithInstr .div bf16 none d a b t s

/-! ## Minimum, maximum and comparison (R108, R109) -/

/-- FMIN or FMAX on one element (R108). SCALE multiplies the operand that is returned and rounds once; the exceptions of that rounding are raised,
as R105 merges those of any scaling, although R108 names no flag but NV (DEDUCED: log 63). -/
def pickLane (larger : Bool) (f : Fmt) (ar : Arith) (n : Nat) (xs : List FOpd) : LaneRes :=
  let a := (xs.getD 0 ⟨0, [], 0, 0⟩).v
  let b := (xs.getD 1 ⟨0, [], 0, 0⟩).v
  let p := f.pickFirst larger a b
  let v := match p with
    | none => f.nan
    | some x => if x then a else b
  floatLane f ar xs n
    (fun sc => (if sc = 0 then v else (f.sumProd ar.ftz sc [[v]]).1,
      f.snanFlag [a, b] ||| (if sc = 0 then 0 else (f.sumProd ar.ftz sc [[v]]).2)))
    fun _ d => (d.getD (if p = some false then 1 else 0) 0, 0)

/-- FMIN and FMAX (R108). -/
def pickInstr (larger : Bool) (f : Fmt) (d a b : RegField) (t : Tail) (s : State) : Host.Outcome State Fault Refusal :=
  floatInstr { cls := .lane, acc := accFloat 2, dst := some { f := d }, srcs := regs [a, b] } (some 6) t s
    fun i _ o => pickLane larger f i.mods.ar i.tans.length (f.sources i.mods.ar 0 o)

/-- FMIN.F32 (R108). -/
def execFminF32 (d a b : RegField) (t : Tail) (s : State) : Host.Outcome State Fault Refusal := pickInstr false f32 d a b t s
/-- FMIN.F16 (R108). -/
def execFminF16 (d a b : RegField) (t : Tail) (s : State) : Host.Outcome State Fault Refusal := pickInstr false f16 d a b t s
/-- FMIN.BF16 (R108). -/
def execFminBf16 (d a b : RegField) (t : Tail) (s : State) : Host.Outcome State Fault Refusal := pickInstr false bf16 d a b t s
/-- FMAX.F32 (R108). -/
def execFmaxF32 (d a b : RegField) (t : Tail) (s : State) : Host.Outcome State Fault Refusal := pickInstr true f32 d a b t s
/-- FMAX.F16 (R108). -/
def execFmaxF16 (d a b : RegField) (t : Tail) (s : State) : Host.Outcome State Fault Refusal := pickInstr true f16 d a b t s
/-- FMAX.BF16 (R108). -/
def execFmaxBf16 (d a b : RegField) (t : Tail) (s : State) : Host.Outcome State Fault Refusal := pickInstr true bf16 d a b t s

/-- The outcome of an FSETP condition (R109). -/
def Fmt.cond (f : Fmt) (c : BitVec 4) (x y : Nat) : Bool :=
  let un := f.isNaN x || f.isNaN y
  let a := f.key x
  let b := f.key y
  match c.toNat with
  | 0 => !un && decide (a = b)
  | 1 => un || decide (a ≠ b)
  | 2 => !un && decide (a < b)
  | 3 => !un && decide (a ≤ b)
  | 4 => !un && decide (b < a)
  | 5 => !un && decide (b ≤ a)
  | 6 => un || decide (a < b)
  | 7 => un || decide (a ≤ b)
  | 8 => un || decide (b < a)
  | _ => un || decide (b ≤ a)

/-- FSETP (R109). -/
def setpInstr (f : Fmt) (c : BitVec 4) (p : BitVec 3) (a b : RegField) (t : Tail) (s : State) :
    Host.Outcome State Fault Refusal :=
  let fm : Form := { cls := .lane, acc := { neg := 2, abs := 2, ftz := true, index := true }, srcs := regs [a, b],
                     writes := [.p p.toNat], bad := fun _ => decide (10 ≤ c.toNat) }
  issue fm t s fun i s =>
    let res (l : Nat) : Bool × BitVec 6 :=
      let xs := f.sources i.mods.ar 0 (i.readAll l fm.srcs 0)
      let x := (xs.getD 0 ⟨0, [], 0, 0⟩)
      let y := (xs.getD 1 ⟨0, [], 0, 0⟩)
      let nv := if c.toNat < 2 then f.snanFlag [x.v, y.v] else if f.isNaN x.v || f.isNaN y.v then flagNV else 0
      (f.cond c x.v y.v, x.fl ||| y.fl ||| nv)
    match floatFlags i false (i.act.map fun l => ([l], (res l).2, 0)) s with
    | .error e => .error e
    | .ok s => .ok (i.commit s (some 6) (predCells p i.act fun l => (res l).1), 0)

/-- FSETP.F32 (R109). -/
def execFsetpF32 (c : BitVec 4) (p : BitVec 3) (a b : RegField) (t : Tail) (s : State) : Host.Outcome State Fault Refusal := setpInstr f32 c p a b t s
/-- FSETP.F16 (R109). -/
def execFsetpF16 (c : BitVec 4) (p : BitVec 3) (a b : RegField) (t : Tail) (s : State) : Host.Outcome State Fault Refusal := setpInstr f16 c p a b t s
/-- FSETP.BF16 (R109). -/
def execFsetpBf16 (c : BitVec 4) (p : BitVec 3) (a b : RegField) (t : Tail) (s : State) : Host.Outcome State Fault Refusal := setpInstr bf16 c p a b t s

/-! ## Packed arithmetic (R110) -/

/-- Two 16-bit results in one word. -/
def packRes (x y : LaneRes) : LaneRes :=
  { vals := (List.range (max x.vals.length y.vals.length)).map fun n =>
      (y.vals.getD n 0 <<< 16) ||| x.vals.getD n 0,
    flags := x.flags ||| y.flags, tflags := x.tflags ||| y.tflags }

/-- A packed arithmetic instruction (R110): elements 0 and 1 each by itself. -/
def packedInstr (op : FOp) (f : Fmt) (d a b : RegField) (t : Tail) (s : State) : Host.Outcome State Fault Refusal :=
  let acc := if op = .fma then { accFloat 3 with useC := true } else accFloat 2
  floatInstr { cls := .vector, acc := acc, dst := some { f := d }, srcs := regs [a, b] } (some 6) t s
    fun i _ o =>
      let el (lo : Nat) := op.lane f i.mods.ar i.tans.length (f.sources i.mods.ar lo o)
      packRes (el 0) (el 16)

/-- PADD2.F16 (R110). -/
def execPadd2F16 (d a b : RegField) (t : Tail) (s : State) : Host.Outcome State Fault Refusal := packedInstr .add f16 d a b t s
/-- PADD2.BF16 (R110). -/
def execPadd2Bf16 (d a b : RegField) (t : Tail) (s : State) : Host.Outcome State Fault Refusal := packedInstr .add bf16 d a b t s
/-- PMUL2.F16 (R110). -/
def execPmul2F16 (d a b : RegField) (t : Tail) (s : State) : Host.Outcome State Fault Refusal := packedInstr .mul f16 d a b t s
/-- PMUL2.BF16 (R110). -/
def execPmul2Bf16 (d a b : RegField) (t : Tail) (s : State) : Host.Outcome State Fault Refusal := packedInstr .mul bf16 d a b t s
/-- PFMA2.F16 (R110). -/
def execPfma2F16 (d a b : RegField) (t : Tail) (s : State) : Host.Outcome State Fault Refusal := packedInstr .fma f16 d a b t s
/-- PFMA2.BF16 (R110). -/
def execPfma2Bf16 (d a b : RegField) (t : Tail) (s : State) : Host.Outcome State Fault Refusal := packedInstr .fma bf16 d a b t s

/-! ## Transcendentals, roots and reciprocals (R111, R112) -/

/-- The type that a two-bit field names (R68): 0 .F32, 1 .F16, 2 .BF16. -/
def fmtOf (n : Nat) : Fmt := match n with | 0 => f32 | 1 => f16 | _ => bf16

/-- The source and result modifiers of a word, by which a faithful result may depend on them (DESIGN CHOICE: log 9). -/
def modKey (ar : Arith) : Nat :=
  (if ar.nega then 1 else 0) + (if ar.absa then 2 else 0) + (if ar.ftz then 4 else 0) + 8 * ar.res + 32 * ar.scale.toNat

/-- The tangent rule of a function of opcode 0x4E (R48). FCOS(a) and FSIN(a) are the values of those instructions on the bits of a, with no modifier
but FTZ (R111); what evaluating them raises goes into no flag: only the roundings written rne(…) do (DEDUCED: log 63). -/
def Fn.tangent (fn : Fn) (f : Fmt) (ftz : Bool) (a y d : Nat) : Nat × BitVec 6 :=
  let sum := f.sumProd ftz 0
  let half := f.signed true (f.one - 2 ^ f.mw)
  let two := f.one + 2 ^ f.mw
  let own (g : Fn) := g.apply f ftz 0 (modKey { Arith.none with ftz := ftz } + 1, BitVec.ofNat 32 a) a
  match fn with
  | .rcp => thenDo (sum [[y, y]]) fun u => sum [[f.flip u, d]]
  | .rsq => thenDo (sum [[y, y]]) fun u => thenDo (sum [[u, y]]) fun v => sum [[half, v, d]]
  | .sqrt => thenDo (sum [[two, y]]) fun u => f.div ftz 0 d u
  | .exp2 => thenDo (sum [[y, f.ln2]]) fun u => sum [[u, d]]
  | .log2 => thenDo (sum [[a, f.ln2]]) fun u => f.div ftz 0 d u
  | .sin => sum [[(own .cos).1, d]]
  | .cos => sum [[f.flip (own .sin).1, d]]

/-- An instruction of opcode 0x4E (R111). -/
def fnInstr (fn : Fn) (d a : RegField) (ty : BitVec 2) (t : Tail) (s : State) : Host.Outcome State Fault Refusal :=
  let f := fmtOf ty.toNat
  floatInstr { cls := .vector, acc := accFloat 1, dst := some { f := d }, srcs := regs [a],
               bad := fun _ => ty == 3 } none t s
    fun i _ o =>
      let ar := i.mods.ar
      let xs := f.sources ar 0 o
      let x := (xs.getD 0 ⟨0, [], 0, 0⟩).v
      let key := (modKey ar + 1, (o.getD 0 []).headD 0 |>.setWidth 32)
      floatLane f ar xs i.tans.length (fun sc => fn.apply f ar.ftz sc key x)
        fun y ds => fn.tangent f ar.ftz x y (ds.getD 0 0)

/-- FRCP (R111). -/
def execFrcp (d a : RegField) (ty : BitVec 2) (t : Tail) (s : State) : Host.Outcome State Fault Refusal := fnInstr .rcp d a ty t s
/-- FRSQ (R111). -/
def execFrsq (d a : RegField) (ty : BitVec 2) (t : Tail) (s : State) : Host.Outcome State Fault Refusal := fnInstr .rsq d a ty t s
/-- FSQRT (R111). -/
def execFsqrt (d a : RegField) (ty : BitVec 2) (t : Tail) (s : State) : Host.Outcome State Fault Refusal := fnInstr .sqrt d a ty t s
/-- FEXP2 (R111). -/
def execFexp2 (d a : RegField) (ty : BitVec 2) (t : Tail) (s : State) : Host.Outcome State Fault Refusal := fnInstr .exp2 d a ty t s
/-- FLOG2 (R111). -/
def execFlog2 (d a : RegField) (ty : BitVec 2) (t : Tail) (s : State) : Host.Outcome State Fault Refusal := fnInstr .log2 d a ty t s
/-- FSIN (R111). -/
def execFsin (d a : RegField) (ty : BitVec 2) (t : Tail) (s : State) : Host.Outcome State Fault Refusal := fnInstr .sin d a ty t s
/-- FCOS (R111). -/
def execFcos (d a : RegField) (ty : BitVec 2) (t : Tail) (s : State) : Host.Outcome State Fault Refusal := fnInstr .cos d a ty t s

/-! ## Conversion, rounding and classification (R113 to R117) -/

/-- The source and target formats of FCVT codes 0 to 5 (R69). -/
def cvtFloats (c : Nat) : Fmt × Fmt :=
  match c with
  | 0 => (f32, f16)
  | 1 => (f32, bf16)
  | 2 => (f16, f32)
  | 3 => (bf16, f32)
  | 4 => (f16, bf16)
  | _ => (bf16, f16)

/-- FCVT between float formats, one lane (R113). -/
def cvtFloatLane (src dst : Fmt) (r : Dir) (ar : Arith) (n : Nat) (x : FOpd) : LaneRes :=
  let conv (dir : Dir) (sc : Int) (c : Nat) := (src.value c).exact.toFmt dst dir ar.ftz sc
  floatLane dst ar [x] n (fun sc => conv r sc x.v) (zero := src)
    fun _ ds => conv .nearest 0 (ds.getD 0 0)

/-- The limits of an integer target: .S32, .N32, .S64 (R28). -/
def intLimits (k : Nat) : Int × Int :=
  match k with
  | 0 => (-(2 ^ 31), 2 ^ 31 - 1)
  | 1 => (0, 2 ^ 32 - 1)
  | _ => (-(2 ^ 63), 2 ^ 63 - 1)

/-- FCVT of a float to an integer (R114): the value and its exceptions. -/
def cvtToInt (k : Nat) (r : Dir) (scale : Int) (v : FVal) : Int × BitVec 6 :=
  let (lo, hi) := intLimits k
  match v with
  | .nan _ => (0, flagNV)
  | .inf n => (if n then lo else hi, flagNV)
  | .fin n m e =>
    let (q, inexact) := toUnit r n m (e + scale) 0
    let x : Int := if n then -(q : Int) else q
    if x < lo ∨ hi < x then (sat x lo hi, flagNV) else (x, if inexact then flagNX else 0)

/-- FCVT (R113 to R115). -/
def execFcvt (d a : RegField) (c : BitVec 5) (r : BitVec 2) (t : Tail) (s : State) : Host.Outcome State Fault Refusal :=
  let n := c.toNat
  let dir := Dir.of r.toNat
  if n < 6 then
    floatInstr { cls := .vector, acc := accFloat 1, dst := some { f := d }, srcs := regs [a] } none t s
      fun i _ o =>
        let f := cvtFloats n
        cvtFloatLane f.1 f.2 dir i.mods.ar i.tans.length
          ((f.1.sources i.mods.ar 0 o).getD 0 ⟨0, [], 0, 0⟩)
  else if n < 15 then
    let k := (n - 6) % 3
    let f := fmtOf ((n - 6) / 3)
    floatInstr { cls := .vector, acc := { accFloat 1 with res := 0, moves := false },
                 dst := some { f := d, width := if k = 2 then 2 else 1 }, srcs := regs [a] } none t s
      fun i _ o =>
        let x := (f.sources i.mods.ar 0 o).getD 0 ⟨0, [], 0, 0⟩
        let v := cvtToInt k dir i.mods.ar.scale.toInt (f.value x.v)
        { i.plain (wrap 64 v.1) with flags := x.fl ||| v.2 }
  else
    let k := (n - 15) / 3
    let f := fmtOf ((n - 15) % 3)
    floatInstr { cls := .vector, acc := { accFloat 0 with res := 3, moves := false }, dst := some { f := d },
                 srcs := [{ f := a, width := if k = 2 then 2 else 1 }] } none t s
      fun i _ o =>
        let x := (o.getD 0 []).headD 0
        let v : Int := if k = 0 then (x.setWidth 32 : Word).toInt else if k = 1 then (x.setWidth 32 : Word).toNat else x.toInt
        let r := f.round dir false (decide (v < 0)) v.natAbs i.mods.ar.scale.toInt
        { i.plain (BitVec.ofNat 64 (f.range i.mods.ar.res r.1)) with flags := r.2 }

/-- A value rounded to an integral one (R116). -/
def FVal.integral (r : Dir) : FVal → Exact
  | .fin n m e => .fin n (toUnit r n m e 0).1 0
  | x => x.exact

/-- FRND (R116). -/
def rndInstr (f : Fmt) (d a : RegField) (r : BitVec 2) (t : Tail) (s : State) : Host.Outcome State Fault Refusal :=
  floatInstr { cls := .vector, acc := { accFloat 1 with moves := false }, dst := some { f := d }, srcs := regs [a] } none t s
    fun i _ o =>
      let ar := i.mods.ar
      let x := (f.sources ar 0 o).getD 0 ⟨0, [], 0, 0⟩
      let v := ((f.value x.v).integral (Dir.of r.toNat)).toFmt f (Dir.of r.toNat) ar.ftz ar.scale.toInt
      { i.plain (BitVec.ofNat 64 (f.range ar.res v.1)) with flags := x.fl ||| v.2 }

/-- FRND.F32 (R116). -/
def execFrndF32 (d a : RegField) (r : BitVec 2) (t : Tail) (s : State) : Host.Outcome State Fault Refusal := rndInstr f32 d a r t s
/-- FRND.F16 (R116). -/
def execFrndF16 (d a : RegField) (r : BitVec 2) (t : Tail) (s : State) : Host.Outcome State Fault Refusal := rndInstr f16 d a r t s
/-- FRND.BF16 (R116). -/
def execFrndBf16 (d a : RegField) (r : BitVec 2) (t : Tail) (s : State) : Host.Outcome State Fault Refusal := rndInstr bf16 d a r t s

/-- The tests of FCLASS (R117). -/
def Fmt.classOf (f : Fmt) (test x : Nat) : Bool :=
  let nan := f.isNaN x
  let inf := f.isInf x
  let neg := f.neg x
  match test with
  | 0 => nan
  | 1 => f.isSNaN x
  | 2 => nan && !f.isSNaN x
  | 3 => inf
  | 4 => inf && !neg
  | 5 => inf && neg
  | 6 => f.isZero x
  | 7 => f.isSub x
  | 8 => !nan && !inf && decide (2 ^ f.mw ≤ f.mag x)
  | 9 => !nan && !inf
  | 10 => neg
  | 11 => !nan && !inf && !f.isZero x
  | 12 => !nan
  | 13 => nan || inf
  | _ => !nan && !inf && neg

/-- FCLASS (R117). -/
def classInstr (f : Fmt) (c : BitVec 4) (p : BitVec 3) (a : RegField) (t : Tail) (s : State) :
    Host.Outcome State Fault Refusal :=
  let fm : Form := { cls := .vector, acc := { neg := 1, abs := 1, ftz := true, index := true }, srcs := regs [a],
                     writes := [.p p.toNat], bad := fun _ => c == 15 }
  issue fm t s fun i s =>
    .ok (i.commit s none (predCells p i.act fun l =>
      f.classOf c.toNat ((f.sources i.mods.ar 0 (i.readAll l fm.srcs 0)).getD 0 ⟨0, [], 0, 0⟩).v), 0)

/-- FCLASS.F32 (R117). -/
def execFclassF32 (c : BitVec 4) (p : BitVec 3) (a : RegField) (t : Tail) (s : State) : Host.Outcome State Fault Refusal := classInstr f32 c p a t s
/-- FCLASS.F16 (R117). -/
def execFclassF16 (c : BitVec 4) (p : BitVec 3) (a : RegField) (t : Tail) (s : State) : Host.Outcome State Fault Refusal := classInstr f16 c p a t s
/-- FCLASS.BF16 (R117). -/
def execFclassBf16 (c : BitVec 4) (p : BitVec 3) (a : RegField) (t : Tail) (s : State) : Host.Outcome State Fault Refusal := classInstr bf16 c p a t s

end Sys2Proof.Machine
end

