-- ==== Sys2Proof/Decode.lean ====
section
/-! DEFINITION. Decoding (R56, R57, R67 to R69): total on any words, refusing by name, and after it the encoder,
written from the same encoding tables. -/

namespace Sys2Proof

/-- Why a word is no instruction (R70): its opcode or selecting field is not listed; a reserved or unused bit
is set (the instruction that the other bits name is given along, since its class is checked first); the
words end inside a modifier chain. -/
inductive DecodeError where
  | illegalOpcode
  | illegalField (i : Instr)
  | truncated
  deriving DecidableEq, Repr

/-- The common fields of every instruction word (R56): OP, the three register fields, STALL and M. -/
structure WordFields where
  op : BitVec 7
  d : BitVec 7
  a : BitVec 7
  b : BitVec 7
  stall : BitVec 3
  m : BitVec 1
  deriving DecidableEq, Repr

/-- Cut a word into its common fields (R56). -/
def splitWord (w : Word) : WordFields :=
  ⟨w.extractLsb' 25 7, w.extractLsb' 18 7, w.extractLsb' 11 7, w.extractLsb' 4 7, w.extractLsb' 1 3,
    w.extractLsb' 0 1⟩

/-- Join the common fields to a word (R56). -/
def joinWord (f : WordFields) : Word := f.op ++ f.d ++ f.a ++ f.b ++ f.stall ++ f.m

/-- An instruction whose unused bits must be 0 (R56, R70). -/
def unusedZero (ok : Bool) (i : Instr) : Except DecodeError Instr :=
  if ok then .ok i else .error (.illegalField i)

/-- The opcode map (R67 to R69): the instruction of an opcode, its three 7-bit fields and its tail. -/
def decodeOp (op : Nat) (d a b : BitVec 7) (t : Tail) : Except DecodeError Instr :=
  match op with
  | 0x00 => unusedZero (decide (d = 0 ∧ a = 0 ∧ b = 0)) (.nop t)
  | 0x01 => .ok (.iadd d a b t)
  | 0x02 => .ok (.iaddImm d a b t)
  | 0x03 => .ok (.isub d a b t)
  | 0x04 => .ok (.imul d a b t)
  | 0x05 => .ok (.imulhiS32 d a b t)
  | 0x06 => .ok (.imulhiN32 d a b t)
  | 0x07 => .ok (.imad d a b t)
  | 0x08 => .ok (.iminS32 d a b t)
  | 0x09 => .ok (.iminN32 d a b t)
  | 0x0A => .ok (.imaxS32 d a b t)
  | 0x0B => .ok (.imaxN32 d a b t)
  | 0x0C => .ok (.csub d a b t)
  | 0x0D => .ok (.iadd64 d a b t)
  | 0x0E => .ok (.lea d a b t)
  | 0x0F => .ok (.iand d a b t)
  | 0x10 => .ok (.ior d a b t)
  | 0x11 => .ok (.ixor d a b t)
  | 0x12 => .ok (.iandn d a b t)
  | 0x13 => .ok (.shl d a b t)
  | 0x14 => .ok (.shr d a b t)
  | 0x15 => .ok (.sar d a b t)
  | 0x16 => .ok (.rot d a b t)
  | 0x17 => match (b.extractLsb' 5 2).toNat with
    | 0 => .ok (.shlImm d a (b.extractLsb' 0 5) t)
    | 1 => .ok (.shrImm d a (b.extractLsb' 0 5) t)
    | 2 => .ok (.sarImm d a (b.extractLsb' 0 5) t)
    | _ => .ok (.rotImm d a (b.extractLsb' 0 5) t)
  | 0x18 => .ok (.bfx d a b t)
  | 0x19 => .ok (.bfi d a b t)
  | 0x1A => match b.toNat with
    | 0 => .ok (.iabs d a t)
    | 1 => .ok (.popc d a t)
    | 2 => .ok (.clz d a t)
    | 3 => .ok (.brev d a t)
    | _ => .error .illegalOpcode
  | 0x1B => .ok (.isetp (d.extractLsb' 3 4) (d.extractLsb' 0 3) a b t)
  | 0x1C => match (d.extractLsb' 3 2).toNat with
    | 0 => unusedZero (decide (d.extractLsb' 5 2 = 0 ∧ a.extractLsb' 4 3 = 0 ∧ b.extractLsb' 4 3 = 0)) (.pand (d.extractLsb' 0 3) (a.extractLsb' 3 1) (a.extractLsb' 0 3) (b.extractLsb' 3 1) (b.extractLsb' 0 3) t)
    | 1 => unusedZero (decide (d.extractLsb' 5 2 = 0 ∧ a.extractLsb' 4 3 = 0 ∧ b.extractLsb' 4 3 = 0)) (.por (d.extractLsb' 0 3) (a.extractLsb' 3 1) (a.extractLsb' 0 3) (b.extractLsb' 3 1) (b.extractLsb' 0 3) t)
    | 2 => unusedZero (decide (d.extractLsb' 5 2 = 0 ∧ a.extractLsb' 4 3 = 0 ∧ b.extractLsb' 4 3 = 0)) (.pxor (d.extractLsb' 0 3) (a.extractLsb' 3 1) (a.extractLsb' 0 3) (b.extractLsb' 3 1) (b.extractLsb' 0 3) t)
    | _ => unusedZero (decide (d.extractLsb' 5 2 = 0 ∧ a.extractLsb' 4 3 = 0 ∧ b = 0)) (.pnot (d.extractLsb' 0 3) (a.extractLsb' 3 1) (a.extractLsb' 0 3) t)
  | 0x1D => .ok (.sel d a b t)
  | 0x1E => unusedZero (decide (b = 0)) (.mov d a t)
  | 0x1F => .ok (.movi d (a ++ b) t)
  | 0x20 => .ok (.movhi d (a ++ b) t)
  | 0x21 => unusedZero (decide (a = 0)) (.rdsp d b t)
  | 0x22 => unusedZero (decide (d = 0)) (.wrsp a b t)
  | 0x23 => unusedZero (decide (d.extractLsb' 2 5 = 0)) (.ixset (d.extractLsb' 0 2) a b t)
  | 0x24 => unusedZero (decide (d.extractLsb' 2 5 = 0 ∧ a = 0)) (.ixadd (d.extractLsb' 0 2) b t)
  | 0x25 => .ok (.bra (d ++ a ++ b) t)
  | 0x26 => unusedZero (decide (d = 0 ∧ b = 0)) (.brx a t)
  | 0x27 => .ok (.call (d ++ a ++ b) t)
  | 0x28 => .ok (.meet (d ++ a ++ b) t)
  | 0x29 => match b.toNat with
    | 0 => unusedZero (decide (a = 0)) (.meetx d t)
    | 1 => unusedZero (decide (d = 0)) (.meetr a t)
    | _ => .error .illegalOpcode
  | 0x2A => .ok (.refill d (a.extractLsb' 4 3) (a.extractLsb' 2 2) (a.extractLsb' 0 2 ++ b) t)
  | 0x2B => match b.toNat with
    | 0 => unusedZero (decide (d = 0)) (.ret a t)
    | 1 => unusedZero (decide (d = 0 ∧ a = 0)) (.exit t)
    | 2 => unusedZero (decide (d = 0 ∧ a = 0)) (.yield t)
    | _ => .error .illegalOpcode
  | 0x2C => unusedZero (decide (d = 0)) (.trap (a ++ b) t)
  | 0x2D => unusedZero (decide (d = 0)) (.brk (a ++ b) t)
  | 0x30 => .ok (.faddF32 d a b t)
  | 0x31 => .ok (.faddF16 d a b t)
  | 0x32 => .ok (.faddBf16 d a b t)
  | 0x33 => .ok (.fsubF32 d a b t)
  | 0x34 => .ok (.fsubF16 d a b t)
  | 0x35 => .ok (.fsubBf16 d a b t)
  | 0x36 => .ok (.fmulF32 d a b t)
  | 0x37 => .ok (.fmulF16 d a b t)
  | 0x38 => .ok (.fmulBf16 d a b t)
  | 0x39 => .ok (.ffmaF32 d a b t)
  | 0x3A => .ok (.ffmaF16 d a b t)
  | 0x3B => .ok (.ffmaBf16 d a b t)
  | 0x3C => .ok (.fminF32 d a b t)
  | 0x3D => .ok (.fminF16 d a b t)
  | 0x3E => .ok (.fminBf16 d a b t)
  | 0x3F => .ok (.fmaxF32 d a b t)
  | 0x40 => .ok (.fmaxF16 d a b t)
  | 0x41 => .ok (.fmaxBf16 d a b t)
  | 0x42 => .ok (.fsetpF32 (d.extractLsb' 3 4) (d.extractLsb' 0 3) a b t)
  | 0x43 => .ok (.fsetpF16 (d.extractLsb' 3 4) (d.extractLsb' 0 3) a b t)
  | 0x44 => .ok (.fsetpBf16 (d.extractLsb' 3 4) (d.extractLsb' 0 3) a b t)
  | 0x45 => .ok (.fdivF32 d a b t)
  | 0x46 => .ok (.fdivF16 d a b t)
  | 0x47 => .ok (.fdivBf16 d a b t)
  | 0x48 => .ok (.padd2F16 d a b t)
  | 0x49 => .ok (.padd2Bf16 d a b t)
  | 0x4A => .ok (.pmul2F16 d a b t)
  | 0x4B => .ok (.pmul2Bf16 d a b t)
  | 0x4C => .ok (.pfma2F16 d a b t)
  | 0x4D => .ok (.pfma2Bf16 d a b t)
  | 0x4E => match (b.extractLsb' 4 3).toNat with
    | 0 => unusedZero (decide (b.extractLsb' 0 2 = 0)) (.frcp d a (b.extractLsb' 2 2) t)
    | 1 => unusedZero (decide (b.extractLsb' 0 2 = 0)) (.frsq d a (b.extractLsb' 2 2) t)
    | 2 => unusedZero (decide (b.extractLsb' 0 2 = 0)) (.fsqrt d a (b.extractLsb' 2 2) t)
    | 3 => unusedZero (decide (b.extractLsb' 0 2 = 0)) (.fexp2 d a (b.extractLsb' 2 2) t)
    | 4 => unusedZero (decide (b.extractLsb' 0 2 = 0)) (.flog2 d a (b.extractLsb' 2 2) t)
    | 5 => unusedZero (decide (b.extractLsb' 0 2 = 0)) (.fsin d a (b.extractLsb' 2 2) t)
    | 6 => unusedZero (decide (b.extractLsb' 0 2 = 0)) (.fcos d a (b.extractLsb' 2 2) t)
    | _ => .error .illegalOpcode
  | 0x4F => match (b.extractLsb' 2 5).toNat with
    | 24 => .ok (.frndF32 d a (b.extractLsb' 0 2) t)
    | 25 => .ok (.frndF16 d a (b.extractLsb' 0 2) t)
    | 26 => .ok (.frndBf16 d a (b.extractLsb' 0 2) t)
    | 27 => unusedZero (decide (b.extractLsb' 0 2 = 0)) (.fclassF32 (d.extractLsb' 3 4) (d.extractLsb' 0 3) a t)
    | 28 => unusedZero (decide (b.extractLsb' 0 2 = 0)) (.fclassF16 (d.extractLsb' 3 4) (d.extractLsb' 0 3) a t)
    | 29 => unusedZero (decide (b.extractLsb' 0 2 = 0)) (.fclassBf16 (d.extractLsb' 3 4) (d.extractLsb' 0 3) a t)
    | 30 => .error .illegalOpcode
    | 31 => .error .illegalOpcode
    | _ => .ok (.fcvt d a (b.extractLsb' 2 5) (b.extractLsb' 0 2) t)
  | 0x50 => .ok (.xchIdx d a b t)
  | 0x51 => unusedZero (decide (b.extractLsb' 6 1 = 0)) (.xchUp d a (b.extractLsb' 0 6) t)
  | 0x52 => unusedZero (decide (b.extractLsb' 6 1 = 0)) (.xchDown d a (b.extractLsb' 0 6) t)
  | 0x53 => unusedZero (decide (b.extractLsb' 6 1 = 0)) (.xchXor d a (b.extractLsb' 0 6) t)
  | 0x54 => if 5 ≤ (b.extractLsb' 0 3).toNat then .error .illegalOpcode else unusedZero (decide (a.extractLsb' 4 3 = 0 ∧ b.extractLsb' 3 4 = 0)) (.vote d (a.extractLsb' 3 1) (a.extractLsb' 0 3) (b.extractLsb' 0 3) t)
  | 0x55 => .ok (.bcast d a b t)
  | 0x56 => unusedZero (decide (b.extractLsb' 6 1 = 0)) (.bcastImm d a (b.extractLsb' 0 6) t)
  | 0x57 => if 11 ≤ (b.extractLsb' 3 4).toNat then .error .illegalOpcode else unusedZero (decide (b.extractLsb' 0 3 = 0)) (.gred d a (b.extractLsb' 3 4) t)
  | 0x58 => if 11 ≤ (b.extractLsb' 3 4).toNat then .error .illegalOpcode else unusedZero (decide (b.extractLsb' 1 2 = 0)) (.gscan d a (b.extractLsb' 3 4) (b.extractLsb' 0 1) t)
  | 0x59 => .ok (.dualget d a b t)
  | 0x5A => .ok (.dualset d a b t)
  | 0x5B => unusedZero (decide (a = 0 ∧ b = 0)) (.dualzero d t)
  | 0x60 => unusedZero (decide (b.extractLsb' 6 1 = 0)) (.ld d a (b.extractLsb' 4 2) (b.extractLsb' 0 4) t)
  | 0x61 => unusedZero (decide (b.extractLsb' 6 1 = 0)) (.st d a (b.extractLsb' 4 2) (b.extractLsb' 0 4) t)
  | 0x62 => unusedZero (decide (b.extractLsb' 6 1 = 0)) (.ldm d a (b.extractLsb' 4 2) (b.extractLsb' 3 1) (b.extractLsb' 0 3) t)
  | 0x63 => unusedZero (decide (b.extractLsb' 6 1 = 0)) (.stm d a (b.extractLsb' 4 2) (b.extractLsb' 3 1) (b.extractLsb' 0 3) t)
  | 0x64 => .ok (.atom d a b t)
  | 0x65 => .ok (.cas d a b t)
  | 0x66 => .ok (.cas128 d a b t)
  | 0x67 => match b.toNat with
    | 0 => unusedZero (decide (d = 0 ∧ a = 0)) (.fence t)
    | 1 => unusedZero (decide (d.extractLsb' 2 5 = 0)) (.pref (d.extractLsb' 0 2) a t)
    | _ => .error .illegalOpcode
  | 0x68 => match b.toNat with
    | 0 => unusedZero (decide (d.extractLsb' 6 1 = 0)) (.bufdcl (d.extractLsb' 0 6) a t)
    | 1 => unusedZero (decide (d.extractLsb' 6 1 = 0 ∧ a.extractLsb' 2 5 = 0)) (.bufset (d.extractLsb' 0 6) (a.extractLsb' 0 2) t)
    | 2 => .ok (.bufq d a t)
    | _ => .error .illegalOpcode
  | 0x69 => match b.toNat with
    | 0 => .ok (.barinit d a t)
    | 1 => .ok (.barexp d a t)
    | 2 => .ok (.bararv d a t)
    | 3 => .ok (.barwait d a t)
    | 4 => .ok (.bartest d a t)
    | 5 => unusedZero (decide (d = 0 ∧ a = 0)) (.tsync t)
    | 6 => .ok (.cbararv d a t)
    | 7 => .ok (.cbarwait d a t)
    | _ => .error .illegalOpcode
  | 0x6A => match b.toNat with
    | 0 => unusedZero (decide (d.extractLsb' 4 3 = 0)) (.aqload (d.extractLsb' 0 4) a t)
    | 1 => unusedZero (decide (d = 0)) (.aqstart a t)
    | 2 => unusedZero (decide (d = 0)) (.aqstop a t)
    | 3 => unusedZero (decide (d = 0)) (.qflush a t)
    | 4 => unusedZero (decide (d.extractLsb' 2 5 = 0)) (.itempush (d.extractLsb' 0 2) a t)
    | _ => .error .illegalOpcode
  | 0x70 => unusedZero (decide (a = 0 ∧ b = 0)) (.mma d t)
  | 0x71 => unusedZero (decide (a = 0 ∧ b = 0)) (.mmas d t)
  | 0x72 => match b.toNat with
    | 0 => unusedZero (decide (a = 0)) (.mmz (d.extractLsb' 6 1) (d.extractLsb' 0 6) t)
    | 1 => .ok (.accld (d.extractLsb' 6 1) (d.extractLsb' 0 6) a t)
    | 2 => unusedZero (decide (d.extractLsb' 6 1 = 0)) (.accst (d.extractLsb' 0 6) a t)
    | 3 => unusedZero (decide (d.extractLsb' 6 1 = 0 ∧ a.extractLsb' 6 1 = 0)) (.accmv (d.extractLsb' 0 6) (a.extractLsb' 0 6) t)
    | 4 => unusedZero (decide (a.extractLsb' 6 1 = 0)) (.accadd (d.extractLsb' 6 1) (d.extractLsb' 0 6) (a.extractLsb' 0 6) t)
    | _ => .error .illegalOpcode
  | 0x73 => unusedZero (decide (d.extractLsb' 4 3 = 0 ∧ b = 0)) (.omset (d.extractLsb' 0 4) a t)
  | 0x74 => match b.toNat with
    | 0 => unusedZero (decide (d.extractLsb' 4 3 = 0)) (.mstcfg (d.extractLsb' 0 4) a t)
    | 1 => unusedZero (decide (d.extractLsb' 4 3 = 0)) (.msign (d.extractLsb' 0 4) a t)
    | _ => .error .illegalOpcode
  | 0x75 => match b.toNat with
    | 0 => unusedZero (decide (d = 0 ∧ a = 0)) (.mmwait t)
    | 1 => unusedZero (decide (a.extractLsb' 1 6 = 0)) (.mmstat d (a.extractLsb' 0 1) t)
    | _ => .error .illegalOpcode
  | 0x78 => match b.toNat with
    | 0 => unusedZero (decide (d.extractLsb' 4 3 = 0)) (.cpy (d.extractLsb' 0 4) a t)
    | 1 => unusedZero (decide (d.extractLsb' 4 3 = 0)) (.cpyt (d.extractLsb' 0 4) a t)
    | 2 => unusedZero (decide (d.extractLsb' 4 3 = 0)) (.cpyo (d.extractLsb' 0 4) a t)
    | 3 => unusedZero (decide (d.extractLsb' 4 3 = 0)) (.cpyg (d.extractLsb' 0 4) a t)
    | 4 => unusedZero (decide (d.extractLsb' 4 3 = 0)) (.cpys (d.extractLsb' 0 4) a t)
    | 5 => unusedZero (decide (d.extractLsb' 4 3 = 0)) (.cpyfill (d.extractLsb' 0 4) a t)
    | 6 => unusedZero (decide (d.extractLsb' 4 3 = 0)) (.cmcast (d.extractLsb' 0 4) a t)
    | _ => .error .illegalOpcode
  | 0x79 => match b.toNat with
    | 0 => unusedZero (decide (d.extractLsb' 4 3 = 0)) (.chwait (d.extractLsb' 0 4) a t)
    | 1 => unusedZero (decide (a.extractLsb' 5 2 = 0)) (.chstat d (a.extractLsb' 4 1) (a.extractLsb' 0 4) t)
    | _ => .error .illegalOpcode
  | 0x7A => match b.toNat with
    | 0 => unusedZero (decide (d.extractLsb' 5 2 = 0)) (.fmtset (d.extractLsb' 0 5) a t)
    | 1 => unusedZero (decide (a.extractLsb' 5 2 = 0)) (.fmtget d (a.extractLsb' 0 5) t)
    | _ => .error .illegalOpcode
  | 0x7B => match b.toNat with
    | 0 => unusedZero (decide (d.extractLsb' 4 3 = 0)) (.cpyp (d.extractLsb' 0 4) a t)
    | 1 => unusedZero (decide (d.extractLsb' 4 3 = 0)) (.psig (d.extractLsb' 0 4) a t)
    | _ => .error .illegalOpcode
  | 0x7C => match b.toNat with
    | 0 => .ok (.nbaxpy d a t)
    | 1 => .ok (.nbscal d a t)
    | 2 => .ok (.nbadd d a t)
    | 3 => .ok (.nbmul d a t)
    | 4 => .ok (.nbdot d a t)
    | 5 => .ok (.nbgemv d a t)
    | 6 => .ok (.nbcopy d a t)
    | 7 => .ok (.nbred d a t)
    | 8 => .ok (.nbfill d a t)
    | 9 => .ok (.nbld d a t)
    | 10 => .ok (.nbst d a t)
    | 11 => .ok (.nbfence d a t)
    | _ => .error .illegalOpcode
  | 0x7D => match b.toNat with
    | 0 => .ok (.rnginit d a t)
    | 1 => .ok (.grab d a t)
    | 2 => .ok (.launch d a t)
    | 3 => unusedZero (decide (d = 0)) (.join a t)
    | 4 => .ok (.lstat d a t)
    | 5 => unusedZero (decide (d = 0)) (.sethdlr a t)
    | 6 => unusedZero (decide (d = 0)) (.trapret a t)
    | 7 => .ok (.rdcause d a t)
    | 8 => .ok (.probe d a t)
    | 9 => unusedZero (decide (a = 0)) (.seqnew d t)
    | 10 => .ok (.seqend d a t)
    | _ => .error .illegalOpcode
  | _ => .error .illegalOpcode

/-- Decode an instruction word with the modifier words that follow it. -/
def decodeWord (w : Word) (mods : List Word) : Except DecodeError Instr :=
  decodeOp (splitWord w).op.toNat (splitWord w).d (splitWord w).a (splitWord w).b ⟨(splitWord w).stall, mods⟩

/-- Bit M of an instruction word or a modifier word: another modifier word follows (R57). -/
def hasMore (w : Word) : Bool := w.getLsbD 0

/-- Take the modifier words that follow a word whose bit M is `more`; none when the words end first. -/
def takeMods : Bool → List Word → Option (List Word × List Word)
  | false, ws => some ([], ws)
  | true, [] => none
  | true, w :: ws => (takeMods (hasMore w) ws).map fun r => (w :: r.1, r.2)

/-- Decode the first instruction of a list of words: the instruction, and the words after it. -/
def decodeWords : List Word → Except DecodeError (Instr × List Word)
  | [] => .error .truncated
  | w :: ws => match takeMods (hasMore w) ws with
    | none => .error .truncated
    | some (ms, rest) => (decodeWord w ms).map fun i => (i, rest)

/-- A word from its four bytes, the lowest address first (R5). -/
def wordOfBytes (b0 b1 b2 b3 : BitVec 8) : Word := b3 ++ b2 ++ b1 ++ b0

/-- The words of a list of bytes; a rest of fewer than four bytes is dropped. -/
def wordsOfBytes : List (BitVec 8) → List Word
  | b0 :: b1 :: b2 :: b3 :: bs => wordOfBytes b0 b1 b2 b3 :: wordsOfBytes bs
  | _ => []

/-- Decode from bytes as they lie in memory: the instruction, and the number of bytes that it takes. -/
def decodeBytes (bs : List (BitVec 8)) : Except DecodeError (Instr × Nat) :=
  (decodeWords (wordsOfBytes bs)).map fun r => (r.1, 4 * ((wordsOfBytes bs).length - r.2.length))

/-- The fields of a word whose bit M says whether modifier words follow. -/
def fieldsOf (op : BitVec 7) (d a b : BitVec 7) (t : Tail) : Option (WordFields × List Word) :=
  some (⟨op, d, a, b, t.stall, if t.mods.isEmpty then 0 else 1⟩, t.mods)

/-- The fields that an instruction's own word has (R56, R67); none for an event. -/
def encodeFields : Instr → Option (WordFields × List Word)
  | .nop t => fieldsOf 0 0 0 0 t
  | .iadd d a b t => fieldsOf 1 d a b t
  | .iaddImm d a i t => fieldsOf 2 d a i t
  | .isub d a b t => fieldsOf 3 d a b t
  | .imul d a b t => fieldsOf 4 d a b t
  | .imulhiS32 d a b t => fieldsOf 5 d a b t
  | .imulhiN32 d a b t => fieldsOf 6 d a b t
  | .imad d a b t => fieldsOf 7 d a b t
  | .iminS32 d a b t => fieldsOf 8 d a b t
  | .iminN32 d a b t => fieldsOf 9 d a b t
  | .imaxS32 d a b t => fieldsOf 10 d a b t
  | .imaxN32 d a b t => fieldsOf 11 d a b t
  | .csub d a b t => fieldsOf 12 d a b t
  | .iadd64 d a b t => fieldsOf 13 d a b t
  | .lea d a b t => fieldsOf 14 d a b t
  | .iand d a b t => fieldsOf 15 d a b t
  | .ior d a b t => fieldsOf 16 d a b t
  | .ixor d a b t => fieldsOf 17 d a b t
  | .iandn d a b t => fieldsOf 18 d a b t
  | .shl d a b t => fieldsOf 19 d a b t
  | .shr d a b t => fieldsOf 20 d a b t
  | .sar d a b t => fieldsOf 21 d a b t
  | .rot d a b t => fieldsOf 22 d a b t
  | .shlImm d a n t => fieldsOf 23 d a ((0 : BitVec 2) ++ n) t
  | .shrImm d a n t => fieldsOf 23 d a ((1 : BitVec 2) ++ n) t
  | .sarImm d a n t => fieldsOf 23 d a ((2 : BitVec 2) ++ n) t
  | .rotImm d a n t => fieldsOf 23 d a ((3 : BitVec 2) ++ n) t
  | .bfx d a b t => fieldsOf 24 d a b t
  | .bfi d a b t => fieldsOf 25 d a b t
  | .iabs d a t => fieldsOf 26 d a 0 t
  | .popc d a t => fieldsOf 26 d a 1 t
  | .clz d a t => fieldsOf 26 d a 2 t
  | .brev d a t => fieldsOf 26 d a 3 t
  | .isetp c p a b t => fieldsOf 27 (c ++ p) a b t
  | .pand p n a g b t => fieldsOf 28 ((0 : BitVec 4) ++ p) ((0 : BitVec 3) ++ n ++ a) ((0 : BitVec 3) ++ g ++ b) t
  | .por p n a g b t => fieldsOf 28 ((1 : BitVec 4) ++ p) ((0 : BitVec 3) ++ n ++ a) ((0 : BitVec 3) ++ g ++ b) t
  | .pxor p n a g b t => fieldsOf 28 ((2 : BitVec 4) ++ p) ((0 : BitVec 3) ++ n ++ a) ((0 : BitVec 3) ++ g ++ b) t
  | .pnot p n a t => fieldsOf 28 ((3 : BitVec 4) ++ p) ((0 : BitVec 3) ++ n ++ a) 0 t
  | .sel d a b t => fieldsOf 29 d a b t
  | .mov d a t => fieldsOf 30 d a 0 t
  | .movi d l t => fieldsOf 31 d (l.extractLsb' 7 7) (l.extractLsb' 0 7) t
  | .movhi d l t => fieldsOf 32 d (l.extractLsb' 7 7) (l.extractLsb' 0 7) t
  | .rdsp d n t => fieldsOf 33 d 0 n t
  | .wrsp a n t => fieldsOf 34 0 a n t
  | .ixset k a b t => fieldsOf 35 ((0 : BitVec 5) ++ k) a b t
  | .ixadd k b t => fieldsOf 36 ((0 : BitVec 5) ++ k) 0 b t
  | .bra o t => fieldsOf 37 (o.extractLsb' 14 7) (o.extractLsb' 7 7) (o.extractLsb' 0 7) t
  | .brx a t => fieldsOf 38 0 a 0 t
  | .call o t => fieldsOf 39 (o.extractLsb' 14 7) (o.extractLsb' 7 7) (o.extractLsb' 0 7) t
  | .meet o t => fieldsOf 40 (o.extractLsb' 14 7) (o.extractLsb' 7 7) (o.extractLsb' 0 7) t
  | .meetx d t => fieldsOf 41 d 0 0 t
  | .meetr a t => fieldsOf 41 0 a 1 t
  | .refill d p q x t => fieldsOf 42 d (p ++ q ++ (x.extractLsb' 7 2)) (x.extractLsb' 0 7) t
  | .ret a t => fieldsOf 43 0 a 0 t
  | .exit t => fieldsOf 43 0 0 1 t
  | .yield t => fieldsOf 43 0 0 2 t
  | .trap c t => fieldsOf 44 0 (c.extractLsb' 7 7) (c.extractLsb' 0 7) t
  | .brk c t => fieldsOf 45 0 (c.extractLsb' 7 7) (c.extractLsb' 0 7) t
  | .faddF32 d a b t => fieldsOf 48 d a b t
  | .faddF16 d a b t => fieldsOf 49 d a b t
  | .faddBf16 d a b t => fieldsOf 50 d a b t
  | .fsubF32 d a b t => fieldsOf 51 d a b t
  | .fsubF16 d a b t => fieldsOf 52 d a b t
  | .fsubBf16 d a b t => fieldsOf 53 d a b t
  | .fmulF32 d a b t => fieldsOf 54 d a b t
  | .fmulF16 d a b t => fieldsOf 55 d a b t
  | .fmulBf16 d a b t => fieldsOf 56 d a b t
  | .ffmaF32 d a b t => fieldsOf 57 d a b t
  | .ffmaF16 d a b t => fieldsOf 58 d a b t
  | .ffmaBf16 d a b t => fieldsOf 59 d a b t
  | .fminF32 d a b t => fieldsOf 60 d a b t
  | .fminF16 d a b t => fieldsOf 61 d a b t
  | .fminBf16 d a b t => fieldsOf 62 d a b t
  | .fmaxF32 d a b t => fieldsOf 63 d a b t
  | .fmaxF16 d a b t => fieldsOf 64 d a b t
  | .fmaxBf16 d a b t => fieldsOf 65 d a b t
  | .fsetpF32 c p a b t => fieldsOf 66 (c ++ p) a b t
  | .fsetpF16 c p a b t => fieldsOf 67 (c ++ p) a b t
  | .fsetpBf16 c p a b t => fieldsOf 68 (c ++ p) a b t
  | .fdivF32 d a b t => fieldsOf 69 d a b t
  | .fdivF16 d a b t => fieldsOf 70 d a b t
  | .fdivBf16 d a b t => fieldsOf 71 d a b t
  | .padd2F16 d a b t => fieldsOf 72 d a b t
  | .padd2Bf16 d a b t => fieldsOf 73 d a b t
  | .pmul2F16 d a b t => fieldsOf 74 d a b t
  | .pmul2Bf16 d a b t => fieldsOf 75 d a b t
  | .pfma2F16 d a b t => fieldsOf 76 d a b t
  | .pfma2Bf16 d a b t => fieldsOf 77 d a b t
  | .frcp d a ty t => fieldsOf 78 d a ((0 : BitVec 3) ++ ty ++ (0 : BitVec 2)) t
  | .frsq d a ty t => fieldsOf 78 d a ((1 : BitVec 3) ++ ty ++ (0 : BitVec 2)) t
  | .fsqrt d a ty t => fieldsOf 78 d a ((2 : BitVec 3) ++ ty ++ (0 : BitVec 2)) t
  | .fexp2 d a ty t => fieldsOf 78 d a ((3 : BitVec 3) ++ ty ++ (0 : BitVec 2)) t
  | .flog2 d a ty t => fieldsOf 78 d a ((4 : BitVec 3) ++ ty ++ (0 : BitVec 2)) t
  | .fsin d a ty t => fieldsOf 78 d a ((5 : BitVec 3) ++ ty ++ (0 : BitVec 2)) t
  | .fcos d a ty t => fieldsOf 78 d a ((6 : BitVec 3) ++ ty ++ (0 : BitVec 2)) t
  | .fcvt d a c r t => fieldsOf 79 d a (c ++ r) t
  | .frndF32 d a r t => fieldsOf 79 d a ((24 : BitVec 5) ++ r) t
  | .frndF16 d a r t => fieldsOf 79 d a ((25 : BitVec 5) ++ r) t
  | .frndBf16 d a r t => fieldsOf 79 d a ((26 : BitVec 5) ++ r) t
  | .fclassF32 c p a t => fieldsOf 79 (c ++ p) a 108 t
  | .fclassF16 c p a t => fieldsOf 79 (c ++ p) a 112 t
  | .fclassBf16 c p a t => fieldsOf 79 (c ++ p) a 116 t
  | .xchIdx d a b t => fieldsOf 80 d a b t
  | .xchUp d a n t => fieldsOf 81 d a ((0 : BitVec 1) ++ n) t
  | .xchDown d a n t => fieldsOf 82 d a ((0 : BitVec 1) ++ n) t
  | .xchXor d a n t => fieldsOf 83 d a ((0 : BitVec 1) ++ n) t
  | .vote d n p v t => fieldsOf 84 d ((0 : BitVec 3) ++ n ++ p) ((0 : BitVec 4) ++ v) t
  | .bcast d a b t => fieldsOf 85 d a b t
  | .bcastImm d a l t => fieldsOf 86 d a ((0 : BitVec 1) ++ l) t
  | .gred d a f t => fieldsOf 87 d a (f ++ (0 : BitVec 3)) t
  | .gscan d a f e t => fieldsOf 88 d a (f ++ (0 : BitVec 2) ++ e) t
  | .dualget d a n t => fieldsOf 89 d a n t
  | .dualset d a n t => fieldsOf 90 d a n t
  | .dualzero d t => fieldsOf 91 d 0 0 t
  | .ld d a h ty t => fieldsOf 96 d a ((0 : BitVec 1) ++ h ++ ty) t
  | .st d a h ty t => fieldsOf 97 d a ((0 : BitVec 1) ++ h ++ ty) t
  | .ldm d a h f n t => fieldsOf 98 d a ((0 : BitVec 1) ++ h ++ f ++ n) t
  | .stm d a h f n t => fieldsOf 99 d a ((0 : BitVec 1) ++ h ++ f ++ n) t
  | .atom d a b t => fieldsOf 100 d a b t
  | .cas d a b t => fieldsOf 101 d a b t
  | .cas128 d a b t => fieldsOf 102 d a b t
  | .fence t => fieldsOf 103 0 0 0 t
  | .pref l a t => fieldsOf 103 ((0 : BitVec 5) ++ l) a 1 t
  | .bufdcl n a t => fieldsOf 104 ((0 : BitVec 1) ++ n) a 0 t
  | .bufset n e t => fieldsOf 104 ((0 : BitVec 1) ++ n) ((0 : BitVec 5) ++ e) 1 t
  | .bufq d a t => fieldsOf 104 d a 2 t
  | .barinit d a t => fieldsOf 105 d a 0 t
  | .barexp d a t => fieldsOf 105 d a 1 t
  | .bararv d a t => fieldsOf 105 d a 2 t
  | .barwait d a t => fieldsOf 105 d a 3 t
  | .bartest d a t => fieldsOf 105 d a 4 t
  | .tsync t => fieldsOf 105 0 0 5 t
  | .cbararv d a t => fieldsOf 105 d a 6 t
  | .cbarwait d a t => fieldsOf 105 d a 7 t
  | .aqload n a t => fieldsOf 106 ((0 : BitVec 3) ++ n) a 0 t
  | .aqstart a t => fieldsOf 106 0 a 1 t
  | .aqstop a t => fieldsOf 106 0 a 2 t
  | .qflush a t => fieldsOf 106 0 a 3 t
  | .itempush q a t => fieldsOf 106 ((0 : BitVec 5) ++ q) a 4 t
  | .mma d t => fieldsOf 112 d 0 0 t
  | .mmas d t => fieldsOf 113 d 0 0 t
  | .mmz g n t => fieldsOf 114 (g ++ n) 0 0 t
  | .accld g n a t => fieldsOf 114 (g ++ n) a 1 t
  | .accst n a t => fieldsOf 114 ((0 : BitVec 1) ++ n) a 2 t
  | .accmv ty u t => fieldsOf 114 ((0 : BitVec 1) ++ ty) ((0 : BitVec 1) ++ u) 3 t
  | .accadd g ty u t => fieldsOf 114 (g ++ ty) ((0 : BitVec 1) ++ u) 4 t
  | .omset n a t => fieldsOf 115 ((0 : BitVec 3) ++ n) a 0 t
  | .mstcfg n a t => fieldsOf 116 ((0 : BitVec 3) ++ n) a 0 t
  | .msign n a t => fieldsOf 116 ((0 : BitVec 3) ++ n) a 1 t
  | .mmwait t => fieldsOf 117 0 0 0 t
  | .mmstat d c t => fieldsOf 117 d ((0 : BitVec 6) ++ c) 1 t
  | .cpy c a t => fieldsOf 120 ((0 : BitVec 3) ++ c) a 0 t
  | .cpyt c a t => fieldsOf 120 ((0 : BitVec 3) ++ c) a 1 t
  | .cpyo c a t => fieldsOf 120 ((0 : BitVec 3) ++ c) a 2 t
  | .cpyg c a t => fieldsOf 120 ((0 : BitVec 3) ++ c) a 3 t
  | .cpys c a t => fieldsOf 120 ((0 : BitVec 3) ++ c) a 4 t
  | .cpyfill c a t => fieldsOf 120 ((0 : BitVec 3) ++ c) a 5 t
  | .cmcast c a t => fieldsOf 120 ((0 : BitVec 3) ++ c) a 6 t
  | .chwait c a t => fieldsOf 121 ((0 : BitVec 3) ++ c) a 0 t
  | .chstat d l c t => fieldsOf 121 d ((0 : BitVec 2) ++ l ++ c) 1 t
  | .fmtset n a t => fieldsOf 122 ((0 : BitVec 2) ++ n) a 0 t
  | .fmtget d n t => fieldsOf 122 d ((0 : BitVec 2) ++ n) 1 t
  | .cpyp c a t => fieldsOf 123 ((0 : BitVec 3) ++ c) a 0 t
  | .psig c a t => fieldsOf 123 ((0 : BitVec 3) ++ c) a 1 t
  | .nbaxpy d a t => fieldsOf 124 d a 0 t
  | .nbscal d a t => fieldsOf 124 d a 1 t
  | .nbadd d a t => fieldsOf 124 d a 2 t
  | .nbmul d a t => fieldsOf 124 d a 3 t
  | .nbdot d a t => fieldsOf 124 d a 4 t
  | .nbgemv d a t => fieldsOf 124 d a 5 t
  | .nbcopy d a t => fieldsOf 124 d a 6 t
  | .nbred d a t => fieldsOf 124 d a 7 t
  | .nbfill d a t => fieldsOf 124 d a 8 t
  | .nbld d a t => fieldsOf 124 d a 9 t
  | .nbst d a t => fieldsOf 124 d a 10 t
  | .nbfence d a t => fieldsOf 124 d a 11 t
  | .rnginit d a t => fieldsOf 125 d a 0 t
  | .grab d a t => fieldsOf 125 d a 1 t
  | .launch d a t => fieldsOf 125 d a 2 t
  | .join a t => fieldsOf 125 0 a 3 t
  | .lstat d a t => fieldsOf 125 d a 4 t
  | .sethdlr a t => fieldsOf 125 0 a 5 t
  | .trapret a t => fieldsOf 125 0 a 6 t
  | .rdcause d a t => fieldsOf 125 d a 7 t
  | .probe d a t => fieldsOf 125 d a 8 t
  | .seqnew d t => fieldsOf 125 d 0 9 t
  | .seqend d a t => fieldsOf 125 d a 10 t
  | .runBegin _ => none
  | .loadReturn _ _ => none
  | .storeFifoPerform _ => none
  | .impreciseStoreTrap _ => none
  | .streamFill _ _ => none
  | .coalescerClose _ _ => none
  | .preempt _ _ _ => none
  | .resume _ _ _ => none
  | .worldChange _ _ => none
  | .groupRetire _ => none
  | .teamRetire _ => none
  | .itemQueueGrab _ _ => none
  | .matrixStep _ _ => none
  | .matrixComplete _ _ => none
  | .copyRow _ _ => none
  | .copyComplete _ _ => none
  | .nbColumn _ _ => none
  | .nbCommandComplete _ => none
  | .nbcmd _ _ => none
  | .nbdrain _ => none
  | .walkStep _ _ => none
  | .pagerServe => none
  | .pagerFillComplete => none
  | .clusterPlace _ => none
  | .teamPlace _ => none
  | .gridComplete _ => none
  | .queueSlotGrant _ _ => none
  | .packetFetch _ _ => none
  | .dispatch _ _ => none
  | .write _ _ => none
  | .signal _ _ => none
  | .wait _ _ => none
  | .waitReevaluate _ _ => none
  | .writeSignal _ _ => none
  | .fencePacket _ _ => none
  | .indirect _ _ => none
  | .sequenceEnd _ _ => none
  | .sliceEnd _ => none
  | .coreKill _ _ => none
  | .coreDrain _ _ => none
  | .matrixKill _ _ => none
  | .matrixDrain _ _ => none
  | .casterKill _ _ => none
  | .casterDrain _ _ => none
  | .nearbankKill _ _ => none
  | .nearbankDrain _ _ => none
  | .walkerKill _ _ => none
  | .walkerDrain _ _ => none
  | .qslotKill _ => none
  | .qslotDrain _ => none
  | .endpointKill _ => none
  | .endpointDrain _ => none
  | .killAck _ _ => none
  | .sequenceDrainDone _ => none
  | .pointOfCoherenceArrival _ => none
  | .kick _ _ _ => none
  | .queueSlotRelease _ _ => none
  | .progressHang _ _ => none
  | .nbQueueFailure _ _ => none
  | .rd64 _ => none
  | .rd256 _ => none
  | .wr64 _ _ _ => none
  | .wr256 _ _ => none
  | .cfgrd _ => none
  | .cfgwr _ _ => none
  | .patset _ => none
  | .stackPortBadcmd _ _ => none
  | .rasread _ => none
  | .patrol _ => none
  | .patstat _ => none
  | .engstat _ => none
  | .imgchunk _ _ => none
  | .imgact _ => none
  | .qreset _ => none
  | .engcmdBadop _ _ => none
  | .channelRecalibrate _ _ => none
  | .patrolRead _ => none
  | .baseDieEngineHang _ => none
  | .rowLinkFlit _ _ => none
  | .linkRetrainTimeout _ => none
  | .ioLinkCut _ => none
  | .rowLinkRecal _ => none
  | .walkTimeout _ _ => none
  | .remoteTimeout _ _ => none
  | .compactWaitExpiry _ => none
  | .qctlReset _ _ => none
  | .queueEnable _ _ _ => none
  | .contextEnable _ _ => none
  | .contextTeardown _ _ => none
  | .worldReportRequest _ => none
  | .registerWrite _ _ _ _ => none
  | .functionLevelReset _ => none
  | .bucketEmpty _ => none
  | .bucketRecover _ => none
  | .killAckTimeout _ _ => none
  | .watchdogExpiry _ => none
  | .acquire _ => none
  | .renew _ => none
  | .release _ => none
  | .leaseExpiry => none
  | .featlock => none
  | .powercapWrite _ _ => none
  | .powerSample _ _ => none
  | .create _ => none
  | .configure _ => none
  | .start _ => none
  | .stop _ => none
  | .reset _ => none
  | .destroy _ => none
  | .profileRead _ => none
  | .meterRead _ => none
  | .ctxKill _ => none
  | .s2map _ => none
  | .s2unmap _ => none
  | .waymapSet _ => none
  | .profileSet _ => none
  | .epBind _ => none
  | .epUnbind _ => none
  | .routeSet _ => none
  | .pkgidSet _ => none
  | .portKey _ => none
  | .backingGrant _ => none
  | .retireCore _ => none
  | .retireRow _ => none
  | .rebuildMirror _ => none
  | .recoverBoundary _ => none
  | .updateWrite _ => none
  | .updateActivate _ => none
  | .updateCommit _ => none
  | .errlogRead _ => none
  | .undefinedCommand _ => none
  | .boot => none
  | .thermalTrip => none
  | .fabricFlitSend _ => none
  | .fabricFlitReceive _ _ _ => none
  | .creditFlit _ _ _ => none
  | .fabricRecal _ => none
  | .fabricRouteTimeout _ _ => none
  | .peerRequest _ _ _ _ _ => none
  | .peerResponse _ _ _ => none
  | .hostCompletion _ _ _ => none
  | .hostCompletionTimeout _ => none
  | .hostPoisonedRequest _ => none
  | .hostMemoryWrite _ _ => none
  | .spdmRequest _ _ => none
  | .linkRetrainDone _ => none
  | .powerOff => none

/-- The words of an instruction: its own word, with bit M set exactly when a modifier word follows, and its
modifier words. -/
def encode (i : Instr) : Option (List Word) :=
  (encodeFields i).map fun fm => joinWord fm.1 :: fm.2

/-- Whether an instruction word is required to carry a modifier word: its encoding row fixes bit M at 1. -/
def needsMod : Instr → Bool
  | .imad _ _ _ _ => true
  | .bfi _ _ _ _ => true
  | .sel _ _ _ _ => true
  | .ffmaF32 _ _ _ _ => true
  | .ffmaF16 _ _ _ _ => true
  | .ffmaBf16 _ _ _ _ => true
  | .pfma2F16 _ _ _ _ => true
  | .pfma2Bf16 _ _ _ _ => true
  | .atom _ _ _ _ => true
  | .cas _ _ _ _ => true
  | .cas128 _ _ _ _ => true
  | .fence _ => true
  | .cpy _ _ _ => true
  | .cpyt _ _ _ => true
  | .cpyo _ _ _ => true
  | .cpyg _ _ _ => true
  | .cpys _ _ _ => true
  | .cpyfill _ _ _ => true
  | .cmcast _ _ _ => true
  | .cpyp _ _ _ => true
  | .psig _ _ _ => true
  | .nbfence _ _ _ => true
  | _ => false

/-- The instruction that the decoder reads from the bits of a table row: the first word is bits 31 to 0 of `w`,
a later word counts on from it, and every bit above `nbits` is 0. -/
def decodeTableWord (nbits w : Nat) : Option Instr :=
  match decodeWords ((List.range 6).map fun k => BitVec.ofNat 32 ((w % 2 ^ nbits) >>> (32 * k))) with
  | .ok (i, _) => if nbits < 32 then none else some i
  | .error _ => none

end Sys2Proof
end

