-- ==== Sys2Proof/Machine/PhysMem.lean ====
section
/-! DEFINITION. Physical memory below translation: the interleave of device buffers (R322, R330), the stacks'
physical allocation table (R331), keyed lines, their counters and MACs (R351, R358 to R362). -/

namespace Sys2Proof.Machine

/-- The set bits of a mask, ascending (R322). -/
def maskBits (n : Nat) (m : Nat) : List Nat := (List.range n).filter fun i => bit m i

/-- The stack and SPA of offset `o` of a device buffer (R330). -/
def interleave (p : Profile) (base o : Nat) : Nat × Nat :=
  let gran := 2 ^ (p.glog + 8)
  let ss := maskBits 8 p.stks.toNat
  let hs := maskBits 32 p.channels.toNat
  let n := ss.length
  let c := hs.length
  let u := o / gran % (n * c)
  let cl := base + o / (gran * n * c) * gran + o % gran
  (ss.getD (u % n) 0, cl / 65536 * 2 ^ 21 + hs.getD (u / n % c) 0 * 65536 + cl % 65536)

/-- The place of offset `o` of a buffer (R328, R330). -/
def State.bufPlace (s : State) (buf : Nat) (b : BufEntry) (o : Nat) : Place :=
  if b.kind = 0 then
    let x := interleave (s.profs.getD b.prof ⟨0, 0, 0, 0⟩) b.base o
    .dram x.1 x.2
  else if b.kind = 1 then .host (b.base + o)
  else .peer buf o

/-- The counter of a line: `MAJOR ++ MINORi` (R360). -/
def CtrBlock.ctr (b : CtrBlock) (line : Nat) : Nat := b.major * 2 ^ 20 + (b.minors.get (line % 16)).toNat

/-- The block belongs to a key (R361). -/
def CtrBlock.isOf (b : CtrBlock) (u : KeyUse) : Bool := b.keyv && b.kslot == u.slot && b.kgen == u.gen

/-- The encryption key and the MAC key of a slot's KEY (R359). -/
def keyPart (key : BitVec 256) (n : Nat) : BitVec 256 :=
  Config.aes key (BitVec.ofNat 8 (2 * n) ++ (0 : BitVec 120)) ++
    Config.aes key (BitVec.ofNat 8 (2 * n + 1) ++ (0 : BitVec 120))

/-- The 64 bytes of a line's keystream (R359). -/
def keystream (key : BitVec 256) (gpa gen ctr : Nat) : List (BitVec 8) :=
  (List.range 4).flatMap fun j =>
    toBytes 16 (Config.aes (keyPart key 0)
      (BitVec.ofNat 42 (gpa / 64) ++ BitVec.ofNat 2 j ++ BitVec.ofNat 20 gen ++ BitVec.ofNat 64 ctr)).toNat

/-- Exclusive or of two byte lists. -/
def xorBytes : List (BitVec 8) → List (BitVec 8) → List (BitVec 8)
  | a :: as, b :: bs => (a ^^^ b) :: xorBytes as bs
  | _, _ => []

/-- A line's MAC (R359): over the ciphertext, GPA[47:6], VDEV, KSLOT, KGEN and CTR. -/
def lineMac (key : BitVec 256) (ct : List (BitVec 8)) (u : KeyUse) (ctr : Nat) : BitVec 56 :=
  Config.cmac (keyPart key 1)
    (ct ++ toBytes 6 (u.gpa / 64) ++ toBytes 2 u.vdev ++ toBytes 2 u.slot ++ toBytes 3 u.gen ++ toBytes 8 ctr)

/-- The key slot. -/
def State.key (s : State) (n : Nat) : KeySlot := s.keys.getD n KeySlot.reset

/-- The first byte of a line. -/
def lineOf (spa : Nat) : Nat := spa / 64 * 64

/-- The key use of the line that holds an access whose first byte lies at `off` in its line. -/
def KeyUse.atLine (u : KeyUse) : KeyUse := { u with gpa := u.gpa / 64 * 64 }

/-- Read the 64 bytes of a line under its key (R362): zeros when the line is not written under it; INTEGRITY when
the MAC fails. -/
def State.readKeyedLine (s : State) (st spa : Nat) (u : KeyUse) : Except Cause (List (BitVec 8)) :=
  let k := s.stack st
  let b := k.block spa
  let line := lineOf spa
  let ct := readCells s.mem (Place.dram st line).key 64
  let key := (s.key u.slot).key
  if !b.isOf u || b.minors.get (line / 64 % 16) == 0 then .ok (List.replicate 64 0)
  else if lineMac key ct u.atLine (b.ctr (line / 64)) ≠ k.macs.get (line / 64) then .error .integrity
  else .ok (xorBytes ct (keystream key u.gpa u.gen (b.ctr (line / 64))))

/-- The checks of a stack on a request (R321, R324, R331, R364): the row's owner is the access's domain, the channel answers, a line that is read has
no detected error, and in the keyed portion the counter block passes up the tree. -/
def State.stackCheck (s : State) (st spa dom : Nat) (isRead : Bool) : Except Cause Unit :=
  let k := s.stack st
  if k.owner spa != some dom then .error .ownerMismatch
  else if k.deadChans.contains (spaChan spa) || (isRead && k.bad.contains (spa / 64)) then .error .memUncorrectable
  else if k.keyed spa && !k.blockOk (s.lone st) spa then .error .integrity
  else .ok ()

/-- Read bytes of one line of DRAM for a trust domain (R324, R331, R362). -/
def State.readDram (s : State) (st spa n dom : Nat) (key : Option KeyUse) : Except Cause (List (BitVec 8)) := do
  s.stackCheck st spa dom true
  let k := s.stack st
  match key with
  | some u => (s.readKeyedLine st spa u).map fun l => (l.drop (spa % 64)).take n
  | none =>
    let b := k.block spa
    if k.keyed spa && b.keyv && b.minors.get (spa / 64 % 16) != 0 then .ok (List.replicate n 0)
    else .ok (readCells s.mem (Place.dram st spa).key n)

/-- Replace bytes of a list from an index on. -/
def splice (l : List (BitVec 8)) (i : Nat) (bs : List (BitVec 8)) : List (BitVec 8) :=
  l.take i ++ bs ++ l.drop (i + bs.length)

/-- Encrypt and store a line under its key at its present counter (R359, R361 step 5). -/
def State.sealLine (s : State) (st line : Nat) (u : KeyUse) (b : CtrBlock) (pt : List (BitVec 8)) : State :=
  let key := (s.key u.slot).key
  let ct := xorBytes pt (keystream key u.gpa u.gen (b.ctr (line / 64)))
  let k := s.stack st
  let s := s.setStack st { k with macs := k.macs.set (line / 64) (lineMac key ct u.atLine (b.ctr (line / 64))) }
  { s with mem := writeCells s.mem (Place.dram st line).key ct }

/-- The block after one more write of a line (R361 steps 1 to 4): the lines to encrypt again after a minor
overflow, and the block; INTEGRITY when MAJOR is exhausted. -/
def CtrBlock.advance (b : CtrBlock) (u : KeyUse) (i : Nat) : Except Cause (CtrBlock × Bool) :=
  let b := if b.isOf u then b else { b with kslot := u.slot, kgen := u.gen, keyv := true, major := 0, minors := [] }
  let m := (b.minors.get i).toNat + 1
  if m < 2 ^ 20 then .ok ({ b with minors := b.minors.set i (BitVec.ofNat 20 m) }, false)
  else if b.major + 1 < 2 ^ 44 then
    .ok ({ b with major := b.major + 1, minors := (b.minors.map fun x => (x.1, (1 : BitVec 20))) }, true)
  else .error .integrity

/-- Write bytes of one line of DRAM for a trust domain (R331, R361, R362). The line is sealed at once: the L2 is not
modelled as holding dirty plaintext (DEDUCED: log 11). -/
def State.writeDram (s : State) (st spa : Nat) (bs : List (BitVec 8)) (dom : Nat) (key : Option KeyUse) :
    Except Cause State := do
  s.stackCheck st spa dom false
  let k := s.stack st
  let b := k.block spa
  let line := lineOf spa
  let i := line / 64 % 16
  match key with
  | some u =>
    let old ← s.readKeyedLine st spa u
    let (b', wrapped) ← b.advance u i
    let others := if wrapped then ((List.range 16).filter fun j => j != i && (b.isOf u && b.minors.get j != 0)) else []
    let pts ← collect (fun j =>
      let l := spa / 1024 * 1024 + 64 * j
      (s.readKeyedLine st l { u with gpa := u.gpa / 1024 * 1024 + 64 * j }).map fun pt => (j, l, pt)) others
    let s := s.setStack st (k.putBlock (spa / 1024) (some b'))
    let s := pts.foldl (fun s x => s.sealLine st x.2.1 { u with gpa := u.gpa / 1024 * 1024 + 64 * x.1 } b' x.2.2) s
    .ok (s.sealLine st line u b' (splice old (spa % 64) bs))
  | none =>
    if k.keyed spa && b.keyv && b.minors.get i != 0 then
      let s := s.setStack st (k.putBlock (spa / 1024) (some { b with minors := b.minors.set i 0 }))
      .ok { s with mem := writeCells s.mem (Place.dram st line).key (splice (List.replicate 64 0) (spa % 64) bs) }
    else .ok { s with mem := writeCells s.mem (Place.dram st spa).key bs }

/-- Write bytes of a core's slice. A word that is written whole reads without a detected error again (R153; DESIGN CHOICE: log 70). -/
def State.writeSlice (s : State) (core off : Nat) (bs : List (BitVec 8)) : State :=
  let k := s.core core
  let s := if k.sramBad.isEmpty then s
    else s.setCore core { k with sramBad := k.sramBad.filter fun w => !(decide (off ≤ 8 * w) && decide (8 * w + 8 ≤ off + bs.length)) }
  { s with mem := writeCells s.mem (Place.sram core off).key bs }

/-- Read bytes of one location at its point of coherence; a peer's memory is not held in the package. -/
def State.readLoc (s : State) (l : Loc) (n : Nat) : Except Cause (List (BitVec 8)) :=
  match l.place with
  | .dram st spa => s.readDram st spa n l.vdev l.key
  | .host a => if 3 ≤ s.hostBad.getD (a / 64) 0 then .error .hostPageError else .ok (readCells s.mem l.place.key n)
  | .sram core off => if ((s.core core).badWords off n).isEmpty then .ok (readCells s.mem l.place.key n) else .error .memUncorrectable
  | p => .ok (readCells s.mem p.key n)

/-- Write bytes of one location at its point of coherence. -/
def State.writeLoc (s : State) (l : Loc) (bs : List (BitVec 8)) : Except Cause State :=
  match l.place with
  | .dram st spa => s.writeDram st spa bs l.vdev l.key
  | .sram core off => .ok (s.writeSlice core off bs)
  | p => .ok { s with mem := writeCells s.mem p.key bs }

end Sys2Proof.Machine
end

