-- ==== Sys2Proof/Machine/Translate.lean ====
section
/-! DEFINITION. Translation (R282 to R301, R328, R329): the two stages, the walkers, and parking. -/

namespace Sys2Proof.Machine

/-! ## The attribute word (R289) -/

def attrR (a : DWord) : Bool := a.getLsbD 0
def attrW (a : DWord) : Bool := a.getLsbD 1
def attrX (a : DWord) : Bool := a.getLsbD 2
def attrOrd (a : DWord) : Bool := a.getLsbD 3
def attrCC (a : DWord) : Bool := a.getLsbD 4
def attrPin (a : DWord) : Bool := a.getLsbD 5
def attrHostCache (a : DWord) : Bool := a.getLsbD 6
def attrKeyed (a : DWord) : Bool := a.getLsbD 9
def attrSlot (a : DWord) : Nat := (a.extractLsb' 10 14).toNat
def attrGen (a : DWord) : Nat := (a.extractLsb' 24 20).toNat

/-- An attribute word is valid: reserved bits 0, and KSLOT and KGEN 0 unless KEYED (R289). -/
def attrOk (a : DWord) : Bool := a >>> 44 == 0 && (attrKeyed a || (attrSlot a == 0 && attrGen a == 0))

/-- The kinds of access by the rights that they need (R290). -/
inductive Access where
  | load | store | rmw | fetch
  deriving DecidableEq, Repr

/-- The rights that a kind of access needs of the leaf (R290). -/
def Access.allowed (k : Access) (a : DWord) : Bool :=
  match k with
  | .load => attrR a
  | .store => attrW a
  | .rmw => attrR a && attrW a
  | .fetch => attrX a

/-- The access reads, as stage 2 and the buffer see it. -/
def Access.reads : Access → Bool
  | .store => false
  | _ => true

/-- The access writes. -/
def Access.writes : Access → Bool
  | .store => true
  | .rmw => true
  | _ => false

/-! ## Profile fields used here (R377) -/

/-- The key slot lies in the device's pool (R352, R377). -/
def VDev.inPool (d : VDev) (slot : Nat) : Bool :=
  decide (d.prof 0x20 13 0 ≤ slot) && decide (slot < d.prof 0x20 13 0 + d.prof 0x20 28 14)

/-! ## Steps 3 to 10 of R282 on a translation that is at hand -/

/-- Steps 3 to 6: rights, key world, CC with KEYED, dead sequence (R282). -/
def State.leafCause (s : State) (vd world : Nat) (k : Access) (a : DWord) : Option Cause :=
  if !k.allowed a then some .xlateRights
  else
    let slot := s.key (attrSlot a)
    if attrKeyed a && (!(s.vdev vd).inPool (attrSlot a) || (s.vdev vd).save == some (attrSlot a) ||
        (decide (slot.state = .live) && slot.world != world)) then some .keyWorld
    else if attrCC a && (attrKeyed a || !s.feature 1) then some .ccAttr
    else if attrKeyed a && !(decide (slot.state = .live) && slot.kgen == attrGen a) then some .deadSequence
    else none

/-- Step 9: the buffer entry (R329), and, for a keyed page, the conditions of R358. -/
def State.bufCause (s : State) (vd buf off : Nat) (k : Access) (keyed : Bool) : Option Cause :=
  match s.bufs.find buf with
  | none => some .bufferTable
  | some b =>
    if decide (2 ^ 21 * b.size ≤ off) || (k.reads && !b.rd) || (k.writes && !b.wr) then some .bufferTable
    else if b.owner != vd then some .ownerMismatch
    else if keyed && (b.kind != 0 || decide ((s.profs.getD b.prof ⟨0, 0, 0, 0⟩).glog < 2) ||
        (match s.bufPlace buf b off with
          | .dram st spa => !(s.stack st).keyed spa
          | _ => true)) then some .bufferTable
    else none

/-- What a translation gives an access. -/
inductive Xl where
  | ok (l : Loc) (x : Xlation)
  | fault (c : Cause) (gpa : Nat)
  | miss
  deriving DecidableEq, Repr

/-- Steps 3 to 10 of R282 on the translation of `ea`. -/
def State.resolve (s : State) (vd world : Nat) (k : Access) (x : Xlation) (ea : Nat) : Xl :=
  let gpa := x.gpa + (ea - x.vlo)
  match s.leafCause vd world k x.attr with
  | some c => .fault c gpa
  | none =>
    match x.s2 with
    | .missing => .fault .xlateStage2 gpa
    | .leaf res rd wr pin buf off =>
      if (k.reads && !rd) || (k.writes && !wr) then .fault .xlateStage2 gpa
      else if (attrPin x.attr || attrCC x.attr) && !pin then .fault .xlateRights gpa
      else if !res then .fault .xlateNotPresent gpa
      else
        let o := off + (ea - x.vlo)
        match s.bufCause vd buf o k (attrKeyed x.attr) with
        | some c => .fault c gpa
        | none =>
          match s.bufs.find buf with
          | none => .fault .bufferTable gpa
          | some b =>
            if b.kind == 1 && k != .store && decide (0 < s.hostBad.getD ((b.base + o) / 64) 0) && decide (s.hostBad.getD ((b.base + o) / 64) 0 < 3) then
              .fault .hostXlate gpa
            else
            .ok { place := s.bufPlace buf b o,
                  key := if attrKeyed x.attr then some ⟨attrSlot x.attr, attrGen x.attr, vd, gpa⟩ else none,
                  attr := x.attr, vdev := vd, gpa := gpa } x

/-- The tags of a translation are those of a context as it is now, and it covers the address (R293). -/
def Xlation.covers (x : Xlation) (vd ctx epoch ea : Nat) : Bool :=
  x.vdev == vd && x.ctx == ctx && x.epoch == epoch && decide (x.vlo ≤ ea) && decide (ea < x.vhi)

/-- The compute die on which a location lies; none for host and peer memory. -/
def Place.die : Place → Option Nat
  | .sram core _ => some (coreDie core)
  | .dram st _ => some (stackDie st)
  | _ => none

/-- With the die boundary DOWN, an access that needs the other die raises LINK_DOWN (R333). -/
def State.acrossBoundary (s : State) (die : Nat) (p : Place) : Bool :=
  s.boundaryDown && (match p.die with
    | some d => d != die
    | none => false)

/-- The outcome of a translation on a die whose link to the other die may be down (R333). -/
def State.linkCheck (s : State) (die : Nat) : Xl → Xl
  | .ok l x => if s.acrossBoundary die l.place then .fault .linkDown 0 else .ok l x
  | r => r

/-- The entry of a list of cached translations that an address matches: one whose tag parity fails is not matched (R293, R294). -/
def State.cached (s : State) (xs : List Xlation) (vd ctx ea : Nat) : Option Xlation :=
  xs.find? fun x => !x.tagBad && x.covers vd ctx (s.ctx vd ctx).epoch ea

/-- Translate an address by the private copies of a core, and by what the die's caches and finished walks hold (R282, R293); an entry whose
data parity fails raises TLB_PARITY (R294). -/
def State.lookIn (s : State) (copies : List Xlation) (die vd ctx world : Nat) (k : Access) (ea : Nat) : Xl :=
  s.linkCheck die <|
  if 2 ^ 56 ≤ ea then .fault .xlateRangeInvalid 0
  else
    match (s.cached copies vd ctx ea).or (s.cached (s.die die).tlc vd ctx ea) with
    | some x => if x.dataBad then .fault .tlbParity 0 else s.resolve vd world k x ea
    | none =>
      match (s.die die).walks.find? fun w => w.2.serves vd ctx ea with
      | some (_, w) => match w.phase with
        | .done x => if x.covers vd ctx (s.ctx vd ctx).epoch ea then s.resolve vd world k x ea else .miss
        | .failed c g => .fault c g
        | _ => .miss
      | none => .miss

/-- Translate an address for an agent of a die without private copies. -/
def State.look (s : State) (die vd ctx world : Nat) (k : Access) (ea : Nat) : Xl := s.lookIn [] die vd ctx world k ea

/-- Translate an address for a group of a core. -/
def State.lookCore (s : State) (core vd ctx : Nat) (k : Access) (ea : Nat) : Xl :=
  s.lookIn (s.core core).tlb (coreDie core) vd ctx (s.core core).world k ea

/-! ## Walks (R285 to R292) -/

/-- The stage-2 granule leaf of a GPA (R291). -/
def State.s2leaf (s : State) (vd gpa : Nat) : Option S2Leaf := (s.vdev vd).s2.find (gpa / 65536)

/-- Stage 2 for the stage-1 page `[vlo, vhi)` at `gpa`, cut to the run of granules that holds the byte `ea` (R291,
R293). -/
def State.stage2 (s : State) (x : Xlation) (ea : Nat) : Xlation :=
  let gpa := x.gpa + (ea - x.vlo)
  match s.s2leaf x.vdev gpa with
  | none =>
    let lo := max x.vlo (ea - gpa % 65536)
    { x with vlo := lo, vhi := min x.vhi (ea - gpa % 65536 + 65536), gpa := x.gpa + (lo - x.vlo), s2 := .missing }
  | some f =>
    let n := if f.res then 2 ^ f.runl else 1
    let g := gpa / 65536
    let g0 := g / n * n
    let lo := max x.vlo (ea - (gpa - g0 * 65536))
    let hi := min x.vhi (ea + ((g0 + n) * 65536 - gpa))
    let gpa0 := x.gpa + (lo - x.vlo)
    { x with vlo := lo, vhi := hi, gpa := gpa0,
             s2 := .leaf f.res f.rd f.wr f.pin f.buf ((f.boff + gpa0 / 65536) * 65536 - g * 65536 + gpa0 % 65536) }

/-- Read bytes at a GPA for a walker (R282, steps 7 to 9; R290): the bytes, or the cause. -/
def State.readGpa (s : State) (die vd gpa n : Nat) : Except Cause (List (BitVec 8)) :=
  match s.s2leaf vd gpa with
  | none => .error .xlateStage2
  | some f =>
    if !f.rd then .error .xlateStage2
    else if !f.res then .error .xlateNotPresent
    else
      let o := f.boff * 65536 + gpa % 65536
      match s.bufCause vd f.buf o .load false with
      | some c => .error c
      | none => match s.bufs.find f.buf with
        | none => .error .bufferTable
        | some b =>
          if s.acrossBoundary die (s.bufPlace f.buf b o) then .error .linkDown
          else (collect (fun i =>
            s.readLoc { place := s.bufPlace f.buf b (o + 16 * i), key := none, attr := 1, vdev := vd } (min 16 (n - 16 * i)))
            (List.range ((n + 15) / 16))).map List.flatten

/-- A GPA is backed by host memory. -/
def State.gpaHost (s : State) (vd gpa : Nat) : Bool :=
  ((s.s2leaf vd gpa).bind fun f => s.bufs.find f.buf).any fun b => b.kind == 1

/-- A 64-bit word of a byte list. -/
def word64 (bs : List (BitVec 8)) (off : Nat) : Nat := ofBytes ((bs.drop off).take 8)

/-- END of range record r of a node (R284). -/
def recEnd (node : List (BitVec 8)) (r : Nat) : Nat :=
  bits (word64 node (0x18 + 24 * r)) 55 0 + 4096 * (bits (word64 node (0x20 + 24 * r)) 19 0 + 1)

/-- VBASE of range record r (R284). -/
def recBase (node : List (BitVec 8)) (r : Nat) : Nat := bits (word64 node (0x18 + 24 * r)) 55 0

/-- The checks of R286 on a range-tree node. -/
def nodeOk (node : List (BitVec 8)) : Bool :=
  let n := bits (word64 node 0) 3 0
  decide (n ≤ 15) && decide (word64 node 0 < 32) && word64 node 8 == 0 && word64 node 16 == 0 &&
  (List.range n).all (fun r =>
    decide (bits (word64 node (0x18 + 24 * r)) 63 56 = 0) && decide (bits (word64 node (0x20 + 24 * r)) 63 56 = 0) &&
    decide (bits (word64 node (0x28 + 24 * r)) 63 44 = 0) &&
    decide (recBase node r % 4096 = 0) && decide (recEnd node r ≤ 2 ^ 56) &&
    (decide (recEnd node r ≤ 0xF0000000000000) || decide (0xF1000000000000 ≤ recBase node r)) &&
    (decide (r + 1 = n) || decide (recEnd node r ≤ recBase node (r + 1)))) &&
  (List.range 16).all (fun c =>
    let w := word64 node (0x180 + 8 * c)
    decide (bits w 8 1 = 0) && decide (bits w 63 48 = 0))

/-- The first phase of a walk (R283, R285, R287). -/
def Ctx.walkStart (x : Ctx) (ea : Nat) : WalkPhase :=
  if x.rtlive ≠ 0 then .node x.rtlive 1 []
  else if x.ptlive ≠ 0 && ea / 2 ^ 48 == 0 then .pte 3 (x.ptlive + 16 * bits ea 47 39) false []
  else .failed .xlateRangeInvalid 0

/-- The walk's phase when no range covers the address (R285, R287). -/
def Ctx.walkPages (x : Ctx) (ea : Nat) : WalkPhase :=
  if x.ptlive ≠ 0 && ea / 2 ^ 48 == 0 then .pte 3 (x.ptlive + 16 * bits ea 47 39) false []
  else .failed .xlateRangeInvalid 0

/-- What a range-tree node gives (R285, R286). -/
def walkNode (x : Ctx) (vd ctx ea depth : Nat) (node : List (BitVec 8)) : WalkPhase :=
  if !nodeOk node then .failed .xlateRangeInvalid 0
  else
    let n := bits (word64 node 0) 3 0
    let i := ((List.range n).find? fun r => decide (ea < recEnd node r)).getD n
    if i < n && decide (recBase node i ≤ ea) then
      let a := BitVec.ofNat 64 (word64 node (0x28 + 24 * i))
      if !attrOk a then .failed .xlateRangeInvalid 0
      else .stage2 ⟨vd, ctx, x.epoch, recBase node i, recEnd node i,
        bits (word64 node (0x20 + 24 * i)) 55 20 * 4096, a, 3,
        decide (recBase node i % 2 ^ 21 = 0) && decide (recEnd node i % 2 ^ 21 = 0) &&
          decide (bits (word64 node (0x20 + 24 * i)) 55 20 % 512 = 0), .missing, false, false⟩
    else
      let c := word64 node (0x180 + 8 * i)
      if bit (word64 node 0) 4 || !bit c 0 then x.walkPages ea
      else if bits c 47 9 = 0 then x.walkPages ea
      else if 8 ≤ depth then .failed .xlateRangeInvalid 0
      else .node (bits c 47 9 * 512) (depth + 1) []

/-- What a page-table entry gives (R287, R288). -/
def walkPte (x : Ctx) (vd ctx ea level : Nat) (gran : Bool) (e : List (BitVec 8)) : WalkPhase :=
  let w := word64 e 0
  let a := word64 e 8
  let leaf := bit w 1
  let addr := bits w 47 9 * 512
  let bad : WalkPhase := .failed .xlateRangeInvalid 0
  let mk (size code : Nat) : WalkPhase :=
    if addr % size ≠ 0 || !attrOk (BitVec.ofNat 64 a) then bad
    else .stage2 ⟨vd, ctx, x.epoch, ea / size * size, ea / size * size + size, addr, BitVec.ofNat 64 a, code, decide (size = 2 ^ 21), .missing, false, false⟩
  if !bit w 0 || bits w 8 3 ≠ 0 || bits w 63 48 ≠ 0 || (bit w 2 && (level != 1 || leaf)) then bad
  else if leaf then
    if level = 1 then mk (2 ^ 21) 2
    else if level = 0 then (if gran then mk 65536 1 else mk 4096 0)
    else bad
  else if level = 0 || a ≠ 0 then bad
  else if level = 1 && bit w 2 then .pte 0 (addr + 16 * bits ea 20 16) true []
  else if addr % 8192 ≠ 0 then bad
  else if level = 3 then .pte 2 (addr + 16 * bits ea 38 30) false []
  else if level = 2 then .pte 1 (addr + 16 * bits ea 29 21) false []
  else .pte 0 (addr + 16 * bits ea 20 12) false []

/-- A resident translation that the cache may hold (R293). -/
def Xlation.cacheable (x : Xlation) : Bool :=
  match x.s2 with
  | .leaf res _ _ _ _ _ => res
  | .missing => false

/-- The entry of a die's walk cache for a table read (R292, R294). -/
def State.walkCached (s : State) (die : Nat) (w : Walk) (gpa : Nat) : Option WalkEntry :=
  (s.die die).wcache.find? fun e =>
    !e.tagBad && e.vdev == w.vdev && e.ctx == w.ctx && e.epoch == (s.ctx w.vdev w.ctx).epoch && e.gpa == gpa

/-- What a table read uses: the walk cache, or memory. Whether an entry that is there has been replaced is open: `v` says so. -/
def State.walkHit (s : State) (die : Nat) (w : Walk) (gpa v : Nat) : Option WalkEntry :=
  match s.walkCached die w gpa with
  | some e => if v % 2 = 0 then some e else none
  | none => none

/-- The lines of a range-tree node that are read now: `v` chooses among those still missing, for a walk may find each line old or new
independently of the others (R286). -/
def linesNow (v : Nat) (have_ : Table (List (BitVec 8))) : List Nat :=
  let missing := (List.range 8).filter fun n => (have_.find n).isNone
  let some_ := missing.filter fun n => bit v (n + 1)
  if some_.isEmpty then missing else some_

/-- One table read of a walk (R292): the next phase and the bytes of the table that led to it, or the cause and GPA of the table read. A node is
read in 64-byte lines (R286), an entry in host memory in two halves, word 0 first (R288); `v` says how much of them is read now. -/
def State.walkRead (s : State) (die : Nat) (w : Walk) (v : Nat) : Except (Cause × Nat) (WalkPhase × List (BitVec 8)) :=
  let x := s.ctx w.vdev w.ctx
  match w.phase with
  | .node gpa depth lines => match (if lines.isEmpty then s.walkHit die w gpa v else none) with
    | some e => if e.dataBad then .error (.tlbParity, gpa) else .ok (walkNode x w.vdev w.ctx w.ea depth e.bytes, [])
    | none => match collect (fun n => (s.readGpa die w.vdev (gpa + 64 * n) 64).map fun bs => (n, bs)) (linesNow v lines) with
      | .error c => .error (c, gpa)
      | .ok got =>
        let lines := got.foldl (fun t l => t.put l.1 l.2) lines
        let node := (List.range 8).flatMap fun n => lines.getD n []
        if lines.length < 8 then .ok (.node gpa depth lines, []) else .ok (walkNode x w.vdev w.ctx w.ea depth node, node)
  | .pte level gpa gran half => match (if half.isEmpty then s.walkHit die w gpa v else none) with
    | some e => if e.dataBad then .error (.tlbParity, gpa) else .ok (walkPte x w.vdev w.ctx w.ea level gran e.bytes, [])
    | none =>
      let n := if s.gpaHost w.vdev gpa && half.isEmpty && bit v 1 then 8 else 16
      match s.readGpa die w.vdev (gpa + half.length) (n - half.length) with
      | .error c => .error (c, gpa)
      | .ok bs =>
        let e := half ++ bs
        if e.length < 16 then .ok (.pte level gpa gran e, []) else .ok (walkPte x w.vdev w.ctx w.ea level gran e, e)
  | .stage2 l => .ok (.done (s.stage2 l w.ea), [])
  | p => .ok (p, [])

/-- The GPA of the table that a walk reads. -/
def WalkPhase.table : WalkPhase → Nat
  | .node gpa _ _ => gpa
  | .pte _ gpa _ _ => gpa
  | _ => 0

/-- The bytes of a table that the walk cache takes in (R292): a range-tree node that is not a leaf, or a pointer entry. -/
def WalkPhase.holds (p next : WalkPhase) (bs : List (BitVec 8)) : Bool :=
  match p, next with
  | .node _ _ _, .failed _ _ => false
  | .node _ _ _, _ => !bs.isEmpty && !bit (word64 bs 0) 4
  | .pte _ _ _ _, .pte _ _ _ _ => !bs.isEmpty
  | _, _ => false

/-- Enter something in a cache of `cap` places; which entry makes room in a full one is open (R292, R293): `v` chooses. -/
def makeRoom {α : Type} (cap v : Nat) (xs : List α) : List α := if xs.length < cap then xs else xs.eraseIdx (v % xs.length)

/-- A die's walk cache takes an entry in. -/
def State.fillWalk (s : State) (die : Nat) (w : Walk) (v : Nat) (bs : List (BitVec 8)) : State :=
  let d := s.die die
  s.setDie die { d with wcache :=
    ⟨w.vdev, w.ctx, (s.ctx w.vdev w.ctx).epoch, w.phase.table, bs, false, false⟩ :: makeRoom 1024 v d.wcache }

/-- A die's last-level cache takes a translation in: 4,096 range entries and 8,192 page entries (R293). -/
def Die.fillTlc (d : Die) (v : Nat) (x : Xlation) : Die :=
  let range (y : Xlation) : Bool := y.size == 3
  let cap := if range x then 4096 else 8192
  { d with tlc := x :: (d.tlc.filter fun y => range y != range x) ++ makeRoom cap v (d.tlc.filter fun y => range y == range x) }

/-- The cores of a die that run groups of a translation's context may take a private copy of it as the die's last-level cache takes it in; which
take it, and how many older copies they keep, is open (R293; DESIGN CHOICE: log 12). -/
def State.fillCopies (s : State) (die : Nat) (x : Xlation) : State :=
  let cores := ((s.groups.filter fun kg => coreDie (slotCore kg.1) == die && s.owner kg.2 == (x.vdev, x.ctx)).map fun kg => slotCore kg.1).dedup
  cores.foldl (fun s c =>
    let (v, s) := s.draw
    s.setCore c { s.core c with tlb := (x :: (s.core c).tlb).take v }) s

/-- Discard the cached entries of a die whose tag parity fails, count them and report them without an owner (R294). -/
def State.scrubTags (s : State) (die : Nat) : State :=
  let d := s.die die
  let n := d.tlc.countP Xlation.tagBad + d.wcache.countP WalkEntry.tagBad
  if n = 0 then s
  else
    (s.setDie die { d with tlc := d.tlc.filter (fun x => !x.tagBad), wcache := d.wcache.filter (fun e => !e.tagBad), tagErrors := d.tagErrors + n }).report
      (.die 21 die n)

/-! ## Parking (R296, R297) -/

/-- Ask the pager for a granule, for a context: merge the waiter into its request, or make one (R296). -/
def State.askPager (s : State) (vd ctx gpa : Nat) (waiter : Option (Nat × Nat)) : State :=
  let g := gpa / 65536
  match s.pager.find? fun r => r.vdev == vd && r.granule == g with
  | some _ => { s with pager := s.pager.map fun r =>
      if r.vdev == vd && r.granule == g then
        { r with waiters := r.waiters ++ waiter.toList, askers := (r.askers ++ [(vd, ctx)]).dedup }
      else r }
  | none => { s with pager := s.pager ++ [⟨vd, g, waiter.toList, false, none, none, [(vd, ctx)]⟩] }

/-- Park an access (R296): it takes a fault slot of its die under the next sequence number, or under the number
that it keeps when it is replayed, and its granule is asked for. None of the 2,048 slots free: it waits. -/
def State.park (s : State) (die : Nat) (f : FaultSlot) (keep : Option Nat) : Option (State × Nat) :=
  let d := s.die die
  if 2048 ≤ d.faults.length then none
  else
    let seq := keep.getD d.faultSeq
    let d := { d with faults := d.faults.put seq { f with seq := seq, replayed := keep.isSome },
                      faultSeq := if keep.isSome then d.faultSeq else (d.faultSeq + 1) % 2 ^ 32 }
    some ((s.setDie die d).askPager f.vdev f.ctx f.gpa (some (die, seq)), seq)

/-- A granule is used (R298): it becomes the most recent of its device. -/
def State.touch (s : State) (vd g : Nat) : State :=
  let d := s.vdev vd
  if d.lru.contains g then s.setVdev vd { d with lru := d.lru.filter (· != g) ++ [g] } else s

/-- A location is accessed: its granule is used (R298), and a node of the counter tree that failed in its first copy has been served from its
mirror (R365). -/
def State.used (s : State) (l : Loc) : State :=
  match l.place with
  | .dram st spa => (s.mirrorServed st spa).touch l.vdev (l.gpa / 65536)
  | _ => s.touch l.vdev (l.gpa / 65536)

/-- The lines of memory that a table read of a walk reads: a node's eight, or one (R284, R287). -/
def State.tableLines (s : State) (w : Walk) : List (Place × Nat) :=
  let at_ (gpa : Nat) : Option (Place × Nat) := (s.s2leaf w.vdev gpa).bind fun f => (s.bufs.find f.buf).map fun b =>
    (s.bufPlace f.buf b (f.boff * 65536 + gpa % 65536), 16)
  match w.phase with
  | .node gpa _ _ => (List.range 8).filterMap fun n => at_ (gpa + 64 * n)
  | .pte _ gpa _ _ => (at_ gpa).toList
  | _ => []

/-- One step of a walk (R292): the table read returns and the walk advances, ends, or parks on an absent table
page. A complete translation enters the last-level cache. -/
def State.walkStep (s : State) (die id : Nat) : State :=
  match (s.die die).walks.find id with
  | none => s
  | some w =>
    if w.parked.any fun q => s.isParked die q then s
    else
      let (v, s) := (s.scrubTags die).draw
      let put (s : State) (p : WalkPhase) : State :=
        s.setDie die { s.die die with walks := (s.die die).walks.put id { w with phase := p, parked := none } }
      match s.walkRead die w v with
      | .ok (.done x, _) =>
        if x.cacheable then
          ((s.setDie die { (s.die die).fillTlc v x with walks := (s.die die).walks.del id }).fillCopies die x).touch x.vdev (x.gpa / 65536)
        else put s (.done x)
      | .ok (p, bs) => put (if w.phase.holds p bs then s.fillWalk die w v bs else s) p
      | .error (.xlateNotPresent, gpa) =>
        match s.park die { seq := 0, replayed := false, write := false, table := true, engine := .walker, core := 0, vdev := w.vdev, ctx := w.ctx, va := w.ea, gpa := gpa } w.parked with
        | some (s, q) => s.setDie die { s.die die with walks := (s.die die).walks.put id { w with parked := some q } }
        | none => s
      | .error (c, gpa) => (put s (.failed c gpa)).detected c (s.tableLines w)

/-- Start a walk for an address unless one serves it (R292); none when all 32 walkers are busy. The answer is the walk's
number. -/
def State.startWalk (s : State) (die vd ctx ea : Nat) : State × Option Nat :=
  match (s.die die).walks.find? fun w => w.2.serves vd ctx ea && !w.2.phase.ended with
  | some (id, _) => (s, some id)
  | none =>
    let s := s.scrubTags die
    let d := s.die die
    let fresh := d.walks.keep fun _ w => !(w.serves vd ctx ea)
    if d.refused.any (fun v => victimHits v vd ctx) then (s, none)
    else if 32 ≤ (fresh.filter fun w => !w.2.phase.ended).length then (s, (fresh.map Prod.fst).head?)
    else
      let id := s.nextId
      ({ s.setDie die { d with walks := fresh.put id ⟨vd, ctx, ea, (s.ctx vd ctx).walkStart ea, none⟩ } with
          nextId := id + 1 }, some id)

/-- Walk to the end in one step of an engine that has no step of its own for each table read: at most `n` reads. -/
def State.walkOut (s : State) (die id : Nat) : Nat → State
  | 0 => s
  | n + 1 => (s.walkStep die id).walkOut die id n

/-- Translate for an engine, its walk made in the same step (DEDUCED: log 12). -/
def State.lookNow (s : State) (die vd ctx world : Nat) (k : Access) (ea : Nat) : State × Xl :=
  match s.look die vd ctx world k ea with
  | .miss =>
    match s.startWalk die vd ctx ea with
    | (s, some id) =>
      let s := s.walkOut die id 128
      let r := s.look die vd ctx world k ea
      (if r = .miss then s else s.dropWalks die vd ctx ea, r)
    | (s, none) => (s, .miss)
  | r => (s, r)

/-- Keep the cached translations that satisfy a test, in the dies' last-level caches and in the cores' private copies. -/
def State.keepXlations (s : State) (keep : Xlation → Bool) : State :=
  { s with dies := s.dies.mapVals (fun _ d => { d with tlc := d.tlc.filter keep }),
           cores := s.cores.mapVals (fun _ k => { k with tlb := k.tlb.filter keep }) }

/-- Invalidate a context's translations on both dies and in every core (R293, R295). -/
def State.invalidate (s : State) (vd ctx : Nat) : State :=
  let s := s.keepXlations fun x => !(x.vdev == vd && x.ctx == ctx)
  { s with dies := s.dies.mapVals fun _ d =>
      { d with wcache := d.wcache.filter (fun e => !(e.vdev == vd && e.ctx == ctx)),
               walks := d.walks.keep fun _ w => !(w.vdev == vd && w.ctx == ctx) } }

/-- Invalidate the translations of a device that reach a granule (R298). -/
def State.invalidateGranule (s : State) (vd g : Nat) : State :=
  s.keepXlations fun x => !(x.vdev == vd && decide (x.gpa / 65536 ≤ g) && decide (g ≤ (x.gpa + (x.vhi - x.vlo) - 1) / 65536))

/-- WALK_STEP (R292): a table read of a walk returns. -/
def execWalkStep (die walk : Nat) (s : State) : Host.Outcome State Fault Refusal := .next (s.walkStep die walk)

/-- WALK_TIMEOUT (R292): a walk that has not completed in 100 µs, time parked not counted, contains its context. -/
def execWalkTimeout (die walk : Nat) (s : State) : Host.Outcome State Fault Refusal :=
  match (s.die die).walks.find walk with
  | none => .next s
  | some w =>
    if w.phase.ended || w.parked.any (fun q => s.isParked die q) then .next s
    else
      let s := s.setDie die { s.die die with walks := (s.die die).walks.del walk }
      .next (s.contain w.vdev w.ctx .walkTimeout .walker w.ea)

end Sys2Proof.Machine
end

