-- ==== Sys2Proof/Machine/CoreMem.lean ====
section
/-! DEFINITION. What a core's accesses pass before memory: the window (R137), declared buffers (R139 to R141),
translation, and parking (R134, R296). -/

namespace Sys2Proof.Machine

/-- The first window address (R137). -/
def sramBase : Nat := 0x00F0000000000000

/-- A window address: `a[55:48] = 0xF0` (R137), with bits [63:56] 0. -/
def isWindow (ea : Nat) : Bool := decide (sramBase ≤ ea) && decide (ea < sramBase + 2 ^ 48)

/-- The teams of the cluster of a team, by rank (R137, R240). -/
def State.clusterTeams (s : State) (team : Nat) : List Nat :=
  match s.clusters.find (s.team team).cluster with
  | some c => c.teams
  | none => [team]

/-- Decode a window address for a team (R137): the team whose slice it reaches and the offset in its allocation. A team that has
retired has no slice. -/
def State.window (s : State) (team ea size : Nat) : Option (Nat × Nat) :=
  let off := ea - sramBase
  let ts := s.clusterTeams team
  match ts[off / 2 ^ 25]? with
  | none => none
  | some t =>
    if (s.teams.find t).isSome && decide (off % 2 ^ 25 + size ≤ (s.gridOf t).sramsz) then some (t, off % 2 ^ 25) else none

/-- The place of an offset of a team's allocation (R136). -/
def State.slicePlace (s : State) (team o : Nat) : Place :=
  let t := s.team team
  .sram t.core (t.units.getD (o / 65536) 0 * 65536 + o % 65536)

/-- How an access uses a slice, for the table of R141. -/
inductive BufUse where
  | groupLoad | groupStore | engineRead | copyDst | copySrc
  deriving DecidableEq, Repr

/-- The fate of an access in the access table (R141). -/
inductive BufFate where
  | ok | trap (c : Cause) | wait
  deriving DecidableEq, Repr

/-- The access table of R141 for one buffer and the bytes `[o, o + n)` inside it. -/
def Buffer.fate (b : Buffer) (u : BufUse) (o n : Nat) : BufFate :=
  match u, b.state with
  | .groupLoad, .empty => .trap .bufState
  | .groupLoad, .filling => if o + n ≤ b.wp then .ok else .trap .bufState
  | .groupLoad, _ => .ok
  | .groupStore, .empty => .ok
  | .groupStore, .full => .ok
  | .groupStore, _ => .trap .bufState
  | .engineRead, .empty => .wait
  | .engineRead, .filling => if o + n ≤ b.wp then .ok else .wait
  | .engineRead, _ => .ok
  | .copyDst, .empty => .ok
  | .copyDst, _ => .trap .bufState
  | .copySrc, .full => .ok
  | .copySrc, _ => .trap .bufState

/-- Check bytes of a team's allocation against its buffers (R139): BUF_BOUNDS for an access that straddles an edge, then
the access table. -/
def bufCheck (bufs : Table Buffer) (u : BufUse) (o n : Nat) : BufFate :=
  match bufs.filter fun b => decide (o < b.2.base + b.2.size) && decide (b.2.base < o + n) with
  | [] => .ok
  | [(_, b)] => if b.base ≤ o && decide (o + n ≤ b.base + b.size) then b.fate u o n else .trap .bufBounds
  | _ => .trap .bufBounds

/-- A location inside a slice. -/
def sliceLoc (p : Place) : Loc := ⟨p, none, 0, 0, 0⟩

/-- Check one group access to the window (R137, R139) and locate it. -/
def State.windowLoc (s : State) (team : Nat) (u : BufUse) (ea size : Nat) : Except Cause Loc :=
  match s.window team ea size with
  | none => .error .sramRange
  | some (t, o) =>
    let p := s.slicePlace t o
    if s.acrossBoundary (coreDie (s.team team).core) p then .error .linkDown
    else match bufCheck (s.team t).bufs u o size with
      | .trap c => .error c
      | _ => .ok (sliceLoc p)

/-- The record in which a core reports a P cause to the pager, in the layout of its trap records and under the next of their numbers (R151). -/
def State.pagerRecord (s : State) (slot : Nat) (g : Group) (ea : Nat) (pc : BitVec 56) (replayed : Bool) : State × CoalRec :=
  let k := s.core (slotCore slot)
  (s.setCore (slotCore slot) { k with recSeq := (k.recSeq + 1) % 2 ^ 32 },
   { s.recordOf slot g .xlateNotPresent (some (BitVec.ofNat 64 ea)) pc replayed (g.lanes.all fun l => l.2.exited) false with
     seq := k.recSeq, opened := s.gtime })

/-- Park an access of a group, or of a stream of its own, on an absent page (R296): it is reported to the pager, and takes a fault slot; none
when no slot is free. -/
def State.parkCore (s : State) (slot : Nat) (g : Group) (e : Engine) (wr : Bool) (ea gpa : Nat) (pc : BitVec 56) (keep : Option Nat) :
    Option (State × Nat) :=
  let own := s.owner g
  let (t, r) := s.pagerRecord slot g ea pc keep.isSome
  t.park (coreDie (slotCore slot)) { seq := 0, replayed := false, write := wr, table := false, engine := e, core := slotCore slot,
                                     vdev := own.1, ctx := own.2, va := ea, gpa := gpa, met := some r } keep

/-- The PC of the instruction that a group's run issues. -/
def State.runPc (s : State) (slot : Nat) (g : Group) : BitVec 56 :=
  match (s.core (slotCore slot)).runs.find (slotSub slot) with
  | some r => (g.lane ((lanesOf r.set).headD 0)).pc
  | none => 0

/-- Suspend a group whose access, or fetch, is parked (R134, R296): its run ends, it keeps its state in place. No
fault slot free: the access waits for one, and the instruction stands. -/
def State.parkGroup (s : State) (slot : Nat) (g : Group) (e : Engine) (wr : Bool) (ea gpa : Nat) : State :=
  let own := s.owner g
  let die := coreDie (slotCore slot)
  match s.parkCore slot g e wr ea gpa (s.runPc slot g) g.replay with
  | none => s
  | some (s, seq) =>
    let s := s.dropWalks die own.1 own.2 ea
    let s := s.endRun (slotCore slot) (slotSub slot)
    { s with groups := s.groups.modify slot fun g => { g with wait := some (.parked die seq), replay := some seq } }

/-- A group waits for the walk of an address (R134, R292, R296): on one that is parked on an absent table page it is suspended. -/
def State.waitWalk (s : State) (slot : Nat) (g : Group) (ea : Nat) : Stop :=
  let own := s.owner g
  let die := coreDie (slotCore slot)
  match s.startWalk die own.1 own.2 ea with
  | (s, some id) => match ((s.die die).walks.find id).bind Walk.parked with
    | some q => if s.isParked die q then .wait (s.suspendParked slot q) [] else .wait s [.walkStep die id]
    | none => .wait s [.walkStep die id]
  | (s, none) => .wait s []

/-- Translate an address for a group at issue (R158, R282): its location; a trap that carries the address; a wait for a
walk; or a wait on a parked access. -/
def State.groupLoc (s : State) (slot : Nat) (g : Group) (e : Engine) (k : Access) (ea : Nat) : Except Stop Loc :=
  let own := s.owner g
  match s.lookCore (slotCore slot) own.1 own.2 k ea with
  | .ok l _ => .ok l
  | .fault .xlateNotPresent gpa => .error (.wait (s.parkGroup slot g e k.writes ea gpa) [])
  | .fault c _ => .error (.trap { cause := c, addr := some (BitVec.ofNat 64 ea), eng := e })
  | .miss => .error (s.waitWalk slot g ea)

/-- Fetch one instruction or header word (R50, R137): translated like a load, with the X right; a window address
raises SRAM_RANGE. -/
def State.fetch (s : State) (slot : Nat) (g : Group) (pc : BitVec 56) : Except Stop Word :=
  let ea := pc.toNat
  if isWindow ea then trapA .sramRange (pc.setWidth 64)
  else match s.groupLoc slot g .fetch .fetch ea with
    | .error e => .error e
    | .ok l => match s.readLoc l 4 with
      | .ok bs => .ok (BitVec.ofNat 32 (ofBytes bs))
      | .error c => .error (.trap { cause := c, addr := some (pc.setWidth 64), eng := .fetch, read := [(l.place, 4)] })

/-- The granules of a clause are used as it is fetched (R298). -/
def State.usedFetch (s : State) (slot : Nat) (g : Group) (pc : BitVec 56) (n : Nat) : State :=
  [pc, pc + BitVec.ofNat 56 (4 * n)].foldl (fun s a => match s.groupLoc slot g .fetch .fetch a.toNat with
    | .ok l => s.used l
    | .error _ => s) s

/-- Fetch `n` consecutive words. -/
def State.fetchWords (s : State) (slot : Nat) (g : Group) (pc : BitVec 56) (n : Nat) : Except Stop (List Word) :=
  collect (fun k => s.fetch slot g (pc + BitVec.ofNat 56 (4 * k))) (List.range n)

end Sys2Proof.Machine
end

