-- ==== Sys2Proof/Machine/Clause.lean ====
section
/-! DEFINITION. Clause headers (R51 to R55), PC-sets (R24), meeting (R25), and the fetch of the next instruction
(R70). -/

namespace Sys2Proof.Machine

/-! ## The header word (R51) -/

/-- The fields of a header: WAIT mask, WAIT threshold, ENGINE, END, COUNT. -/
def hdrMask (h : Word) : Nat := (h.extractLsb' 16 8).toNat
def hdrThreshold (h : Word) : Nat := (h.extractLsb' 12 4).toNat
def hdrCount (h : Word) : Nat := (h.extractLsb' 0 4).toNat

/-- A word has the signature of a header (R51). -/
def isHeader (h : Word) : Bool := h.extractLsb' 28 4 == 0b1011

/-- The control-transfer instructions (R54), by OP and FN7. -/
def isTransfer (w : Word) : Bool :=
  let op := (w.extractLsb' 25 7).toNat
  let fn := (w.extractLsb' 4 7).toNat
  op == 0x25 || op == 0x26 || op == 0x27 || op == 0x2A || (op == 0x2B && decide (fn < 3)) || op == 0x2C ||
  op == 0x2D || (op == 0x7D && fn == 6)

/-- The words of a clause are whole instructions, each with its modifier words, and a control transfer is the last
(R54). `fuel` is the number of words. -/
def clauseOk : List Word → Nat → Bool
  | [], _ => true
  | _ :: _, 0 => false
  | w :: ws, n + 1 => match takeMods (hasMore w) ws with
    | none => false
    | some (_, rest) => (!isTransfer w || rest.isEmpty) && clauseOk rest n

/-! ## Meeting and PC-sets (R24, R25) -/

/-- The lanes of a group that have not exited. -/
def Group.alive (g : Group) : List Nat := (List.range 64).filter fun l => !(g.lane l).exited

/-- Release every meeting that is complete (R25): all lanes that have not exited and have one MEET value are held. They
become one newly stamped set, or merge with a ready set at that address, taking the smaller stamp. No lane is
released in trap mode (R306). -/
def Group.release (g : Group) : Group :=
  if g.trap.active then g
  else
    let held := g.alive.filter fun l => (g.lane l).held
    let meets := (held.map fun l => (g.lane l).meet).dedup
    meets.foldl (fun g m =>
      if g.alive.all fun l => (g.lane l).meet != m || (g.lane l).held then
        let go := g.alive.filter fun l => (g.lane l).meet == m && (g.lane l).held
        let others := g.alive.filter fun l =>
          !(g.lane l).held && (g.lane l).pc == m && (g.lane l).clause.isNone && !(g.lane l).tsync
        let stamp := others.foldl (fun x l => min x (g.lane l).stamp) g.runCount
        (g.onLanes others fun x => { x with stamp := stamp }).onLanes go
          fun x => { x with held := false, meet := 0, stamp := stamp }
      else g) g

/-- The lanes that may issue: ready (R24), and, in trap mode, of the trapping set (R302). -/
def Group.ready (g : Group) : List Nat :=
  g.alive.filter fun l =>
    let x := g.lane l
    !x.held && !x.tsync && (!g.trap.active || g.trap.set.getLsbD l)

/-- Two lanes belong to one PC-set: equal PCs at a clause header; inside a clause, also one entry into it (R24). -/
def samePcSet (a b : Lane) : Bool :=
  a.pc == b.pc && a.clause == b.clause && (a.clause.isNone || a.entry == b.entry)

/-- The stamp of the set of a lane: the smallest of its lanes' (R24). -/
def Group.setStamp (g : Group) (l : Nat) : Nat :=
  (g.ready.filter fun n => samePcSet (g.lane n) (g.lane l)).foldl (fun x n => min x (g.lane n).stamp) (g.lane l).stamp

/-- The PC-set that the next run issues (R24): the smallest stamp; on a tie the set with the lowest lane. -/
def Group.nextSet (g : Group) : List Nat :=
  match g.ready with
  | [] => []
  | l :: ls =>
    let best := ls.foldl (fun b n => if g.setStamp n < g.setStamp b then n else b) l
    g.ready.filter fun n => samePcSet (g.lane n) (g.lane best)

/-! ## WAIT conditions (R53) -/

/-- An access's location lies in another core's slice, by its window address (R53 REMOTE). -/
def State.isRemote (s : State) (slot team ea : Nat) : Bool :=
  isWindow ea && (match s.window team ea 1 with
    | some (t, _) => (s.team t).core != slotCore slot
    | none => false)

/-- The matrix operations that a group has signed and that have not completed: those in the queue, and those whose muster still
lacks a signature (R192). -/
def State.matrixCount (s : State) (g : Group) : Nat :=
  let t := s.team g.team
  ((s.core t.core).mq.filter fun o => o.team == g.team && o.signers.contains g.num).length +
  (t.musters.filter fun m => bit m.2.signed g.num).length

/-- A channel of a team (R208). -/
def Team.chan (t : Team) (ch : Nat) : Channel := t.chans.getD ch Channel.idle

/-- The group is suspended at a copy command whose channel has no room (R53 COPY, R209). -/
def Group.awaitsRoom (g : Group) : Bool :=
  match g.wait with
  | some (.chanRoom _) => true
  | _ => false

/-- The near-bank commands of a group, NBSTs among them, that are not yet enqueued (R341). -/
def State.nbHeld (s : State) (slot : Nat) (g : Group) : Nat :=
  (s.nb.filter fun c => c.slot == slot && c.team == g.team && c.num == g.num &&
    (if c.fn < 9 then c.entered == 0 else c.fn == 10 && decide (c.entered < c.accs.length))).length

/-- A drain is over (R345): it has arrived, none of its commands has a part left in a named queue, and every single-element result in a
named pair is written. -/
def State.drained (s : State) (d : NbDrain) : Bool :=
  let named (p : Nat) : Bool := decide (d.pair0 ≤ p) && decide (p < d.pair0 + d.pairs)
  match d.cmds with
  | none => false
  | some cs => cs.all fun c =>
    ((s.stackDies.find d.stack).all fun k => k.queues.all fun q => !named q.1 || q.2.all fun p => p.cmd != c) &&
    s.nb.all fun x => x.id != c || !(x.fn == 4 || x.fn == 7) || !named (x.z / 1024 % 2048)

/-- The group's count of a WAIT condition (R53). -/
def State.waitCount (s : State) (slot : Nat) (g : Group) (i : Nat) : Nat :=
  match i with
  | 0 => g.loads.length
  | 1 => g.fifo.length
  | 3 => s.matrixCount g
  | 4 => if g.awaitsRoom then 1 else 0
  | 5 => s.nbHeld slot g
  | 7 =>
    (g.loads.filter fun ld => ld.accs.any fun a => s.isRemote slot g.team a.1.ea.toNat).length +
    (g.fifo.filter fun e => e.load.isNone && e.accs.any fun a => s.isRemote slot g.team a.ea.toNat).length +
    (s.flight.filter fun f => f.slot == slot && f.load.isNone &&
      f.parts.any fun p => match p.2.2.place with
        | .sram c _ => c != slotCore slot
        | _ => false).length
  | _ => 0

/-- An event that brings a group's outstanding work on: its FIFO first, then its loads, then writes in flight. -/
def State.progress (s : State) (slot : Nat) (g : Group) : List Instr :=
  (if g.fifo.isEmpty then [] else [.storeFifoPerform slot]) ++
  (g.loads.take 1).map (fun ld => .loadReturn slot ld.id) ++
  ((s.flight.filter fun f => f.slot == slot).take 1).map fun f => .pointOfCoherenceArrival f.id

/-- The WAIT conditions that a header selects and that do not hold yet (R53). -/
def State.unmet (s : State) (slot : Nat) (g : Group) (h : Word) : Bool :=
  (List.range 8).any fun i => bit (hdrMask h) i && decide (hdrThreshold h < s.waitCount slot g i)

/-! ## The header step -/

/-- Hold the lanes of a set that stand at their MEET (R25). -/
def Group.holdAt (g : Group) (ls : List Nat) : Group :=
  g.onLanes ls fun x => if x.meet != 0 && x.meet == x.pc then { x with held := true } else x

/-- A group between two runs (R25): its lanes that have reached their MEET at a clause header are held, and every meeting that is complete is
released. In trap mode nothing is (R306). -/
def Group.settled (g : Group) : Group :=
  if g.trap.active then g else (g.holdAt (g.ready.filter fun l => (g.lane l).clause.isNone)).release

/-- A parity mismatch in the PC of the lanes that issue, or, at a clause header, in their MEET (R22, R23). -/
def Group.checkControl (g : Group) (ls : List Nat) : Except Stop Unit :=
  if ls.any fun l => g.mismatch (.pc l) || ((g.lane l).clause.isNone && g.mismatch (.meet l)) then trapR .residue 0 else .ok ()

/-- What the issuing set does at a clause header (R24, R25, R51, R53 to R55, R70): lanes at their MEET, in every ready set that stands there, are
held, and the run ends when the issuing set has one; the other ready lanes at this address merge; the header and the words of its
clause are fetched and checked, all before the clause's first word issues (DEDUCED: log 62); the WAIT conditions are awaited; then the clause is
entered. -/
def headerStep (s : State) (core sc : Nat) (r : Run) (g : Group) : Host.Outcome State Fault Refusal :=
  let ls := lanesOf r.set
  let x := g.lane (lowest r.set)
  let here := g.ready.filter fun l => (g.lane l).pc == x.pc && (g.lane l).clause.isNone
  let g1 := if g.trap.active then g else g.holdAt (here ++ ls)
  if ls.any fun l => (g1.lane l).held then .next ((s.setGroup r.slot g1.release).endRun core sc)
  else
    let g := g1
    let join := here.filter fun l => !(g.lane l).held
    let stamp := join.foldl (fun n l => min n (g.lane l).stamp) x.stamp
    let set := laneSet (join ++ ls)
    let w : Site := { slot := r.slot, set := set, act := set, pc := x.pc, clause := (0, 0), len := 0 }
    let check : Except Stop Word := do
      g.checkControl (lanesOf set)
      let h ← s.fetch r.slot g x.pc
      require (isHeader h && hdrCount h != 0) .badHeader
      let ws ← s.fetchWords r.slot g (x.pc + 4) (hdrCount h)
      require (clauseOk ws ws.length) .badHeader
      require (!(h.extractLsb' 4 4 != 0 || (hdrMask h == 0 && hdrThreshold h != 0))) .illegalField
      if s.unmet r.slot g h then .error (.wait s (s.progress r.slot g)) else .ok h
    match check with
    | .error (.trap t) => .next (s.raise w t)
    | .error (.wait s deps) => .next ((s.elapse r.slot).await deps)
    | .ok h =>
      let g := { g.onLanes (lanesOf set) fun y => { y with pc := y.pc + 4, clause := some (h, hdrCount h), stamp := stamp, entry := g.runCount } with unit := none }
      let s := s.usedFetch r.slot g x.pc (hdrCount h)
      .next ((s.setGroup r.slot g).setCore core { s.core core with
        runs := (s.core core).runs.put sc { r with set := set } })

/-! ## The next instruction -/

/-- The class of an opcode by its number (R67), for a word whose unused bits are set: its class is checked first
(R70). -/
def classOfOp (op : Nat) : OpClass :=
  if op = 0 then .any
  else if op = 0x1C ∨ op = 0x23 ∨ op = 0x24 then .vector
  else if op < 0x25 then .lane
  else if op < 0x30 then .scalar
  else if op < 0x48 then .lane
  else if op < 0x60 then .vector
  else if op < 0x70 then .memory
  else if op < 0x78 then .matrix
  else if op < 0x7C then .copy
  else if op = 0x7C then .near
  else .system

/-- A word with unused bits set in a scalar form: the fields that it does use (R52). -/
def looseScalar (w : Word) : Bool :=
  let f := splitWord w
  match f.op.toNat with
  | 0x21 => isSZ f.d
  | 0x22 => isSZ f.a
  | _ => isSZ f.d && isSZ f.a

/-- Fetch an instruction word and the modifier words that follow it, at most `n` words in all (R57). -/
def State.fetchChain (s : State) (slot : Nat) (g : Group) (pc : BitVec 56) : Nat → Except Stop (List Word)
  | 0 => .ok []
  | n + 1 => match s.fetch slot g pc with
    | .error e => .error e
    | .ok w =>
      if hasMore w then (s.fetchChain slot g (pc + 4) n).map (w :: ·) else .ok [w]

/-- The channels granted to a team (R208, R260). -/
def Grid.chn (g : Grid) : Nat := g.field 0x20 21 17

/-- The wait for room in a channel (R209), which comes before every check of a command (R221). -/
def State.chanFree (s : State) (slot : Nat) (g : Group) (ch : Nat) : Except Stop Unit :=
  if ch < (s.gridOf g.team).chn && decide (8 ≤ ((s.team g.team).chan ch).queue.length) then .error (s.suspendOn slot (.chanRoom ch)) else .ok ()

/-- The wait for room of a command word whose fields do not decode (R221): D[3:0] names its channel. -/
def State.looseRoom (s : State) (slot : Nat) (g : Group) (w : Word) : Except Stop Unit :=
  if (splitWord w).op.toNat = 0x78 ∨ (splitWord w).op.toNat = 0x7B then s.chanFree slot g ((splitWord w).d.toNat % 16) else .ok ()

/-- The instruction at the PC of an issuing set that lies inside a clause, in the order of R70: RUN_TOO_LONG,
ILLEGAL_OPCODE, CLASS_MISMATCH, ILLEGAL_FIELD. -/
def State.nextInstr (s : State) (r : Run) (g : Group) : Except Stop Instr := do
  let x := g.lane (lowest r.set)
  let (h, left) := x.clause.getD (0, 0)
  g.checkControl (lanesOf r.set)
  require (decide (r.issued < 24)) .runTooLong
  let ws ← s.fetchChain r.slot g x.pc (min left 6)
  let w := ws.headD 0
  let loose : Except Stop Instr :=
    if (classOfOp (splitWord w).op.toNat).accepts (h.extractLsb' 9 3).toNat (looseScalar w) then
      (s.looseRoom r.slot g w).bind fun _ => trapE .illegalField
    else trapE .classMismatch
  match decodeWords ws with
  | .ok (i, _) => .ok i
  | .error .illegalOpcode => trapE .illegalOpcode
  | .error (.illegalField _) => loose
  | .error .truncated =>
    if left ≤ 6 then trapE .badHeader
    else match decodeWords [w &&& ~~~1] with
      | .error .illegalOpcode => trapE .illegalOpcode
      | _ => loose

/-- The outcome when no instruction could be read: the exception, or the wait (R70, R50). -/
def stopAt (s : State) (r : Run) (g : Group) : Stop → Host.Outcome State Fault Refusal
  | .trap t => .next (s.raise (siteOf r g 1 (lanesOf r.set)) t)
  | .wait s deps => .next ((s.elapse r.slot).await deps)

end Sys2Proof.Machine
end

