-- ==== Sys2Proof/Machine/Integer.lean ====
section
/-! DEFINITION. Integer arithmetic, logic, shifts and bit fields (R78 to R86). -/

namespace Sys2Proof.Machine

open Sys2Proof

/-! ## Values as read and as stored (R78) -/

/-- The n-th operand's 64-bit value. -/
def opd (ops : List (List DWord)) (n : Nat) : DWord := (ops.getD n []).headD 0

/-- The n-th operand as a 32-bit word. -/
def opw (ops : List (List DWord)) (n : Nat) : Word := (opd ops n).setWidth 32

/-- rd(x): a source as read by IADD, ISUB, IMUL, IMAD and IADD64 (R78, R82). -/
def rdInt {n : Nat} (res : Nat) (neg : Bool) (x : BitVec n) : Int :=
  let v : Int := if res = 2 then x.toNat else x.toInt
  if neg then -v else v

/-- rd of an immediate: always signed (R78). -/
def rdImm {n : Nat} (neg : Bool) (x : BitVec n) : Int := if neg then -x.toInt else x.toInt

/-- store(v) of R78, into `n` bits (R82 for 64). -/
def storeInt (n res : Nat) (v : Int) : BitVec n :=
  wrap n (if res = 1 then sat v (-(2 ^ (n - 1))) (2 ^ (n - 1) - 1) else if res = 2 then sat v 0 (2 ^ n - 1) else v)

/-- A source of IMIN, IMAX, IABS and CSUB: negated modulo 2^32 (R81). -/
def negWord (neg : Bool) (x : Word) : Word := if neg then -x else x

/-- What the integer, logic and shift instructions accept beside POV: INDEX and DUAL (R76). -/
def accLogic : Accept := { index := true, dual := true }

/-- NEG of `n` sources, and RES 0 to 2 (R59). -/
def accArith (n : Nat) : Accept := { neg := n, res := 2, index := true, dual := true }

/-- NEG of `n` sources (R59). -/
def accNeg (n : Nat) : Accept := { neg := n, index := true, dual := true }

/-- A lane instruction on 32-bit registers with integer result (R76, R77). -/
def intInstr (lat : Nat) (acc : Accept) (d : RegField) (srcs : List RegField) (t : Tail) (s : State)
    (f : Arith → List (List DWord) → Word) : Host.Outcome State Fault Refusal :=
  laneInstr { cls := .lane, acc := acc, dst := some { f := d }, srcs := srcs.map fun r => { f := r } } (some lat) t s
    fun i _ ops => i.plain ((f i.mods.ar ops).setWidth 64)

/-! ## Arithmetic (R79 to R82) -/

/-- IADD, register form (R79). -/
def execIadd (d a b : RegField) (t : Tail) (s : State) : Host.Outcome State Fault Refusal :=
  intInstr 4 (accArith 2) d [a, b] t s fun x o =>
    storeInt 32 x.res (rdInt x.res x.nega (opw o 0) + rdInt x.res x.negb (opw o 1))

/-- IADD, immediate form (R79). -/
def execIaddImm (d a i : RegField) (t : Tail) (s : State) : Host.Outcome State Fault Refusal :=
  intInstr 4 (accArith 2) d [a] t s fun x o =>
    storeInt 32 x.res (rdInt x.res x.nega (opw o 0) + rdImm x.negb i)

/-- ISUB (R79). -/
def execIsub (d a b : RegField) (t : Tail) (s : State) : Host.Outcome State Fault Refusal :=
  intInstr 4 (accArith 2) d [a, b] t s fun x o =>
    storeInt 32 x.res (rdInt x.res x.nega (opw o 0) - rdInt x.res x.negb (opw o 1))

/-- IMUL (R79). -/
def execImul (d a b : RegField) (t : Tail) (s : State) : Host.Outcome State Fault Refusal :=
  intInstr 6 (accArith 2) d [a, b] t s fun x o =>
    storeInt 32 x.res (rdInt x.res x.nega (opw o 0) * rdInt x.res x.negb (opw o 1))

/-- IMULHI.S32 (R80). -/
def execImulhiS32 (d a b : RegField) (t : Tail) (s : State) : Host.Outcome State Fault Refusal :=
  intInstr 6 accLogic d [a, b] t s fun _ o => wrap 32 ((opw o 0).toInt * (opw o 1).toInt / 2 ^ 32)

/-- IMULHI.N32 (R80). -/
def execImulhiN32 (d a b : RegField) (t : Tail) (s : State) : Host.Outcome State Fault Refusal :=
  intInstr 6 accLogic d [a, b] t s fun _ o => BitVec.ofNat 32 ((opw o 0).toNat * (opw o 1).toNat / 2 ^ 32)

/-- IMAD (R79). -/
def execImad (d a b : RegField) (t : Tail) (s : State) : Host.Outcome State Fault Refusal :=
  intInstr 6 { accArith 3 with useC := true } d [a, b] t s fun x o =>
    storeInt 32 x.res
      (rdInt x.res x.nega (opw o 0) * rdInt x.res x.negb (opw o 1) + rdInt x.res x.negc (opw o 2))

/-- The smaller or larger of two words, read as `rd` gives (R81). -/
def pickInt (larger : Bool) (rd : Word → Int) (x y : Word) : Word :=
  if larger then (if rd x < rd y then y else x) else (if rd y < rd x then y else x)

/-- The value of a word as an unsigned integer. -/
def unat (x : Word) : Int := x.toNat

/-- IMIN and IMAX (R81). -/
def minMax (larger : Bool) (rd : Word → Int) (d a b : RegField) (t : Tail) (s : State) :
    Host.Outcome State Fault Refusal :=
  intInstr 4 (accNeg 2) d [a, b] t s fun x o => pickInt larger rd (negWord x.nega (opw o 0)) (negWord x.negb (opw o 1))

/-- IMIN.S32 (R81). -/
def execIminS32 (d a b : RegField) (t : Tail) (s : State) : Host.Outcome State Fault Refusal :=
  minMax false BitVec.toInt d a b t s

/-- IMIN.N32 (R81). -/
def execIminN32 (d a b : RegField) (t : Tail) (s : State) : Host.Outcome State Fault Refusal :=
  minMax false unat d a b t s

/-- IMAX.S32 (R81). -/
def execImaxS32 (d a b : RegField) (t : Tail) (s : State) : Host.Outcome State Fault Refusal :=
  minMax true BitVec.toInt d a b t s

/-- IMAX.N32 (R81). -/
def execImaxN32 (d a b : RegField) (t : Tail) (s : State) : Host.Outcome State Fault Refusal :=
  minMax true unat d a b t s

/-- IABS (R81). -/
def execIabs (d a : RegField) (t : Tail) (s : State) : Host.Outcome State Fault Refusal :=
  intInstr 4 (accNeg 1) d [a] t s fun x o => wrap 32 |(negWord x.nega (opw o 0)).toInt|

/-- CSUB (R81). -/
def execCsub (d a b : RegField) (t : Tail) (s : State) : Host.Outcome State Fault Refusal :=
  intInstr 4 (accNeg 2) d [a, b] t s fun x o =>
    let p := negWord x.nega (opw o 0)
    let q := negWord x.negb (opw o 1)
    if q.toNat ≤ p.toNat then p - q else p

/-- IADD64 (R82). -/
def execIadd64 (d a b : RegField) (t : Tail) (s : State) : Host.Outcome State Fault Refusal :=
  laneInstr { cls := .lane, acc := accArith 2, dst := some { f := d, width := 2 },
              srcs := [{ f := a, width := 2 }, { f := b, width := 2 }] } (some 4) t s
    fun i _ o =>
      let x := i.mods.ar
      i.plain (storeInt 64 x.res (rdInt x.res x.nega (opd o 0) + rdInt x.res x.negb (opd o 1)))

/-- LEA (R82). -/
def execLea (d a b : RegField) (t : Tail) (s : State) : Host.Outcome State Fault Refusal :=
  laneInstr { cls := .lane, acc := { index := true, dual := true, scale := .lea }, dst := some { f := d, width := 2 },
              srcs := [{ f := a, width := 2 }, { f := b }] } (some 4) t s
    fun i _ o => i.plain (opd o 0 + ((opw o 1).signExtend 64 <<< i.mods.ar.scale.toNat))

/-! ## Logic, shifts and bit fields (R83 to R86) -/

/-- AND (R83). -/
def execIand (d a b : RegField) (t : Tail) (s : State) : Host.Outcome State Fault Refusal :=
  intInstr 4 accLogic d [a, b] t s fun _ o => opw o 0 &&& opw o 1

/-- OR (R83). -/
def execIor (d a b : RegField) (t : Tail) (s : State) : Host.Outcome State Fault Refusal :=
  intInstr 4 accLogic d [a, b] t s fun _ o => opw o 0 ||| opw o 1

/-- XOR (R83). -/
def execIxor (d a b : RegField) (t : Tail) (s : State) : Host.Outcome State Fault Refusal :=
  intInstr 4 accLogic d [a, b] t s fun _ o => opw o 0 ^^^ opw o 1

/-- ANDN (R83). -/
def execIandn (d a b : RegField) (t : Tail) (s : State) : Host.Outcome State Fault Refusal :=
  intInstr 4 accLogic d [a, b] t s fun _ o => opw o 0 &&& ~~~(opw o 1)

/-- SHL, SHR, SAR and ROT of R84: the value and the amount n. -/
def shlWord (x : Word) (n : Nat) : Word := if 32 ≤ n then 0 else x <<< n
def shrWord (x : Word) (n : Nat) : Word := if 32 ≤ n then 0 else x >>> n
def sarWord (x : Word) (n : Nat) : Word := x.sshiftRight (min n 31)
def rotWord (x : Word) (n : Nat) : Word := x.rotateLeft (n % 32)

/-- A shift by a register (R84). -/
def shiftReg (f : Word → Nat → Word) (d a b : RegField) (t : Tail) (s : State) : Host.Outcome State Fault Refusal :=
  intInstr 4 accLogic d [a, b] t s fun _ o => f (opw o 0) (opw o 1).toNat

/-- A shift by an immediate amount (R84). -/
def shiftImm (f : Word → Nat → Word) (d a : RegField) (n : BitVec 5) (t : Tail) (s : State) :
    Host.Outcome State Fault Refusal :=
  intInstr 4 accLogic d [a] t s fun _ o => f (opw o 0) n.toNat

/-- SHL by a register (R84). -/
def execShl (d a b : RegField) (t : Tail) (s : State) : Host.Outcome State Fault Refusal := shiftReg shlWord d a b t s

/-- SHR by a register (R84). -/
def execShr (d a b : RegField) (t : Tail) (s : State) : Host.Outcome State Fault Refusal := shiftReg shrWord d a b t s

/-- SAR by a register (R84). -/
def execSar (d a b : RegField) (t : Tail) (s : State) : Host.Outcome State Fault Refusal := shiftReg sarWord d a b t s

/-- ROT by a register (R84). -/
def execRot (d a b : RegField) (t : Tail) (s : State) : Host.Outcome State Fault Refusal := shiftReg rotWord d a b t s

/-- SHL by an immediate (R84). -/
def execShlImm (d a : RegField) (n : BitVec 5) (t : Tail) (s : State) : Host.Outcome State Fault Refusal :=
  shiftImm shlWord d a n t s

/-- SHR by an immediate (R84). -/
def execShrImm (d a : RegField) (n : BitVec 5) (t : Tail) (s : State) : Host.Outcome State Fault Refusal :=
  shiftImm shrWord d a n t s

/-- SAR by an immediate (R84). -/
def execSarImm (d a : RegField) (n : BitVec 5) (t : Tail) (s : State) : Host.Outcome State Fault Refusal :=
  shiftImm sarWord d a n t s

/-- ROT by an immediate (R84). -/
def execRotImm (d a : RegField) (n : BitVec 5) (t : Tail) (s : State) : Host.Outcome State Fault Refusal :=
  shiftImm rotWord d a n t s

/-- The position and effective length that B describes (R85). -/
def fieldPos (b : Word) : Nat := (b.extractLsb' 0 5).toNat
def fieldLen (b : Word) : Nat := min (b.extractLsb' 8 6).toNat (32 - fieldPos b)

/-- BFX's result (R85). -/
def bfxWord (a b : Word) : Word :=
  let e := fieldLen b
  let f := a.toNat / 2 ^ fieldPos b % 2 ^ e
  if e = 0 then 0
  else if b.getLsbD 16 && decide (2 ^ (e - 1) ≤ f) then wrap 32 ((f : Int) - 2 ^ e) else BitVec.ofNat 32 f

/-- BFX (R85). -/
def execBfx (d a b : RegField) (t : Tail) (s : State) : Host.Outcome State Fault Refusal :=
  intInstr 4 accLogic d [a, b] t s fun _ o => bfxWord (opw o 0) (opw o 1)

/-- BFI's result (R85). -/
def bfiWord (a b c : Word) : Word :=
  let mask := BitVec.ofNat 32 ((2 ^ fieldLen b - 1) * 2 ^ fieldPos b)
  (c &&& ~~~mask) ||| ((a <<< fieldPos b) &&& mask)

/-- BFI (R85). -/
def execBfi (d a b : RegField) (t : Tail) (s : State) : Host.Outcome State Fault Refusal :=
  intInstr 4 { accLogic with useC := true } d [a, b] t s fun _ o => bfiWord (opw o 0) (opw o 1) (opw o 2)

/-- The bits of a word, bit 0 first. -/
def bitList (x : Word) : List Bool := (List.range 32).map fun n => x.getLsbD n

/-- POPC (R86). -/
def execPopc (d a : RegField) (t : Tail) (s : State) : Host.Outcome State Fault Refusal :=
  intInstr 4 accLogic d [a] t s fun _ o => BitVec.ofNat 32 ((bitList (opw o 0)).count true)

/-- CLZ (R86). -/
def execClz (d a : RegField) (t : Tail) (s : State) : Host.Outcome State Fault Refusal :=
  intInstr 4 accLogic d [a] t s fun _ o => BitVec.ofNat 32 ((bitList (opw o 0)).reverse.takeWhile (!·)).length

/-- BREV (R86). -/
def execBrev (d a : RegField) (t : Tail) (s : State) : Host.Outcome State Fault Refusal :=
  intInstr 4 accLogic d [a] t s fun _ o => (opw o 0).reverse

end Sys2Proof.Machine
end

