-- ==== Sys2Proof/Machine/Laggard.lean ====
section
/-! DEFINITION. Laggard boost (R278). -/

namespace Sys2Proof.Machine

open Sys2Proof

/-- Change a cluster. -/
def State.modCluster (s : State) (c : Nat) (f : Cluster → Cluster) : State := { s with clusters := s.clusters.modify c f }

/-- The clock of a core in MHz: its die's base clock and its offset, within 1,200 to 2,100 (R278, R435). -/
def State.clockMhz (s : State) (core : Nat) : Int := max 1200 (min 2100 ((s.die (coreDie core)).mhz + 25 * (s.core core).lag))

/-- Move one 25 MHz step from a core to another, unless a limit stands against it (R278). -/
def State.moveStep (s : State) (taker giver : Nat) : State :=
  let a := s.core taker
  let b := s.core giver
  if taker = giver || decide (2100 ≤ s.clockMhz taker) || decide (8 ≤ a.lag) || decide (s.clockMhz giver ≤ 1200) || decide (b.lag ≤ -8) then s
  else (s.setCore taker { a with lag := a.lag + 1 }).setCore giver { b with lag := b.lag - 1 }

/-- Move steps between the cores of a cluster of `m`, given in the order of their teams' arrival: the last take from the first, the
latest from the earliest (R278). -/
def State.moveSteps (s : State) (m : Nat) (cores : List Nat) : State :=
  let n := (m + 3) / 4
  (((cores.reverse.take n).zip (cores.take n)).foldl fun s x => s.moveStep x.1 x.2) s

/-- A team arrives at an event of its cluster (R278). -/
def State.lagArrive (s : State) (team key : Nat) : State :=
  s.modCluster (s.team team).cluster fun c =>
    { c with arrivals := c.arrivals.put key ((c.arrivals.getD key []).filter (·.1 != team) ++ [(team, (s.team team).core)]) }

/-- The event comes about: the device's laggard boost moves steps. -/
def State.lagEvent (s : State) (cl key : Nat) : State :=
  match s.clusters.find cl with
  | none => s
  | some c =>
    let list := c.arrivals.getD key []
    let s := s.modCluster cl fun c => { c with arrivals := c.arrivals.del key }
    if bit ((s.vdev (s.grid c.grid).vdev).prof 0 63 0) 9 then s.moveSteps c.teams.length (list.map Prod.snd) else s

/-- The phase of a barrier object flips: an event of every cluster whose teams have arrived there. -/
def State.lagFlip (s : State) (key : Nat) : State :=
  (s.clusters.filter fun c => (c.2.arrivals.find key).isSome).foldl (fun s c => s.lagEvent c.1 key) s

/-- A team has been released from its n-th TSYNC: an event when every team of a cluster of more than one has. -/
def State.lagTsync (s : State) (team n : Nat) : State :=
  let key := 2 ^ 60 + n
  let s := s.lagArrive team key
  match s.clusters.find (s.team team).cluster with
  | none => s
  | some c => if c.teams.all (fun t => (c.arrivals.getD key []).any fun x => x.1 == t) then
      (if 1 < c.teams.length then s.lagEvent (s.team team).cluster key
       else s.modCluster (s.team team).cluster fun c => { c with arrivals := c.arrivals.del key })
    else s

end Sys2Proof.Machine
end

