-- ==== Sys2Proof/Machine/NbQueue.lean ====
section
/-! DEFINITION. The queues of the bank pairs (R338) and which near-bank step can be made next. -/

namespace Sys2Proof.Machine

open Sys2Proof

/-- The number of parts of a command: one for each pair, or row; one more that reads the vector of an NBGEMV; one for each lane. -/
def NbCmd.elems (c : NbCmd) : Nat := (c.octet.getD 6 0).toNat % 2 ^ 20 + 1

/-- Columns per bank pair (R342). -/
def NbCmd.cpp (c : NbCmd) : Nat := bits (c.octet.getD 6 0).toNat 25 20

/-- Source and result element sizes (R337, R342). -/
def NbCmd.es (c : NbCmd) : Nat := if bit (c.octet.getD 6 0).toNat 26 then 4 else 2
def NbCmd.os (c : NbCmd) : Nat := if bit (c.octet.getD 6 0).toNat 27 then 4 else 2

/-- m: the elements of an operand in each pair (R337). -/
def NbCmd.perPair (c : NbCmd) : Nat := c.cpp * 32 / c.es

/-- The bank pairs, or rows, that a command works on. -/
def NbCmd.pairs (c : NbCmd) : Nat := if c.fn = 5 then c.elems else (c.elems + c.perPair - 1) / c.perPair

/-- The entries of a command in order, each with its pair (R338, R343, R344). -/
def NbCmd.parts (c : NbCmd) : List (Nat × NbPartKind) :=
  if 9 ≤ c.fn then (List.range c.accs.length).map fun n => (spaPair (c.accs.getD n (0, [])).1, .lane n)
  else
    let p0 := spaPair (if c.fn = 8 then c.z else c.x)
    (if c.fn = 5 then [(spaPair c.y, NbPartKind.vector)] else []) ++
      (List.range c.pairs).map fun n => (p0 + n, NbPartKind.cols n)

/-- The single-element result is to be written at completion (R342). -/
def NbCmd.single (c : NbCmd) : Bool := c.fn == 4 || c.fn == 7

/-- A part at the head of its queue can run: a row of NBGEMV once the vector has been read (R343). -/
def State.nbRunnable (s : State) (p : NbPart) : Bool :=
  match s.nb.find? fun c => c.id == p.cmd with
  | none => true
  | some c => c.fn != 5 || p.kind == .vector || c.vec.isSome

/-- The next step of a stack's units: a column, or the completion of a command. -/
def State.nbNext (s : State) (stack : Nat) : Option Instr :=
  match s.nb.find? fun c => c.stack == stack && c.finished == c.parts.length with
  | some c => some (.nbCommandComplete c.id)
  | none => match s.stackDies.find stack with
    | none => none
    | some k => (k.queues.find? fun q => (q.2.head?).any s.nbRunnable).map fun q => .nbColumn stack q.1

/-- The Stack Port request that carries a command (R320, R338). -/
def NbCmd.request (c : NbCmd) : Instr :=
  .nbcmd ⟨c.stack, c.id % 1024, if c.fn = 8 then c.z else c.x, c.vdev, 0, false⟩ (c.octet.flatMap fun w => toBytes 4 w.toNat)

/-- What brings a command on. -/
def State.nbProgress (s : State) (c : NbCmd) : Instr :=
  if c.entered < c.parts.length then c.request else (s.nbNext c.stack).getD (.nbCommandComplete c.id)

end Sys2Proof.Machine
end

