-- ==== Sys2Proof/Machine/MemCheck.lean ====
section
/-! DEFINITION. Memory operands, the checks of a group's access (R157 to R161, R437), the copies of memory that reads may be
served from (R247), and when earlier accesses are complete (R249 to R251). -/

namespace Sys2Proof.Machine

open Sys2Proof

/-! ## Operands -/

/-- The base pair of a memory operand (R157): it carries no tangents. -/
def baseOpnd (a : RegField) : Opnd := { f := a, width := 2, tan := false }

/-- A Q or IND base (R157). -/
def badBase (a : RegField) : Bool := isQ a || isInd a

/-- The signed byte offset of an EXT word, or 0 (R63, R157). -/
def Mods.offset (m : Mods) : Int := (m.ext.map BitVec.toInt).getD 0

/-- ea in a lane (R157). -/
def Issue.ea (i : Issue) (lane : Nat) (a : RegField) (off : Int) : DWord :=
  (i.read lane (baseOpnd a) 0).headD 0 + BitVec.ofInt 64 off

/-- `n` consecutive words of a lane from key `key` on. -/
def Lane.words (x : Lane) (key n : Nat) : List Word := (List.range n).map fun m => x.v.get (key + 8 * m)

/-- `n` words of an operand in a lane, and of its tangent j (R15, R21, R61). -/
def Issue.wordsAt (i : Issue) (lane : Nat) (f : RegField) (n j : Nat) : List Word :=
  match i.vreg lane f with
  | some r => (i.seen.lane lane).words (if j = 0 then 8 * r else i.tanKey r j) n
  | none =>
    if isS f then
      if j = 0 then (List.range n).map fun m => i.seen.s.get (f.toNat - 96 + m) else List.replicate n 0
    else if isQ f then
      ((((i.pops.getD 0 []).get (8 * lane + j))) :: List.replicate (n - 1) 0)
    else List.replicate n 0

/-- The bytes of a list of words. -/
def bytesOf (ws : List Word) : List (BitVec 8) := ws.flatMap fun w => toBytes 4 w.toNat

/-- The words of a list of bytes, the last one filled with zeros. -/
def wordsOf : List (BitVec 8) → List Word
  | a :: b :: c :: d :: r => (d ++ c ++ b ++ a) :: wordsOf r
  | [] => []
  | r => [BitVec.ofNat 32 (ofBytes r)]

/-- The size of a TYPE (R159). -/
def typeSize (ty : Nat) : Nat := [1, 1, 2, 2, 4, 8, 16, 4, 2, 2].getD ty 4

/-- A float TYPE, whose accesses move tangents (R159, R161). -/
def typeFloat (ty : Nat) : Bool := decide (7 ≤ ty)

/-- What a load of a TYPE writes for the bytes read (R159). -/
def convert (ty : Nat) (bs : List (BitVec 8)) : List Word :=
  let x := ofBytes bs
  match ty with
  | 0 => [(BitVec.ofNat 8 x).signExtend 32]
  | 2 => [(BitVec.ofNat 16 x).signExtend 32]
  | 5 => wordsOf bs
  | 6 => wordsOf bs
  | _ => [BitVec.ofNat 32 x]

/-! ## Destinations -/

/-- The keys of `n` registers' tangents in a lane (R21, R61), for the tangents given. -/
def Issue.tanKeys (i : Issue) (r n : Nat) (js : List Nat) : List Nat :=
  js.flatMap fun j => (List.range n).map fun m => i.tanKey r j + 8 * m

/-- Where a result of `n` words goes in a lane, for the primal (`j = 0`) or tangent j; `zero` names the tangents that are
written +0 along with the primal. -/
def Issue.destOf (i : Issue) (lane : Nat) (d : RegField) (n j : Nat) (zero : List Nat) : Dest :=
  match i.vreg lane d with
  | some r =>
    { scalar := false, keys := (List.range n).map fun m => (if j = 0 then 8 * r else i.tanKey r j) + 8 * m,
      zeros := i.tanKeys r n zero }
  | none =>
    if isS d && j == 0 then { scalar := true, keys := (List.range n).map fun m => d.toNat - 96 + m, zeros := [] }
    else { scalar := false, keys := [], zeros := [] }

/-- The cells of a result (R159, R161). -/
def Dest.cells (d : Dest) (lane : Nat) (ws : List Word) : List RCell :=
  (List.range d.keys.length).map (fun n =>
    if d.scalar then RCell.s (d.keys.getD n 0) (ws.getD n 0) else RCell.v lane (d.keys.getD n 0) (ws.getD n 0)) ++
  d.zeros.map fun k => RCell.v lane k 0

/-! ## Checks (R158) -/

/-- The first access of a list that a check refuses, with the cause. -/
def firstBad (accs : List Acc) (f : Acc → Option Cause) : Option (Acc × Cause) :=
  accs.findSome? fun a => (f a).map fun c => (a, c)

/-- A trap for the first access that a check refuses. -/
def checkAccs (accs : List Acc) (f : Acc → Option Cause) : Except Stop Unit :=
  match firstBad accs f with
  | some (a, c) => trapA c a.ea
  | none => .ok ()

/-- Step 1 of R158. -/
def alignOk (accs : List Acc) : Except Stop Unit :=
  checkAccs accs fun a => if a.ea.toNat % a.size ≠ 0 then some .align else none

/-- Step 2 of R158 for the accesses to the window: SRAM_RANGE of any of them precedes BUF_BOUNDS, which precedes BUF_STATE
(R139); a broken link to the other die comes last. -/
def State.windowOk (s : State) (team : Nat) (u : BufUse) (accs : List Acc) : Except Stop Unit :=
  let causes := accs.filterMap fun a =>
    if isWindow a.ea.toNat then
      match s.windowLoc team u a.ea.toNat a.size with
      | .error c => some (a, c)
      | .ok _ => none
    else none
  let pick (c : Cause) : Except Stop Unit :=
    match causes.find? fun x => x.2 = c with
    | some (a, c) => trapA c a.ea
    | none => .ok ()
  allOk pick [.sramRange, .bufBounds, .bufState, .linkDown]

/-- The location of an access to the window that has been checked. A store that is performed after its target's team has retired
reaches no slice: it goes to a core that does not exist. -/
def State.sliceOf (s : State) (team : Nat) (ea size : Nat) : Loc :=
  match s.window team ea size with
  | some (t, o) => sliceLoc (s.slicePlace t o)
  | none => sliceLoc (.sram 64 0)

/-- Steps 1 to 3 of R158 for a list of accesses: their locations. -/
def State.locate (s : State) (i : Issue) (k : Access) (u : BufUse) (accs : List Acc) : Except Stop (List Loc) := do
  alignOk accs
  s.windowOk i.g.team u accs
  collect (fun (a : Acc) =>
    if isWindow a.ea.toNat then .ok (s.sliceOf i.g.team a.ea.toNat a.size)
    else s.groupLoc i.site.slot i.g .core k a.ea.toNat) accs

/-! ## Copies (R247) -/

/-- The tag of a location in an L1: its cell, and the key under which it was read. -/
def copyKey (l : Loc) : Nat :=
  l.place.key + 2 ^ 90 * (match l.key with
    | none => 0
    | some u => 1 + u.slot + 2 ^ 14 * u.gen)

/-- Which copies a location may have: an L1 copy for device memory but CC frames (R336) and for HOSTCACHE pages; none on a strongly ordered
page, where each access is performed (R163). -/
def Loc.inL1 (l : Loc) : Bool :=
  !attrOrd l.attr && match l.place with
  | .dram _ _ => !attrCC l.attr
  | .host _ => attrHostCache l.attr
  | _ => false

/-- The parity of the L1 line that a location lies in fails (R153). -/
def Core.lineBad (k : Core) (l : Loc) : Bool := k.l1Bad.any fun x => x == (copyKey l) / 64 * 64

/-- Read `n` bytes of a table of copies, if it holds them all. -/
def copyRead (t : Table (BitVec 8)) (k n : Nat) : Option (List (BitVec 8)) :=
  let bs := (List.range n).filterMap fun m => t.find (k + m)
  if bs.length = n then some bs else none

/-- Fill copies of bytes. -/
def copyFill (t : Table (BitVec 8)) (k : Nat) : List (BitVec 8) → Table (BitVec 8)
  | [] => t
  | b :: bs => copyFill (t.put k b) (k + 1) bs

/-- Update the bytes of which there are copies. -/
def copyUpdate (t : Table (BitVec 8)) (k : Nat) : List (BitVec 8) → Table (BitVec 8)
  | [] => t
  | b :: bs => copyUpdate (if (t.find k).isSome then t.put k b else t) (k + 1) bs

/-- Drop the copies of `n` bytes, whatever the key of their tags. -/
def copyDrop (t : Table (BitVec 8)) (k n : Nat) : Table (BitVec 8) :=
  t.keep fun x _ => !(decide (k ≤ x % 2 ^ 90) && decide (x % 2 ^ 90 < k + n))

/-- Two locations overlap. -/
def overlap (p : Place) (n : Nat) (q : Place) (m : Nat) : Bool := decide (p.key < q.key + m) && decide (q.key < p.key + n)

/-- Put the bytes of a write over those read, where they overlap. -/
def overlay (p : Place) (bs : List (BitVec 8)) (q : Place) (ws : List (BitVec 8)) : List (BitVec 8) :=
  (List.range bs.length).map fun n =>
    let x := p.key + n
    if q.key ≤ x ∧ x < q.key + ws.length then ws.getD (x - q.key) 0 else bs.getD n 0

/-- The place `n` bytes back, within one line. -/
def Place.back (p : Place) (n : Nat) : Place :=
  match p with
  | .sram c o => .sram c (o - n)
  | .dram st a => .dram st (a - n)
  | .host a => .host (a - n)
  | .peer b o => .peer b (o - n)

/-- The 64-byte line of a location: copies are filled and held by lines (R247, R417; DEDUCED: log 55). -/
def Loc.line (l : Loc) : Loc :=
  { l with place := l.place.back (l.place.key % 64), key := l.key.map KeyUse.atLine }

/-- The writes in flight of a core, or of a die, over the bytes of a copy that is filled: a copy holds the writes that have left their FIFOs, and
keeps them when they are performed (R247, R249, R417). -/
def State.withFlights (s : State) (near : Flight → Bool) (l : Loc) (bs : List (BitVec 8)) : List (BitVec 8) :=
  s.flight.foldl (fun bs f =>
    if near f && f.kind = .store then
      f.parts.foldl (fun bs x => if x.2.2.key == l.key then overlay l.place bs x.2.2.place x.2.1.data else bs) bs
    else bs) bs

/-- Drop a location's bytes from every L1 (an engine's or the Crucible's write: R177). -/
def State.dropL1 (s : State) (p : Place) (n : Nat) : State :=
  { s with cores := s.cores.mapVals fun _ k => { k with l1 := copyDrop k.l1 p.key n } }

/-- Drop the bytes of an engine's write to a peer from every die's peer-read cache (R177, R218). -/
def State.dropPeerCopies (s : State) (p : Place) (n : Nat) : State :=
  { s with dies := s.dies.mapVals fun _ d => { d with peerCopies := copyDrop d.peerCopies p.key n } }

/-! ## Completion of earlier accesses (R249 to R251) -/

/-- A flavour acquires: ACQ, AR or SC (R62). -/
def acquires (flav : Nat) : Bool := flav == 1 || decide (3 ≤ flav)

/-- A flavour releases: REL, AR or SC (R62). -/
def releases (flav : Nat) : Bool := decide (2 ≤ flav)

/-- A part of a write in flight lies in a slice. -/
def Flight.inSram (f : Flight) : Bool := f.parts.any fun p => match p.2.2.place with
  | .sram _ _ => true
  | _ => false

/-- A write in flight goes to a peer only. -/
def Flight.inPeer (f : Flight) : Bool := f.parts.all fun p => match p.2.2.place with
  | .peer _ _ => true
  | _ => false

/-- The writes in flight that a release at a scope by a group waits for (R249, R250): at CORE and narrower its own to
slices; wider, its own and those it has read, but not those to peers that it has only read. SC waits for every one. -/
def State.unreleased (s : State) (slot : Nat) (g : Group) (scope : Nat) (sc : Bool) : List Nat :=
  (s.flight.filter fun f =>
    if scope < 3 && !sc then f.slot == slot && f.inSram
    else f.slot == slot || (g.readFrom.contains f.id && (sc || !f.inPeer))).map Flight.id

/-- What brings an unfixed load on: its return, or the performing of its read-modify-write. -/
def State.fixLoad (s : State) (slot : Nat) (l : Load) : Instr :=
  match s.flight.find? fun f => f.slot == slot && f.load == some l.id with
  | some f => .pointOfCoherenceArrival f.id
  | none => match s.nb.find? fun c => c.slot == slot && c.load == some l.id with
    | some c => s.nbProgress c
    | none => if l.deferred && decide (l.got.length < l.accs.length) then .storeFifoPerform slot else .loadReturn slot l.id

/-- The load's value is fixed (R142): every access's value has been taken. -/
def Load.fixed (l : Load) : Bool := l.deferred && decide (l.accs.length ≤ l.got.length)

/-- A wait on the head of a store FIFO: on a parked entry the group is suspended (R134, R171). -/
def State.waitFifo (s : State) (slot : Nat) (g : Group) : Stop :=
  match g.fifo with
  | e :: _ => match e.parked with
    | some q =>
      if s.isParked (coreDie (slotCore slot)) q then .wait (s.suspendParked slot q) []
      else .wait s [.storeFifoPerform slot]
    | none => .wait s [.storeFifoPerform slot]
  | [] => .wait s []

/-- A wait for the value of a load: one that a read-modify-write behind a parked store gives suspends the group (R134, R171). -/
def State.waitLoad (s : State) (slot : Nat) (g : Group) (l : Load) : Stop :=
  match s.fixLoad slot l with
  | .storeFifoPerform _ => s.waitFifo slot g
  | e => .wait s [e]

/-- A memory instruction waits until every earlier acquiring read has its value fixed (R250). -/
def State.afterAcquires (s : State) (i : Issue) : Except Stop Unit :=
  match i.g.loads.find? fun l => acquires l.flav && !l.fixed with
  | some l => .error (s.waitLoad i.site.slot i.g l)
  | none => .ok ()

/-- Wait until every earlier read of the group has its value fixed (R171, R250, R251). -/
def State.readsFixed (s : State) (i : Issue) : Except Stop Unit :=
  match i.g.loads with
  | [] => .ok ()
  | l :: _ => .error (s.waitLoad i.site.slot i.g l)

/-- The NBSTs that a group issued before its operation `seq` and whose lanes are not all performed: what a release wider than CORE waits for
(R249, R250). -/
def State.nbStores (s : State) (slot team seq scope : Nat) (sc : Bool) : List NbCmd :=
  if scope < 3 && !sc then []
  else s.nb.filter fun c => c.fn == 10 && c.slot == slot && c.team == team && decide (c.after.seq ≤ seq) && decide (c.finished < c.parts.length)

/-- Wait until the earlier writes that a release at a scope covers are performed there (R171, R250). -/
def State.writesDone (s : State) (i : Issue) (scope : Nat) (sc : Bool) : Except Stop Unit :=
  if !i.g.fifo.isEmpty then .error (s.waitFifo i.site.slot i.g)
  else match s.unreleased i.site.slot i.g scope sc with
    | id :: _ => .error (.wait s [.pointOfCoherenceArrival id])
    | [] => match s.nbStores i.site.slot i.g.team i.g.seq scope sc with
      | [] => .ok ()
      | c :: _ => .error (.wait s [s.nbProgress c])

/-- Change the issuing group. -/
def Issue.change (i : Issue) (s : State) (f : Group → Group) : State :=
  { s with groups := s.groups.modify i.site.slot f }

end Sys2Proof.Machine
end

