-- ==== Sys2Proof/Machine/Loads.lean ====
section
/-! DEFINITION. Loads (R163, R164): LD, LDM, and the return of their data. -/

namespace Sys2Proof.Machine

open Sys2Proof

/-- What LD, LDM, ST and STM accept (R437): INDEX where a data register may be IND, DUAL, EXT; ORDER relaxed and one
flavour. -/
def accMem (index : Bool) (flav : Nat) : Accept := { index := index, dual := true, ext := true, flavs := [0, flav] }

/-- The flavour and scope of an instruction: relaxed at DEVICE without an ORDER word (R62). -/
def Mods.flavour (m : Mods) : Nat × Nat := m.order.getD (0, 5)

/-- The accesses of one lane: `n` pieces of `size` bytes from ea on, then those of each tangent (R161, R164). -/
def laneAccs (lane : Nat) (ea : DWord) (size n tstride : Nat) (tans : List Nat)
    (data cmp : Nat → Nat → List (BitVec 8)) : List Acc :=
  (0 :: tans).flatMap fun j => (List.range n).map fun m =>
    { lane := lane, j := j, ea := ea + BitVec.ofNat 64 (j * tstride + m * size), size := size, data := data j m,
      cmp := cmp j m }

/-- A float access moves tangents while TSTRIDE is 0 (R161). -/
def Issue.strideOk (i : Issue) (s : State) (tans : List Nat) : Except Stop Unit :=
  if !tans.isEmpty && (s.gridOf i.g.team).tstride == 0 then trapE .tangentUnsupported else .ok ()

/-- A location is peer memory. -/
def Loc.isPeer (l : Loc) : Bool :=
  match l.place with
  | .peer _ _ => true
  | _ => false

/-- The accesses to a peer's memory (R247, R416). -/
def peerParts (parts : List (Nat × Acc × Loc)) : List (Nat × Acc × Loc) := parts.filter fun p => p.2.2.isPeer

/-- Number the accesses of an instruction, each with its location. -/
def partsOf (accs : List Acc) (locs : List Loc) : List (Nat × Acc × Loc) :=
  (List.range accs.length).zip (accs.zip locs)

/-- Cut a list of bytes into the pieces of a list of parts. -/
def cutBytes : List (Nat × Acc × Loc) → List (BitVec 8) → Table (List (BitVec 8))
  | [], _ => []
  | p :: ps, bs => (p.1, bs.take p.2.1.size) :: cutBytes ps (bs.drop p.2.1.size)

/-- The request of a slot that has a tag (R416). -/
def State.peerReq (s : State) (slot tag : Nat) : Option PeerReq :=
  let gen := (s.core (slotCore slot)).slotGen.get (slotIn slot)
  s.peers.find? fun r => r.slot == slot && r.gen == gen && r.seq == tag

/-- Send a request of a slot to a peer (R416). -/
def State.sendPeer (s : State) (slot tag : Nat) (parts : List (Nat × Acc × Loc)) (rmw : Bool) : State :=
  { s with nextId := s.nextId + 1,
           peers := s.peers ++ [⟨s.nextId, slot, (s.core (slotCore slot)).slotGen.get (slotIn slot), tag, parts, rmw, none⟩] }

/-- A request is done with. -/
def State.dropPeer (s : State) (id : Nat) : State := { s with peers := s.peers.filter fun r => r.id != id }

/-- The values that a request's answer brings are put into the peer-read cache of a die, with the die's writes in flight over them; a line
holds what its latest fill has brought (R247, R417; DEDUCED: log 55). -/
def State.fillPeer (s : State) (die : Nat) (parts : List (Nat × Acc × Loc)) (bs : List (BitVec 8)) : State :=
  let vals := cutBytes parts bs
  let lines := (parts.map fun p => p.2.2.line.place.key).dedup
  let kept := lines.foldl (fun t k => copyDrop t k 64) (s.die die).peerCopies
  s.setDie die { s.die die with peerCopies := parts.foldl (fun t p =>
    copyFill t p.2.2.place.key (s.withFlights (fun f => f.die == die) p.2.2 (vals.getD p.1 []))) kept }

/-- The values of accesses to peers that the peer-read cache of a die holds; `all` unless one is missing. -/
def State.fromPeerCache (s : State) (die : Nat) (parts : List (Nat × Acc × Loc)) : Table (List (BitVec 8)) :=
  parts.filterMap fun p => (copyRead (s.die die).peerCopies p.2.2.place.key p.2.1.size).map fun bs => (p.1, bs)

/-- The writes in flight of a die over the accesses to peers: a copy that is read may hold them (R250, R253). -/
def State.peerFlights (s : State) (die : Nat) (parts : List (Nat × Acc × Loc)) : List Nat :=
  (s.flight.filter fun f => f.die == die && f.parts.any fun x => parts.any fun p =>
    overlap x.2.2.place x.2.1.size p.2.2.place p.2.1.size).map Flight.id

/-- What reading from peers comes to (R416): a wait for an answer, which may first send a request; a NACK; or the state, the values by the
places of the accesses in their list, and the writes in flight that have been read. -/
inductive PeerRead where
  | wait (s : State)
  | nack
  | got (s : State) (vals : Table (List (BitVec 8))) (ids : List Nat)

/-- Read the accesses to peers of an operation of a slot (R247, R416, R417): from the peer-read cache of its die, where whether a copy that is
there has been evicted is open; or by a request, whose answer fills the cache. -/
def State.readPeer (s : State) (slot tag : Nat) (parts : List (Nat × Acc × Loc)) : PeerRead :=
  let die := coreDie (slotCore slot)
  let serve (s : State) (vals : Table (List (BitVec 8))) : PeerRead :=
    if vals.length = parts.length then .got s vals (s.peerFlights die parts)
    else .wait (s.sendPeer slot tag (parts.filter fun p => (vals.find p.1).isNone) false)
  match parts with
  | [] => .got s [] []
  | _ => match s.peerReq slot tag with
    | none =>
      let (v, s) := s.draw
      serve s (if v % 2 = 0 then s.fromPeerCache die parts else [])
    | some r => match r.answer with
      | none => .wait s
      | some none => .nack
      | some (some bs) =>
        let s := (s.dropPeer r.id).fillPeer die r.parts bs
        serve s (s.fromPeerCache die parts)

/-- The answer of a peer to the group's present read-modify-write (R416): none of its parts needs one; it waits for the
answer; a NACK raises PEER_XLATE; or the old values, the request being done with. -/
def State.askPeer (s : State) (i : Issue) (parts : List (Nat × Acc × Loc)) : Except Stop (State × Table (List (BitVec 8))) :=
  match parts with
  | [] => .ok (s, [])
  | p :: _ => match s.peerReq i.site.slot i.g.seq with
    | none => .error (.wait (s.sendPeer i.site.slot i.g.seq parts true) [])
    | some r => match r.answer with
      | none => .error (.wait s [])
      | some none => trapA .peerXlate p.2.1.ea
      | some (some bs) => .ok (s.dropPeer r.id, cutBytes parts bs)

/-! ## Reading (R142, R247, R248) -/

/-- The location lies in the core's own slice. -/
def Loc.own (l : Loc) (core : Nat) : Bool :=
  match l.place with
  | .sram c _ => c == core
  | _ => false

/-- The location of a store that waits in the FIFO, as far as it is known. -/
def State.fifoLoc (s : State) (slot : Nat) (g : Group) (e : FifoEntry) (n : Nat) (a : Acc) : Option Loc :=
  if isWindow a.ea.toNat then some (s.sliceOf g.team a.ea.toNat a.size)
  else match e.locs[n]? with
    | some l => some l
    | none =>
      let own := s.owner g
      match s.lookCore (slotCore slot) own.1 own.2 .store a.ea.toNat with
      | .ok l _ => some l
      | _ => none

/-- What an earlier store of the group that is still in its FIFO means for a read of `n` bytes at a place: it must be
performed first, or its bytes are returned (R142, R248). -/
inductive Fwd where
  | wait
  | bytes (bs : List (BitVec 8))
  deriving DecidableEq, Repr

/-- Overlay the group's own earlier stores in FIFO order. A store made under another key is performed first: what the read obtains of its line
is then as R362 gives. -/
def State.fromFifo (s : State) (slot : Nat) (g : Group) (seq : Nat) (here : Loc) (bs : List (BitVec 8)) : Fwd :=
  let p := here.place
  (g.fifo.filter fun e => decide (e.seq < seq)).foldl (fun r e =>
    (List.range e.accs.length).foldl (fun r n =>
      match r, e.accs[n]? with
      | .bytes bs, some a =>
        match s.fifoLoc slot g e n a with
        | none => .wait
        | some l =>
          if overlap p bs.length l.place a.size then
            if e.kind = .store && l.key == here.key then .bytes (overlay p bs l.place a.data) else .wait
          else .bytes bs
      | r, _ => r) r) (.bytes bs)

/-- Overlay the writes of the core's groups that have left their FIFOs; a read-modify-write, or a
write to a slice, of the group itself is waited for, and so is its write under another key; another group's under another key is not
seen before it is performed (R362). The answer names the flight to wait for, or the bytes and the flights read (R247, R250). -/
def State.fromFlight (s : State) (slot : Nat) (here : Loc) (bs : List (BitVec 8)) :
    Except Nat (List (BitVec 8) × List Nat) :=
  let p := here.place
  s.flight.foldl (fun r f => f.parts.foldl (fun r x =>
    match r with
    | .error e => .error e
    | .ok (bs, ids) =>
      let near := match x.2.2.place with
        | .sram _ _ => f.slot == slot
        | _ => f.core == slotCore slot
      if near && overlap p bs.length x.2.2.place x.2.1.size then
        match f.kind, x.2.2.place with
        | .store, .sram _ _ => .error f.id
        | .store, _ =>
          if x.2.2.key == here.key then .ok (overlay p bs x.2.2.place x.2.1.data, if ids.contains f.id then ids else ids ++ [f.id])
          else if f.slot == slot then .error f.id
          else .ok (bs, ids)
        | _, _ => if f.slot == slot then .error f.id else .ok (bs, ids)
      else .ok (bs, ids)) r) (.ok (bs, []))

/-- Fill a line of a core's L1, with the core's writes in flight over it. -/
def State.fillL1 (s : State) (core : Nat) (here : Loc) (bs : List (BitVec 8)) : State :=
  let k := s.core core
  s.setCore core { k with l1 := copyFill k.l1 (copyKey here) (s.withFlights (fun f => f.core == core) here bs),
                          l1Bad := k.l1Bad.filter (· != copyKey here) }

/-- The bytes that a read of one access obtains from a copy or from the point of coherence (R247). Whether a copy that is there has been evicted is
open: `v` says so, once for all the accesses of an instruction, so that lanes that read one address obtain one value (R162). A copy is filled
by the line; one whose parity fails raises MEM_UNCORRECTABLE (R153). -/
def State.readCoherent (s : State) (core v : Nat) (l : Loc) (n : Nat) : Except Cause (State × List (BitVec 8)) :=
  if l.inL1 then
    match (copyRead (s.core core).l1 (copyKey l) n).filter fun _ => v % 2 == 0 with
    | some bs => if (s.core core).lineBad l then .error .memUncorrectable else .ok (s, bs)
    | none =>
      let d := s.die (coreDie core)
      let cached := attrHostCache l.attr
      let here := l.line
      let cut (bs : List (BitVec 8)) := (bs.drop (l.place.key % 64)).take n
      match (if cached then copyRead d.hostCopies here.place.key 64 else none).filter fun _ => v / 2 % 2 == 0 with
      | some bs => .ok (s.fillL1 core here bs, cut bs)
      | none => match s.readLoc here 64 with
        | .error c => .error c
        | .ok bs =>
          let s := s.fillL1 core here bs
          .ok (if cached then s.setDie (coreDie core) { d with hostCopies := copyFill d.hostCopies here.place.key bs } else s,
            cut bs)
  else match s.readLoc l n with
    | .error c => .error c
    | .ok bs => .ok (s, bs)

/-- Read one access of a group now (R142, R247, R248): from a copy or from the point of coherence, with the writes of its core in flight, and its
own earlier stores below number `seq`, over it. The answer says what must happen first, or gives the bytes and the flights read. -/
def State.readHere (s : State) (slot : Nat) (g : Group) (seq v : Nat) (l : Loc) (n : Nat) :
    Except (Cause ⊕ Instr) (State × List (BitVec 8) × List Nat) :=
  match s.readCoherent (slotCore slot) v l n with
  | .error c => .error (.inl c)
  | .ok (s, bs) => match s.fromFlight slot l bs with
    | .error id => .error (.inr (.pointOfCoherenceArrival id))
    | .ok (bs, ids) => match s.fromFifo slot g seq l bs with
      | .wait => .error (.inr (.storeFifoPerform slot))
      | .bytes bs => .ok (s, bs, ids)

/-- The values that accesses to peers have for a group that reads them now: its own stores in the FIFO over what the peer-read cache
gives (R248). -/
def State.overPeer (s : State) (slot : Nat) (g : Group) (seq : Nat) (vals : Table (List (BitVec 8))) :
    List (Nat × Acc × Loc) → Except Instr (Table (List (BitVec 8)))
  | [] => .ok []
  | p :: ps => match s.fromFifo slot g seq p.2.2 (vals.getD p.1 []) with
    | .wait => .error (.storeFifoPerform slot)
    | .bytes bs => (s.overPeer slot g seq vals ps).map fun t => (p.1, bs) :: t

/-- The values of a load's accesses to peers (R416), which are fixed before the group goes on: a NACK raises PEER_XLATE precisely at the load. -/
def State.peerValues (s : State) (i : Issue) (parts : List (Nat × Acc × Loc)) : Except Stop (State × Table (List (BitVec 8))) :=
  let ps := peerParts parts
  if ps.isEmpty then .ok (s, [])
  else match s.readPeer i.site.slot i.g.seq ps with
  | .wait s => .error (.wait s [])
  | .nack => trapA .peerXlate ((ps.head?.map fun p => p.2.1.ea).getD 0)
  | .got s vals ids => match s.overPeer i.site.slot i.g i.g.seq vals ps with
    | .error e => .error (.wait s [e])
    | .ok t => .ok (i.change s fun g => { g with readFrom := (g.readFrom ++ ids).dedup }, t)

/-! ## LD and LDM (R163, R164) -/

/-- Enter an outstanding load (R53 LOAD, R163). -/
def Issue.enterLoad (i : Issue) (s : State) (ty : Nat) (accs : List (Acc × Dest)) (locs : List Loc)
    (got : Table (List (BitVec 8))) (pp : Nat) (deferred : Bool) : State :=
  let gen := (s.core (slotCore i.site.slot)).slotGen.get (slotIn i.site.slot)
  let (fl, sc) := i.mods.flavour
  i.change { s with nextId := s.nextId + 1 } fun g =>
    { g with seq := g.seq + 1, loads := g.loads ++
      [⟨s.nextId, g.seq, gen, i.site.pc, ty, accs, fl, sc, pp, locs, got, deferred,
        locs.any fun l => attrOrd l.attr⟩] }

/-- A load of `n` pieces of a TYPE's size per lane. With an S destination a float TYPE moves no tangent and needs no TSTRIDE: S registers
have no shadows (R21, R161; DEDUCED: log 64). -/
def loadInstr (d a : RegField) (hint ty n : Nat) (badTy : Bool) (width : Nat) (index : Bool) (t : Tail) (s : State) :
    Host.Outcome State Fault Refusal :=
  let f : Form := { cls := .memory, acc := accMem index 1, dst := some { f := d, width := width }, srcs := [baseOpnd a],
                    bad := fun _ => badBase a || badTy || hint == 3 }
  issue f t s fun i s => do
    s.afterAcquires i
    let mv := if typeFloat ty && !isS d then i.tans else []
    i.strideOk s mv
    let size := typeSize ty
    let ts := (s.gridOf i.g.team).tstride
    let words := typeWords ty
    let lanes := if isS d then [lowest i.site.set] else i.act
    let accs := lanes.flatMap fun l =>
      laneAccs l (i.ea l a i.mods.offset) size n ts mv (fun _ _ => []) fun _ _ => []
    let locs ← s.locate i .load .groupLoad accs
    let (s, got) ← s.peerValues i (partsOf accs locs)
    let dests := lanes.flatMap fun l => (0 :: mv).flatMap fun j => (List.range n).map fun m =>
      let whole := i.destOf l d (words * n) j (if j = 0 && mv.isEmpty then i.tans else [])
      { whole with keys := (whole.keys.drop (m * words)).take words, zeros := if m = 0 then whole.zeros else [] }
    if accs.isEmpty && i.mods.flavour.1 == 0 then .ok (s, 0)
    else .ok (i.enterLoad s ty (accs.zip dests) locs got 0 false, 0)

/-- LD (R163). -/
def execLd (d a : RegField) (h : BitVec 2) (ty : BitVec 4) (t : Tail) (s : State) : Host.Outcome State Fault Refusal :=
  loadInstr d a h.toNat ty.toNat 1 (decide (9 < ty.toNat)) (typeWords ty.toNat) (ty != 6) t s

/-- A register run that passes S23 (R164). -/
def badRun (d : RegField) (n : Nat) : Bool := isS d && decide (120 < d.toNat + n)

/-- REG_RANGE of a register run and of its tangents (R164, R17, R61). -/
def Issue.runOk (i : Issue) (d : RegField) (n : Nat) (tan : Bool) : Except Stop Unit :=
  let past (r : Nat) := decide (i.alloc < r + n)
  if isV d && (past d.toNat || (tan && i.k == 0 && i.tans.any fun j => past (d.toNat + j * i.tstep))) then
    trapR .regRange d
  else .ok ()

/-- LDM (R164); with an S destination it moves no tangent (DEDUCED: log 64). -/
def execLdm (d a : RegField) (h : BitVec 2) (f : BitVec 1) (n : BitVec 3) (t : Tail) (s : State) :
    Host.Outcome State Fault Refusal :=
  let cnt := n.toNat + 1
  let ty := if f = 1 then 7 else 4
  let fm : Form := { cls := .memory, acc := accMem false 1, dst := some { f := d, count := cnt }, srcs := [baseOpnd a],
                     bad := fun _ => badBase a || h == 3 || badRun d cnt, pre := fun i => i.runOk d cnt true }
  issue fm t s fun i s => do
    s.afterAcquires i
    let mv := if f = 1 && !isS d then i.tans else []
    i.strideOk s mv
    let ts := (s.gridOf i.g.team).tstride
    let lanes := if isS d then [lowest i.site.set] else i.act
    let accs := lanes.flatMap fun l => laneAccs l (i.ea l a i.mods.offset) 4 cnt ts mv (fun _ _ => []) fun _ _ => []
    let locs ← s.locate i .load .groupLoad accs
    let (s, got) ← s.peerValues i (partsOf accs locs)
    let dests := lanes.flatMap fun l => (0 :: mv).flatMap fun j => (List.range cnt).map fun m =>
      let whole := i.destOf l d cnt j (if j = 0 && mv.isEmpty then i.tans else [])
      { whole with keys := (whole.keys.drop m).take 1, zeros := if m = 0 then whole.zeros else [] }
    if accs.isEmpty && i.mods.flavour.1 == 0 then .ok (s, 0)
    else .ok (i.enterLoad s ty (accs.zip dests) locs got 0 false, 0)

/-! ## The return of data (R142, R163, R247, R248) -/

/-- Read the value of one access of a load (R142, R247, R248); of a 16-byte access whose first half has been fixed, the second (R162). -/
def State.readAcc (s : State) (slot : Nat) (g : Group) (ld : Load) (v n : Nat) (a : Acc) :
    Except (Cause ⊕ Instr) (State × List (BitVec 8) × List Nat) :=
  let got := ld.got.getD n []
  if got.length = a.size then .ok (s, got, [])
  else match s.readHere slot g ld.seq v (ld.locs.getD n (sliceLoc (.sram 0 0))) a.size with
    | .error e => .error e
    | .ok (s, bs, ids) => .ok (s, got ++ bs.drop got.length, ids)

/-- A 16-byte access to host memory that has no copy: its two halves are atomic apart (R162). -/
def Loc.halves (l : Loc) (n : Nat) : Bool :=
  match l.place with
  | .host _ => n == 16 && !l.inL1
  | _ => false

/-- The first half of a load's first 16-byte access to host memory of which nothing is fixed is read by itself (R162). -/
def State.readHalf (s : State) (slot : Nat) (g : Group) (ld : Load) : Option State :=
  let ps := partsOf (ld.accs.map Prod.fst) ld.locs
  match ps.find? fun p => p.2.2.halves p.2.1.size && (ld.got.find p.1).isNone with
  | none => none
  | some p => match s.readHere slot g ld.seq 0 p.2.2 8 with
    | .error _ => none
    | .ok (s, bs, ids) => some { s with groups := s.groups.modify slot fun g =>
        { g with readFrom := (g.readFrom ++ ids).dedup,
                 loads := g.loads.map fun l => if l.id = ld.id then { l with got := l.got.put p.1 bs } else l } }

/-- The cells that an access's value is written to; nothing for a lane that has exited (R100). -/
def Load.cellsOf (ld : Load) (g : Group) (x : Acc × Dest) (bs : List (BitVec 8)) : List RCell :=
  if (g.lane x.1.lane).exited && !x.2.scalar then []
  else
    x.2.cells x.1.lane (convert ld.ty bs) ++
    if ld.pp != 0 && x.1.j == 0 then [RCell.p x.1.lane ld.pp (bs == x.1.cmp)] else []

/-- An older load of the group that must have returned first: to the core's own slice, strongly ordered, acquiring, or
overlapping (R142, R163, R248, R250). -/
def Load.waitsFor (ld : Load) (core : Nat) (m : Load) : Bool :=
  decide (m.seq < ld.seq) &&
  ((ld.locs.any (·.own core) && m.locs.any (·.own core)) || (ld.ord && m.ord) || acquires m.flav ||
    (partsOf (ld.accs.map Prod.fst) ld.locs).any fun p => (partsOf (m.accs.map Prod.fst) m.locs).any fun q =>
      overlap p.2.2.place p.2.1.size q.2.2.place q.2.1.size)

/-- A strongly ordered load waits for the group's earlier strongly ordered writes (R163). -/
def State.ordBefore (s : State) (slot : Nat) (g : Group) (ld : Load) : Option Instr :=
  if !ld.ord then none
  else if g.fifo.any fun e => decide (e.seq < ld.seq) then some (.storeFifoPerform slot)
  else (s.flight.find? fun f => f.slot == slot && f.parts.any fun p => attrOrd p.2.2.attr).map fun f =>
    .pointOfCoherenceArrival f.id

/-- Read all accesses of a load, in ascending order. -/
def State.readAccs (s : State) (slot : Nat) (g : Group) (ld : Load) (v : Nat) :
    Nat → List (Acc × Dest) → Except (Cause ⊕ Instr) (State × List RCell × List Nat)
  | _, [] => .ok (s, [], [])
  | n, x :: xs => match s.readAcc slot g ld v n x.1 with
    | .error e => .error e
    | .ok (s, bs, ids) => match (s.used (ld.locs.getD n (sliceLoc (.sram 0 0)))).readAccs slot g ld v (n + 1) xs with
      | .error e => .error e
      | .ok (s, cs, more) => .ok (s, ld.cellsOf g x bs ++ cs, ids ++ more)

/-- The bytes that a load reads: what a detected error is logged with (R153, R324). An L1 line whose parity fails is no error of the memory behind
it. -/
def Load.read (ld : Load) (s : State) (core : Nat) (c : Cause) : List (Place × Nat) :=
  (partsOf (ld.accs.map Prod.fst) ld.locs).filterMap fun p =>
    if c = .memUncorrectable && p.2.2.inL1 && (s.core core).lineBad p.2.2 then none else some (p.2.2.place, p.2.1.size)

/-- TSYNC's release (R180): when every group of the team that has not retired has arrived, and their earlier accesses are
performed at TEAM scope, the waiting threads become ready at the word after it, as one newly stamped set. -/
def State.tsyncRelease (s : State) (team : Nat) : State :=
  let gs := s.groups.filter fun kg => kg.2.team == team
  let arrived (kg : Nat × Group) : Bool :=
    !kg.2.alive.isEmpty && kg.2.alive.all (fun l => (kg.2.lane l).tsync) && kg.2.loads.isEmpty && kg.2.fifo.isEmpty &&
    !(s.flight.any fun f => f.slot == kg.1 && f.inSram)
  if gs.any (fun kg => kg.2.lanes.any fun x => x.2.tsync) && gs.all arrived then
    let s := { s with groups := s.groups.mapVals fun _ g =>
      if g.team == team then
        { (g.onLanes g.alive fun x => { x with tsync := false, stamp := g.runCount }) with
          wait := if g.wait = some WaitCond.tsync then none else g.wait }
      else g }
    (s.setTeam team { s.team team with tsyncs := (s.team team).tsyncs + 1 }).lagTsync team ((s.team team).tsyncs + 1)
  else s

/-- The locations of a load that is replayed (R146): its translation is made again. -/
def State.replayLocs (s : State) (slot : Nat) (g : Group) (ld : Load) : Except Stop (List Loc) :=
  collect (fun (x : Acc × Dest) =>
    if isWindow x.1.ea.toNat then .ok (s.sliceOf g.team x.1.ea.toNat x.1.size)
    else s.groupLoc slot g .core .load x.1.ea.toNat) ld.accs

/-- Replay a load of a resumed group (R146, R300): it is located again; an absent page suspends the group; a T cause is delivered at
the group's next instruction boundary. -/
def State.replayLoad (s : State) (slot : Nat) (g : Group) (ld : Load) : State :=
  match s.replayLocs slot g ld with
  | .ok locs => { s with groups := s.groups.modify slot fun g =>
      { g with loads := g.loads.map fun l => if l.id = ld.id then { l with locs := locs } else l } }
  | .error (.wait s deps) => s.await deps
  | .error (.trap t) => { s with groups := s.groups.modify slot fun g =>
      { g with loads := g.loads.filter (fun l => l.id != ld.id),
               imprecise := g.imprecise ++
        [{ cause := t.cause, addr := t.addr, replayed := true, pc := ld.pc, tpc := 0, hdr := none,
           lanes := laneSet (ld.accs.map fun x => x.1.lane).dedup, aux := 0, set := 0, gen := ld.gen }] } }

/-- LOAD_RETURN (R142, R163): the values of an outstanding load are fixed and written. A return of an old generation is
dropped (R145); a detected error contains the context (R9). -/
def execLoadReturn (slot id : Nat) (s : State) : Host.Outcome State Fault Refusal :=
  match s.groups.find slot with
  | none => .next s
  | some g => match g.loads.find? fun l => l.id == id with
    | none => .next s
    | some ld =>
      let core := slotCore slot
      let drop (s : State) : State :=
        { s with groups := s.groups.modify slot fun g => { g with loads := g.loads.filter fun l => l.id != id } }
      if ld.gen != (s.core core).slotGen.get (slotIn slot) then .next (drop s)
      else if g.preempted || g.stopped then .next s
      else if ld.locs.length < ld.accs.length then .next (s.replayLoad slot g ld)
      else if ld.deferred && !ld.fixed then .next (s.await [s.fixLoad slot ld])
      else match g.loads.find? (ld.waitsFor core) with
        | some m => .next (s.await [s.fixLoad slot m])
        | none => match s.ordBefore slot g ld with
          | some e => .next (s.await [e])
          | none =>
            let (v, s) := s.draw
            match (s.readHalf slot g ld).filter fun _ => v / 4 % 2 == 1 with
            | some s => .next s
            | none => match s.readAccs slot g ld v 0 ld.accs with
            | .error (.inr e) => .next (s.await [e])
            | .error (.inl c) =>
              let own := s.owner g
              .next (((drop s).containAccess slot own.1 own.2 c .core ((ld.accs.head?.map fun x => x.1.ea.toNat).getD 0) ld.pc
                (decide (ld.seq < g.replayTo))).detected c (ld.read s core c))
            | .ok (s, cs, ids) =>
              let s := if acquires ld.flav then s.discard core ld.scope else s
              let s := drop s
              let s := { s with groups := s.groups.modify slot fun g =>
                { g.commit none 0 cs with readFrom := (g.readFrom ++ ids).dedup } }
              .next (s.tsyncRelease g.team)

end Sys2Proof.Machine
end

