-- ==== Sys2Proof/Machine/Stores.lean ====
section
/-! DEFINITION. Stores (R163, R164): ST, STM, the performing of FIFO entries (R142, R169, R249 to R251), and the arrival of
writes at their points of coherence (R247). -/

namespace Sys2Proof.Machine

open Sys2Proof

/-! ## Read-modify-writes (R165, R167) -/

/-- The size of an atomic's TYPE (R165). -/
def atomSize (ty : Nat) : Nat := [4, 4, 8, 4, 2, 2].getD ty 4

/-- The format of a float TYPE of an atomic (R165). -/
def atomFmt (ty : Nat) : Fmt := if ty = 3 then f32 else if ty = 4 then f16 else bf16

/-- f(old, x) of R165 on values of `size` bytes. -/
def atomFn (op ty old x : Nat) : Nat :=
  let n := 8 * atomSize ty
  let less (a b : Nat) : Bool :=
    if ty = 1 then decide (a < b) else (BitVec.ofNat n a).slt (BitVec.ofNat n b)
  let f := atomFmt ty
  match op with
  | 0 => (old + x) % 2 ^ n
  | 1 => if less x old then x else old
  | 2 => if less old x then x else old
  | 3 => (BitVec.ofNat n old &&& BitVec.ofNat n x).toNat
  | 4 => (BitVec.ofNat n old ||| BitVec.ofNat n x).toNat
  | 5 => (BitVec.ofNat n old ^^^ BitVec.ofNat n x).toNat
  | 6 => x
  | 7 => if x ≤ old then 0 else old + 1
  | 8 => if old = 0 || x < old then x else old - 1
  | 9 => (f.sumProd false 0 [[old], [x]]).1
  | 10 => (f.pickFirst false old x).elim f.nan fun b => if b then old else x
  | _ => (f.pickFirst true old x).elim f.nan fun b => if b then old else x

/-- The bytes that an entry writes over the old ones; none for a comparison that fails (R165, R167). -/
def FifoKind.result (k : FifoKind) (a : Acc) (old : List (BitVec 8)) : Option (List (BitVec 8)) :=
  match k with
  | .store => some a.data
  | .atom op ty => some (toBytes a.size (atomFn op ty (ofBytes old) (ofBytes a.data)))
  | .cas => if old = a.cmp then some a.data else none

/-- Perform one part of an entry at its point of coherence: the state, and the old value of a read-modify-write. -/
def State.performPart (s : State) (k : FifoKind) (p : Nat × Acc × Loc) :
    Except Cause (State × Table (List (BitVec 8))) :=
  match k with
  | .store => (s.writeLoc p.2.2 p.2.1.data).map fun s => (s, [])
  | _ => match s.readLoc p.2.2 p.2.1.size with
    | .error c => .error c
    | .ok old => match k.result p.2.1 old with
      | none => .ok (s, [(p.1, old)])
      | some new => (s.writeLoc p.2.2 new).map fun s => (s, [(p.1, old)])

/-- Perform parts in order: a cause comes with the address of the access that met it. -/
def State.performParts (s : State) (k : FifoKind) :
    List (Nat × Acc × Loc) → Except (Cause × Nat) (State × Table (List (BitVec 8)))
  | [] => .ok (s, [])
  | p :: ps => match s.performPart k p with
    | .error c => .error (c, p.2.1.ea.toNat)
    | .ok (s, olds) => match (s.used p.2.2).performParts k ps with
      | .error c => .error c
      | .ok (s, more) => .ok (s, olds ++ more)

/-- The bytes of parts. -/
def partBytes (ps : List (Nat × Acc × Loc)) : List (Place × Nat) := ps.map fun p => (p.2.2.place, p.2.1.size)

/-- Hand the old values of a read-modify-write to its load entry. -/
def Group.giveOlds (g : Group) (load : Option Nat) (olds : Table (List (BitVec 8))) : Group :=
  match load with
  | none => g
  | some id => { g with loads := g.loads.map fun l =>
      if l.id = id then { l with got := olds.foldl (fun t o => t.put o.1 o.2) l.got } else l }

/-! ## The copies of the issuing core (R247, R249) -/

/-- A write leaves its FIFO: the copies of its own core, or for peer memory of its die, take its bytes (R249). -/
def State.updateCopies (s : State) (core : Nat) (p : Nat × Acc × Loc) : State :=
  let l := p.2.2
  match l.place with
  | .peer _ _ =>
    let d := s.die (coreDie core)
    s.setDie (coreDie core) { d with peerCopies := copyUpdate d.peerCopies l.place.key p.2.1.data }
  | .sram _ _ => s
  | _ =>
    let k := s.core core
    s.setCore core { k with l1 := copyUpdate k.l1 (copyKey l) p.2.1.data }

/-- A read-modify-write's bytes are no longer those of its core's copies. -/
def State.forgetCopies (s : State) (core : Nat) (p : Nat × Acc × Loc) : State :=
  let k := s.core core
  s.setCore core { k with l1 := copyDrop k.l1 p.2.2.place.key p.2.1.size }

/-! ## ST and STM (R163, R164) -/

/-- Enter a FIFO entry: with sixteen there it waits, and the run keeps its slot (R134, R142). -/
def Issue.enterFifo (i : Issue) (s : State) (kind : FifoKind) (accs : List Acc) (locs : List Loc) (load : Option Nat)
    (seq : Nat) : State :=
  let gen := (s.core (slotCore i.site.slot)).slotGen.get (slotIn i.site.slot)
  let (fl, sc) := i.mods.flavour
  i.change s fun g => { g with fifo := g.fifo ++ [⟨seq, i.site.pc, gen, kind, accs, locs, fl, sc, load, none⟩] }

/-- Room in the store FIFO (R142). -/
def State.fifoRoom (s : State) (i : Issue) : Except Stop Unit :=
  if 16 ≤ i.g.fifo.length then .error (.wait s [.storeFifoPerform i.site.slot]) else .ok ()

/-- A store of `n` pieces of `size` bytes per lane, whose data are `words` registers from `d` on. -/
def storeBody (i : Issue) (s : State) (d a : RegField) (size n words : Nat) (float : Bool) :
    Except Stop (State × BitVec 64) := do
  s.afterAcquires i
  let mv := if float then i.tans else []
  i.strideOk s mv
  let ts := (s.gridOf i.g.team).tstride
  let accs := i.act.flatMap fun l =>
    laneAccs l (i.ea l a i.mods.offset) size n ts mv
      (fun j m => ((bytesOf (i.wordsAt l d words j)).drop (m * size)).take size) fun _ _ => []
  alignOk accs
  s.windowOk i.g.team .groupStore accs
  s.fifoRoom i
  if accs.isEmpty && i.mods.flavour.1 == 0 then .ok (s, 0)
  else .ok (i.change (i.enterFifo s .store accs [] none i.g.seq) fun g => { g with seq := g.seq + 1 }, 0)

/-- ST (R163). -/
def execSt (d a : RegField) (h : BitVec 2) (ty : BitVec 4) (t : Tail) (s : State) : Host.Outcome State Fault Refusal :=
  let w := typeWords ty.toNat
  let f : Form := { cls := .memory, acc := accMem (ty != 6) 2, srcs := [baseOpnd a, { f := d, width := w, tan := typeFloat ty.toNat }],
                    bad := fun _ => badBase a || decide (9 < ty.toNat) || h == 3 }
  issue f t s fun i s => storeBody i s d a (typeSize ty.toNat) 1 w (typeFloat ty.toNat)

/-- STM (R164). -/
def execStm (d a : RegField) (h : BitVec 2) (f : BitVec 1) (n : BitVec 3) (t : Tail) (s : State) :
    Host.Outcome State Fault Refusal :=
  let cnt := n.toNat + 1
  let fm : Form := { cls := .memory, acc := accMem false 2, srcs := [baseOpnd a, { f := d, count := cnt, tan := f == 1 }],
                     bad := fun _ => badBase a || h == 3 || badRun d cnt, pre := fun i => i.runOk d cnt true }
  issue fm t s fun i s => storeBody i s d a 4 cnt cnt (f == 1)

/-! ## Performing an entry (R142, R169) -/

/-- What an entry of a store FIFO meets when its addresses are translated (R169): a cause that drops it or contains the
context, an absent page, or a walk to wait for. -/
inductive FifoStop where
  | cause (c : Cause) (ea : Nat)
  | absent (ea gpa : Nat)
  | walk (ea : Nat)
  deriving DecidableEq, Repr

/-- The location of an access of an entry (R137, R166, R169). -/
def State.entryLoc (s : State) (slot : Nat) (g : Group) (e : FifoEntry) (n : Nat) (a : Acc) : Except FifoStop Loc :=
  let ea := a.ea.toNat
  if isWindow ea then .ok (s.sliceOf g.team ea a.size)
  else match e.locs[n]? with
    | some l => .ok l
    | none =>
      let own := s.owner g
      match s.lookCore (slotCore slot) own.1 own.2
          (if e.kind = .store then .store else .rmw) ea with
      | .ok l _ => if attrHostCache l.attr then .error (.cause .writeReadonly ea) else .ok l
      | .fault .xlateNotPresent gpa => .error (.absent ea gpa)
      | .fault c _ => .error (.cause c ea)
      | .miss => .error (.walk ea)

/-- The parts of an entry, located. -/
def State.entryParts (s : State) (slot : Nat) (g : Group) (e : FifoEntry) :
    Except FifoStop (List (Nat × Acc × Loc)) :=
  collect (fun x => (s.entryLoc slot g e x.1 x.2).map fun l => (x.1, x.2, l))
    ((List.range e.accs.length).zip e.accs)

/-- The T cause of a dropped entry, to be delivered imprecisely (R169, R170). -/
def Group.dropEntry (g : Group) (e : FifoEntry) (c : Cause) (ea : Nat) : Group :=
  { g with
    fifo := g.fifo.drop 1,
    imprecise := g.imprecise ++
      [{ cause := c, addr := some (BitVec.ofNat 64 ea), replayed := e.parked.isSome, pc := e.pc, tpc := 0, hdr := none,
         lanes := laneSet (e.accs.map Acc.lane).dedup, aux := 0, set := 0, gen := e.gen }] }

/-- Put a write in flight (R247 to R250). -/
def State.putInFlight (s : State) (slot : Nat) (g : Group) (e : FifoEntry) (parts : List (Nat × Acc × Loc)) : State :=
  match parts with
  | [] => s
  | _ =>
    let own := s.owner g
    { s with
      nextId := s.nextId + 1,
      flight := s.flight ++ [⟨s.nextId, slot, slotCore slot, coreDie (slotCore slot), own.1, own.2, e.gen, e.seq, e.pc, e.kind, parts,
        e.load, false⟩] }

/-- A part of a store of which a 16-byte access to host or peer memory is two halves, atomic apart (R162): the first half, or the whole of any other
access; the second half, or nothing of any other. -/
def halfOf (second : Bool) (p : Nat × Acc × Loc) : Option (Nat × Acc × Loc) :=
  let split : Bool := p.2.1.size == 16 && match p.2.2.place with
    | .host _ => true
    | .peer _ _ => true
    | _ => false
  if !split then (if second then none else some p)
  else if second then some (p.1, { p.2.1 with ea := p.2.1.ea + 8, size := 8, data := p.2.1.data.drop 8 }, { p.2.2 with place := p.2.2.place.plus 8 })
  else some (p.1, { p.2.1 with size := 8, data := p.2.1.data.take 8 }, p.2.2)

/-- An entry leaves its FIFO (R142, R249): what lies in the core's own slice is performed, the rest is in flight. A
read-modify-write's parts at a peer have been answered at issue (R417). -/
def State.leaveFifo (s : State) (slot : Nat) (g : Group) (e : FifoEntry) (parts : List (Nat × Acc × Loc)) : State :=
  let core := slotCore slot
  let mine := parts.filter fun p => p.2.2.own core
  let peers := if e.kind = .store then parts.filter fun p => p.2.2.isPeer else []
  let far := parts.filter fun p => !p.2.2.own core && !p.2.2.isPeer
  let cut (ps : List (Nat × Acc × Loc)) (second : Bool) := ps.filterMap (halfOf second)
  match s.performParts e.kind mine with
  | .error (c, ea) =>
    (s.containAccess slot (s.owner g).1 (s.owner g).2 c .core ea e.pc e.parked.isSome).detected c (partBytes mine)
  | .ok (s, olds) =>
    let s := { s with groups := s.groups.modify slot fun g => { g.giveOlds e.load olds with fifo := g.fifo.drop 1 } }
    let s := if e.kind = .store then parts.foldl (fun s p => s.updateCopies core p) s else s
    ((((s.putInFlight slot g e (cut far false)).putInFlight slot g e (cut far true)).putInFlight slot g e
      (cut peers false)).putInFlight slot g e (cut peers true)).tsyncRelease g.team

/-- STORE_FIFO_PERFORM (R142, R169, R250, R251): the entry at the head of a group's FIFO is translated and leaves it. -/
def execStoreFifoPerform (slot : Nat) (s : State) : Host.Outcome State Fault Refusal :=
  match s.groups.find slot with
  | none => .next s
  | some g => match g.fifo with
    | [] => .next s
    | e :: _ =>
      let core := slotCore slot
      let die := coreDie core
      if g.preempted || g.stopped || e.parked.any (fun q => s.isParked die q) then .next s
      else match g.loads.find? fun l => decide (l.seq < e.seq) && !l.fixed with
        | some l => .next (s.await [s.fixLoad slot l])
        | none => match (if releases e.flav then s.unreleased slot g e.scope false else []) with
          | id :: _ => .next (s.await [.pointOfCoherenceArrival id])
          | [] => match (if releases e.flav then (s.nbStores slot g.team e.seq e.scope false).head? else none) with
            | some c => .next (s.await [s.nbProgress c])
            | none => match s.entryParts slot g e with
            | .ok parts => .next (s.leaveFifo slot g e parts)
            | .error (.walk ea) => match s.startWalk die (s.owner g).1 (s.owner g).2 ea with
              | (s, some id) => .next (s.await [.walkStep die id])
              | (s, none) => .next s
            | .error (.absent ea gpa) =>
              let own := s.owner g
              match s.parkCore slot g .core true ea gpa e.pc e.parked with
              | none => .next s
              | some (s, q) =>
                let s := s.dropWalks die own.1 own.2 ea
                .next { s with groups := s.groups.modify slot fun g =>
                  { g with fifo := { e with parked := some q } :: g.fifo.drop 1 } }
            | .error (.cause c ea) =>
              let own := s.owner g
              let s := s.dropWalks die own.1 own.2 ea
              if c.kind = .F then
                .next ({ s with groups := s.groups.modify slot fun g => { g with fifo := g.fifo.drop 1 } }.containAccess slot
                  own.1 own.2 c .core ea e.pc e.parked.isSome)
              else .next ({ s with groups := s.groups.modify slot fun g => g.dropEntry e c ea }.tsyncRelease g.team)

/-! ## Arrival at the point of coherence (R247 to R249) -/

/-- The writes in flight that must be performed before one (R248, R163): earlier ones of its core to the same bytes, and, for a
strongly ordered one, the group's earlier strongly ordered ones. -/
def State.flightBefore (s : State) (f : Flight) : Option Nat :=
  ((s.flight.takeWhile fun x => x.id != f.id).find? fun x =>
    (x.core == f.core && x.parts.any fun p => f.parts.any fun q =>
      overlap p.2.2.place p.2.1.size q.2.2.place q.2.1.size) ||
    (x.slot == f.slot && x.parts.any (fun p => attrOrd p.2.2.attr) && f.parts.any fun p => attrOrd p.2.2.attr)).map
    Flight.id

/-- A write in flight is done with: nobody's releases wait for it any more. -/
def State.landFlight (s : State) (id : Nat) : State :=
  { s with
    flight := s.flight.filter fun f => f.id != id,
    groups := s.groups.mapVals fun _ g => { g with readFrom := g.readFrom.filter (· != id) } }

/-- POINT_OF_COHERENCE_ARRIVAL (R247, R248): a write or read-modify-write in flight is performed. One to a peer is sent, and its
answer performs it (R416). -/
def execPointOfCoherenceArrival (id : Nat) (s : State) : Host.Outcome State Fault Refusal :=
  match s.flight.find? fun f => f.id == id with
  | none => .next s
  | some f => match s.flightBefore f with
    | some b => .next (s.await [.pointOfCoherenceArrival b])
    | none =>
      if f.inPeer then
        .next { s with flight := s.flight.map fun x => if x.id == id then { x with sent := true } else x }
      else
        let s := s.landFlight id
        match s.performParts f.kind f.parts with
        | .error (c, ea) => .next ((s.containAccess f.slot f.vdev f.ctx c .core ea f.pc false).detected c (partBytes f.parts))
        | .ok (s, olds) =>
          let s := if f.kind = .store then s else f.parts.foldl (fun s p => s.forgetCopies f.core p) s
          let s := { s with groups := s.groups.modify f.slot fun g => g.giveOlds f.load olds }
          match s.groups.find f.slot with
          | some g => .next (s.tsyncRelease g.team)
          | none => .next s

end Sys2Proof.Machine
end

