-- ==== Sys2Proof/Machine/Atomics.lean ====
section
/-! DEFINITION. Atomics and compare-and-swaps (R165 to R168), at issue: they enter the store FIFO, and their old values return
as a load's. -/

namespace Sys2Proof.Machine

open Sys2Proof

/-- The offset of an atomic (R165, R167): IMM28[19:0], signed. -/
def Mods.offset20 (m : Mods) : Int := ((m.ext.getD 0).extractLsb' 0 20).toInt

/-- What an atomic accepts (R437); `c` for the compare-and-swaps, which require C. -/
def accAtomic (index c : Bool) : Accept :=
  { useC := c, index := index, dual := true, needExt := true, flavs := [0, 1, 2, 3] }

/-- An atomic is not available in the memory that it reaches: host memory but for the PCI Express AtomicOps (R166), and CC frames
(R336). -/
def atomRefused (hostOk : Bool) (l : Loc) : Bool :=
  match l.place with
  | .host _ => !(hostOk && Config.hostAtomics)
  | .dram _ _ => attrCC l.attr
  | _ => false

/-- A read-modify-write at a peer is sent when nothing earlier of the group is left to wait for (R251, R417): loads have their
values, stores have left the FIFO, and what a release covers is performed. -/
def State.beforePeer (s : State) (i : Issue) : Except Stop Unit := do
  s.readsFixed i
  if !i.g.fifo.isEmpty then .error (s.waitFifo i.site.slot i.g)
  else if releases i.mods.flavour.1 then s.writesDone i i.mods.flavour.2 false
  else .ok ()

/-- The bytes that a peer's answer leaves in the peer-read cache (R417): any byte of it that the operation touched. -/
def State.peerTouched (s : State) (core : Nat) (kind : FifoKind) (parts : List (Nat × Acc × Loc))
    (olds : Table (List (BitVec 8))) : State :=
  parts.foldl (fun s p => match kind.result p.2.1 (olds.getD p.1 []) with
    | none => s
    | some new =>
      let d := s.die (coreDie core)
      s.setDie (coreDie core) { d with peerCopies := copyUpdate d.peerCopies p.2.2.place.key new }) s

/-- Issue a read-modify-write: its checks (R158, R165 to R167), then its FIFO entry and its load entry. `bad` is a cause of the
operation itself (R165, R167). -/
def rmwBody (i : Issue) (s : State) (kind : FifoKind) (ty : Nat) (bad hostOk : Bool) (pp : Nat)
    (accs : List Acc) (dests : List Dest) : Except Stop (State × BitVec 64) := do
  s.afterAcquires i
  let locs ← s.locate i .rmw .groupStore accs
  let parts := partsOf accs locs
  let refuse (c : Cause) (f : Loc → Bool) : Except Stop Unit :=
    match parts.find? fun p => f p.2.2 with
    | some p => trapA c p.2.1.ea
    | none => .ok ()
  refuse .writeReadonly fun l => attrHostCache l.attr
  refuse .atomicType fun l => bad || atomRefused hostOk l
  s.fifoRoom i
  let peers := peerParts parts
  if !peers.isEmpty then s.beforePeer i
  let (s, got) ← s.askPeer i peers
  let s := s.peerTouched (slotCore i.site.slot) kind peers got
  if accs.isEmpty && i.mods.flavour.1 == 0 then .ok (s, 0)
  else
    let s := if peers.length = parts.length && !parts.isEmpty then s
      else i.enterFifo s kind accs locs (some s.nextId) i.g.seq
    .ok (i.enterLoad s ty (accs.zip dests) locs got pp true, 0)

/-- The TYPE of a load that converts as an atomic's TYPE does (R159, R165). -/
def atomLoadType (ty : Nat) : Nat := [4, 4, 5, 7, 8, 9].getD ty 4

/-- An OP of R165 is valid for a TYPE. -/
def atomValid (op ty : Nat) : Bool :=
  if op < 6 then decide (ty < 3) else if op = 6 then true else if op < 9 then ty == 1 else decide (3 ≤ ty)

/-- ATOM (R165). -/
def execAtom (d a b : RegField) (t : Tail) (s : State) : Host.Outcome State Fault Refusal :=
  let m := Tail.modifiers t
  let op := m.extField 24 4
  let ty := m.extField 20 4
  let w := if ty = 2 then 2 else 1
  let f : Form := { cls := .memory, acc := accAtomic true false, dst := some { f := d, width := w },
                    srcs := [baseOpnd a, { f := b, width := w }],
                    bad := fun _ => badBase a || decide (5 < ty) || decide (11 < op) }
  issue f t s fun i s => do
    require (!(!i.tans.isEmpty && (op == 10 || op == 11) && atomValid op ty)) .tangentUnsupported
    let mv := if op = 9 && atomValid op ty then i.tans else []
    i.strideOk s mv
    let ts := (s.gridOf i.g.team).tstride
    let accs := i.act.flatMap fun l =>
      laneAccs l (i.ea l a m.offset20) (atomSize ty) 1 ts mv
        (fun j _ => (bytesOf (i.wordsAt l b w j)).take (atomSize ty)) fun _ _ => []
    let dests := i.act.flatMap fun l => (0 :: mv).map fun j =>
      i.destOf l d w j (if j = 0 && mv.isEmpty then i.tans else [])
    rmwBody i s (.atom op ty) (atomLoadType ty) (!atomValid op ty) ((op == 0 || op == 6) && decide (ty < 3)) 0
      accs dests

/-- A compare-and-swap of `size` bytes in `w` registers (R167, R168). -/
def casInstr (d a b : RegField) (index : Bool) (ty size w : Nat) (floatTy badTy : Bool) (t : Tail) (s : State) :
    Host.Outcome State Fault Refusal :=
  let m := Tail.modifiers t
  let f : Form := { cls := .memory, acc := accAtomic index true, dst := some { f := d, width := w },
                    srcs := [baseOpnd a, { f := b, width := w, tan := false }], writes := [.p (m.extField 24 3)],
                    bad := fun m => badBase a || badTy || m.extField 27 1 == 1 }
  issue f t s fun i s =>
    let afterB : Issue := { i with pops := if isQ b then i.pops.drop 1 else i.pops }
    let accs := i.act.flatMap fun l =>
      laneAccs l (i.ea l a m.offset20) size 1 0 []
        (fun _ _ => (bytesOf (afterB.wordsAt l m.ar.c w 0)).take size)
        fun _ _ => (bytesOf (i.wordsAt l b w 0)).take size
    let dests := i.act.map fun l => i.destOf l d w 0 i.tans
    rmwBody i s .cas ty floatTy true (m.extField 24 3) accs dests

/-- CAS (R167). -/
def execCas (d a b : RegField) (t : Tail) (s : State) : Host.Outcome State Fault Refusal :=
  let ty := (Tail.modifiers t).extField 20 4
  casInstr d a b true (atomLoadType ty) (atomSize ty) (if ty = 2 then 2 else 1) (decide (2 < ty)) (decide (5 < ty)) t s

/-- CAS128 (R168). -/
def execCas128 (d a b : RegField) (t : Tail) (s : State) : Host.Outcome State Fault Refusal :=
  casInstr d a b false 6 16 4 false ((Tail.modifiers t).extField 20 4 != 0) t s

end Sys2Proof.Machine
end

