-- ==== Sys2Proof/Machine/Fences.lean ====
section
/-! DEFINITION. FENCE and PREF (R171, R172), and declared buffers (R138 to R141, R173 to R175). -/

namespace Sys2Proof.Machine

open Sys2Proof

/-- FENCE (R171, R250). -/
def execFence (t : Tail) (s : State) : Host.Outcome State Fault Refusal :=
  let f : Form := { cls := .memory, acc := { needOrder := true, flavs := [1, 2, 3, 4] } }
  issue f t s fun i s => do
    let fl := i.mods.flavour.1
    let sc := i.mods.flavour.2
    s.afterAcquires i
    s.readsFixed i
    if releases fl then s.writesDone i sc (fl == 4) else .ok ()
    .ok (if acquires fl then s.discard (slotCore i.site.slot) sc else s, 0)

/-- What PREF does for one address outside the window (R172): a cause is passed over; an absent page is asked for under .PAGE;
under .L1 the line is copied. A walk that is parked on an absent table page is not waited for: PREF never parks. A page that is ORD is passed
over. -/
def State.prefetch (s : State) (i : Issue) (level ea : Nat) : Except Stop State :=
  let own := s.owner i.g
  let core := slotCore i.site.slot
  let die := coreDie core
  let ord : Bool := match (s.cached (s.core core).tlb own.1 own.2 ea).or (s.cached (s.die die).tlc own.1 own.2 ea) with
    | some x => attrOrd x.attr
    | none => (s.die die).walks.any fun w => w.2.serves own.1 own.2 ea && match w.2.phase with
      | .done x => attrOrd x.attr
      | _ => false
  match s.lookCore core own.1 own.2 .load ea with
  | .miss => match s.startWalk die own.1 own.2 ea with
    | (s, some id) =>
      if (((s.die die).walks.find id).bind Walk.parked).any fun q => s.isParked die q then .ok s
      else .error (.wait s [.walkStep die id])
    | (s, none) => .error (.wait s [])
  | .fault .xlateNotPresent gpa =>
    let s := s.dropWalks die own.1 own.2 ea
    .ok (if level = 2 && !ord then s.askPager own.1 own.2 gpa none else s)
  | .fault _ _ => .ok (s.dropWalks die own.1 own.2 ea)
  | .ok l _ =>
    if level = 0 && l.inL1 then
      match s.readLoc l.line 64 with
      | .error _ => .ok s
      | .ok bs => .ok (s.fillL1 core l.line bs)
    else .ok s

/-- PREF (R172). -/
def execPref (l : BitVec 2) (a : RegField) (t : Tail) (s : State) : Host.Outcome State Fault Refusal :=
  let f : Form := { cls := .memory, acc := { ext := true }, srcs := [baseOpnd a], bad := fun _ => badBase a || l == 3 }
  issue f t s fun i s => do
    s.afterAcquires i
    let accs := i.act.map fun n => (⟨n, 0, i.ea n a i.mods.offset, 1, [], []⟩ : Acc)
    s.windowOk i.g.team .groupLoad accs
    let s ← foldE (fun (s : State) (x : Acc) =>
      if isWindow x.ea.toNat then .ok s else s.prefetch i l.toNat x.ea.toNat) s accs
    .ok (s, 0)

/-! ## Declared buffers -/

/-- The buffer grant of a grid (R138, R260). -/
def Grid.bufn (g : Grid) : Nat := g.field 0x20 34 28

/-- The buffer number is within the grant (R173). -/
def State.bufGranted (s : State) (i : Issue) (n : Nat) : Except Stop Unit :=
  if n < (s.gridOf i.g.team).bufn then .ok () else trapE .bufBounds

/-- A buffer is being filled or drained (R140). -/
def Buffer.busy (b : Buffer) : Bool := b.state == .filling || b.state == .draining

/-- Set or remove a buffer of the issuing team. -/
def Issue.setBuf (i : Issue) (s : State) (n : Nat) (b : Option Buffer) : State :=
  let t := s.team i.g.team
  s.setTeam i.g.team { t with bufs := match b with
    | some b => t.bufs.put n b
    | none => t.bufs.del n }

/-- BUFDCL (R173). -/
def execBufdcl (n : BitVec 6) (a : RegField) (t : Tail) (s : State) : Host.Outcome State Fault Refusal :=
  let f : Form := { cls := .memory, srcs := [baseOpnd a], bad := fun _ => !isS a }
  issue f t s fun i s => do
    s.afterAcquires i
    let v := (i.read 0 (baseOpnd a) 0).headD 0
    let base := v.toNat % 2 ^ 32
    let size := v.toNat / 2 ^ 32
    let bufs := (s.team i.g.team).bufs
    require (decide (base + size ≤ (s.gridOf i.g.team).sramsz)) .sramRange
    s.bufGranted i n.toNat
    require (decide (base % 256 = 0 ∧ size % 256 = 0)) .bufBounds
    require (size = 0 || bufs.all fun x => x.1 == n.toNat || decide (x.2.base + x.2.size ≤ base) || decide (base + size ≤ x.2.base)) .bufBounds
    require (!(bufs.find n.toNat).any Buffer.busy) .bufState
    .ok (i.setBuf s n.toNat (if size = 0 then none else some ⟨base, size, .empty, 0, base⟩), 0)

/-- BUFSET (R174). -/
def execBufset (n : BitVec 6) (e : BitVec 2) (t : Tail) (s : State) : Host.Outcome State Fault Refusal :=
  let f : Form := { cls := .memory, bad := fun _ => e == 1 || e == 3 }
  issue f t s fun i s => do
    s.afterAcquires i
    s.bufGranted i n.toNat
    match (s.team i.g.team).bufs.find n.toNat with
    | none => trapE .bufBounds
    | some b =>
      if b.busy then trapE .bufState
      else .ok (i.setBuf s n.toNat (some { b with state := if e = 0 then .empty else .full }), 0)

/-- Write the words of an instruction that executes once for its group (R175, R178, R272): an S destination always, a V
destination in every active lane with +0 shadows. -/
def Issue.writeOnce (i : Issue) (s : State) (d : RegField) (ws : List Word) : State :=
  let lanes := if isS d then [lowest i.site.set] else i.act
  i.commit s none (lanes.flatMap fun l => (i.destOf l d ws.length 0 i.tans).cells l ws)

/-- The number of a buffer state (R175). -/
def BufState.code : BufState → Nat
  | .empty => 0
  | .filling => 1
  | .full => 2
  | .draining => 3

/-- The pair that BUFQ reads (R175). -/
def bufWords : Option Buffer → List Word
  | none => [0, 0]
  | some b =>
    [BitVec.ofNat 32 (b.state.code + (if b.busy then 4 * b.ch else 0) + 64),
     BitVec.ofNat 32 (if b.state = .filling then b.wp else b.base)]

/-- BUFQ (R175): the value that the descriptor holds at issue. -/
def execBufq (d a : RegField) (t : Tail) (s : State) : Host.Outcome State Fault Refusal :=
  let f : Form := { cls := .memory, dst := some { f := d, width := 2 }, rule := .anyS, bad := fun _ => a.getLsbD 6 }
  issue f t s fun i s => do
    s.afterAcquires i
    s.bufGranted i a.toNat
    .ok (i.writeOnce s d (bufWords ((s.team i.g.team).bufs.find a.toNat)), 0)

end Sys2Proof.Machine
end

