-- ==== Sys2Proof/Machine/Barriers.lean ====
section
/-! DEFINITION. Barrier objects (R176 to R180) and cluster barriers (R242, R243). -/

namespace Sys2Proof.Machine

open Sys2Proof

/-! ## The object (R176) -/

/-- The fields of a barrier object; `rest` is the word at 0x0C without OVF. -/
structure Barrier where
  phase : Nat
  pending : Nat
  expect : Nat
  tx : Int
  ovf : Bool
  rest : Nat
  deriving DecidableEq, Repr

/-- A barrier object from its 16 bytes. -/
def Barrier.of (bs : List (BitVec 8)) : Barrier :=
  let w (n : Nat) := ofBytes ((bs.drop (4 * n)).take 4)
  { phase := w 0, pending := w 1 % 65536, expect := w 1 / 65536, tx := (BitVec.ofNat 32 (w 2)).toInt, ovf := bit (w 3) 0,
    rest := w 3 / 2 }

/-- The 16 bytes of a barrier object. -/
def Barrier.bytes (b : Barrier) : List (BitVec 8) :=
  toBytes 4 b.phase ++ toBytes 4 (b.pending + 65536 * b.expect) ++ toBytes 4 (BitVec.ofInt 32 b.tx).toNat ++
  toBytes 4 ((if b.ovf then 1 else 0) + 2 * b.rest)

/-- complete() (R176). -/
def Barrier.complete (b : Barrier) : Barrier :=
  if b.pending = 0 && b.tx == 0 then { b with phase := (b.phase + 1) % 2 ^ 32, pending := b.expect } else b

/-- init(c) (R176). -/
def Barrier.init (b : Barrier) (c : Nat) : Barrier := { b with phase := 0, pending := c, expect := c, tx := 0, ovf := false }

/-- Add to TX, unless it leaves its range (R176). -/
def Barrier.addTx (b : Barrier) (n : Int) : Option Barrier :=
  if -(2 ^ 31) ≤ b.tx + n ∧ b.tx + n < 2 ^ 31 then some { b with tx := b.tx + n }.complete else none

/-- arrive() (R176). -/
def Barrier.arrive (b : Barrier) : Option Barrier :=
  if b.pending = 0 then none else some { b with pending := b.pending - 1 }.complete

/-- Read the object at a place of a slice. -/
def State.barrierAt (s : State) (p : Place) : Barrier := Barrier.of (readCells s.mem p.key 16)

/-- Write the object at a place of a slice; the flip of its phase may move laggard steps (R278). -/
def State.setBarrier (s : State) (p : Place) (b : Barrier) : State :=
  let old := s.barrierAt p
  let s := match p with
    | .sram core off => s.writeSlice core off b.bytes
    | _ => { s with mem := writeCells s.mem p.key b.bytes }
  if b.phase = (old.phase + 1) % 2 ^ 32 then s.lagFlip p.key else s

/-- The object has a word that reads with a detected error (R153). -/
def State.barrierBad (s : State) (p : Place) : Bool :=
  match p with
  | .sram core off => !((s.core core).badWords off 16).isEmpty
  | _ => false

/-- counted(b) (R176), an engine's completion: an overflow leaves the object but for OVF, and is reported. A detected error contains the owner
of the object's unit (R153). -/
def State.counted (s : State) (p : Place) (n : Nat) : State × Bool :=
  if s.barrierBad p then (match p with
    | .sram core off => (s.sliceError core off 16 .core, false)
    | _ => (s, false))
  else
  let b := s.barrierAt p
  match b.addTx n with
  | some b => (s.setBarrier p b, false)
  | none => (s.setBarrier p { b with ovf := true }, true)

/-! ## The frame of the barrier instructions (R178) -/

/-- What a barrier instruction accepts (R178, R242, R437). -/
def accBar (flavs : List Nat) : Accept := { ext := true, flavs := flavs }

/-- The location of the object (R158, R176): ALIGN, SRAM_RANGE, then the buffers. -/
def State.barrierLoc (s : State) (i : Issue) (u : BufUse) (ea : DWord) : Except Stop Place :=
  if ea.toNat % 16 ≠ 0 then trapA .align ea
  else if !isWindow ea.toNat then trapA .sramRange ea
  else match s.windowLoc i.g.team u ea.toNat 16 with
    | .error c => trapA c ea
    | .ok l => if s.barrierBad l.place then
        .error (.trap { cause := .memUncorrectable, addr := some ea, read := [(l.place, 16)] })
      else .ok l.place

/-- The group's own earlier writes to the object are performed before a barrier operation reads or writes it (R248). -/
def State.ownWritesDone (s : State) (i : Issue) (p : Place) : Except Stop Unit :=
  let hits (e : FifoEntry) : Bool := e.accs.any fun a =>
    isWindow a.ea.toNat && overlap p 16 (s.sliceOf i.g.team a.ea.toNat a.size).place a.size
  if i.g.fifo.any hits then .error (s.waitFifo i.site.slot i.g)
  else match s.flight.find? fun f => f.slot == i.site.slot && f.parts.any fun x =>
      overlap p 16 x.2.2.place x.2.1.size with
    | some f => .error (.wait s [.pointOfCoherenceArrival f.id])
    | none => .ok ()

/-- Everything before a barrier operation: earlier reads have their values (R250, R251), the object is located, a release's
earlier writes are performed at its scope. -/
def State.barrierReady (s : State) (i : Issue) (u : BufUse) (a : RegField) : Except Stop (DWord × Place) := do
  let ea := i.ea 0 a i.mods.offset
  s.readsFixed i
  let p ← s.barrierLoc i u ea
  if releases i.mods.flavour.1 then s.writesDone i i.mods.flavour.2 false else s.ownWritesDone i p
  .ok (ea, p)

/-- After an acquiring operation, the copies that its scope requires are discarded (R250). -/
def State.afterBarrier (s : State) (i : Issue) : State :=
  if acquires i.mods.flavour.1 then s.discard (slotCore i.site.slot) i.mods.flavour.2 else s

/-- The object after an operation, or BARRIER_OVERFLOW at the instruction (R176). -/
def orOverflow (ea : DWord) (r : Option Barrier) : Except Stop Barrier :=
  match r with
  | some b => .ok b
  | none => trapA .barrierOverflow ea

/-- A barrier instruction with a source in D (R178). -/
def barSource (d a : RegField) (flavs : List Nat) (u : BufUse) (t : Tail) (s : State)
    (body : Issue → State → DWord → Place → Word → Except Stop State) : Host.Outcome State Fault Refusal :=
  let f : Form := { cls := .memory, acc := accBar flavs, srcs := [baseOpnd a, { f := d }],
                    bad := fun _ => !isS a || !isSZ d }
  issue f t s fun i s => do
    let (ea, p) ← s.barrierReady i u a
    let s ← body i s ea p ((i.read 0 { f := d } 0).headD 0 |>.setWidth 32)
    .ok (s.afterBarrier i, 0)

/-- A barrier instruction with a destination D (R178). -/
def barDest (d a : RegField) (flavs : List Nat) (u : BufUse) (t : Tail) (s : State)
    (body : Issue → State → DWord → Place → Except Stop State) : Host.Outcome State Fault Refusal :=
  let f : Form := { cls := .memory, acc := accBar flavs, dst := some { f := d }, srcs := [baseOpnd a],
                    bad := fun _ => !isS a }
  issue f t s fun i s => do
    let (ea, p) ← s.barrierReady i u a
    let phase := BitVec.ofNat 32 (s.barrierAt p).phase
    let s ← body i s ea p
    .ok (i.writeOnce (s.afterBarrier i) d [phase], 0)

/-! ## The instructions (R178, R179) -/

/-- BARINIT (R178). -/
def execBarinit (d a : RegField) (t : Tail) (s : State) : Host.Outcome State Fault Refusal :=
  barSource d a [0, 2] .groupStore t s fun _ s ea p c =>
    (orOverflow ea (if c.toNat = 0 ∨ 65535 < c.toNat then none else some ((s.barrierAt p).init c.toNat))).map
      (s.setBarrier p)

/-- BAREXP (R178). -/
def execBarexp (d a : RegField) (t : Tail) (s : State) : Host.Outcome State Fault Refusal :=
  barSource d a [0, 2] .groupStore t s fun _ s ea p n =>
    (orOverflow ea (if 2 ^ 31 ≤ n.toNat then none else (s.barrierAt p).addTx (-(n.toNat : Int)))).map (s.setBarrier p)

/-- BARARV (R178). -/
def execBararv (d a : RegField) (t : Tail) (s : State) : Host.Outcome State Fault Refusal :=
  barDest d a [0, 2, 3] .groupStore t s fun _ s ea p =>
    (orOverflow ea (s.barrierAt p).arrive).map (s.setBarrier p)

/-- Suspend the issuing group (R134, R179): its run ends, and it is ready again when the condition has come about. -/
def Issue.suspend (i : Issue) (s : State) (w : WaitCond) : Stop := s.suspendOn i.site.slot w

/-- Wait until PHASE differs from a token (R179); the waiting group issues the instruction again. -/
def awaitPhase (i : Issue) (s : State) (p : Place) (token : Word) : Except Stop State :=
  if (s.barrierAt p).phase = token.toNat then .error (i.suspend s (.barrier p.key token)) else .ok s

/-- BARWAIT (R178, R179). -/
def execBarwait (d a : RegField) (t : Tail) (s : State) : Host.Outcome State Fault Refusal :=
  barSource d a [0, 1] .groupLoad t s fun i s _ p token => awaitPhase i s p token

/-- BARTEST (R178). -/
def execBartest (d a : RegField) (t : Tail) (s : State) : Host.Outcome State Fault Refusal :=
  barDest d a [0, 1] .groupLoad t s fun _ s _ _ => .ok s

/-- TSYNC (R180): the lanes of the issuing set wait at the next word; the run ends. -/
def execTsync (t : Tail) (s : State) : Host.Outcome State Fault Refusal :=
  issue { cls := .memory } t s fun i s => do
    s.readsFixed i
    s.writesDone i 1 false
    let s := i.change s fun g =>
      (g.advance (lanesOf i.site.set) i.site.len).onLanes (lanesOf i.site.set) fun x => { x with tsync := true }
    let s := s.endRun (slotCore i.site.slot) (slotSub i.site.slot)
    .ok (s.tsyncRelease i.g.team, i.site.set)

/-! ## Cluster barriers (R242, R243) -/

/-- The groups of a team that have not retired are all marked at an object. -/
def State.allMarked (s : State) (team key : Nat) (more : List Nat) : Bool :=
  let marks := (s.team team).marks.getD key [] ++ more
  s.groups.all fun kg => kg.2.team != team || marks.contains kg.2.num

/-- Mark a group at an object; with all marked, the team's one arrival is performed and the marks are cleared (R243). None: the
arrival overflows. -/
def State.teamMark (s : State) (team key num : Nat) (p : Place) : Option State :=
  let t := s.team team
  if s.allMarked team key [num] then
    (s.barrierAt p).arrive.map fun b =>
      ((s.setTeam team { t with marks := t.marks.del key }).lagArrive team p.key).setBarrier p b
  else some (s.setTeam team { t with marks := t.marks.put key (num :: t.marks.getD key []).dedup })

/-- CBARARV (R242, R243). -/
def execCbararv (d a : RegField) (t : Tail) (s : State) : Host.Outcome State Fault Refusal :=
  barDest d a [0, 2, 3] .groupStore t s fun i s ea p =>
    match s.teamMark i.g.team (ea.toNat - sramBase) i.g.num p with
    | some s => .ok s
    | none => trapA .barrierOverflow ea

/-- CBARWAIT (R242). -/
def execCbarwait (d a : RegField) (t : Tail) (s : State) : Host.Outcome State Fault Refusal :=
  barSource d a [0, 1] .groupLoad t s fun i s _ p token => awaitPhase i s p token

end Sys2Proof.Machine
end

