-- ==== Sys2Proof/Machine/EngineMem.lean ====
section
/-! DEFINITION. Accesses of engines to memory: copy channels, matrix units, the packet engine, leaf controllers (R255, R282, R296,
R416). -/

namespace Sys2Proof.Machine

open Sys2Proof

/-- Who an engine's access is for: the tag under which its requests to peers and its writes in flight stand, the engine, the core
(or die) that it works on, and its context. -/
structure Agent where
  tag : Nat
  engine : Engine
  core : Nat
  vdev : Nat
  ctx : Nat
  world : Nat
  deriving DecidableEq, Repr

/-- Why an engine's access has not been made: a cause, an absent page, or nothing but time. -/
inductive EngStop where
  | cause (c : Cause) (ea : Nat)
  | absent (ea gpa : Nat)
  | hold
  deriving DecidableEq, Repr

/-- Cut `n` bytes at `ea` into pieces that lie each within one 64-byte line: the address and length of each. `fuel` bounds the
number of pieces. -/
def linePieces : Nat → Nat → Nat → List (Nat × Nat)
  | 0, _, _ => []
  | fuel + 1, ea, n =>
    if n = 0 then []
    else
      let m := min n (64 - ea % 64)
      (ea, m) :: linePieces fuel (ea + m) (n - m)

/-- The pieces of an access. -/
def piecesOf (ea n : Nat) : List (Nat × Nat) := linePieces (n / 64 + 2) ea n

/-- Translate one address for an engine; the walk is made in the same step (DEDUCED: log 12). -/
def State.agentLoc (s : State) (w : Agent) (k : Access) (ea : Nat) : State × Except EngStop Loc :=
  match s.lookNow (coreDie w.core) w.vdev w.ctx w.world k ea with
  | (s, .ok l _) => (s.used l, .ok l)
  | (s, .fault .xlateNotPresent gpa) => (s.dropWalks (coreDie w.core) w.vdev w.ctx ea, .error (.absent ea gpa))
  | (s, .fault c _) => (s.dropWalks (coreDie w.core) w.vdev w.ctx ea, .error (.cause c ea))
  | (s, .miss) => (s, .error .hold)

/-- Translate the pieces of an access in order. -/
def State.agentLocs (s : State) (w : Agent) (k : Access) :
    List (Nat × Nat) → State × Except EngStop (List (Nat × Nat × Loc))
  | [] => (s, .ok [])
  | (ea, n) :: ps => match s.agentLoc w k ea with
    | (s, .error e) => (s, .error e)
    | (s, .ok l) => match s.agentLocs w k ps with
      | (s, .error e) => (s, .error e)
      | (s, .ok ls) => (s, .ok ((ea, n, l) :: ls))

/-- The requests of an engine to peers for the pieces of a read (R416): those that it still has to send are entered; the answer is
given once every one is there. -/
def State.agentPeers (s : State) (w : Agent) (ls : List (Nat × Nat × Loc)) :
    State × Except EngStop (Table (List (BitVec 8))) :=
  let ps := ls.filter fun x => x.2.2.isPeer
  let find (ea : Nat) := s.peers.find? fun r => r.slot == w.tag && r.seq == ea
  let fresh := ps.filter fun x => (find x.1).isNone
  if !fresh.isEmpty then
    (fresh.foldl (fun s x => { s with
      nextId := s.nextId + 1,
      peers := s.peers ++ [⟨s.nextId, w.tag, 0, x.1,
        [(0, ⟨0, 0, BitVec.ofNat 64 x.1, x.2.1, [], []⟩, x.2.2)], false, none⟩] }) s, .error .hold)
  else
    let answers := ps.map fun x => (x.1, (find x.1).bind PeerReq.answer)
    let clear (s : State) : State := { s with peers := s.peers.filter fun r => !(r.slot == w.tag && answers.any fun a => a.1 == r.seq) }
    if answers.any fun a => a.2.isNone then (s, .error .hold)
    else match answers.find? fun a => a.2 == some none with
      | some a => (clear s, .error (.cause .peerXlate a.1))
      | none => (clear s, .ok (answers.foldl (fun t a => t.put a.1 ((a.2.getD none).getD [])) []))

/-- Read the located pieces. -/
def State.readPieces (s : State) (got : Table (List (BitVec 8))) :
    List (Nat × Nat × Loc) → Except EngStop (List (BitVec 8))
  | [] => .ok []
  | (ea, n, l) :: ps =>
    let one : Except Cause (List (BitVec 8)) := if l.isPeer then .ok (got.getD ea []) else s.readLoc l n
    match one with
    | .error c => .error (.cause c ea)
    | .ok bs => (s.readPieces got ps).map (bs ++ ·)

/-- Read `n` bytes for an engine. -/
def State.agentRead (s : State) (w : Agent) (ea n : Nat) : State × Except EngStop (List (BitVec 8)) :=
  match s.agentLocs w .load (piecesOf ea n) with
  | (s, .error e) => (s, .error e)
  | (s, .ok ls) => match s.agentPeers w ls with
    | (s, .error e) => (s, .error e)
    | (s, .ok got) => match s.readPieces got ls with
      | .error (.cause c a) => (s.detected c (ls.map fun l => (l.2.2.place, l.2.1)), .error (.cause c a))
      | r => (s, r)

/-- Write one located piece for an engine: performed at once, copies of it being dropped; a piece at a peer is sent and awaits its
acknowledgement (R416, R417). -/
def State.writePiece (s : State) (w : Agent) (l : Loc) (ea : Nat) (bs : List (BitVec 8)) : Except EngStop State :=
  if l.isPeer then
    .ok { s with
      nextId := s.nextId + 1,
      flight := s.flight ++ [⟨s.nextId, w.tag, w.core, coreDie w.core, w.vdev, w.ctx, 0, 0, 0, .store,
        [(0, ⟨0, 0, BitVec.ofNat 64 ea, bs.length, bs, []⟩, l)], none, true⟩] }
  else match s.writeLoc l bs with
    | .error c => .error (.cause c ea)
    | .ok s => .ok (s.dropL1 l.place bs.length)

/-- Write the pieces in order. -/
def State.writePieces (s : State) (w : Agent) : List (Nat × Nat × Loc) → List (BitVec 8) → Except EngStop State
  | [], _ => .ok s
  | (ea, n, l) :: ps, bs => match s.writePiece w l ea (bs.take n) with
    | .error e => .error e
    | .ok s => s.writePieces w ps (bs.drop n)

/-- A page mapped HOSTCACHE is read-only to the device (R166). -/
def readOnlyAt (ls : List (Nat × Nat × Loc)) : Option Nat := (ls.find? fun x => attrHostCache x.2.2.attr).map Prod.fst

/-- Write bytes for an engine; nothing is written unless every piece translates. -/
def State.agentWrite (s : State) (w : Agent) (ea : Nat) (bs : List (BitVec 8)) : State × Except EngStop Unit :=
  match s.agentLocs w .store (piecesOf ea bs.length) with
  | (s, .error e) => (s, .error e)
  | (s, .ok ls) => match readOnlyAt ls with
    | some a => (s, .error (.cause .writeReadonly a))
    | none => match s.writePieces w ls bs with
      | .error (.cause c a) => (s.detected c (ls.map fun l => (l.2.2.place, l.2.1)), .error (.cause c a))
      | .error e => (s, .error e)
      | .ok s => (s, .ok ())

/-- The writes to peers that an engine has sent and that are not acknowledged (R417). -/
def State.agentWaits (s : State) (w : Agent) : Bool := s.flight.any fun f => f.slot == w.tag

/-- Park an engine's access on an absent page (R296): its fault sequence number; none when no fault slot is free. -/
def State.agentPark (s : State) (w : Agent) (write : Bool) (ea gpa : Nat) (keep : Option Nat) : Option (State × Nat) :=
  s.park (coreDie w.core) { seq := 0, replayed := false, write := write, table := false, engine := w.engine, core := w.core,
                            vdev := w.vdev, ctx := w.ctx, va := ea, gpa := gpa } keep

/-- A context is ACTIVE: engines go on for it (R10, R381). -/
def State.isActive (s : State) (vd ctx : Nat) : Bool := (s.ctx vd ctx).state == 1 && (s.vdev vd).state == .running

/-- A parked access whose page has not come yet. -/
def State.stillParked (s : State) (die : Nat) (q : Option Nat) : Bool := q.any fun n => s.isParked die n

end Sys2Proof.Machine
end

