-- ==== Sys2Proof/Machine/Spans.lean ====
section
/-! DEFINITION. Accesses of the matrix unit and the caster (R137, R139, R194, R216): rows in the window or in memory, what their
operations stand after (R196, R218), and the causes they keep. -/

namespace Sys2Proof.Machine

open Sys2Proof

/-! ## Operands of the unit instructions -/

/-- The fields of an S register run that must start at a multiple of `n` (R159). -/
def badRunAt (n : Nat) (f : RegField) : Bool := !isS f || decide (f.toNat % n ≠ 0)

/-- `n` S registers from a field on, as the group's readers see them. -/
def Issue.sregs (i : Issue) (f : RegField) (n : Nat) : List Word :=
  (List.range n).map fun m => i.seen.s.get (f.toNat - 96 + m)

/-- A number from words, the lowest first. -/
def ofWords : List Word → Nat
  | [] => 0
  | w :: ws => w.toNat + 2 ^ 32 * ofWords ws

/-- An S run as a source operand: its registers are read, no tangents. -/
def runOpnd (f : RegField) (n : Nat) : Opnd := { f := f, width := n, tan := false }

/-- An address and a signed distance, as an address (R157). -/
def addAddr (base : Nat) (off : Int) : Nat := (BitVec.ofNat 64 base + BitVec.ofInt 64 off).toNat

/-- The window address of a barrier offset (R191, R210). -/
def barAddr (off : Nat) : Nat := sramBase + off

/-- No barrier is named (R191, R210). -/
def noBarrier : Nat := 2 ^ 32 - 1

/-- The checks of BAROFF that every unit command makes: ALIGN. -/
def barAlign (off : Nat) : Except Stop Unit :=
  if off ≠ noBarrier ∧ off % 16 ≠ 0 then trapA .align (BitVec.ofNat 64 (barAddr off)) else .ok ()

/-- `n` bytes at an address lie outside the window or inside the range of the team's cluster (R137). -/
def State.spanOk (s : State) (team ea n : Nat) : Bool :=
  n == 0 || !(isWindow ea || isWindow (ea + n - 1)) || (isWindow ea && (s.window team ea n).isSome)

/-- The range check of spans: SRAM_RANGE at the first that fails. -/
def State.spansOk (s : State) (team : Nat) (spans : List (Nat × Nat)) : Except Stop Unit :=
  match spans.find? fun x => !s.spanOk team x.1 x.2 with
  | some x => trapA .sramRange (BitVec.ofNat 64 x.1)
  | none => .ok ()

/-- The range check of BAROFF (R199, R221). -/
def State.barRange (s : State) (team off : Nat) : Except Stop Unit :=
  if off ≠ noBarrier ∧ (s.window team (barAddr off) 16).isNone then trapA .sramRange (BitVec.ofNat 64 (barAddr off))
  else .ok ()

/-! ## What an operation stands after (R196, R218) -/

/-- What an operation issued by a group stands after. -/
def Issue.afterNow (i : Issue) : After := ⟨i.site.slot, i.g.seq, i.g.readFrom⟩

/-- The earlier stores that an operation stands after have been performed. -/
def State.afterMet (s : State) (team : Nat) (a : After) : Bool :=
  (match s.groups.find a.slot with
    | some g => g.team != team || g.fifo.all fun e => decide (a.seq ≤ e.seq)
    | none => true) &&
  s.flight.all fun f => !(a.reads.contains f.id || (f.slot == a.slot && decide (f.seq < a.seq)))

/-! ## Rows -/

/-- The world of a core. -/
def State.worldOf (s : State) (core : Nat) : Nat := (s.core core).world

/-- An engine of a core at work for a team. -/
def State.agentOf (s : State) (tag : Nat) (e : Engine) (team : Nat) : Agent :=
  let t := s.team team
  let g := s.gridOf team
  ⟨tag, e, t.core, g.vdev, g.ctx, s.worldOf t.core⟩

/-- Locate a row of `n` bytes for a unit: in the window it is checked against the owning team's buffers as one access; elsewhere it
is translated line by line, and a page with ORD set is refused. -/
def State.rowLocs (s : State) (w : Agent) (team : Nat) (u : Option BufUse) (k : Access) (ea n : Nat) :
    State × Except EngStop (List (Nat × Nat × Loc)) :=
  if isWindow ea then
    match s.window team ea n with
    | none => (s, .error (.cause .sramRange ea))
    | some (t, o) =>
      if s.acrossBoundary (coreDie w.core) (s.slicePlace t o) then (s, .error (.cause .linkDown ea))
      else
        let fate := match u with
          | none => BufFate.ok
          | some u => bufCheck (s.team t).bufs u o n
        match fate with
        | .wait => (s, .error .hold)
        | .trap c => (s, .error (.cause c ea))
        | .ok => (s, .ok ((piecesOf ea n).map fun p => (p.1, p.2, sliceLoc (s.slicePlace t (o + (p.1 - ea))))))
  else match s.agentLocs w k (piecesOf ea n) with
    | (s, .error e) => (s, .error e)
    | (s, .ok ls) => match ls.find? fun x => attrOrd x.2.2.attr with
      | some x => (s, .error (.cause .orderAttr x.1))
      | none => (s, .ok ls)

/-- Locate rows in order: those before the first that stops, and why it stops. -/
def State.rowsLocs (s : State) (w : Agent) (team : Nat) (u : Option BufUse) (k : Access) :
    List (Nat × Nat) → State × List (List (Nat × Nat × Loc)) × Option EngStop
  | [] => (s, [], none)
  | (ea, n) :: rs => match s.rowLocs w team u k ea n with
    | (s, .error e) => (s, [], some e)
    | (s, .ok ls) => match s.rowsLocs w team u k rs with
      | (s, more, e) => (s, ls :: more, e)

/-- Read located rows: the requests to peers for all of them are made together. -/
def State.readRows (s : State) (w : Agent) (rows : List (List (Nat × Nat × Loc))) :
    State × Except EngStop (List (List (BitVec 8))) :=
  match s.agentPeers w rows.flatten with
  | (s, .error e) => (s, .error e)
  | (s, .ok got) => (s, collect (fun r => s.readPieces got r) rows)

/-- Read rows for a unit; nothing is read unless every row is located. -/
def State.unitRead (s : State) (w : Agent) (team : Nat) (u : Option BufUse) (rows : List (Nat × Nat)) :
    State × Except EngStop (List (List (BitVec 8))) :=
  match s.rowsLocs w team u .load rows with
  | (s, _, some e) => (s, .error e)
  | (s, ls, none) => s.readRows w ls

/-- Write one row for a unit. -/
def State.unitWrite (s : State) (w : Agent) (team : Nat) (u : Option BufUse) (ea : Nat) (bs : List (BitVec 8)) :
    State × Except EngStop Unit :=
  match s.rowLocs w team u .store ea bs.length with
  | (s, .error e) => (s, .error e)
  | (s, .ok ls) => match readOnlyAt ls with
    | some a => (s, .error (.cause .writeReadonly a))
    | none => match s.writePieces w ls bs with
      | .error e => (s, .error e)
      | .ok s => (s, .ok ())

/-- The place of a barrier that a command names by its offset, for a team (R176). -/
def State.barPlace (s : State) (team off : Nat) : Option Place :=
  (s.window team (barAddr off) 16).map fun x => s.slicePlace x.1 x.2

/-- counted() of a command (R176, R196, R218): true when it overflows. -/
def State.countFor (s : State) (team off n : Nat) : State × Bool :=
  if off = noBarrier then (s, false)
  else match s.barPlace team off with
    | some p => s.counted p n
    | none => (s, false)

end Sys2Proof.Machine
end

