-- ==== Sys2Proof/Machine/Matrix.lean ====
section
/-! DEFINITION. The matrix unit (R186 to R206): its instructions, the steps of its operations, and their completion. -/

namespace Sys2Proof.Machine

open Sys2Proof

/-! ## Grants, maps and descriptors -/

/-- The grants of tiles, maps and musters (R187, R260). -/
def Grid.accn (g : Grid) : Nat := g.field 0x20 6 0
def Grid.omn (g : Grid) : Nat := g.field 0x20 11 7
def Grid.musn (g : Grid) : Nat := g.field 0x20 16 12

/-- A field of a map or descriptor. -/
def quadField (q : BitVec 128) (lo n : Nat) : Nat := (q.extractLsb' lo n).toNat

/-- The fields of an operand map (R188). -/
def mapBase (m : BitVec 128) : Nat := quadField m 0 56
def mapPstride (m : BitVec 128) : Int := (m.extractLsb' 64 32).toInt
def mapRstride (m : BitVec 128) : Nat := quadField m 96 16
def mapType (m : BitVec 128) : Nat := quadField m 112 2
def mapRole (m : BitVec 128) : Bool := m.getLsbD 114

/-- The fields of an operation descriptor (R191). -/
def opAcc (q : BitVec 128) : Nat := quadField q 0 6
def opInit (q : BitVec 128) : Bool := q.getLsbD 22
def opSat (q : BitVec 128) : Bool := q.getLsbD 23
def opSparse (q : BitVec 128) : Bool := q.getLsbD 24
def opSteps (q : BitVec 128) : Nat := quadField q 32 16
def opBar (q : BitVec 128) : Nat := quadField q 64 32

/-- The numbers of the maps that a descriptor names: A, B and, for a sparse operation, their bitmaps (R191). -/
def opMaps (q : BitVec 128) : List Nat :=
  [quadField q 6 4, quadField q 10 4] ++ if opSparse q then [quadField q 14 4, quadField q 18 4] else []

/-- The element size of a canonical type (R189). -/
def elemSize (ty : Nat) : Nat := if ty = 2 then 1 else 2

/-- The float format of a canonical type: C16 or FP16 (R35, R189). -/
def elemFmt (ty : Nat) : Fmt := if ty = 1 then f16 else bf16

/-- The dense row length of an operand (R189): A has 32 elements to the row, B 64. -/
def denseRow (isB : Bool) (ty : Nat) : Nat := (if isB then 64 else 32) * elemSize ty

/-- The address of panel t of a map, displaced by `off` (R189, R198). -/
def panelAt (m : BitVec 128) (t : Nat) (off : Int) : Nat := addAddr (mapBase m) (t * mapPstride m + off)

/-- The rows of a dense panel (R189). -/
def panelRows (m : BitVec 128) (isB : Bool) (t : Nat) (off : Int) : List (Nat × Nat) :=
  let n := denseRow isB (mapType m)
  let rs := if mapRstride m = 0 then n else mapRstride m
  (List.range (if isB then 32 else 64)).map fun r => (addAddr (panelAt m t off) (r * rs : Nat), n)

/-- The largest extent of a packed panel (R190, R194). -/
def packedMax (m : BitVec 128) : Nat := min (2048 * elemSize (mapType m)) (mapPstride m).natAbs

/-- The spans of an operand over a whole operation, displaced by `off` (R194). -/
def operandSpans (q m : BitVec 128) (isB : Bool) (off : Int) : List (Nat × Nat) :=
  (List.range (opSteps q)).flatMap fun t =>
    if opSparse q then [(panelAt m t off, packedMax m)] else panelRows m isB t off

/-- The displacements of an operand and its shadows (R198). -/
def shadowOffs (k ts : Nat) : List Int := (List.range (k + 1)).map fun j => ((j * ts : Nat) : Int)

/-- Every window address of an operation lies in range (R194). -/
def State.operandsOk (s : State) (team : Nat) (q : BitVec 128) (maps : List (BitVec 128)) : Except Stop Unit := do
  let g := s.gridOf team
  let a := maps.getD 0 0
  let b := maps.getD 1 0
  let offs := if mapType a = 2 then [0] else shadowOffs g.tangents g.tstride
  allOk (fun off => (s.spansOk team (operandSpans q a false off)).bind fun _ => s.spansOk team (operandSpans q b true off)) offs
  allOk (fun m => s.spansOk team ((List.range (opSteps q)).map fun t => (panelAt m t 0, 256))) (maps.drop 2)

/-! ## The checks at issue (R199) -/

/-- Set a tile's tag. -/
def Team.setTag (t : Team) (tile : Nat) (s32 : Bool) : Team :=
  let others := t.s32.filter (· != tile)
  { t with s32 := if s32 then tile :: others else others }

/-- The tags that an operation leaves (R199, R203). -/
def MatrixOp.tagAfter (t : Team) (o : MatrixOp) : Team :=
  match o.kind with
  | .mmz n s32 => t.setTag n s32
  | .accld n s32 => t.setTag n s32
  | .accmv d x => t.setTag d (t.s32.contains x)
  | .mm => if opInit o.quad then t.setTag (opAcc o.quad) (mapType (o.maps.getD 0 0) == 2) else t
  | _ => t

/-- The tiles tagged S32 that an operation issued now meets: the queued operations of its team go before it, unless the team is FAILED
(R192, R194; DEDUCED: log 28). -/
def State.tagsMet (s : State) (team : Nat) : List Nat :=
  let t := s.team team
  if t.mfailed.isSome then t.s32
  else (((s.core t.core).mq.filter fun o => o.team == team).foldl MatrixOp.tagAfter t).s32

/-- Refuse with a cause when a condition holds. -/
def refuseIf (b : Bool) (c : Cause) : Except Stop Unit := if b then trapE c else .ok ()

/-- R199 steps 1 to 6 for a descriptor; `sp` is what the instruction requires of SP. The answer is the maps that the operation
latches. -/
def State.checkOp (s : State) (i : Issue) (q : BitVec 128) (sp : Option Bool) : Except Stop (List (BitVec 128)) := do
  let t := s.team i.g.team
  let g := s.gridOf i.g.team
  refuseIf (quadField q 25 7 != 0 || quadField q 48 16 != 0 || quadField q 96 32 != 0 ||
    (!opSparse q && quadField q 14 8 != 0)) .illegalField
  let names := opMaps q
  refuseIf (sp.any (· != opSparse q) || opSteps q == 0 || decide (1024 < opSteps q) || decide (g.accn ≤ opAcc q) ||
    names.any fun n => decide (g.omn ≤ n) || (t.maps.find n).isNone) .matrixShape
  let maps := names.map fun n => t.maps.getD n 0
  let a := maps.getD 0 0
  let b := maps.getD 1 0
  let short (m : BitVec 128) (isB : Bool) : Bool :=
    mapRstride m != 0 && (opSparse q || decide (mapRstride m < denseRow isB (mapType m)))
  refuseIf ((mapType a != 3 && mapRole a) || (mapType b != 3 && !mapRole b) || short a false || short b true) .matrixShape
  let isInt := mapType a == 2
  refuseIf (mapType a != mapType b || mapType a == 3 || ((maps.drop 2).any fun m => mapType m != 3) ||
    (opSat q && !isInt) || (!opInit q && ((s.tagsMet i.g.team).contains (opAcc q) != isInt))) .matrixFormat
  barAlign (opBar q)
  s.barRange i.g.team (opBar q)
  s.operandsOk i.g.team q maps
  refuseIf (!isInt && g.tangents != 0 && g.tstride == 0) .tangentUnsupported
  .ok maps

/-- Room in the operation queue (R192). -/
def State.queueRoom (s : State) (i : Issue) : Except Stop Unit :=
  if 32 ≤ (s.core (slotCore i.site.slot)).mq.length then .error (i.suspend s .mqueue) else .ok ()

/-- Keep a cause for groups of a team that hold none (R194). -/
def State.keepFor (s : State) (team : Nat) (signers : List Nat) (k : Kept) : State :=
  { s with groups := s.groups.mapVals fun _ g =>
      if g.team = team && signers.contains g.num && g.mkept.isEmpty then { g with mkept := [k] } else g }

/-- Issue an operation (R192): the unit refuses it for a victim of a kill (R206); it enters the queue, or, its team being FAILED, is discarded and its signers keep the cause
(R194). -/
def State.enqueueOp (s : State) (core : Nat) (o : MatrixOp) : State :=
  let g := s.gridOf o.team
  let c := s.core core
  if c.mrefused.any fun v => victimHits v g.vdev g.ctx then s
  else match (s.team o.team).mfailed with
  | some k => s.keepFor o.team o.signers k
  | none =>
    { s.setCore core { c with mq := c.mq ++ [{ o with id := s.nextId }] } with nextId := s.nextId + 1 }

/-- A new operation. -/
def newOp (team : Nat) (signers : List Nat) (after : List After) (kind : MatKind) (pc : BitVec 56) (q : BitVec 128)
    (maps : List (BitVec 128)) : MatrixOp :=
  ⟨0, team, signers, after, kind, pc, q, maps, false, 0, 0, 0, 0, 0, none, 0, 0, false⟩

/-- An operation whose sole signer is the issuing group. -/
def Issue.issueOp (i : Issue) (s : State) (kind : MatKind) (q : BitVec 128) (maps : List (BitVec 128)) : State :=
  s.enqueueOp (slotCore i.site.slot) (newOp i.g.team [i.g.num] [i.afterNow] kind i.site.pc q maps)

/-- The value of an S quad. -/
def Issue.quadOf (i : Issue) (f : RegField) : BitVec 128 := BitVec.ofNat 128 (ofWords (i.sregs f 4))

/-- MMA and MMAS (R199). -/
def mmInstr (sp : Bool) (d : RegField) (t : Tail) (s : State) : Host.Outcome State Fault Refusal :=
  let f : Form := { cls := .matrix, srcs := [runOpnd d 4], bad := fun _ => badRunAt 4 d }
  issue f t s fun i s => do
    let q := i.quadOf d
    let maps ← s.checkOp i q (some sp)
    s.queueRoom i
    .ok (i.issueOp s .mm q maps, 0)

/-- MMA (R199). -/
def execMma (d : RegField) (t : Tail) (s : State) : Host.Outcome State Fault Refusal := mmInstr false d t s

/-- MMAS (R199). -/
def execMmas (d : RegField) (t : Tail) (s : State) : Host.Outcome State Fault Refusal := mmInstr true d t s

/-! ## The accumulator instructions (R203) -/

/-- A tile beyond the grant (R203). -/
def State.tileOk (s : State) (i : Issue) (n : Nat) : Except Stop Unit :=
  refuseIf (decide ((s.gridOf i.g.team).accn ≤ n)) .matrixShape

/-- The row stride of an address quad: 0 means 256 (R203). -/
def quadStride (q : BitVec 128) : Nat := if quadField q 64 32 = 0 then 256 else quadField q 64 32

/-- The row of a tile in memory (R203): row i of plane j. -/
def tileRow (q : BitVec 128) (ts i j : Nat) : Nat := addAddr (quadField q 0 64) ((i * quadStride q + j * ts : Nat) : Int)

/-- The checks of an address quad (R203). -/
def State.checkQuad (s : State) (i : Issue) (q : BitVec 128) (f32Tile : Bool) : Except Stop Unit := do
  let g := s.gridOf i.g.team
  let stride := quadField q 64 32
  refuseIf (stride != 0 && decide (stride < 256)) .matrixShape
  requireA (decide (quadField q 0 64 % 16 = 0 ∧ stride % 16 = 0)) .align (q.extractLsb' 0 64)
  barAlign (quadField q 96 32)
  s.barRange i.g.team (quadField q 96 32)
  let planes := if f32Tile then g.tangents + 1 else 1
  s.spansOk i.g.team ((List.range planes).flatMap fun j => (List.range 64).map fun r => (tileRow q g.tstride r j, 256))
  refuseIf (f32Tile && g.tangents != 0 && g.tstride == 0) .tangentUnsupported

/-- MMZ (R203). -/
def execMmz (g : BitVec 1) (n : BitVec 6) (t : Tail) (s : State) : Host.Outcome State Fault Refusal :=
  issue { cls := .matrix } t s fun i s => do
    s.tileOk i n.toNat
    s.queueRoom i
    .ok (i.issueOp s (.mmz n.toNat (g == 1)) 0 [], 0)

/-- ACCLD (R203). -/
def execAccld (g : BitVec 1) (n : BitVec 6) (a : RegField) (t : Tail) (s : State) : Host.Outcome State Fault Refusal :=
  let f : Form := { cls := .matrix, srcs := [runOpnd a 4], bad := fun _ => badRunAt 4 a }
  issue f t s fun i s => do
    s.tileOk i n.toNat
    s.checkQuad i (i.quadOf a) (g == 0)
    s.queueRoom i
    .ok (i.issueOp s (.accld n.toNat (g == 1)) (i.quadOf a) [], 0)

/-- ACCST (R203). -/
def execAccst (n : BitVec 6) (a : RegField) (t : Tail) (s : State) : Host.Outcome State Fault Refusal :=
  let f : Form := { cls := .matrix, srcs := [runOpnd a 4], bad := fun _ => badRunAt 4 a }
  issue f t s fun i s => do
    s.tileOk i n.toNat
    s.checkQuad i (i.quadOf a) (!(s.tagsMet i.g.team).contains n.toNat)
    s.queueRoom i
    .ok (i.issueOp s (.accst n.toNat) (i.quadOf a) [], 0)

/-- ACCMV (R203). -/
def execAccmv (ty u : BitVec 6) (t : Tail) (s : State) : Host.Outcome State Fault Refusal :=
  issue { cls := .matrix } t s fun i s => do
    s.tileOk i ty.toNat
    s.tileOk i u.toNat
    s.queueRoom i
    .ok (i.issueOp s (.accmv ty.toNat u.toNat) 0 [], 0)

/-- ACCADD (R203). -/
def execAccadd (g : BitVec 1) (ty u : BitVec 6) (t : Tail) (s : State) : Host.Outcome State Fault Refusal :=
  issue { cls := .matrix } t s fun i s => do
    s.tileOk i ty.toNat
    s.tileOk i u.toNat
    let tags := s.tagsMet i.g.team
    refuseIf (tags.contains ty.toNat != tags.contains u.toNat || (g == 1 && !tags.contains ty.toNat)) .matrixFormat
    s.queueRoom i
    .ok (i.issueOp s (.accadd ty.toNat u.toNat (g == 1)) 0 [], 0)

/-! ## Maps and musters (R200 to R202) -/

/-- OMSET (R200). -/
def execOmset (n : BitVec 4) (a : RegField) (t : Tail) (s : State) : Host.Outcome State Fault Refusal :=
  let f : Form := { cls := .matrix, srcs := [runOpnd a 4], bad := fun _ => badRunAt 4 a }
  issue f t s fun i s => do
    let m := i.quadOf a
    let tm := s.team i.g.team
    refuseIf (decide ((s.gridOf i.g.team).omn ≤ n.toNat) || quadField m 56 8 != 0 || quadField m 115 13 != 0 ||
      mapBase m % 16 != 0 || quadField m 64 32 % 16 != 0 || mapRstride m % 16 != 0 ||
      (mapType m == 3 && mapRstride m != 0)) .matrixShape
    .ok (s.setTeam i.g.team { tm with maps := tm.maps.put n.toNat m }, 0)

/-- A muster that nothing has configured (R187). -/
def Muster.none : Muster := ⟨0, 0, 0, [], 0, []⟩

/-- The groups that a team began with (R260). -/
def State.teamGroups (s : State) (team : Nat) : Nat := (s.gridOf team).field 0x10 46 42

/-- MSTCFG (R201). -/
def execMstcfg (m : BitVec 4) (a : RegField) (t : Tail) (s : State) : Host.Outcome State Fault Refusal :=
  let f : Form := { cls := .matrix, srcs := [{ f := a, tan := false }], bad := fun _ => !isSZ a }
  issue f t s fun i s => do
    let v := ((i.read 0 { f := a, tan := false } 0).headD 0).toNat % 2 ^ 32
    let tm := s.team i.g.team
    let x := tm.musters.getD m.toNat Muster.none
    refuseIf (decide ((s.gridOf i.g.team).musn ≤ m.toNat) || decide (65536 ≤ v) || decide (2 ^ s.teamGroups i.g.team ≤ v) ||
      x.signed != 0) .musterMismatch
    .ok (s.setTeam i.g.team { tm with musters := tm.musters.put m.toNat { Muster.none with mask := v } }, 0)

/-- A completed muster issues its operation (R202). -/
def State.musterIssue (s : State) (core team m : Nat) (x : Muster) : State :=
  let tm := s.team team
  let s := s.setTeam team { tm with musters := tm.musters.put m { Muster.none with mask := x.mask } }
  s.enqueueOp core (newOp team ((List.range 16).filter (bit x.signed)) x.after .mm x.pc x.desc x.maps)

/-- MSIGN (R202). -/
def execMsign (m : BitVec 4) (a : RegField) (t : Tail) (s : State) : Host.Outcome State Fault Refusal :=
  let f : Form := { cls := .matrix, srcs := [runOpnd a 4], bad := fun _ => badRunAt 4 a }
  issue f t s fun i s => do
    let q := i.quadOf a
    let maps ← s.checkOp i q none
    let tm := s.team i.g.team
    let x := tm.musters.getD m.toNat Muster.none
    refuseIf (decide ((s.gridOf i.g.team).musn ≤ m.toNat) || !bit x.mask i.g.num || bit x.signed i.g.num ||
      (x.signed != 0 && x.desc != q)) .musterMismatch
    let y : Muster := { x with
      signed := x.signed + 2 ^ i.g.num, desc := q, maps := if x.signed = 0 then maps else x.maps, pc := i.site.pc,
      after := i.afterNow :: x.after }
    if y.signed = y.mask then do
      s.queueRoom i
      .ok (s.musterIssue (slotCore i.site.slot) i.g.team m.toNat y, 0)
    else .ok (s.setTeam i.g.team { tm with musters := tm.musters.put m.toNat y }, 0)

/-- A declared group that retires without signing is removed from the masks of its team's musters; a muster that this completes
issues (R202), whatever the room in the queue (DESIGN CHOICE: log 66). -/
def State.musterRetire (s : State) (team num : Nat) : State :=
  (s.team team).musters.foldl (fun s x =>
    let y := x.2
    if bit y.mask num && !bit y.signed num then
      let z := { y with mask := y.mask - 2 ^ num }
      if z.signed = z.mask && z.signed != 0 then s.musterIssue (s.team team).core team x.1 z
      else
        let tm := s.team team
        s.setTeam team { tm with musters := tm.musters.put x.1 z }
    else s) s

/-! ## MMWAIT and MMSTAT (R204, R205) -/

/-- MMWAIT (R204). -/
def execMmwait (t : Tail) (s : State) : Host.Outcome State Fault Refusal :=
  issue { cls := .matrix } t s fun i s =>
    if s.matrixCount i.g != 0 then .error (i.suspend s .matrix)
    else match i.g.mkept with
      | k :: _ => .error (.trap { cause := k.cause, addr := k.addr, aux := k.pc.setWidth 64, after := true, clears := some 0,
                                        replayed := k.replayed })
      | [] => .ok (s.discard (slotCore i.site.slot) 3, 0)

/-- MMSTAT (R205). -/
def execMmstat (d : RegField) (c : BitVec 1) (t : Tail) (s : State) : Host.Outcome State Fault Refusal :=
  let f : Form := { cls := .matrix, dst := some { f := d, width := 2 }, rule := .anyS,
                    bad := fun _ => !isS d && !isV d }
  issue f t s fun i s =>
    let tm := s.team i.g.team
    let kept := ((i.g.mkept.head?.map fun k => k.cause.code).getD 0)
    let lo := tm.mflags.toNat % 32 + 256 * min 255 (s.matrixCount i.g) + 2 ^ 16 * kept +
      (if tm.mfailed.isSome then 2 ^ 24 else 0)
    let own := s.owner i.g
    let hi := min (2 ^ 32 - 1) (s.ctx own.1 own.2).reruns
    let s := if c = 1 then s.setTeam i.g.team { tm with mflags := 0 } else s
    .ok (i.writeOnce s d [BitVec.ofNat 32 lo, BitVec.ofNat 32 hi], 0)

/-! ## The accumulator store -/

/-- A plane of zeros. -/
def zeroPlane : List Word := List.replicate 4096 0

/-- Plane j of a tile: 0 the tile, j its shadow Dj (R187). -/
def Team.plane (t : Team) (tile j : Nat) : List Word := t.acc.getD (8 * tile + j) zeroPlane

/-- Set a plane; every word of it is stored with its residue (R186). -/
def Team.setPlane (t : Team) (tile j : Nat) (p : List Word) : Team :=
  { t with accCodes := t.accCodes.filter (fun x => x.1 != 8 * tile + j), acc := if p.all (· == 0) then t.acc.del (8 * tile + j) else t.acc.put (8 * tile + j) p }

/-- A word of a plane whose stored residue is not that of its value (R186). -/
def Team.accMismatch (t : Team) (key : Nat) : Bool :=
  t.accCodes.any fun x => x.1 == key && x.2.2 != residue ((t.plane (key / 8) (key % 8)).getD x.2.1 0)

/-- Set every plane of a tile from a function of its number. -/
def Team.setPlanes (t : Team) (tile k : Nat) (f : Nat → List Word) : Team :=
  (List.range (k + 1)).foldl (fun t j => t.setPlane tile j (f j)) t

/-- Set a row of a plane. -/
def setRow (p : List Word) (i : Nat) (r : List Word) : List Word := p.take (64 * i) ++ r ++ p.drop (64 * i + 64)

/-! ## One k-step (R43 to R46, R189, R190) -/

/-- The bits of a bitmap panel (R190). -/
def bitsOf (bs : List (BitVec 8)) : List Bool := bs.flatMap fun b => (List.range 8).map fun n => b.getLsbD n

/-- Cut bytes into elements of `es` bytes. -/
def elements (es : Nat) (bs : List (BitVec 8)) : List Nat :=
  (List.range (bs.length / es)).map fun n => ofBytes ((bs.drop (n * es)).take es)

/-- Spread packed elements over the places whose bits are 1 (R190). -/
def unpack : List Bool → List Nat → List (Option Nat)
  | [], _ => []
  | true :: bs, x :: xs => some x :: unpack bs xs
  | true :: bs, [] => none :: unpack bs []
  | false :: bs, xs => none :: unpack bs xs

/-- The products that are formed between a row of A and a column of B (R45). -/
def formed (a b : List (Option Nat)) : List (Nat × Nat) :=
  (a.zip b).filterMap fun x => match x with
    | (some p, some q) => some (p, q)
    | _ => none

/-- One element's accumulation in one k-step (R43, R44, R45). -/
def accumulate (ty : Nat) (satu : Bool) (ps : List (Nat × Nat)) (c : Word) : Word × BitVec 6 :=
  if ty = 2 then
    let p := ps.foldl (fun (x : Int) y => x + (BitVec.ofNat 8 y.1).toInt * (BitVec.ofNat 8 y.2).toInt) 0
    let v := c.toInt + p
    (BitVec.ofInt 32 (if satu then sat v (-(2 ^ 31)) (2 ^ 31 - 1) else v), 0)
  else
    let f := elemFmt ty
    let p := (sumOf (ps.map fun y => prodOf [f.value y.1, f.value y.2])).toFmt f32 .nearest false 0
    let r := f32.sumProd false 0 [[p.1], [c.toNat]]
    (BitVec.ofNat 32 r.1, p.2 ||| r.2)

/-- The accumulation of one row of A into a row of C; `cols` are the columns of B. -/
def accumulateRow (ty : Nat) (satu : Bool) (a : List (Option Nat)) (cols : List (List (Option Nat))) (c : List Word) :
    List Word × BitVec 6 :=
  let r := (cols.zip c).map fun x => accumulate ty satu (formed a x.1) x.2
  (r.map Prod.fst, r.foldl (fun f x => f ||| x.2) 0)

/-- The columns of B from its 32 rows of 64 elements. -/
def columnsOf (rows : List (List (Option Nat))) : List (List (Option Nat)) :=
  (List.range 64).map fun n => rows.map fun r => (r[n]?).getD none

/-- Cut a list into rows of `n`. -/
def rowsOf {α : Type} (n : Nat) : Nat → List α → List (List α)
  | 0, _ => []
  | m + 1, l => l.take n :: rowsOf n m (l.drop n)

/-- The operands of a pass (R46): the shadows of A and of B that it reads, and the plane of C. -/
def passOf (p : Nat) : Nat × Nat × Nat :=
  if p = 0 then (0, 0, 0) else if p % 2 = 1 then ((p + 1) / 2, 0, (p + 1) / 2) else (0, p / 2, p / 2)

/-- The number of passes of an operation (R46, R48, R198), or of planes of an accumulator instruction. -/
def MatrixOp.passes (o : MatrixOp) (t : Team) (k : Nat) : Nat :=
  match o.kind with
  | .mm => if mapType (o.maps.getD 0 0) = 2 then 1 else 1 + 2 * k
  | .accld _ s32 => if s32 then 1 else 1 + k
  | .accst n => if t.s32.contains n then 1 else 1 + k
  | _ => 1

/-- The operation has done all its steps. -/
def MatrixOp.finished (o : MatrixOp) (t : Team) (k : Nat) : Bool := o.begun && decide (o.passes t k ≤ o.pass)

/-- What a step of the unit gives: the operation goes on, stops with a cause, waits on an absent page, or waits. -/
inductive OpFate where
  | go (o : MatrixOp)
  | stop (o : MatrixOp) (e : EngStop)

/-- The bitmap rows of a packed panel (R190): 64 rows of 32 bits for A, 32 of 64 for B. -/
def bitRows (isB : Bool) (bs : List (BitVec 8)) : List (List Bool) := rowsOf (if isB then 64 else 32) (if isB then 32 else 64) (bitsOf bs)

/-- The packed rows of a panel in memory, from the panel's address on (R190). -/
def packedRows (es : Nat) : Nat → List (List Bool) → List (Nat × Nat)
  | _, [] => []
  | ea, b :: bs => (ea, es * b.countP id) :: packedRows es (addAddr ea (es * b.countP id : Nat)) bs

/-- The bitmaps of a sparse step, and SPARSE_BITMAP for a packed panel that would pass its extent (R190, R194). -/
def State.sparseMaps (s : State) (w : Agent) (o : MatrixOp) (offA offB : Int) :
    State × Except EngStop (List (List Bool) × List (List Bool)) :=
  let a := o.maps.getD 0 0
  let b := o.maps.getD 1 0
  let es := elemSize (mapType a)
  match s.unitRead w o.team (some .engineRead) [(panelAt (o.maps.getD 2 0) o.step 0, 256), (panelAt (o.maps.getD 3 0) o.step 0, 256)] with
  | (s, .error e) => (s, .error e)
  | (s, .ok maps) =>
    let ma := bitRows false (maps.getD 0 [])
    let mb := bitRows true (maps.getD 1 [])
    if (mapPstride a).natAbs < es * ma.flatten.countP id then (s, .error (.cause .sparseBitmap (panelAt a o.step offA)))
    else if (mapPstride b).natAbs < es * mb.flatten.countP id then (s, .error (.cause .sparseBitmap (panelAt b o.step offB)))
    else (s, .ok (ma, mb))

/-- Apply rows of A, from row `r0` on, to plane `j` of the tile (R43 to R45): the new plane, the exceptions, the products formed. -/
def applyRows (ty : Nat) (satu : Bool) (cols : List (List (Option Nat))) :
    List (List (Option Nat)) → Nat → List Word → List Word × BitVec 6 × Nat
  | [], _, c => (c, 0, 0)
  | a :: as, r, c =>
    let x := accumulateRow ty satu a cols ((c.drop (64 * r)).take 64)
    let y := applyRows ty satu cols as (r + 1) (setRow c r x.1)
    (y.1, x.2 ||| y.2.1, cols.foldl (fun n b => n + (formed a b).length) 0 + y.2.2)

/-- The tile before step 0 (R199, R48): INIT clears it and sets its tag; an INT8 operation writes +0 to every shadow. -/
def MatrixOp.start (o : MatrixOp) (t : Team) (k : Nat) : Team :=
  match o.kind with
  | .mm =>
    let isInt := mapType (o.maps.getD 0 0) == 2
    let n := opAcc o.quad
    if opInit o.quad then (t.setPlanes n k fun _ => zeroPlane).setTag n isInt
    else if isInt then t.setPlanes n k fun j => if j = 0 then t.plane n 0 else zeroPlane
    else t
  | _ => t

/-- Write rows of C back: the team's plane and FLAGS. -/
def State.putPlane (s : State) (team tile j : Nat) (p : List Word) (fl : BitVec 6) : State :=
  let t := s.team team
  s.setTeam team { (t.setPlane tile j p) with mflags := t.mflags ||| (fl &&& 0x1F) }

/-- The array clocks of a pass, rounded up from its products (R193). -/
def MatrixOp.passClocks (o : MatrixOp) : Nat :=
  let unit := if mapType (o.maps.getD 0 0) = 1 then 32768 else 131072
  (o.work + unit - 1) / unit

/-- The progress after the last row of a step: its products count for at least `least` (R193). -/
def MatrixOp.nextStep (o : MatrixOp) (steps bytes made least : Nat) : MatrixOp :=
  let o := { o with row := 0, bytes := o.bytes + bytes, work := o.work + max (o.formed + made) least, formed := 0, parked := none, rerun := false }
  if o.step + 1 < steps then { o with step := o.step + 1 }
  else { o with step := 0, pass := o.pass + 1, spent := o.spent + o.passClocks, work := 0 }

/-- One k-step of a dense operation (R189, R195): rows of A before one that stops are completed with the B panel. -/
def State.denseStep (s : State) (w : Agent) (o : MatrixOp) : State × OpFate :=
  let ts := (s.gridOf o.team).tstride
  let a := o.maps.getD 0 0
  let b := o.maps.getD 1 0
  let ty := mapType a
  let (sa, sb, j) := passOf o.pass
  match s.rowsLocs w o.team (some .engineRead) .load (panelRows b true o.step ((sb * ts : Nat) : Int)) with
  | (s, _, some e) => (s, .stop o e)
  | (s, brows, none) =>
    match s.rowsLocs w o.team (some .engineRead) .load ((panelRows a false o.step ((sa * ts : Nat) : Int)).drop o.row) with
    | (s, arows, e) =>
      match s.readRows w (brows ++ arows) with
      | (s, .error e) => (s, .stop o e)
      | (s, .ok got) =>
        let es := elemSize ty
        let elems (bs : List (BitVec 8)) : List (Option Nat) := (elements es bs).map some
        let cols := columnsOf ((got.take 32).map elems)
        let tile := opAcc o.quad
        let r := applyRows ty (opSat o.quad) cols ((got.drop 32).map elems) o.row ((s.team o.team).plane tile j)
        let s := s.putPlane o.team tile j r.1 r.2.1
        match e with
        | some e => (s, .stop { o with row := o.row + arows.length, formed := o.formed + r.2.2 } e)
        | none => (s, .go (o.nextStep (opSteps o.quad) (4096 * es) r.2.2 0))

/-- Locate the packed rows of A from the row of progress on: an empty one needs no fetch. -/
def State.packedLocs (s : State) (w : Agent) (team : Nat) :
    List (Nat × Nat) → State × List (List (Nat × Nat × Loc)) × Option EngStop
  | [] => (s, [], none)
  | (ea, n) :: rs => match (if n = 0 then (s, .ok []) else s.rowLocs w team (some .engineRead) .load ea n) with
    | (s, .error e) => (s, [], some e)
    | (s, .ok ls) => match s.packedLocs w team rs with
      | (s, more, e) => (s, ls :: more, e)

/-- One k-step of a sparse operation (R190, R195): the bitmaps and the B panel are fetched first; rows of A before one that stops are completed
with them. -/
def State.sparseStep (s : State) (w : Agent) (o : MatrixOp) : State × OpFate :=
  let ts := (s.gridOf o.team).tstride
  let a := o.maps.getD 0 0
  let b := o.maps.getD 1 0
  let ty := mapType a
  let es := elemSize ty
  let (sa, sb, j) := passOf o.pass
  let offA := ((sa * ts : Nat) : Int)
  let offB := ((sb * ts : Nat) : Int)
  match s.sparseMaps w o offA offB with
  | (s, .error e) => (s, .stop o e)
  | (s, .ok (ma, mb)) =>
    let nb := es * mb.flatten.countP id
    match s.packedLocs w o.team [(panelAt b o.step offB, nb)] with
    | (s, _, some e) => (s, .stop o e)
    | (s, brow, none) =>
      match s.packedLocs w o.team ((packedRows es (panelAt a o.step offA) ma).drop o.row) with
      | (s, arows, e) =>
        match s.readRows w (brow ++ arows) with
        | (s, .error e) => (s, .stop o e)
        | (s, .ok got) =>
          let cols := columnsOf (rowsOf 64 32 (unpack mb.flatten (elements es (got.headD []))))
          let rows := ((ma.drop o.row).zip (got.drop 1)).map fun x => unpack x.1 (elements es x.2)
          let tile := opAcc o.quad
          let r := applyRows ty (opSat o.quad) cols rows o.row ((s.team o.team).plane tile j)
          let s := s.putPlane o.team tile j r.1 r.2.1
          match e with
          | some e => (s, .stop { o with row := o.row + rows.length, formed := o.formed + r.2.2 } e)
          | none => (s, .go (o.nextStep (opSteps o.quad) (es * ma.flatten.countP id + nb + 512) r.2.2 32768))

/-- One tile row of ACCLD or ACCST (R203): row `step` of plane `pass`. -/
def State.tileStep (s : State) (w : Agent) (o : MatrixOp) (tile : Nat) (load : Bool) : State × OpFate :=
  let ea := tileRow o.quad (s.gridOf o.team).tstride o.step o.pass
  if load then
    match s.unitRead w o.team (some .engineRead) [(ea, 256)] with
    | (s, .error e) => (s, .stop o e)
    | (s, .ok got) =>
      let t := s.team o.team
      let p := setRow (t.plane tile o.pass) o.step (wordsOf got.flatten)
      let others := t.accCodes.filter fun x => x.1 != 8 * tile + o.pass || x.2.1 / 64 != o.step
      (s.setTeam o.team { t.setPlane tile o.pass p with accCodes := others }, .go (o.nextStep 64 256 0 0))
  else
    let row := (((s.team o.team).plane tile o.pass).drop (64 * o.step)).take 64
    match s.unitWrite w o.team (some .groupStore) ea (bytesOf row) with
    | (s, .error e) => (s, .stop o e)
    | (s, .ok ()) => (s, .go (o.nextStep 64 256 0 0))

/-- The sum of two planes (R203): F32 by rne, shadows by the sum rule, S32 modulo 2^32 or saturated. -/
def addPlanes (s32 satu shadow : Bool) (x y : List Word) : List Word × BitVec 6 :=
  let one (a b : Word) : Word × BitVec 6 :=
    if s32 then
      let v := a.toInt + b.toInt
      (BitVec.ofInt 32 (if satu then sat v (-(2 ^ 31)) (2 ^ 31 - 1) else v), 0)
    else if shadow && f32.isZero a.toNat && f32.isZero b.toNat then (0, 0)
    else
      let r := f32.sumProd false 0 [[a.toNat], [b.toNat]]
      (BitVec.ofNat 32 r.1, r.2)
  let r := (x.zip y).map fun p => one p.1 p.2
  (r.map Prod.fst, r.foldl (fun f p => f ||| p.2) 0)

/-- One step of an operation. -/
def State.opStep (s : State) (w : Agent) (o : MatrixOp) : State × OpFate :=
  let k := (s.gridOf o.team).tangents
  let t := s.team o.team
  let last : OpFate := .go { o with pass := 1 }
  match o.kind with
  | .mm => if opSparse o.quad then s.sparseStep w o else s.denseStep w o
  | .accld n _ => s.tileStep w o n true
  | .accst n => s.tileStep w o n false
  | .mmz n s32 => (s.setTeam o.team ((t.setPlanes n k fun _ => zeroPlane).setTag n s32), last)
  | .accmv d n => (s.setTeam o.team ((t.setPlanes d k fun j => t.plane n j).setTag d (t.s32.contains n)), last)
  | .accadd d n satu =>
    let s32 := t.s32.contains d
    let sums := (List.range (k + 1)).map fun j => addPlanes s32 satu (j != 0) (t.plane d j) (t.plane n j)
    let t := t.setPlanes d k fun j => if s32 && j != 0 then zeroPlane else (sums.getD j ([], 0)).1
    let fl := sums.foldl (fun (f : BitVec 6) x => f ||| x.2) 0
    (s.setTeam o.team { t with mflags := t.mflags ||| (fl &&& 0x1F) }, last)

/-! ## The unit at work -/

/-- Change an operation of a core's queue. -/
def State.putOp (s : State) (core : Nat) (o : MatrixOp) : State :=
  let c := s.core core
  s.setCore core { c with mq := c.mq.map fun x => if x.id = o.id then o else x }

/-- A T cause of an operation (R194): its signers keep it, its team becomes FAILED, and every queued operation of the team is
discarded; with no group left that holds the cause, FAILED clears. -/
def State.failOp (s : State) (core : Nat) (o : MatrixOp) (c : Cause) (ea : Nat) : State :=
  let k : Kept := ⟨c, some (BitVec.ofNat 64 ea), o.pc, o.parked.isSome⟩
  let x := s.core core
  let gone := x.mq.filter fun y => y.team == o.team
  let s := s.setCore core { x with mq := x.mq.filter fun y => y.team != o.team }
  let s := s.setTeam o.team { s.team o.team with mfailed := some k }
  (gone.foldl (fun s y => s.keepFor y.team y.signers k) (s.keepFor o.team o.signers k)).settleFailed o.team

/-- The first operation of a team in a core's queue (R192). -/
def Core.headOp (c : Core) (team : Nat) : Option MatrixOp := c.mq.find? fun o => o.team == team

/-- A team's engines go on: its context is ACTIVE, the team is not pre-empted, the unit does not refuse it (R206, R217). -/
def State.teamGoes (s : State) (refused : List Victim) (team : Nat) : Bool :=
  let g := s.gridOf team
  s.isActive g.vdev g.ctx && !(s.team team).held && !refused.any fun v => victimHits v g.vdev g.ctx

/-- An operation can run a step now: it is its team's first, what it stands after is performed, and it is not parked. -/
def State.opReady (s : State) (core : Nat) (o : MatrixOp) : Bool :=
  let c := s.core core
  c.headOp o.team == some o && s.teamGoes c.mrefused o.team &&
  !s.stillParked (coreDie core) o.parked && (o.begun || o.after.all (s.afterMet o.team))

/-- The tag of an operation's accesses. -/
def opTag (team op : Nat) : Nat := 2 ^ 100 * (team + 1) + op

/-- The operation of a tag. -/
def opOfTag (tag : Nat) : Nat := tag % 2 ^ 100

/-- A tag is that of an operation or a channel of a team. -/
def tagOfTeam (team tag : Nat) : Bool :=
  if 2 ^ 100 ≤ tag then tag / 2 ^ 100 == team + 1 else decide (2 ^ 40 ≤ tag) && decide (tag < 2 ^ 50) && (tag - 2 ^ 40) / 16 == team

/-- The team whose operation runs the next step: the teams take turns at step boundaries (R192). -/
def State.opTurn (s : State) (core : Nat) : Option Nat :=
  let c := s.core core
  turnAfter c.mturn ((c.mq.filter fun o => s.opReady core o && !o.finished (s.team o.team) (s.gridOf o.team).tangents).map MatrixOp.team)

/-- The planes whose words an operation reads in its next step (R186). -/
def MatrixOp.readsPlanes (o : MatrixOp) (k : Nat) : List Nat :=
  match o.kind with
  | .mm => if !o.begun && opInit o.quad then [] else [8 * opAcc o.quad + (passOf o.pass).2.2]
  | .accst n => [8 * n + o.pass]
  | .accmv _ n => (List.range (k + 1)).map fun j => 8 * n + j
  | .accadd d n _ => (List.range (k + 1)).flatMap fun j => [8 * d + j, 8 * n + j]
  | _ => []

/-- The sums of a step that the multiplier array has computed disagree (R197): the first time the step is computed again from refetched panels,
and the rerun is counted and reported; the second time the context is contained. -/
def State.assayStep (s : State) (core : Nat) (w : Agent) (o : MatrixOp) : State :=
  let c := s.core core
  let s := s.setCore core { c with assayBad := c.assayBad - 1 }
  if o.rerun then s.containEngine core o.team w.vdev w.ctx o.signers .matrixCheck .matrix 0 o.pc o.parked.isSome
  else
    let x := s.ctx w.vdev w.ctx
    let s := s.setCtx w.vdev w.ctx { x with reruns := x.reruns + 1 }
    (s.report (.rerun w.vdev w.ctx (s.team o.team).index o.pc)).putOp core { o with rerun := true }

/-- The array computes products for the operation. -/
def MatrixOp.multiplies (o : MatrixOp) : Bool := o.kind == .mm

/-- MATRIX_STEP (R43 to R46, R189 to R195, R203): one k-step of one pass of an operation, one tile row of ACCLD or ACCST, or a whole
MMZ, ACCMV or ACCADD. -/
def execMatrixStep (core op : Nat) (s : State) : Host.Outcome State Fault Refusal :=
  match (s.core core).mq.find? fun o => o.id == op with
  | none => .next s
  | some o =>
    let k := (s.gridOf o.team).tangents
    if !s.opReady core o || o.finished (s.team o.team) k || s.opTurn core != some o.team then .next s
    else
      let w := s.agentOf (opTag o.team op) .matrix o.team
      let s := s.setCore core { s.core core with mturn := o.team }
      if (o.readsPlanes k).any (s.team o.team).accMismatch then
        .next (s.containEngine core o.team w.vdev w.ctx o.signers .residue .matrix 0 o.pc o.parked.isSome)
      else
      let s := if o.begun then s else s.setTeam o.team (o.start (s.team o.team) k)
      match s.opStep w { o with begun := true } with
      | (s', .go o') =>
        if o.multiplies && decide (0 < (s.core core).assayBad) then .next (s.assayStep core w { o with begun := true })
        else
        let s := s'
        let o := o'
        let s := s.putOp core o
        .next (match o.kind with
          | .accld n s32 =>
            if o.finished (s.team o.team) k then
              let t := (s.team o.team).setTag n s32
              s.setTeam o.team (if s32 then t.setPlanes n k fun j => if j = 0 then t.plane n 0 else zeroPlane else t)
            else s
          | _ => s)
      | (s, .stop o .hold) => .next (s.putOp core o)
      | (s, .stop o (.absent ea gpa)) =>
        let wr := match o.kind with
          | .accst _ => true
          | _ => false
        match s.agentPark w wr ea gpa o.parked with
        | none => .next (s.putOp core o)
        | some (s, q) => .next (s.putOp core { o with parked := some q })
      | (s, .stop o (.cause c ea)) =>
        if c.kind = .F then .next ((s.putOp core o).containEngine core o.team w.vdev w.ctx o.signers c .matrix ea o.pc o.parked.isSome)
        else .next (s.failOp core o c ea)

/-- The array clocks of an operation (R193). -/
def MatrixOp.clocks (o : MatrixOp) (k : Nat) : Nat :=
  match o.kind with
  | .mm => o.spent
  | .accld _ _ => 16 * (1 + k)
  | .accst _ => 16 * (1 + k)
  | _ => 4 * (1 + k)

/-- The barrier that an operation names (R191, R203). -/
def MatrixOp.bar (o : MatrixOp) : Nat :=
  match o.kind with
  | .mm => opBar o.quad
  | .accld _ _ => quadField o.quad 96 32
  | .accst _ => quadField o.quad 96 32
  | _ => noBarrier

/-- MATRIX_COMPLETE (R196): the operation leaves the queue and its bytes are counted; an overflow is kept by its signers, and its team
becomes FAILED. -/
def execMatrixComplete (core op : Nat) (s : State) : Host.Outcome State Fault Refusal :=
  match (s.core core).mq.find? fun o => o.id == op with
  | none => .next s
  | some o =>
    let k := (s.gridOf o.team).tangents
    if !s.opReady core o || !o.finished (s.team o.team) k || s.agentWaits (s.agentOf (opTag o.team op) .matrix o.team) then .next s
    else
      let c := s.core core
      let s := s.setCore core { c with mq := c.mq.filter fun x => x.id != op }
      let g := s.gridOf o.team
      let d := s.vdev g.vdev
      let s := s.setVdev g.vdev { d with meters := d.meters.set 1 (d.meters.get 1 + BitVec.ofNat 64 (o.clocks k)) }
      match s.countFor o.team o.bar o.bytes with
      | (s, false) => .next s
      | (s, true) => .next (s.failOp core o .barrierOverflow (barAddr o.bar))

end Sys2Proof.Machine
end

