-- ==== Sys2Proof/Machine/Narrow.lean ====
section
/-! DEFINITION. The narrow formats (R36 to R42): format registers, codes, expansion, compression, and the packing of storage rows
(R29, R212). -/

namespace Sys2Proof.Machine

/-! ## Format registers (R36) -/

/-- The fields of a format register. -/
structure Narrow where
  total : Nat
  ebits : Nat
  sign : Bool
  spec : Nat
  nzr : Bool
  bsm : Bool
  pack : Nat
  bias : Int
  /-- a C16 code -/
  xval : Nat
  deriving DecidableEq, Repr

/-- The fields of a 64-bit value. -/
def Narrow.of (v : BitVec 64) : Narrow :=
  { total := (v.extractLsb' 0 4).toNat, ebits := (v.extractLsb' 4 4).toNat, sign := v.getLsbD 8,
    spec := (v.extractLsb' 9 2).toNat, nzr := v.getLsbD 11, bsm := v.getLsbD 12,
    pack := (v.extractLsb' 13 2).toNat, bias := (v.extractLsb' 16 8).toInt, xval := (v.extractLsb' 32 16).toNat }

/-- The mantissa width M. -/
def Narrow.m (f : Narrow) : Nat := f.total - (if f.sign then 1 else 0) - f.ebits

/-- The sign bit of a code. -/
def Narrow.neg (f : Narrow) (c : Nat) : Bool := f.sign && decide (c / 2 ^ (f.total - 1) % 2 = 1)

/-- The code without its sign bit. -/
def Narrow.rest (f : Narrow) (c : Nat) : Nat := c % 2 ^ (f.total - (if f.sign then 1 else 0))

/-- The code is the one that stands for XVAL (R37). -/
def Narrow.isX (f : Narrow) (c : Nat) : Bool := f.nzr && decide (c = 2 ^ (f.total - 1))

/-- An ordinary code's exponent field is 0: its value is 0 or subnormal (R37). -/
def Narrow.low (f : Narrow) (c : Nat) : Bool := decide (f.rest c / 2 ^ f.m = 0)

/-- The value of an ordinary code (R31, R37). -/
def Narrow.ordinary (f : Narrow) (c : Nat) : FVal :=
  let r := f.rest c
  let e := r / 2 ^ f.m
  let frac := r % 2 ^ f.m
  if f.spec = 1 && e + 1 == 2 ^ f.ebits then (if frac = 0 then .inf (f.neg c) else .nan false)
  else if f.spec = 2 && r + 1 == 2 ^ (f.total - (if f.sign then 1 else 0)) then .nan false
  else if e = 0 then .fin (f.neg c) frac (1 - f.bias - f.m)
  else .fin (f.neg c) (2 ^ f.m + frac) (e - f.bias - f.m)

/-- The value of a code (R37). -/
def Narrow.value (f : Narrow) (c : Nat) : FVal := if f.isX c then bf16.value f.xval else f.ordinary c

/-- Every code of a format. -/
def Narrow.codes (f : Narrow) : List Nat := List.range (2 ^ f.total)

/-- A finite value as an integer of units of `2^q`, for a `q` not above its exponent. -/
def FVal.units (v : FVal) (q : Int) : Option Int :=
  match v with
  | .fin n m e => some (if n then -((m * 2 ^ (e - q).toNat : Nat) : Int) else ((m * 2 ^ (e - q).toNat : Nat) : Int))
  | _ => none

/-- A value multiplied by `2^s`. -/
def FVal.scale (v : FVal) (s : Int) : FVal :=
  match v with
  | .fin n m e => .fin n m (e + s)
  | v => v

/-- The exponent of a finite value's unit. -/
def FVal.unitExp (v : FVal) : Int :=
  match v with
  | .fin _ _ e => e
  | _ => 0

/-- Two finite values are equal, ±0 counting as equal. -/
def FVal.same (x y : FVal) : Bool :=
  let q := min x.unitExp y.unitExp
  match x.units q, y.units q with
  | some a, some b => a == b
  | _, _ => false

/-- A value is exactly a finite C16 (R38). -/
def inC16 (v : FVal) : Bool :=
  match v with
  | .fin n m e => (bf16.round .nearest false n m e).2 == 0
  | _ => true

/-- FMTSET accepts a value (R38). -/
def Narrow.valid (v : BitVec 64) : Bool :=
  let f := Narrow.of v
  let sgn := if f.sign then 1 else 0
  v.extractLsb' 48 16 == 0 && v.extractLsb' 24 8 == 0 && !v.getLsbD 15 &&
  f.total != 0 && decide (f.total ≤ 8) && decide (sgn + f.ebits ≤ f.total) && f.spec != 3 &&
  !(f.spec == 1 && (decide (f.ebits < 2) || f.m == 0)) && !(f.spec == 2 && f.total == sgn) &&
  !(f.nzr && (!f.sign || decide (bf16.inf ≤ bf16.mag f.xval) ||
    f.codes.any fun c => !f.isX c && (f.ordinary c).same (bf16.value f.xval))) &&
  f.codes.all fun c =>
    (if f.bsm then List.range 64 else [32]).all fun s => inC16 ((f.value c).scale ((s : Int) - 32))

/-! ## Expansion and compression (R40 to R42) -/

/-- expand() to C16 or F32 (R40). -/
def Narrow.expand (f : Narrow) (tgt : Fmt) (s : Int) (c : Nat) : Nat :=
  match (f.value c).scale s with
  | .nan _ => tgt.nan
  | .inf n => tgt.signed n tgt.inf
  | .fin n m e => (tgt.round .nearest false n m e).1

/-- The members of C: finite codes (R41). -/
def Narrow.members (f : Narrow) : List Nat :=
  f.codes.filter fun c => match f.value c with
    | .fin _ _ _ => true
    | _ => false

/-- The largest ordinary finite code of the positive half (R41: maxC). -/
def Narrow.maxCode (f : Narrow) (q : Int) : Nat :=
  (f.members.filter fun c => !f.isX c && !f.neg c).foldl
    (fun b c => if ((f.value b).units q).getD 0 < ((f.value c).units q).getD 0 then c else b) 0

/-- The canonical NaN code of a format that has one (R41). -/
def Narrow.nanCode (f : Narrow) : Nat :=
  if f.spec = 1 then (2 ^ f.ebits - 1) * 2 ^ f.m + 2 ^ (f.m - 1)
  else 2 ^ (f.total - (if f.sign then 1 else 0)) - 1

/-- Of two candidate codes for a value `y` (in units of `2^q`), the one that compress() prefers when rounding to nearest (R41). -/
def Narrow.nearer (f : Narrow) (q y : Int) (b c : Nat) : Nat :=
  let d (x : Nat) := (((f.value x).units q).getD 0 - y).natAbs
  if d c < d b then c
  else if d b < d c then b
  else if ((f.value b).units q) = ((f.value c).units q) then b
  else if f.isX b then c
  else if f.isX c then b
  else if b % 2 = 0 then b else c

/-- The infinity code with a sign (R41). -/
def Narrow.infCode (f : Narrow) (neg : Bool) : Nat :=
  (2 ^ f.ebits - 1) * 2 ^ f.m + (if neg && f.sign then 2 ^ (f.total - 1) else 0)

/-- The exceptions of a conversion (R213): `y` and `v` in the same units. -/
def narrowFlags (differs over_ low : Bool) (y : Int) : BitVec 6 :=
  (if differs then flagNX else 0) ||| (if over_ then flagOF else 0) |||
  (if !over_ && y != 0 && differs && low then flagUF else 0)

/-- compress() (R41) with the exceptions of R213. Where the exponent field of maxC is 0, ulp(maxC) is taken at exponent 1, at which R37 values such
a code (DEDUCED: log 63). -/
def Narrow.compress (f : Narrow) (s : Int) (zero : Bool) (x : FVal) : Nat × BitVec 6 :=
  match x.scale (-s) with
  | .nan _ => if f.spec = 0 then (0, flagNV ||| flagNX) else (f.nanCode, 0)
  | .inf n =>
    if f.spec = 1 && (!n || f.sign) then (f.infCode n, 0)
    else
      let q : Int := f.members.foldl (fun q c => min q (f.value c).unitExp) 0
      let val (c : Nat) := ((f.value c).units q).getD 0
      let best := f.members.foldl (fun b c => if (if n then val c < val b else val b < val c) then c else b) 0
      let c := if val best = 0 then (if n && f.sign && !f.nzr then 2 ^ (f.total - 1) else 0) else best
      (c, flagOF ||| flagNX)
  | .fin n m e =>
    let q : Int := f.members.foldl (fun q c => min q (f.value c).unitExp) e - 1
    let val (c : Nat) := ((f.value c).units q).getD 0
    let y : Int := ((FVal.fin n m e).units q).getD 0
    let top := f.maxCode q
    let r := f.rest top
    let ulpExp : Int := (if r / 2 ^ f.m = 0 then 1 else ((r / 2 ^ f.m : Nat) : Int)) - f.bias - f.m
    let ulp : Int := ((2 ^ (ulpExp - q).toNat : Nat) : Int)
    let past := decide (val top + (if zero then ulp else ulp / 2) ≤ y.natAbs)
    let unsignedNeg := !f.sign && decide (y < 0)
    if f.spec = 1 && !zero && past && (decide (0 < y) || f.sign) then (f.infCode (decide (y < 0)), flagOF ||| flagNX)
    else
      let inRange (c : Nat) : Bool :=
        if zero then (if 0 ≤ y then decide (0 ≤ val c) && decide (val c ≤ y) else decide (y ≤ val c) && decide (val c ≤ 0))
        else true
      let best := (f.members.filter inRange).foldl (f.nearer q y) 0
      let v := val best
      let c := if v = 0 then (if n && f.sign && !f.nzr then 2 ^ (f.total - 1) else 0) else best
      (c, narrowFlags (v != y) (past || unsignedNeg) (v == 0 || (!f.isX c && f.low c)) y)

/-- floor(log2) of a positive finite value. -/
def FVal.log2 (v : FVal) : Int :=
  match v with
  | .fin _ m e => (Nat.log2 m : Int) + e
  | _ => 0

/-- The largest magnitude among values; none when none is finite and non-zero. -/
def maxMag (vs : List FVal) : Option FVal :=
  vs.foldl (fun b v =>
    match v with
    | .fin _ m e =>
      if m = 0 then b
      else match b with
        | some (.fin _ m' e') =>
          let q := min e e'
          if m' * 2 ^ (e' - q).toNat < m * 2 ^ (e - q).toNat then some (.fin false m e) else b
        | _ => some (.fin false m e)
    | _ => b) none

/-- The shift of a block (R42). -/
def Narrow.shiftOf (f : Narrow) (xs : List FVal) : Int :=
  match maxMag xs, maxMag (f.members.map f.value) with
  | some m, some x => let d := m.log2 - x.log2; if d < -32 then -32 else if 31 < d then 31 else d
  | _, _ => 0

/-! ## Storage rows (R29, R36, R212) -/

/-- INT4 packs as a dense bitstream of four bits, the first element lowest (R29). -/
def int4Pack : Narrow := ⟨4, 0, true, 0, false, false, 0, 0, 0⟩

/-- The container width of a format's elements (R212). -/
def Narrow.cb (f : Narrow) : Nat :=
  match f.pack with
  | 2 => 8
  | 3 => if f.total ≤ 1 then 1 else if f.total ≤ 2 then 2 else if f.total ≤ 4 then 4 else 8
  | _ => f.total

/-- The bytes of `n` packed elements. -/
def Narrow.packedLen (f : Narrow) (n : Nat) : Nat := (n * f.cb + 7) / 8

/-- The bytes of a storage row of `n` elements: blocks of sixteen with a scale byte each under BSM (R212). -/
def Narrow.rowLen (f : Narrow) (n : Nat) : Nat := if f.bsm then n / 16 * (1 + f.packedLen 16) else f.packedLen n

/-- The bits of a number, the lowest first. -/
def natBits (x : Nat) : Nat → List Bool
  | 0 => []
  | n + 1 => decide (x % 2 = 1) :: natBits (x / 2) n

/-- The number of bits, the lowest first. -/
def ofNatBits : List Bool → Nat
  | [] => 0
  | b :: bs => (if b then 1 else 0) + 2 * ofNatBits bs

/-- Cut bits into bytes, the last one filled with zeros: `rev` puts the first bit in the most significant place. -/
def bitBytes (rev : Bool) : Nat → List Bool → List (BitVec 8)
  | 0, _ => []
  | n + 1, bs =>
    let b := bs.take 8 ++ List.replicate (8 - (bs.take 8).length) false
    BitVec.ofNat 8 (ofNatBits (if rev then b.reverse else b)) :: bitBytes rev n (bs.drop 8)

/-- The bits of bytes, in stream order. -/
def byteBits (rev : Bool) (bs : List (BitVec 8)) : List Bool :=
  bs.flatMap fun b => let l := natBits b.toNat 8; if rev then l.reverse else l

/-- Pack codes (R36). -/
def Narrow.packCodes (f : Narrow) (cs : List Nat) : List (BitVec 8) :=
  let rev := f.pack == 1
  bitBytes rev (f.packedLen cs.length) (cs.flatMap fun c =>
    let l := natBits c f.cb
    if rev then l.reverse else l)

/-- Cut a list of bits into elements of `cb` bits. -/
def cutCodes (rev : Bool) (cb total : Nat) : Nat → List Bool → List Nat
  | 0, _ => []
  | n + 1, bs =>
    let b := bs.take cb
    ofNatBits (if rev then b.reverse else b) % 2 ^ total :: cutCodes rev cb total n (bs.drop cb)

/-- Unpack `n` codes. -/
def Narrow.unpackCodes (f : Narrow) (n : Nat) (bs : List (BitVec 8)) : List Nat :=
  cutCodes (f.pack == 1) f.cb f.total n (byteBits (f.pack == 1) bs)

/-- The signed shift in a scale byte (R212). -/
def scaleShift (b : BitVec 8) : Int := (b.extractLsb' 0 6).toInt

/-- Unpack blocks of sixteen: each code with its block's shift. -/
def Narrow.unpackBlocks (f : Narrow) : Nat → List (BitVec 8) → List (Nat × Int)
  | 0, _ => []
  | n + 1, bs =>
    let len := f.packedLen 16
    ((f.unpackCodes 16 ((bs.drop 1).take len)).map fun c => (c, scaleShift (bs.headD 0))) ++
      f.unpackBlocks n (bs.drop (1 + len))

/-- Unpack a storage row of `n` elements: each code with its shift. -/
def Narrow.unpackRow (f : Narrow) (n : Nat) (bs : List (BitVec 8)) : List (Nat × Int) :=
  if f.bsm then f.unpackBlocks (n / 16) bs else (f.unpackCodes n bs).map fun c => (c, 0)

/-- Cut a list into pieces of sixteen. -/
def blocks16 {α : Type} : Nat → List α → List (List α)
  | 0, _ => []
  | n + 1, l => l.take 16 :: blocks16 n (l.drop 16)

/-- Compress a storage row of values (R41, R42, R212): its bytes and exceptions. -/
def Narrow.packRow (f : Narrow) (zero : Bool) (xs : List FVal) : List (BitVec 8) × BitVec 6 :=
  let orAll (l : List (Nat × BitVec 6)) : BitVec 6 := l.foldl (fun a x => a ||| x.2) 0
  if f.bsm then
    let bs := (blocks16 (xs.length / 16) xs).map fun b =>
      let s := f.shiftOf b
      let cs := b.map (f.compress s zero)
      (BitVec.ofInt 8 (s % 64) :: f.packCodes (cs.map Prod.fst), orAll cs)
    (bs.flatMap Prod.fst, bs.foldl (fun a x => a ||| x.2) 0)
  else
    let cs := xs.map (f.compress 0 zero)
    (f.packCodes (cs.map Prod.fst), orAll cs)

end Sys2Proof.Machine
end

