-- ==== Sys2Proof/Machine/Fields.lean ====
section
/-! DEFINITION. The register fields that each instruction word names (R15): read by the readiness test of R55. -/

namespace Sys2Proof.Machine

open Sys2Proof

/-- The source register fields of an instruction word in operand order, then its destination field. -/
def regFields : Instr → List RegField × List RegField
  | .nop _ => ([], [])
  | .iadd d a b _ => ([a, b], [d])
  | .iaddImm d a _ _ => ([a], [d])
  | .isub d a b _ => ([a, b], [d])
  | .imul d a b _ => ([a, b], [d])
  | .imulhiS32 d a b _ => ([a, b], [d])
  | .imulhiN32 d a b _ => ([a, b], [d])
  | .imad d a b _ => ([a, b], [d])
  | .iminS32 d a b _ => ([a, b], [d])
  | .iminN32 d a b _ => ([a, b], [d])
  | .imaxS32 d a b _ => ([a, b], [d])
  | .imaxN32 d a b _ => ([a, b], [d])
  | .csub d a b _ => ([a, b], [d])
  | .iadd64 d a b _ => ([a, b], [d])
  | .lea d a b _ => ([a, b], [d])
  | .iand d a b _ => ([a, b], [d])
  | .ior d a b _ => ([a, b], [d])
  | .ixor d a b _ => ([a, b], [d])
  | .iandn d a b _ => ([a, b], [d])
  | .shl d a b _ => ([a, b], [d])
  | .shr d a b _ => ([a, b], [d])
  | .sar d a b _ => ([a, b], [d])
  | .rot d a b _ => ([a, b], [d])
  | .shlImm d a _ _ => ([a], [d])
  | .shrImm d a _ _ => ([a], [d])
  | .sarImm d a _ _ => ([a], [d])
  | .rotImm d a _ _ => ([a], [d])
  | .bfx d a b _ => ([a, b], [d])
  | .bfi d a b _ => ([a, b], [d])
  | .iabs d a _ => ([a], [d])
  | .popc d a _ => ([a], [d])
  | .clz d a _ => ([a], [d])
  | .brev d a _ => ([a], [d])
  | .isetp _ _ a b _ => ([a, b], [])
  | .pand _ _ _ _ _ _ => ([], [])
  | .por _ _ _ _ _ _ => ([], [])
  | .pxor _ _ _ _ _ _ => ([], [])
  | .pnot _ _ _ _ => ([], [])
  | .sel d a b _ => ([a, b], [d])
  | .mov d a _ => ([a], [d])
  | .movi d _ _ => ([], [d])
  | .movhi d _ _ => ([], [d])
  | .rdsp d _ _ => ([], [d])
  | .wrsp a _ _ => ([a], [])
  | .ixset _ a b _ => ([a, b], [])
  | .ixadd _ b _ => ([b], [])
  | .bra _ _ => ([], [])
  | .brx a _ => ([a], [])
  | .call _ _ => ([], [])
  | .meet _ _ => ([], [])
  | .meetx d _ => ([], [d])
  | .meetr a _ => ([a], [])
  | .refill d _ _ _ _ => ([], [d])
  | .ret a _ => ([a], [])
  | .exit _ => ([], [])
  | .yield _ => ([], [])
  | .trap _ _ => ([], [])
  | .brk _ _ => ([], [])
  | .faddF32 d a b _ => ([a, b], [d])
  | .faddF16 d a b _ => ([a, b], [d])
  | .faddBf16 d a b _ => ([a, b], [d])
  | .fsubF32 d a b _ => ([a, b], [d])
  | .fsubF16 d a b _ => ([a, b], [d])
  | .fsubBf16 d a b _ => ([a, b], [d])
  | .fmulF32 d a b _ => ([a, b], [d])
  | .fmulF16 d a b _ => ([a, b], [d])
  | .fmulBf16 d a b _ => ([a, b], [d])
  | .ffmaF32 d a b _ => ([a, b], [d])
  | .ffmaF16 d a b _ => ([a, b], [d])
  | .ffmaBf16 d a b _ => ([a, b], [d])
  | .fminF32 d a b _ => ([a, b], [d])
  | .fminF16 d a b _ => ([a, b], [d])
  | .fminBf16 d a b _ => ([a, b], [d])
  | .fmaxF32 d a b _ => ([a, b], [d])
  | .fmaxF16 d a b _ => ([a, b], [d])
  | .fmaxBf16 d a b _ => ([a, b], [d])
  | .fsetpF32 _ _ a b _ => ([a, b], [])
  | .fsetpF16 _ _ a b _ => ([a, b], [])
  | .fsetpBf16 _ _ a b _ => ([a, b], [])
  | .fdivF32 d a b _ => ([a, b], [d])
  | .fdivF16 d a b _ => ([a, b], [d])
  | .fdivBf16 d a b _ => ([a, b], [d])
  | .padd2F16 d a b _ => ([a, b], [d])
  | .padd2Bf16 d a b _ => ([a, b], [d])
  | .pmul2F16 d a b _ => ([a, b], [d])
  | .pmul2Bf16 d a b _ => ([a, b], [d])
  | .pfma2F16 d a b _ => ([a, b], [d])
  | .pfma2Bf16 d a b _ => ([a, b], [d])
  | .frcp d a _ _ => ([a], [d])
  | .frsq d a _ _ => ([a], [d])
  | .fsqrt d a _ _ => ([a], [d])
  | .fexp2 d a _ _ => ([a], [d])
  | .flog2 d a _ _ => ([a], [d])
  | .fsin d a _ _ => ([a], [d])
  | .fcos d a _ _ => ([a], [d])
  | .fcvt d a _ _ _ => ([a], [d])
  | .frndF32 d a _ _ => ([a], [d])
  | .frndF16 d a _ _ => ([a], [d])
  | .frndBf16 d a _ _ => ([a], [d])
  | .fclassF32 _ _ a _ => ([a], [])
  | .fclassF16 _ _ a _ => ([a], [])
  | .fclassBf16 _ _ a _ => ([a], [])
  | .xchIdx d a b _ => ([a, b], [d])
  | .xchUp d a _ _ => ([a], [d])
  | .xchDown d a _ _ => ([a], [d])
  | .xchXor d a _ _ => ([a], [d])
  | .vote d _ _ _ _ => ([], [d])
  | .bcast d a b _ => ([a, b], [d])
  | .bcastImm d a _ _ => ([a], [d])
  | .gred d a _ _ => ([a], [d])
  | .gscan d a _ _ _ => ([a], [d])
  | .dualget d a _ _ => ([a], [d])
  | .dualset d a _ _ => ([a], [d])
  | .dualzero d _ => ([], [d])
  | .ld d a _ _ _ => ([a], [d])
  | .st d a _ _ _ => ([d, a], [])
  | .ldm d a _ _ _ _ => ([a], [d])
  | .stm d a _ _ _ _ => ([a, d], [])
  | .atom d a b _ => ([a, b], [d])
  | .cas d a b _ => ([a, b], [d])
  | .cas128 d a b _ => ([a, b], [d])
  | .fence _ => ([], [])
  | .pref _ a _ => ([a], [])
  | .bufdcl _ a _ => ([a], [])
  | .bufset _ _ _ => ([], [])
  | .bufq d _ _ => ([], [d])
  | .barinit d a _ => ([a, d], [])
  | .barexp d a _ => ([a, d], [])
  | .bararv d a _ => ([a], [d])
  | .barwait d a _ => ([a, d], [])
  | .bartest d a _ => ([a], [d])
  | .tsync _ => ([], [])
  | .cbararv d a _ => ([a], [d])
  | .cbarwait d a _ => ([a, d], [])
  | .aqload _ a _ => ([a], [])
  | .aqstart a _ => ([a], [])
  | .aqstop a _ => ([a], [])
  | .qflush a _ => ([a], [])
  | .itempush _ a _ => ([a], [])
  | .mma d _ => ([d], [])
  | .mmas d _ => ([d], [])
  | .mmz _ _ _ => ([], [])
  | .accld _ _ a _ => ([a], [])
  | .accst _ a _ => ([a], [])
  | .accmv _ _ _ => ([], [])
  | .accadd _ _ _ _ => ([], [])
  | .omset _ a _ => ([a], [])
  | .mstcfg _ a _ => ([a], [])
  | .msign _ a _ => ([a], [])
  | .mmwait _ => ([], [])
  | .mmstat d _ _ => ([], [d])
  | .cpy _ a _ => ([a], [])
  | .cpyt _ a _ => ([a], [])
  | .cpyo _ a _ => ([a], [])
  | .cpyg _ a _ => ([a], [])
  | .cpys _ a _ => ([a], [])
  | .cpyfill _ a _ => ([a], [])
  | .cmcast _ a _ => ([a], [])
  | .chwait _ a _ => ([a], [])
  | .chstat d _ _ _ => ([], [d])
  | .fmtset _ a _ => ([a], [])
  | .fmtget d _ _ => ([], [d])
  | .cpyp _ a _ => ([a], [])
  | .psig _ a _ => ([a], [])
  | .nbaxpy d a _ => ([d, a], [])
  | .nbscal d a _ => ([d, a], [])
  | .nbadd d a _ => ([d, a], [])
  | .nbmul d a _ => ([d, a], [])
  | .nbdot d a _ => ([d, a], [])
  | .nbgemv d a _ => ([d, a], [])
  | .nbcopy d a _ => ([d, a], [])
  | .nbred d a _ => ([d, a], [])
  | .nbfill d a _ => ([d, a], [])
  | .nbld d a _ => ([a], [d])
  | .nbst d a _ => ([a, d], [])
  | .nbfence d a _ => ([d, a], [])
  | .rnginit d a _ => ([a, d], [])
  | .grab d a _ => ([a], [d])
  | .launch d a _ => ([a], [d])
  | .join a _ => ([a], [])
  | .lstat d a _ => ([a], [d])
  | .sethdlr a _ => ([a], [])
  | .trapret a _ => ([a], [])
  | .rdcause d _ _ => ([], [d])
  | .probe d a _ => ([a], [d])
  | .seqnew d _ => ([], [d])
  | .seqend d a _ => ([a], [d])
  | _ => ([], [])

/-- The tail of an instruction word; an event has none. -/
def tailOf : Instr → Option Tail
  | .nop t => some t
  | .iadd _ _ _ t => some t
  | .iaddImm _ _ _ t => some t
  | .isub _ _ _ t => some t
  | .imul _ _ _ t => some t
  | .imulhiS32 _ _ _ t => some t
  | .imulhiN32 _ _ _ t => some t
  | .imad _ _ _ t => some t
  | .iminS32 _ _ _ t => some t
  | .iminN32 _ _ _ t => some t
  | .imaxS32 _ _ _ t => some t
  | .imaxN32 _ _ _ t => some t
  | .csub _ _ _ t => some t
  | .iadd64 _ _ _ t => some t
  | .lea _ _ _ t => some t
  | .iand _ _ _ t => some t
  | .ior _ _ _ t => some t
  | .ixor _ _ _ t => some t
  | .iandn _ _ _ t => some t
  | .shl _ _ _ t => some t
  | .shr _ _ _ t => some t
  | .sar _ _ _ t => some t
  | .rot _ _ _ t => some t
  | .shlImm _ _ _ t => some t
  | .shrImm _ _ _ t => some t
  | .sarImm _ _ _ t => some t
  | .rotImm _ _ _ t => some t
  | .bfx _ _ _ t => some t
  | .bfi _ _ _ t => some t
  | .iabs _ _ t => some t
  | .popc _ _ t => some t
  | .clz _ _ t => some t
  | .brev _ _ t => some t
  | .isetp _ _ _ _ t => some t
  | .pand _ _ _ _ _ t => some t
  | .por _ _ _ _ _ t => some t
  | .pxor _ _ _ _ _ t => some t
  | .pnot _ _ _ t => some t
  | .sel _ _ _ t => some t
  | .mov _ _ t => some t
  | .movi _ _ t => some t
  | .movhi _ _ t => some t
  | .rdsp _ _ t => some t
  | .wrsp _ _ t => some t
  | .ixset _ _ _ t => some t
  | .ixadd _ _ t => some t
  | .bra _ t => some t
  | .brx _ t => some t
  | .call _ t => some t
  | .meet _ t => some t
  | .meetx _ t => some t
  | .meetr _ t => some t
  | .refill _ _ _ _ t => some t
  | .ret _ t => some t
  | .exit t => some t
  | .yield t => some t
  | .trap _ t => some t
  | .brk _ t => some t
  | .faddF32 _ _ _ t => some t
  | .faddF16 _ _ _ t => some t
  | .faddBf16 _ _ _ t => some t
  | .fsubF32 _ _ _ t => some t
  | .fsubF16 _ _ _ t => some t
  | .fsubBf16 _ _ _ t => some t
  | .fmulF32 _ _ _ t => some t
  | .fmulF16 _ _ _ t => some t
  | .fmulBf16 _ _ _ t => some t
  | .ffmaF32 _ _ _ t => some t
  | .ffmaF16 _ _ _ t => some t
  | .ffmaBf16 _ _ _ t => some t
  | .fminF32 _ _ _ t => some t
  | .fminF16 _ _ _ t => some t
  | .fminBf16 _ _ _ t => some t
  | .fmaxF32 _ _ _ t => some t
  | .fmaxF16 _ _ _ t => some t
  | .fmaxBf16 _ _ _ t => some t
  | .fsetpF32 _ _ _ _ t => some t
  | .fsetpF16 _ _ _ _ t => some t
  | .fsetpBf16 _ _ _ _ t => some t
  | .fdivF32 _ _ _ t => some t
  | .fdivF16 _ _ _ t => some t
  | .fdivBf16 _ _ _ t => some t
  | .padd2F16 _ _ _ t => some t
  | .padd2Bf16 _ _ _ t => some t
  | .pmul2F16 _ _ _ t => some t
  | .pmul2Bf16 _ _ _ t => some t
  | .pfma2F16 _ _ _ t => some t
  | .pfma2Bf16 _ _ _ t => some t
  | .frcp _ _ _ t => some t
  | .frsq _ _ _ t => some t
  | .fsqrt _ _ _ t => some t
  | .fexp2 _ _ _ t => some t
  | .flog2 _ _ _ t => some t
  | .fsin _ _ _ t => some t
  | .fcos _ _ _ t => some t
  | .fcvt _ _ _ _ t => some t
  | .frndF32 _ _ _ t => some t
  | .frndF16 _ _ _ t => some t
  | .frndBf16 _ _ _ t => some t
  | .fclassF32 _ _ _ t => some t
  | .fclassF16 _ _ _ t => some t
  | .fclassBf16 _ _ _ t => some t
  | .xchIdx _ _ _ t => some t
  | .xchUp _ _ _ t => some t
  | .xchDown _ _ _ t => some t
  | .xchXor _ _ _ t => some t
  | .vote _ _ _ _ t => some t
  | .bcast _ _ _ t => some t
  | .bcastImm _ _ _ t => some t
  | .gred _ _ _ t => some t
  | .gscan _ _ _ _ t => some t
  | .dualget _ _ _ t => some t
  | .dualset _ _ _ t => some t
  | .dualzero _ t => some t
  | .ld _ _ _ _ t => some t
  | .st _ _ _ _ t => some t
  | .ldm _ _ _ _ _ t => some t
  | .stm _ _ _ _ _ t => some t
  | .atom _ _ _ t => some t
  | .cas _ _ _ t => some t
  | .cas128 _ _ _ t => some t
  | .fence t => some t
  | .pref _ _ t => some t
  | .bufdcl _ _ t => some t
  | .bufset _ _ t => some t
  | .bufq _ _ t => some t
  | .barinit _ _ t => some t
  | .barexp _ _ t => some t
  | .bararv _ _ t => some t
  | .barwait _ _ t => some t
  | .bartest _ _ t => some t
  | .tsync t => some t
  | .cbararv _ _ t => some t
  | .cbarwait _ _ t => some t
  | .aqload _ _ t => some t
  | .aqstart _ t => some t
  | .aqstop _ t => some t
  | .qflush _ t => some t
  | .itempush _ _ t => some t
  | .mma _ t => some t
  | .mmas _ t => some t
  | .mmz _ _ t => some t
  | .accld _ _ _ t => some t
  | .accst _ _ t => some t
  | .accmv _ _ t => some t
  | .accadd _ _ _ t => some t
  | .omset _ _ t => some t
  | .mstcfg _ _ t => some t
  | .msign _ _ t => some t
  | .mmwait t => some t
  | .mmstat _ _ t => some t
  | .cpy _ _ t => some t
  | .cpyt _ _ t => some t
  | .cpyo _ _ t => some t
  | .cpyg _ _ t => some t
  | .cpys _ _ t => some t
  | .cpyfill _ _ t => some t
  | .cmcast _ _ t => some t
  | .chwait _ _ t => some t
  | .chstat _ _ _ t => some t
  | .fmtset _ _ t => some t
  | .fmtget _ _ t => some t
  | .cpyp _ _ t => some t
  | .psig _ _ t => some t
  | .nbaxpy _ _ t => some t
  | .nbscal _ _ t => some t
  | .nbadd _ _ t => some t
  | .nbmul _ _ t => some t
  | .nbdot _ _ t => some t
  | .nbgemv _ _ t => some t
  | .nbcopy _ _ t => some t
  | .nbred _ _ t => some t
  | .nbfill _ _ t => some t
  | .nbld _ _ t => some t
  | .nbst _ _ t => some t
  | .nbfence _ _ t => some t
  | .rnginit _ _ t => some t
  | .grab _ _ t => some t
  | .launch _ _ t => some t
  | .join _ t => some t
  | .lstat _ _ t => some t
  | .sethdlr _ t => some t
  | .trapret _ t => some t
  | .rdcause _ _ t => some t
  | .probe _ _ t => some t
  | .seqnew _ t => some t
  | .seqend _ _ t => some t
  | _ => none

end Sys2Proof.Machine
end

