-- ==== Sys2Proof/Machine/Sched.lean ====
section
/-! DEFINITION. Run arbitration (R55, R133, R134) and what occurs next when no event is due (DESIGN CHOICE: log 1). -/

namespace Sys2Proof.Machine

/-- The destination of a copy command lies in the window (R215, R222). -/
def CopyCmd.toWindow (c : CopyCmd) : Bool :=
  match c.kind with
  | .mcast => false
  | .peer false _ => false
  | .sig _ _ => false
  | _ => isWindow (ofBytes ((c.desc.drop 2).take 2 |>.flatMap fun w => toBytes 4 w.toNat))

/-- CHWAIT completes (R222): the channel keeps a cause, is IDLE, or its current command has a window destination and WP has reached
a value. -/
def State.channelMet (s : State) (team ch : Nat) (wp : Option Nat) : Bool :=
  let c := (s.team team).chan ch
  c.kept.isSome || c.queue.isEmpty || (match wp, c.queue with
    | some v, x :: _ => x.toWindow && decide (v ≤ c.wp)
    | _, _ => false)

/-- What a suspended group waits for has come about (R134, R179, R180). -/
def State.condMet (s : State) (slot : Nat) (g : Group) : Bool :=
  match g.wait with
  | none => true
  | some (.parked die seq) => !s.isParked die seq
  | some (.barrier key token) => ofBytes (readCells s.mem key 4) != token.toNat
  | some (.itemRoom q) => ((s.core (slotCore slot)).iq.find q).all fun x => x.tail.isEmpty
  | some .mqueue => decide ((s.core (slotCore slot)).mq.length < 32)
  | some .matrix => s.matrixCount g == 0
  | some (.chanRoom ch) => decide (((s.team g.team).chan ch).queue.length < 8)
  | some (.channel ch wp) => s.channelMet g.team ch wp
  | some .nbRoom => decide (s.nbHeld slot g < 8)
  | some .nbDrain => (s.drains.find? fun d => d.slot == slot && d.team == g.team).all s.drained
  | some (.join n) => g.joinMet == some n || decide ((s.team g.team).jcnt ≤ n)
  | some (.seqEnd k) => (s.key k).draining.isNone
  | some .tsync => false
  | some .trap => false

/-- The widths of the register sources of an instruction word, in the order of `regFields`, where they are not all one register (R16, R157,
R159, R164, and the descriptors of the engines). -/
def srcWidths : Instr → List Nat
  | .iadd64 _ _ _ _ => [2, 2]
  | .lea _ _ _ _ => [2]
  | .brx _ _ => [2]
  | .ret _ _ => [2]
  | .meetr _ _ => [2]
  | .fcvt _ _ c _ _ => if 21 ≤ c.toNat then [2] else []
  | .ld _ _ _ _ _ => [2]
  | .ldm _ _ _ _ _ _ => [2]
  | .st _ _ _ ty _ => [typeWords ty.toNat, 2]
  | .stm _ _ _ _ n _ => [2, n.toNat + 1]
  | .atom _ _ _ t => [2, if (Tail.modifiers t).extField 20 4 = 2 then 2 else 1]
  | .cas _ _ _ t => let w := if (Tail.modifiers t).extField 20 4 = 2 then 2 else 1
    [2, w, w]
  | .cas128 _ _ _ _ => [2, 4, 4]
  | .pref _ _ _ => [2]
  | .bufdcl _ _ _ => [2]
  | .barinit _ _ _ => [2]
  | .barexp _ _ _ => [2]
  | .bararv _ _ _ => [2]
  | .barwait _ _ _ => [2]
  | .bartest _ _ _ => [2]
  | .cbararv _ _ _ => [2]
  | .cbarwait _ _ _ => [2]
  | .aqload _ _ _ => [2]
  | .mma _ _ => [4]
  | .mmas _ _ => [4]
  | .accld _ _ _ _ => [4]
  | .accst _ _ _ => [4]
  | .omset _ _ _ => [4]
  | .msign _ _ _ => [4]
  | .cpy _ _ _ => [8]
  | .cpyt _ _ _ => [8]
  | .cpyo _ _ _ => [8]
  | .cpyg _ _ _ => [8]
  | .cpys _ _ _ => [8]
  | .cpyfill _ _ _ => [8]
  | .cmcast _ _ _ => [8]
  | .cpyp _ _ _ => [8]
  | .psig _ _ _ => [4]
  | .fmtset _ _ _ => [2]
  | .nbaxpy _ _ _ => [1, 8]
  | .nbscal _ _ _ => [1, 8]
  | .nbadd _ _ _ => [1, 8]
  | .nbmul _ _ _ => [1, 8]
  | .nbdot _ _ _ => [1, 8]
  | .nbgemv _ _ _ => [1, 8]
  | .nbcopy _ _ _ => [1, 8]
  | .nbred _ _ _ => [1, 8]
  | .nbfill _ _ _ => [1, 8]
  | .nbld _ _ _ => [2]
  | .nbst _ _ _ => [2]
  | .nbfence _ _ _ => [1, 2]
  | .rnginit _ _ _ => [4]
  | .launch _ _ _ => [2]
  | .sethdlr _ _ => [2]
  | .trapret _ _ => [2]
  | .probe _ _ _ => [2]
  | .seqend _ _ _ => [2]
  | _ => []

/-- The predicates that an instruction word reads beside the one that governs it (R88, R89, R99, R121). -/
def predSources : Instr → List Nat
  | .pand _ _ a _ b _ => [a.toNat, b.toNat]
  | .por _ _ a _ b _ => [a.toNat, b.toNat]
  | .pxor _ _ a _ b _ => [a.toNat, b.toNat]
  | .pnot _ _ a _ => [a.toNat]
  | .sel _ _ _ t => [(Tail.modifiers t).ar.c.toNat % 8]
  | .vote _ _ p _ _ => [p.toNat]
  | .refill _ p _ _ _ => [p.toNat]
  | _ => []

/-- The register sources of an instruction word, with C where it is one (R55, R58, R59). -/
def srcOpnds (i : Instr) (m : Mods) : List Opnd :=
  let fs := (regFields i).1
  let ws := srcWidths i
  let own := (List.range fs.length).map fun n => ({ f := fs.getD n 0, width := ws.getD n 1 } : Opnd)
  match i with
  | .sel _ _ _ _ => own
  | _ => match m.arith with
    | some x => own ++ [{ f := x.c, width := ws.getD 2 1 }]
    | none => own

/-- The sources of the next instruction are free of scoreboard holds, and every queue that it pops holds an entry for it or
belongs to a stopped stream (R55). `hdr` is the header of its clause. -/
def State.sourcesFree (s : State) (slot : Nat) (g : Group) (set : List Nat) (hdr : Word) (ins : Instr) : Bool :=
  match tailOf ins with
  | none => true
  | some t =>
    let m := Tail.modifiers t
    let tan : List Nat × Nat := match m.dual with
      | some (mask, step) => if (s.gridOf g.team).tangents = 0 then ((List.range 4).filterMap fun j => if mask.getLsbD j then some (j + 1) else none, step) else ([], 0)
      | none => ([], 0)
    let g := g.onLanes set fun x => { x with clause := some (hdr, 15) }
    let i := (⟨slot, laneSet set, 0⟩ : Run).frame t s g tan
    let srcs := srcOpnds ins m
    let names := srcs.flatMap (i.names i.act) ++ (((predOf hdr m).1 :: predSources ins).map RegName.p)
    (g.pendingOn names).isNone &&
    srcs.all fun o => !isQ o.f || (g.streamOf (o.f.toNat - 120)).isNone ||
      decide ((srcs.filter fun p => p.f == o.f).length ≤ (g.queues.getD (o.f.toNat - 120) []).length)

/-- The next header's WAIT conditions are met, and the next instruction's sources are free (R55). A word that cannot be
read yet, or is no instruction, does not keep the group from its run: the run meets what it is. -/
def State.canBegin (s : State) (slot : Nat) (g : Group) : Bool :=
  match g.nextSet with
  | [] => false
  | l :: ls =>
    let x := g.lane l
    let instrFree (pc : BitVec 56) (hdr : Word) (left : Nat) : Bool :=
      match s.fetchChain slot g pc (min left 6) with
      | .error _ => true
      | .ok ws => match decodeWords ws with
        | .ok (i, _) => s.sourcesFree slot g (l :: ls) hdr i
        | .error _ => true
    match x.clause with
    | some (h, left) => instrFree x.pc h left
    | none => match s.fetch slot g x.pc with
      | .ok h => !isHeader h || (!s.unmet slot g h && instrFree (x.pc + 4) h (hdrCount h))
      | .error _ => true

/-- The operations that a resumption replays are done: its stores have left the FIFO, its loads are located (R146). -/
def Group.replayed (g : Group) : Bool :=
  (g.fifo.all fun e => decide (g.replayTo ≤ e.seq)) && g.loads.all fun l => decide (l.accs.length ≤ l.locs.length)

/-- Every team of the cluster has been placed (R239, R265). -/
def State.clusterUp (s : State) (team : Nat) : Bool := (s.clusterTeams team).all fun t => (s.team t).placed

/-- A group that may begin a run (R55, R133, R134): resident, not stopped, its suspension over, no imprecise cause of it left to deliver (R170),
nothing of it left to replay before it issues (R146), its sub-core not to be compacted first (R267). -/
def State.isReady (s : State) (slot : Nat) (g : Group) : Bool :=
  !g.preempted && !g.stopped && g.imprecise.isEmpty && g.replayed && s.clusterUp g.team && s.condMet slot g &&
  !(s.core (slotCore slot)).compacting.contains (slotSub slot) && s.canBegin slot g.settled

/-- The group that wins a sub-core's arbitration (R133): the smallest run stamp, the lower slot on a tie. -/
def State.winner (s : State) (core sc : Nat) : Option Nat :=
  let rs := s.groups.filter fun kg => slotCore kg.1 == core && slotSub kg.1 == sc && s.isReady kg.1 kg.2
  match rs with
  | [] => none
  | x :: xs => some (xs.foldl (fun b y => if y.2.runStamp < b.2.runStamp then y else b) x).1

/-- RUN_BEGIN (R24, R55, R133): a sub-core whose issue slot is free begins a run for the ready group with the smallest
run stamp. Its lanes that have reached their MEET are held first (R25). The run issues the group's PC-set with the smallest stamp, which takes
the group's run count. -/
def execRunBegin (sc : Nat) (s : State) : Host.Outcome State Fault Refusal :=
  let core := sc / 12
  let sub := sc % 12
  let k := s.core core
  match k.runs.find sub, s.winner core sub with
  | none, some slot =>
    match s.groups.find slot with
    | none => .next s
    | some g =>
      let g := g.settled
      let begun := k.runsBegun.getD sub 0 + 1
      let set := g.nextSet
      let n := g.runCount + 1
      let g := { (g.onLanes set fun x => { x with stamp := n }) with
        runCount := n, runStamp := begun, wait := none, hazards := [] }
      .next ((s.setGroup slot g).setCore core
        { k with runs := k.runs.put sub ⟨slot, laneSet set, 0⟩, runsBegun := k.runsBegun.put sub begun })
  | _, _ => .next s

/-- The sub-cores with resident groups, beginning after the one that has the turn. -/
def State.subcores (s : State) : List Nat :=
  let all := (s.groups.map fun kg => 12 * slotCore kg.1 + slotSub kg.1).dedup
  all.filter (fun x => decide (s.turn < x)) ++ all.filter fun x => decide (x ≤ s.turn)

/-- The sub-core whose run issues next: one that holds a run, or whose arbitration a ready group wins (DESIGN CHOICE: log 1). -/
def State.nextTurn (s : State) : Option Nat :=
  s.subcores.find? fun x =>
    ((s.core (x / 12)).runs.find (x % 12)).isSome || (s.winner (x / 12) (x % 12)).isSome

end Sys2Proof.Machine
end

