-- ==== Sys2Proof/Machine/Caster.lean ====
section
/-! DEFINITION. The caster (R208 to R225), multicast (R244), and copies and signals to peers (R418 to R420). -/

namespace Sys2Proof.Machine

open Sys2Proof

/-! ## Commands (R210 to R213) -/

/-- The format registers granted (R208, R260). -/
def Grid.fmtn (g : Grid) : Nat := g.field 0x20 27 22

/-- A field of a control word (R211). -/
def ctlField (c : BitVec 28) (lo n : Nat) : Nat := (c.extractLsb' lo n).toNat

/-- What a command's descriptor and control word say, its defaults filled in. -/
structure CopyGeo where
  src : Nat
  dst : Nat
  cols : Nat
  rows : Nat
  sstride : Int
  /-- 0 when dense -/
  dgiven : Nat
  dstride : Nat
  /-- the offset of the index table of a gather or scatter -/
  idx : Nat
  bar : Nat
  st : Nat
  ct : Nat
  zero : Bool
  trans : Bool
  sparse : Bool
  tan : Bool
  /-- element sizes for alignment, and row lengths in bytes -/
  srcEs : Nat
  dstEs : Nat
  srcLen : Nat
  dstLen : Nat
  drows : Nat
  dcols : Nat
  deriving DecidableEq, Repr

/-- The element size of a canonical type: C16, FP16, INT8, W32 (R211). -/
def canonSize (ct : Nat) : Nat := [2, 2, 1, 4].getD ct 4

/-- The element size of a storage type that is not packed: INT8, BF16, F16, F32. -/
def storeSize (st : Nat) : Nat := [1, 1, 1, 2, 2, 4].getD st 1

/-- How a packed storage type packs: a narrow format, or INT4. -/
def packOf (st : Nat) (fmt : BitVec 64) : Narrow := if st = 0 then Narrow.of fmt else int4Pack

/-- The bytes of a storage row of `n` elements (R212). -/
def storeLen (st : Nat) (fmt : BitVec 64) (n : Nat) : Nat := if st < 2 then (packOf st fmt).rowLen n else n * storeSize st

/-- Read a command's descriptor and control word (R210 to R212). -/
def geoOf (kind : CopyKind) (desc : List Word) (ctl : BitVec 28) (fmt : BitVec 64) : CopyGeo :=
  let w (n : Nat) := desc.getD n 0
  let cols := ((w 4).extractLsb' 0 16).toNat
  let rows := ((w 4).extractLsb' 16 16).toNat
  let st := ctlField ctl 5 3
  let ct := ctlField ctl 8 2
  let esz := 2 ^ ctlField ctl 14 2
  let typed := kind == .cpyt || kind == .cpyo
  let trans := (kind == .cpy || typed) && ctl.getLsbD 11
  let drows := if trans then cols else rows
  let dcols := if trans then rows else cols
  let srcLen := if kind == .cpyt then storeLen st fmt cols else if kind == .cpyo then cols * canonSize ct else cols * esz
  let dstLen := if kind == .cpyt then dcols * canonSize ct else if kind == .cpyo then storeLen st fmt dcols else dcols * esz
  { src := ofWords (desc.take 2), dst := ofWords ((desc.drop 2).take 2), cols := cols, rows := rows,
    sstride := if w 5 = 0 then (srcLen : Int) else (w 5).toInt, dgiven := (w 6).toNat,
    dstride := if w 6 = 0 then dstLen else (w 6).toNat,
    idx := if kind == .cpyg then (w 5).toNat else (w 6).toNat,
    bar := (w 7).toNat, st := st, ct := ct, zero := typed && ctl.getLsbD 10, trans := trans,
    sparse := kind == .cpyt && ctl.getLsbD 12, tan := ctl.getLsbD 13,
    srcEs := if kind == .cpyt then (if st < 2 then 1 else storeSize st) else if kind == .cpyo then canonSize ct else esz,
    dstEs := if kind == .cpyt then canonSize ct else if kind == .cpyo then (if st < 2 then 1 else storeSize st) else esz,
    srcLen := srcLen, dstLen := dstLen, drows := drows, dcols := dcols }

/-- The geometry of an accepted command. -/
def CopyCmd.geo (c : CopyCmd) : CopyGeo := geoOf c.kind c.desc c.ctl c.fmt

/-- The destination extent with its gaps (R214, R215). -/
def CopyGeo.extent (g : CopyGeo) : Nat :=
  if g.sparse then 256 + 2048 * canonSize g.ct else (g.drows - 1) * g.dstride + g.dstLen

/-- The bytes that completion counts for one pass (R218): the rows without the gaps between them, of a raw copy too (DESIGN CHOICE: log 67). -/
def CopyGeo.counts (g : CopyGeo) : Nat :=
  if g.sparse then 256 + 2048 * canonSize g.ct else g.drows * g.dstLen

/-- The source extent of a strided source (R210). -/
def CopyGeo.srcSpan (g : CopyGeo) (off : Int) : Nat × Nat :=
  let d := ((g.rows - 1 : Nat) : Int) * g.sstride
  (addAddr g.src (off + min 0 d), d.natAbs + g.srcLen)

/-- The pairs of types that CPYT and CPYO convert between (R213). -/
def pairOk (out : Bool) (st ct : Nat) : Bool :=
  match st with
  | 0 => ct == 0 || ct == 3
  | 1 => ct == 2 || ct == 3
  | 2 => ct == 2 || ct == 3
  | 3 => ct == 0 || ct == 3
  | 4 => ct == 1 || ct == 3
  | 5 => !out && (ct == 0 || ct == 1 || ct == 3)
  | _ => false

/-- The passes of a command (R219). -/
def CopyGeo.passes (g : CopyGeo) (k : Nat) : Nat := if g.tan then k + 1 else 1

/-! ## Buffers (R139, R140, R219, R244) -/

/-- The buffers of a team that a range of its allocation meets. -/
def Team.bufsAt (t : Team) (o n : Nat) : Table Buffer :=
  t.bufs.keep fun _ b => decide (o < b.base + b.size) && decide (b.base < o + n)

/-- Bytes in the window meet a buffer. -/
def State.meetsBuf (s : State) (team ea n : Nat) : Bool :=
  isWindow ea && (match s.window team ea n with
    | some (t, o) => !((s.team t).bufsAt o n).isEmpty
    | none => false)

/-- The destination's buffer at acceptance (R140, R141): none outside every buffer; else it is to begin at its base, and EMPTY. -/
def State.destBuf (s : State) (team ea n : Nat) : Except Cause (Option Nat) :=
  if !isWindow ea then .ok none
  else match s.window team ea n with
    | none => .ok none
    | some (t, o) => match (s.team t).bufsAt o n with
      | [] => .ok none
      | [(m, b)] =>
        if b.base ≠ o ∨ b.base + b.size < o + n then .error .bufBounds
        else if b.state ≠ .empty then .error .bufState
        else .ok (some (64 * t + m))
      | _ => .error .bufBounds

/-- The source's buffer at acceptance (R140, R141): FULL. -/
def State.srcBuf (s : State) (team ea n : Nat) : Except Cause (Option Nat) :=
  if !isWindow ea then .ok none
  else match s.window team ea n with
    | none => .ok none
    | some (t, o) => match (s.team t).bufsAt o n with
      | [] => .ok none
      | [(m, b)] =>
        if o < b.base ∨ b.base + b.size < o + n then .error .bufBounds
        else if b.state ≠ .full then .error .bufState
        else .ok (some (64 * t + m))
      | _ => .error .bufBounds

/-- Change a buffer by its key. -/
def State.modBuf (s : State) (key : Nat) (f : Buffer → Buffer) : State :=
  let t := s.team (key / 64)
  s.setTeam (key / 64) { t with bufs := t.bufs.modify (key % 64) f }

/-! ## Acceptance (R209, R221) -/

/-- A bound and working endpoint of a context (R415, R419). -/
def State.endpointOf (s : State) (vd ctx vep : Nat) : Option Nat :=
  (s.endpoints.find? fun e => e.2.vdev == vd && e.2.ctx == ctx && e.2.vep == vep && e.2.up).map Prod.fst

/-- WP when a command becomes its channel's current one (R215): at the start of a window destination. -/
def Channel.begin (c : Channel) : Channel :=
  match c.queue with
  | x :: _ => if x.toWindow then { c with wp := if x.kind == .cpys then 0 else (x.geo.dst - sramBase) % 2 ^ 25 } else c
  | [] => c

/-- COPY_CHANNEL_STATE (R221 step 2). -/
def State.chanOk (s : State) (i : Issue) (ch : Nat) : Except Stop Unit :=
  refuseIf (decide ((s.gridOf i.g.team).chn ≤ ch) || ((s.team i.g.team).chan ch).failed) .copyChannelState

/-- Enter a command in its channel's queue. -/
def Issue.acceptCmd (i : Issue) (s : State) (ch : Nat) (c : CopyCmd) : State :=
  let t := s.team i.g.team
  let x := t.chan ch
  let y := { x with queue := x.queue ++ [c] }
  s.setTeam i.g.team { t with chans := t.chans.put ch (if x.queue.isEmpty then y.begin else y) }

/-- Step 4 of R221, with R214 and R244. -/
def checkShape (kind : CopyKind) (ctl : BitVec 28) (g : CopyGeo) : Except Stop Unit :=
  refuseIf (g.cols == 0 || g.rows == 0 || (kind != .cpys && g.dgiven != 0 && decide (g.dgiven < g.dstLen)) ||
    (g.sparse && (g.ct == 3 || g.rows * g.cols != 2048 || !(g.dcols == 32 || g.dcols == 64))) ||
    (kind == .mcast && (ctlField ctl 16 12 == 0 || (BitVec.ofNat 64 g.dst - BitVec.ofNat 64 sramBase) >>> 25 != 0 ||
      (g.bar != noBarrier && g.bar / 2 ^ 25 != 0)))) .copyBounds

/-- PEER_XLATE of an endpoint that is not bound or not UP precedes step 5 (R419, R420). -/
def State.checkEndpoint (s : State) (i : Issue) (kind : CopyKind) : Except Stop Unit :=
  let missing (vep : Nat) := (s.endpointOf (s.owner i.g).1 (s.owner i.g).2 vep).isNone || !s.feature 5
  match kind with
  | .peer _ vep => refuseIf (missing vep) .peerXlate
  | .sig _ vep => refuseIf (missing vep) .peerXlate
  | _ => .ok ()

/-- Steps 5 and 6 of R221: the alignment and the window. -/
def State.checkCopy (s : State) (i : Issue) (kind : CopyKind) (ctl : BitVec 28) (g : CopyGeo) : Except Stop Unit := do
  let team := i.g.team
  let gr := s.gridOf team
  let offs := if g.tan then shadowOffs gr.tangents gr.tstride else [0]
  let mask := ctlField ctl 16 12
  let isCast := kind == .mcast
  let gather := kind == .cpyg
  let scatter := kind == .cpys
  let ranks := (List.range 12).filter (bit mask)
  let remoteSrc := match kind with
    | .peer get _ => get
    | _ => false
  let remoteDst := match kind with
    | .peer get _ => !get
    | _ => false
  let fill := kind == .fill
  let mis (x n : Nat) : Bool := x % n != 0
  let bad (off : Int) : Bool :=
    (!scatter && (mis (addAddr g.dst off) g.dstEs || (decide (1 < g.drows) && mis g.dstride g.dstEs))) ||
    (!fill && !gather && (mis (addAddr g.src off) g.srcEs || (decide (1 < g.rows) && g.sstride % (g.srcEs : Int) != 0)))
  requireA (!(offs.any bad || (g.sparse && mis g.dst 16))) .align (BitVec.ofNat 64 g.dst)
  requireA (!((gather || scatter) && mis g.idx 4)) .align (BitVec.ofNat 64 (barAddr g.idx))
  barAlign g.bar
  let spans := offs.flatMap fun off =>
    (if fill || gather || remoteSrc then [] else [g.srcSpan off]) ++
    (if scatter || remoteDst then []
     else if isCast then ranks.map fun r => (addAddr g.dst (off + ((r * 2 ^ 25 : Nat) : Int)), g.extent)
     else [(addAddr g.dst off, g.extent)])
  requireA (!(isCast && ranks.any fun r => decide ((s.clusterTeams team).length ≤ r))) .sramRange (BitVec.ofNat 64 g.dst)
  s.spansOk team spans
  requireA (!(gather || scatter) || (s.spanOk team (barAddr g.idx) (4 * g.rows) && isWindow (barAddr g.idx))) .sramRange
    (BitVec.ofNat 64 (barAddr g.idx))
  if isCast then (if g.bar = noBarrier then .ok () else allOk (fun r => s.barRange team (g.bar + r * 2 ^ 25)) ranks)
  else s.barRange team g.bar

/-- Step 7 of R221: the buffers of the extents; the keys of those that the command fills and drains. The address of a refusal is the destination's,
also when it is the source that is refused (DESIGN CHOICE: log 68). -/
def State.copyBufs (s : State) (i : Issue) (kind : CopyKind) (g : CopyGeo) : Except Stop (Option Nat × List Nat) := do
  let team := i.g.team
  let gr := s.gridOf team
  let offs := if g.tan then shadowOffs gr.tangents gr.tstride else [0]
  let hasSrc := match kind with
    | .fill => false
    | .cpyg => false
    | .peer get _ => !get
    | _ => true
  let hasDst := match kind with
    | .cpys => false
    | .mcast => false
    | .peer get _ => get
    | _ => true
  let dst : Except Cause (Option Nat) := if hasDst then s.destBuf team g.dst g.extent else .ok none
  let tans : List (Except Cause (Option Nat)) := if hasDst then (offs.drop 1).map fun off =>
    if s.meetsBuf team (addAddr g.dst off) g.extent then .error .bufBounds else .ok none else []
  let srcs : List (Except Cause (Option Nat)) := if hasSrc then offs.map fun off =>
    s.srcBuf team (g.srcSpan off).1 (g.srcSpan off).2 else []
  let all := dst :: tans ++ srcs
  let has (c : Cause) : Bool := all.any fun r => match r with
    | .error x => x = c
    | .ok _ => false
  let keys (l : List (Except Cause (Option Nat))) : List Nat := l.filterMap fun r => match r with
    | .ok x => x
    | .error _ => none
  if has .bufBounds then trapA .bufBounds (BitVec.ofNat 64 g.dst)
  else if has .bufState then trapA .bufState (BitVec.ofNat 64 g.dst)
  else .ok ((keys [dst]).head?, (keys srcs).dedup)

/-- The control bits that a command uses (R211, R244, R418). -/
def usedBits : CopyKind → BitVec 28
  | .cpy => 0xE800
  | .cpyt => 0x3FFF
  | .cpyo => 0x2FFF
  | .cpyg => 0xE000
  | .cpys => 0xE000
  | .fill => 0xE000
  | .mcast => 0xFFFE000
  | .peer _ _ => 0x1FE000
  | .sig _ _ => 0x3F

/-- The form of a command with its descriptor in an S octet (R210, R220, R221). -/
def copyForm (kind : CopyKind) (ch : Nat) (a : RegField) : Form :=
  { cls := .copy, first := fun s slot g => s.chanFree slot g ch, acc := { needExt := true }, srcs := [runOpnd a 8],
    bad := fun m => badRunAt 8 a || (m.ext.getD 0 &&& ~~~(usedBits kind)) != 0 }

/-- The checks of R221 and acceptance, for every command with an octet. -/
def Issue.acceptCopy (i : Issue) (s : State) (kind : CopyKind) (ch : Nat) (a : RegField) : Except Stop (State × BitVec 64) := do
  let desc := i.sregs a 8
  let ctl := i.mods.ext.getD 0
  let typed := kind == .cpyt || kind == .cpyo
  let w (n : Nat) := desc.getD n 0
  refuseIf ((w 1).extractLsb' 24 8 != 0 || (w 3).extractLsb' 24 8 != 0 || (kind == .fill && w 5 != 0) ||
    (typed && ctlField ctl 5 3 != 0 && ctlField ctl 0 5 != 0)) .illegalField
  s.chanOk i ch
  let gr := s.gridOf i.g.team
  let fmt := (s.team i.g.team).fmts.get (ctlField ctl 0 5)
  let g := geoOf kind desc ctl fmt
  let narrow := typed && g.st == 0
  let unit := if kind == .cpyt then g.cols else g.dcols
  refuseIf (typed && (!pairOk (kind == .cpyo) g.st g.ct ||
    (narrow && (decide (gr.fmtn ≤ ctlField ctl 0 5) || fmt == 0 || ((Narrow.of fmt).bsm && unit % 16 != 0))))) .copyFormat
  checkShape kind ctl g
  s.checkEndpoint i kind
  s.checkCopy i kind ctl g
  let (dst, src) ← s.copyBufs i kind g
  refuseIf (g.tan && gr.tangents != 0 && gr.tstride == 0) .tangentUnsupported
  let kind := match kind with
    | .peer get vep => .peer get ((s.endpointOf (s.owner i.g).1 (s.owner i.g).2 vep).getD 0)
    | k => k
  let s := i.acceptCmd s ch ⟨kind, desc, ctl, fmt, i.site.pc, [i.afterNow], 0, 0, dst, src, [], false, none, [], 0⟩
  let s := match dst with
    | some k => s.modBuf k fun b => { b with state := .filling, ch := ch, wp := b.base }
    | none => s
  .ok (src.foldl (fun s k => s.modBuf k fun b => { b with state := .draining, ch := ch }) s, 0)
/-- CPY (R221). -/
def execCpy (c : BitVec 4) (a : RegField) (t : Tail) (s : State) : Host.Outcome State Fault Refusal :=
  issue (copyForm .cpy c.toNat a) t s fun i s => i.acceptCopy s .cpy c.toNat a

/-- CPYT (R213, R214, R221). -/
def execCpyt (c : BitVec 4) (a : RegField) (t : Tail) (s : State) : Host.Outcome State Fault Refusal :=
  issue (copyForm .cpyt c.toNat a) t s fun i s => i.acceptCopy s .cpyt c.toNat a

/-- CPYO (R213, R221). -/
def execCpyo (c : BitVec 4) (a : RegField) (t : Tail) (s : State) : Host.Outcome State Fault Refusal :=
  issue (copyForm .cpyo c.toNat a) t s fun i s => i.acceptCopy s .cpyo c.toNat a

/-- CPYG (R215, R221). -/
def execCpyg (c : BitVec 4) (a : RegField) (t : Tail) (s : State) : Host.Outcome State Fault Refusal :=
  issue (copyForm .cpyg c.toNat a) t s fun i s => i.acceptCopy s .cpyg c.toNat a

/-- CPYS (R215, R221). -/
def execCpys (c : BitVec 4) (a : RegField) (t : Tail) (s : State) : Host.Outcome State Fault Refusal :=
  issue (copyForm .cpys c.toNat a) t s fun i s => i.acceptCopy s .cpys c.toNat a

/-- CPYFILL (R221). -/
def execCpyfill (c : BitVec 4) (a : RegField) (t : Tail) (s : State) : Host.Outcome State Fault Refusal :=
  issue (copyForm .fill c.toNat a) t s fun i s => i.acceptCopy s .fill c.toNat a

/-- CMCAST (R244). -/
def execCmcast (c : BitVec 4) (a : RegField) (t : Tail) (s : State) : Host.Outcome State Fault Refusal :=
  issue (copyForm .mcast c.toNat a) t s fun i s => i.acceptCopy s .mcast c.toNat a

/-- CPYP (R419). -/
def execCpyp (c : BitVec 4) (a : RegField) (t : Tail) (s : State) : Host.Outcome State Fault Refusal :=
  issue (copyForm (.peer false 0) c.toNat a) t s fun i s =>
    let ctl := i.mods.ext.getD 0
    i.acceptCopy s (.peer (ctl.getLsbD 16) (ctlField ctl 17 4)) c.toNat a

/-- PSIG (R420). -/
def execPsig (c : BitVec 4) (a : RegField) (t : Tail) (s : State) : Host.Outcome State Fault Refusal :=
  let f : Form := { cls := .copy, first := fun s slot g => s.chanFree slot g c.toNat, acc := { needExt := true }, srcs := [runOpnd a 4],
                    bad := fun m => badRunAt 4 a || (m.ext.getD 0 &&& ~~~(0x3F : BitVec 28)) != 0 || (m.ext.getD 0).getLsbD 1 }
  issue f t s fun i s => do
    let ch := c.toNat
    let ctl := i.mods.ext.getD 0
    let op := ctlField ctl 0 2
    let vep := ctlField ctl 2 4
    s.chanOk i ch
    s.checkEndpoint i (.sig op vep)
    let desc := i.sregs a 4
    requireA (decide (ofWords (desc.take 2) % 8 = 0)) .align (BitVec.ofNat 64 (ofWords (desc.take 2)))
    let ep := (s.endpointOf (s.owner i.g).1 (s.owner i.g).2 vep).getD 0
    .ok (i.acceptCmd s ch ⟨.sig op ep, desc, ctl, 0, i.site.pc, [i.afterNow], 0, 0, none, [], [], false, none, [], 0⟩, 0)

/-! ## Conversions (R213) -/

/-- Convert a float code between formats, exactly or rounded, with the exceptions of R213. -/
def convFloat (src tgt : Fmt) (zero : Bool) (c : Nat) : Nat × BitVec 6 :=
  match src.value c with
  | .nan _ => (tgt.nan, 0)
  | .inf n => (tgt.signed n tgt.inf, 0)
  | .fin n m e =>
    let r := tgt.round (if zero then .zero else .nearest) false n m e
    let of := r.2 &&& flagOF
    let nx := r.2 &&& flagNX
    (r.1, of ||| nx ||| (if of == 0 && nx != 0 && decide (tgt.mag r.1 < 2 ^ tgt.mw) then flagUF else 0))

/-- The float format of a storage type: BF16, F16, F32. -/
def storeFmt (st : Nat) : Fmt := if st = 3 then bf16 else if st = 4 then f16 else f32

/-- The float format of a canonical type: C16, FP16, or F32 for W32. -/
def canonFmt (ct : Nat) : Fmt := if ct = 0 then bf16 else if ct = 1 then f16 else f32

/-- CPYT of one element (R213): the storage code with its block's shift, to the canonical code. -/
def convIn (g : CopyGeo) (fmt : BitVec 64) (x : Nat × Int) : Nat × BitVec 6 :=
  match g.st with
  | 0 => ((Narrow.of fmt).expand (canonFmt g.ct) x.2 x.1, 0)
  | 1 => (((BitVec.ofNat 4 x.1).signExtend 32).toNat % 2 ^ (8 * canonSize g.ct), 0)
  | 2 => (((BitVec.ofNat 8 x.1).signExtend 32).toNat % 2 ^ (8 * canonSize g.ct), 0)
  | st =>
    if storeSize st = canonSize g.ct then (x.1, 0) else convFloat (storeFmt st) (canonFmt g.ct) g.zero x.1

/-- CPYO of one element of an unpacked or INT4 type (R213). -/
def convOut (g : CopyGeo) (x : Nat) : Nat × BitVec 6 :=
  let satTo (n : Nat) : Nat × BitVec 6 :=
    let v := if g.ct = 2 then (BitVec.ofNat 8 x).toInt else (BitVec.ofNat 32 x).toInt
    let r := sat v (-(2 ^ (n - 1) : Nat)) ((2 ^ (n - 1) : Nat) - 1)
    ((BitVec.ofInt 32 r).toNat % 2 ^ n, if r = v then 0 else flagOF ||| flagNX)
  match g.st with
  | 1 => satTo 4
  | 2 => satTo 8
  | st => if storeSize st = canonSize g.ct then (x, 0) else convFloat (canonFmt g.ct) (storeFmt st) g.zero x

/-- The elements of a source row, not yet converted: code and shift. -/
def CopyCmd.elems (c : CopyCmd) (g : CopyGeo) (bs : List (BitVec 8)) : List (Nat × Int) :=
  if c.kind == .cpyt && decide (g.st < 2) then (packOf g.st c.fmt).unpackRow g.cols bs
  else (elements (g.srcLen / max g.cols 1) bs).map fun x => (x, 0)

/-- The bytes of a destination row from its elements, and the exceptions. -/
def CopyCmd.rowBytes (c : CopyCmd) (g : CopyGeo) (xs : List (Nat × Int)) : List (BitVec 8) × BitVec 6 :=
  let all (es : Nat) (l : List (Nat × BitVec 6)) : List (BitVec 8) × BitVec 6 :=
    (l.flatMap fun x => toBytes es x.1, l.foldl (fun f x => f ||| x.2) 0)
  match c.kind with
  | .cpyt => all (canonSize g.ct) (xs.map (convIn g c.fmt))
  | .cpyo =>
    if g.st = 0 then (Narrow.of c.fmt).packRow g.zero (xs.map fun x => (canonFmt g.ct).value x.1)
    else
      let l := xs.map fun x => convOut g x.1
      if g.st = 1 then (int4Pack.packCodes (l.map Prod.fst), l.foldl (fun f x => f ||| x.2) 0) else all (storeSize g.st) l
  | _ => all g.dstEs (xs.map fun x => (x.1, 0))

/-! ## One destination row (R214 to R219) -/

/-- The place of an endpoint's export: endpoints stand after the buffers. -/
def endpointPlace (ep off : Nat) : Place := .peer (65536 + ep) off

/-- The address of a source row in a pass, given the index table (R215, R219). -/
def CopyCmd.srcRow (c : CopyCmd) (g : CopyGeo) (ts : Nat) (idx : List Int) (r : Nat) : Nat :=
  addAddr g.src ((c.pass * ts : Nat) + (if c.kind == .cpyg then idx.getD r 0 else (r : Int) * g.sstride))

/-- The address of a destination row in a pass (R215, R219). -/
def CopyCmd.dstRow (c : CopyCmd) (g : CopyGeo) (ts : Nat) (idx : List Int) (r : Nat) : Nat :=
  addAddr g.dst ((c.pass * ts : Nat) + (if c.kind == .cpys then idx.getD r 0 else (r * g.dstride : Nat)))

/-- The index table of a gather or scatter (R210); no table for any other command. -/
def State.copyIndex (s : State) (w : Agent) (team : Nat) (c : CopyCmd) (g : CopyGeo) : State × Except EngStop (List Int) :=
  if c.kind == .cpyg || c.kind == .cpys then
    match s.unitRead w team (some .groupLoad) [(barAddr g.idx, 4 * g.rows)] with
    | (s, .error e) => (s, .error e)
    | (s, .ok bs) => (s, .ok ((elements 4 bs.flatten).map fun x => (BitVec.ofNat 32 x).toInt))
  else (s, .ok [])

/-- Locate rows of remote offsets at an endpoint (R416, R419). -/
def remoteRows (vd ep : Nat) (rows : List (Nat × Nat)) : List (List (Nat × Nat × Loc)) :=
  rows.map fun r => (piecesOf r.1 r.2).map fun p => (p.1, p.2, ⟨endpointPlace ep p.1, none, 0, vd, 0⟩)

/-- The rows of the source that a destination row needs: all of them under TRANS and for a sparse tile. -/
def CopyGeo.needs (g : CopyGeo) (r : Nat) : List Nat := if g.trans || g.sparse then List.range g.rows else [r]

/-- The accesses of rows: a row in the window is one access, another is made line by line. -/
def accessesOf (rows : List (Nat × Nat)) : List (Nat × Nat) := rows.flatMap fun r => if isWindow r.1 then [r] else piecesOf r.1 r.2

/-- The accesses that remain after `n` bytes of them. -/
def dropBytes : Nat → List (Nat × Nat) → List (Nat × Nat)
  | _, [] => []
  | n, x :: xs => if n < x.2 then x :: xs else dropBytes (n - x.2) xs

/-- The bytes of rows from those that have been read on, and why the reading stops before their end (R217). -/
def State.copyBytes (s : State) (w : Agent) (team : Nat) (u : Option BufUse) (rows : List (Nat × Nat)) (got : List (BitVec 8)) :
    State × List (BitVec 8) × Option EngStop :=
  match s.rowsLocs w team u .load (dropBytes got.length (accessesOf rows)) with
  | (s, ls, e) => match s.readRows w ls with
    | (s, .error e) => (s, got, some e)
    | (s, .ok bs) => (s, got ++ bs.flatten, e)

/-- The bytes of the source rows that the present destination row needs, and why their reading stops. -/
def State.copySource (s : State) (w : Agent) (team : Nat) (c : CopyCmd) (g : CopyGeo) (ts : Nat) (idx : List Int) :
    State × List (BitVec 8) × Option EngStop :=
  let spans := (g.needs c.row).map fun r => (c.srcRow g ts idx r, g.srcLen)
  match c.kind with
  | .fill => (s, [], none)
  | .peer true ep => match s.readRows w (remoteRows w.vdev ep spans) with
    | (s, .error e) => (s, [], some e)
    | (s, .ok bs) => (s, bs.flatten, none)
  | .cpyg => match spans.find? fun x => x.1 % g.srcEs ≠ 0 with
    | some x => (s, [], some (.cause .align x.1))
    | none => s.copyBytes w team (some .copySrc) spans c.got
  | _ => s.copyBytes w team none spans c.got

/-- The source rows as elements. -/
def CopyCmd.sourceRows (c : CopyCmd) (g : CopyGeo) (bs : List (BitVec 8)) : List (List (Nat × Int)) :=
  match c.kind with
  | .fill => [List.replicate g.cols (if c.pass = 0 then g.src % 2 ^ (8 * g.dstEs) else 0, 0)]
  | _ => (rowsOf g.srcLen (g.needs c.row).length bs).map (c.elems g)

/-- A sparse panel (R214, R219): the packed elements and, in the primal pass, the bitmap before them. -/
def sparseParts (c : CopyCmd) (g : CopyGeo) (at0 : Nat) (flat : List Nat) :
    List (Nat × List (BitVec 8)) × List Bool :=
  let es := canonSize g.ct
  let mag (x : Nat) : Nat := if g.ct = 2 then x else x % 2 ^ 15
  let map := if c.pass = 0 then flat.map fun x => mag x != 0 else c.bitmap
  let packed := ((flat.zip map).filter Prod.snd).flatMap fun x => toBytes es x.1
  let bits := if c.pass = 0 then [(at0, bitBytes false 256 map)] else []
  (bits ++ (if packed.isEmpty then [] else [(addAddr at0 256, packed)]), map)

/-- Write the parts of a row from those bytes on that have been written: how many have been now, and why the writing stops (R217). Before an
absent page what precedes it is written; a T cause leaves the rest of the row unwritten (DESIGN CHOICE: log 69). -/
def State.copyWrite (s : State) (w : Agent) (team : Nat) (c : CopyCmd) (parts : List (Nat × List (BitVec 8))) :
    State × Nat × Option EngStop :=
  let spans := parts.map fun p => (p.1, p.2.length)
  let located : State × List (List (Nat × Nat × Loc)) × Option EngStop :=
    match c.kind with
    | .peer false ep => (s, remoteRows w.vdev ep spans, none)
    | _ => s.rowsLocs w team none .store (dropBytes c.pos (accessesOf spans))
  let write (s : State) (ls : List (Nat × Nat × Loc)) (e : Option EngStop) : State × Nat × Option EngStop :=
    match readOnlyAt ls with
    | some a => (s, c.pos, some (.cause .writeReadonly a))
    | none => match s.writePieces w ls ((parts.flatMap Prod.snd).drop c.pos) with
      | .error e => (s, c.pos, some e)
      | .ok s => (s, c.pos + ls.foldl (fun n x => n + x.2.1) 0, e)
  match located with
  | (s, ls, none) => write s ls.flatten none
  | (s, ls, some (.absent ea gpa)) => write s ls.flatten (some (.absent ea gpa))
  | (s, _, some e) => (s, c.pos, some e)

/-- The parts of a destination row: in every selected rank for a multicast (R244). -/
def CopyCmd.targets (c : CopyCmd) (at0 : Nat) (bs : List (BitVec 8)) : List (Nat × List (BitVec 8)) :=
  match c.kind with
  | .mcast => ((List.range 12).filter (bit (ctlField c.ctl 16 12))).map fun r => (addAddr at0 ((r * 2 ^ 25 : Nat) : Int), bs)
  | _ => [(at0, bs)]

/-- Change a team's channel. -/
def State.putChan (s : State) (team ch : Nat) (x : Channel) : State :=
  let t := s.team team
  s.setTeam team { t with chans := t.chans.put ch x }

/-- Change the current command of a channel. -/
def State.putCmd (s : State) (team ch : Nat) (c : CopyCmd) : State :=
  let x := (s.team team).chan ch
  s.putChan team ch { x with queue := c :: x.queue.drop 1 }

/-- Release the buffers of a failed or discarded command (R216). -/
def State.freeBufs (s : State) (c : CopyCmd) : State :=
  let s := match c.dst with
    | some k => s.modBuf k fun b => if b.state = .filling then { b with state := .empty } else b
    | none => s
  c.src.foldl (fun s k => s.modBuf k fun b => if b.state = .draining then { b with state := .full } else b) s

/-- A T cause of a channel's current command (R216). -/
def State.failChan (s : State) (team ch : Nat) (pc : BitVec 56) (replayed : Bool) (c : Cause) (ea : Nat) : State :=
  let x := (s.team team).chan ch
  let s := x.queue.foldl State.freeBufs s
  s.putChan team ch { x with queue := [], failed := true, kept := some ⟨c, some (BitVec.ofNat 64 ea), pc, replayed⟩ }

/-- An F cause of a channel's current command (R9, R151): its record names the group that issued the command, while that is there. -/
def State.containCopy (s : State) (team : Nat) (c : CopyCmd) (w : Agent) (cc : Cause) (ea : Nat) : State :=
  let nums := c.after.filterMap fun a => (s.groups.find a.slot).bind fun g => if g.team == team then some g.num else none
  s.containEngine w.core team w.vdev w.ctx nums cc .caster ea c.pc c.parked.isSome

/-- WP after destination row `r` of the primal pass (R215): the start of the next row, or the end of the extent; for a scatter, the
lowest row still to be written. -/
def CopyCmd.wpAfter (c : CopyCmd) (g : CopyGeo) (idx : List Int) (r : Nat) : Nat :=
  let off (ea : Nat) : Nat := (BitVec.ofNat 64 ea - BitVec.ofNat 64 sramBase).toNat % 2 ^ 25
  if c.kind == .cpys then
    match (idx.drop (r + 1)).map fun x => addAddr g.dst x with
    | [] => off (idx.foldl (fun m x => max m (addAddr g.dst x + g.dstLen)) 0)
    | x :: xs => off (xs.foldl min x)
  else if r + 1 < g.drows && !g.sparse then off (addAddr g.dst ((r + 1) * g.dstride : Nat))
  else off (addAddr g.dst g.extent)

/-- The command after a row of it has been written, with WP, FLAGS and the buffers (R140, R215). -/
def State.rowDone (s : State) (team ch : Nat) (c : CopyCmd) (g : CopyGeo) (k : Nat) (idx : List Int) (fl : BitVec 6) : State :=
  let x := (s.team team).chan ch
  let last := g.sparse || decide (g.drows ≤ c.row + 1)
  let wp := if c.pass = 0 && c.toWindow then c.wpAfter g idx c.row else x.wp
  let c' := { c with row := if last then 0 else c.row + 1, pass := if last then c.pass + 1 else c.pass, parked := none, got := [], pos := 0 }
  let s := s.putChan team ch { x with queue := c' :: x.queue.drop 1, wp := wp, flags := x.flags ||| (fl &&& 0x1F) }
  let s := match c.dst with
    | some b => if c.pass = 0 then s.modBuf b fun y => { y with wp := wp, state := if last then .full else y.state } else s
    | none => s
  if last && decide (g.passes k ≤ c.pass + 1) then c.src.foldl (fun s b => s.modBuf b fun y => { y with state := .empty }) s
  else s

/-- The tag of a channel's accesses. -/
def chanTag (team ch : Nat) : Nat := 2 ^ 40 + 16 * team + ch

/-- A channel's current command can go on (R209, R217, R218). -/
def State.chanReady (s : State) (team ch : Nat) : Option CopyCmd :=
  let t := s.team team
  match (t.chan ch).queue with
  | c :: _ =>
    if s.teamGoes (s.core t.core).crefused team && !s.stillParked (coreDie t.core) c.parked &&
        (c.row != 0 || c.pass != 0 || c.after.all (s.afterMet team)) then some c else none
  | [] => none

/-- One destination row of a command: the bytes read for it, and the parts to write, the bitmap, the index table and the exceptions. -/
def State.rowParts (s : State) (w : Agent) (team : Nat) (c : CopyCmd) (g : CopyGeo) (ts : Nat) :
    State × List (BitVec 8) × Except EngStop (List (Nat × List (BitVec 8)) × List Bool × List Int × BitVec 6) :=
  match s.copyIndex w team c g with
  | (s, .error e) => (s, c.got, .error e)
  | (s, .ok idx) => match s.copySource w team c g ts idx with
    | (s, bs, some e) => (s, bs, .error e)
    | (s, bs, none) =>
      let rows := c.sourceRows g bs
      let column (n : Nat) : List (Nat × Int) := rows.map fun r => r.getD n (0, 0)
      let at0 := c.dstRow g ts idx c.row
      if g.sparse then
        let flat := if g.trans then (List.range g.cols).flatMap column else rows.flatten
        let conv := flat.map (convIn g c.fmt)
        let r := sparseParts c g at0 (conv.map Prod.fst)
        (s, bs, .ok (r.1, r.2, idx, conv.foldl (fun f x => f ||| x.2) 0))
      else
        let r := c.rowBytes g (if g.trans then column c.row else rows.headD [])
        (s, bs, .ok (c.targets at0 r.1, [], idx, r.2))

/-- The refusals of a row's destination that are found when it is delivered (R244, R219): a multicast or scatter row in a buffer, a
scatter row not aligned. -/
def State.rowRefused (s : State) (team : Nat) (c : CopyCmd) (g : CopyGeo) (parts : List (Nat × List (BitVec 8))) :
    Option (Cause × Nat) :=
  let late := c.kind == .mcast || c.kind == .cpys
  match parts.find? fun p => c.kind == .cpys && p.1 % g.dstEs != 0 with
  | some p => some (.align, p.1)
  | none => (parts.find? fun p => late && s.meetsBuf team p.1 p.2.length).map fun p => (.bufBounds, p.1)

/-- A channel has a row, or a signal, to move now. -/
def State.chanMoves (s : State) (team ch : Nat) : Bool :=
  (s.chanReady team ch).any fun c => match c.kind with
    | .sig _ _ => !c.sent
    | _ => decide (c.pass < c.geo.passes (s.gridOf team).tangents)

/-- The channel of a core that moves the next row, as `16 team + channel`: the channels take turns at row boundaries (R209). -/
def State.chanTurn (s : State) (core : Nat) : Option Nat :=
  turnAfter (s.core core).cturn ((s.teams.filter fun t => t.2.core == core).flatMap fun t =>
    t.2.chans.filterMap fun c => if s.chanMoves t.1 c.1 then some (16 * t.1 + c.1) else none)

/-- COPY_ROW (R214 to R219, R244, R419, R420): a channel reads, converts and writes one destination row of its current command; a
signal is sent. -/
def execCopyRow (team ch : Nat) (s : State) : Host.Outcome State Fault Refusal :=
  match s.chanReady team ch with
  | none => .next s
  | some c =>
    let t := s.team team
    let gr := s.gridOf team
    let w := s.agentOf (chanTag team ch) .caster team
    if s.chanTurn t.core != some (16 * team + ch) then .next s
    else
    let s := s.setCore t.core { s.core t.core with cturn := 16 * team + ch }
    match c.kind with
    | .sig op ep =>
      if c.sent then .next s
      else
        let off := ofWords (c.desc.take 2)
        let a : Acc := ⟨0, 0, BitVec.ofNat 64 off, 8, bytesOf (c.desc.drop 2), []⟩
        let f : Flight := ⟨s.nextId, w.tag, w.core, coreDie w.core, w.vdev, w.ctx, 0, 0, c.pc,
          .atom (if op = 0 then 6 else 0) 2, [(0, a, ⟨endpointPlace ep off, none, 0, w.vdev, 0⟩)], none, true⟩
        let s : State := { s with nextId := s.nextId + 1, flight := s.flight ++ [f] }
        .next (s.putCmd team ch { c with sent := true })
    | _ =>
      let g := c.geo
      if g.passes gr.tangents ≤ c.pass then .next s
      else
        let stop (s : State) (c : CopyCmd) (write : Bool) (e : EngStop) : State :=
          match e with
          | .hold => s.putCmd team ch c
          | .absent ea gpa => match s.agentPark w write ea gpa c.parked with
            | none => s.putCmd team ch c
            | some (s, q) => s.putCmd team ch { c with parked := some q }
          | .cause cc ea => if cc.kind = .F then s.containCopy team c w cc ea else s.failChan team ch c.pc c.parked.isSome cc ea
        match s.rowParts w team c g gr.tstride with
        | (s, got, .error e) => .next (stop s { c with got := got } false e)
        | (s, got, .ok (parts, map, idx, fl)) => match s.rowRefused team c g parts with
          | some (cc, ea) => .next (stop s c true (.cause cc ea))
          | none => match s.copyWrite w team c parts with
            | (s, n, some e) => .next (stop s { c with got := got, pos := n } true e)
            | (s, _, none) => .next (s.rowDone team ch { c with bitmap := if c.pass = 0 then map else c.bitmap } g gr.tangents idx fl)

/-- The barriers that a completed command counts on: one in every selected rank for a multicast (R218, R244). -/
def CopyCmd.bars (c : CopyCmd) (g : CopyGeo) : List Nat :=
  if g.bar = noBarrier then []
  else match c.kind with
    | .mcast => ((List.range 12).filter (bit (ctlField c.ctl 16 12))).map fun r => g.bar + r * 2 ^ 25
    | _ => [g.bar]

/-- COPY_COMPLETE (R215, R216, R218, R420): the command leaves its channel and counts its bytes; an overflow is kept. -/
def execCopyComplete (team ch : Nat) (s : State) : Host.Outcome State Fault Refusal :=
  match s.chanReady team ch with
  | none => .next s
  | some c =>
    let gr := s.gridOf team
    let w := s.agentOf (chanTag team ch) .caster team
    let g := c.geo
    let x := (s.team team).chan ch
    let pop (s : State) : State := s.putChan team ch (Channel.begin { x with queue := x.queue.drop 1 })
    match c.kind with
    | .sig _ _ => if c.sent && !s.agentWaits w then .next (pop s) else .next s
    | _ =>
      if c.pass < g.passes gr.tangents || s.agentWaits w then .next s
      else
        let n := g.passes gr.tangents * g.counts
        let s := pop s
        let d := s.vdev gr.vdev
        let s := s.setVdev gr.vdev { d with meters := d.meters.set 3 (d.meters.get 3 + BitVec.ofNat 64 n) }
        let r := (c.bars g).foldl (fun (y : State × Option Nat) b =>
          let z := y.1.countFor team b n
          (z.1, if z.2 then some (y.2.getD b) else y.2)) (s, none)
        match r with
        | (s, none) => .next s
        | (s, some b) => .next (s.failChan team ch c.pc false .barrierOverflow (barAddr b))

/-! ## Waiting, status and format registers (R222 to R224) -/

/-- The channel is granted (R222, R223). -/
def State.chanGranted (s : State) (i : Issue) (ch : Nat) : Except Stop Unit :=
  refuseIf (decide ((s.gridOf i.g.team).chn ≤ ch)) .copyChannelState

/-- CHWAIT (R222). -/
def execChwait (c : BitVec 4) (a : RegField) (t : Tail) (s : State) : Host.Outcome State Fault Refusal :=
  let o : Opnd := { f := a, tan := false }
  let f : Form := { cls := .copy, srcs := [o], bad := fun _ => !isSZ a }
  issue f t s fun i s => do
    let ch := c.toNat
    s.chanGranted i ch
    let wp : Option Nat := if isZero a then none else some (((i.read 0 o 0).headD 0).toNat % 2 ^ 32)
    match ((s.team i.g.team).chan ch).kept with
    | some k => .error (.trap { cause := k.cause, addr := k.addr, aux := k.pc.setWidth 64, after := true, clears := some (ch + 1), replayed := k.replayed })
    | none =>
      if s.channelMet i.g.team ch wp then .ok (s.discard (slotCore i.site.slot) 3, 0)
      else .error (i.suspend s (.channel ch wp))

/-- The state of a channel as CHSTAT reads it (R208, R223). -/
def State.chanState (s : State) (team : Nat) (x : Channel) : Nat :=
  if x.failed then 3
  else match x.queue with
    | [] => 0
    | c :: _ => if s.stillParked (coreDie (s.team team).core) c.parked then 2 else 1

/-- CHSTAT (R223). -/
def execChstat (d : RegField) (l : BitVec 1) (c : BitVec 4) (t : Tail) (s : State) : Host.Outcome State Fault Refusal :=
  let f : Form := { cls := .copy, dst := some { f := d, width := 2 }, rule := .anyS, bad := fun _ => !isS d && !isV d }
  issue f t s fun i s => do
    let ch := c.toNat
    s.chanGranted i ch
    let x := (s.team i.g.team).chan ch
    let lo := s.chanState i.g.team x + 4 * x.queue.length + 64 * (x.flags.toNat % 32) +
      2 ^ 16 * ((x.kept.map fun k => k.cause.code).getD 0)
    let s := if l = 1 then s.putChan i.g.team ch { x with flags := 0 } else s
    .ok (i.writeOnce s d [BitVec.ofNat 32 lo, BitVec.ofNat 32 x.wp], 0)

/-- FMTSET (R224, R38). -/
def execFmtset (n : BitVec 5) (a : RegField) (t : Tail) (s : State) : Host.Outcome State Fault Refusal :=
  let f : Form := { cls := .copy, srcs := [runOpnd a 2], bad := fun _ => badRunAt 2 a }
  issue f t s fun i s => do
    let v := BitVec.ofNat 64 (ofWords (i.sregs a 2))
    refuseIf (decide ((s.gridOf i.g.team).fmtn ≤ n.toNat) || !Narrow.valid v) .copyFormat
    let tm := s.team i.g.team
    .ok (s.setTeam i.g.team { tm with fmts := tm.fmts.set n.toNat v }, 0)

/-- FMTGET (R224). -/
def execFmtget (d : RegField) (n : BitVec 5) (t : Tail) (s : State) : Host.Outcome State Fault Refusal :=
  let f : Form := { cls := .copy, dst := some { f := d, width := 2 }, rule := .anyS, bad := fun _ => !isS d && !isV d }
  issue f t s fun i s => do
    refuseIf (decide ((s.gridOf i.g.team).fmtn ≤ n.toNat)) .copyFormat
    let v := (s.team i.g.team).fmts.get n.toNat
    .ok (i.writeOnce s d [v.setWidth 32, (v >>> 32).setWidth 32], 0)

end Sys2Proof.Machine
end

