-- ==== Sys2Proof/Machine/Residency.lean ====
section
/-! DEFINITION. Residence on a core: owners of register blocks and SRAM units (R147, R148), the seating of groups (R266), pre-emption (R145) and
the return of teams (R146), the world latch (R149, R150), and the moving of block runs (R267). -/

namespace Sys2Proof.Machine

open Sys2Proof

/-! ## Owners (R147) -/

/-- The owner tag of a team. -/
def State.ownerTag (s : State) (core team : Nat) (st : OwnState) : Owner :=
  ⟨(s.core core).world, (s.gridOf team).vdev, (s.gridOf team).ctx, team, st⟩

/-- The register blocks of each group of a grid (R21, R266). -/
def Grid.groupBlocks (g : Grid) : Nat := (1 + g.tangents) * g.regb

/-- The units of a grid's teams (R136). -/
def Grid.unitCount (g : Grid) : Nat := g.sramsz / 65536

/-- Set the state of everything that a team owns. -/
def State.setOwned (s : State) (team : Nat) (st : OwnState) : State :=
  let core := (s.team team).core
  let mark (t : Table Owner) : Table Owner := t.mapVals fun _ o => if o.team = team then { o with state := st } else o
  let k := s.core core
  s.setCore core { k with blocks := mark k.blocks, units := mark k.units }

/-- The first cell of an SRAM unit. -/
def unitCell (core unit : Nat) : Nat := (Place.sram core (unit * 65536)).key

/-- The bytes of a unit that are not 0, by their place in it. -/
def State.unitBytes (s : State) (core unit : Nat) : Table (BitVec 8) :=
  let k := unitCell core unit
  (s.mem.filter fun c => decide (k ≤ c.1) && decide (c.1 < k + 65536)).map fun c => (c.1 - k, c.2)

/-- Put bytes into a unit that holds zeros. -/
def State.fillUnit (s : State) (core unit : Nat) (bs : Table (BitVec 8)) : State :=
  { s with mem := bs.foldl (fun m b => writeCell m (unitCell core unit + b.1) b.2) s.mem }

/-- Zero a unit; its words are written whole. -/
def State.zeroUnit (s : State) (core unit : Nat) : State :=
  let k := s.core core
  let s := if k.sramBad.isEmpty then s else s.setCore core { k with sramBad := k.sramBad.filter fun w => w / 8192 != unit }
  { s with mem := zeroCells s.mem (unitCell core unit) 65536 }

/-- The place of a value in a list, if it is there. -/
def placeIn (x : Nat) (l : List Nat) : Option Nat := if l.contains x then some (indexIn x l) else none

/-- Charge the traffic of a spill to the token bucket of its owner's device (R147). How many tokens it costs is open (DESIGN CHOICE: log 7). -/
def State.chargeSpill (s : State) (vd : Nat) : State :=
  if (s.vdev vd).prof 0x18 31 0 = 0 then s
  else
    let (x, s) := s.draw
    s.setVdev vd { s.vdev vd with bucket := (s.vdev vd).bucket - x }

/-- Spill a unit of its owner to the save area, and zero it (R148). A word of it that reads with a detected error contains the owner (R153). -/
def State.spillUnit (s : State) (core unit : Nat) : State :=
  match (s.core core).units.find unit with
  | none => s
  | some o =>
    let s := (s.sliceError core (unit * 65536) 65536 .core).chargeSpill o.vdev
    let t := s.team o.team
    let s := match placeIn unit ((List.range t.units.length).map fun n =>
        if (t.saved.find n).isSome then 2 ^ 16 else t.units.getD n 0) with
      | some n => s.setTeam o.team { t with saved := t.saved.put n (s.unitBytes core unit) }
      | none => s
    let k := s.core core
    (s.setCore core { k with units := k.units.del unit }).zeroUnit core unit

/-- Prepare a FREE unit for its owner: a detected error in it is counted and reported (R153), and it holds zeros. -/
def State.checkFree (s : State) (core unit : Nat) : State :=
  match (s.core core).badWords (unit * 65536) 65536 with
  | [] => s
  | w :: ws => ((w :: ws).foldl (fun s w => s.reportSlice core (8 * w)) s).zeroUnit core unit

/-- Nothing outside the core names the group by its slot: its state may be spilled. A group waits for its trap record, or for the answer
to a read-modify-write, with its slot. -/
def State.settled (s : State) (slot : Nat) (g : Group) : Bool :=
  g.pending.isNone && s.peers.all fun r => r.slot != slot

/-- Spill a HELD group: its slot becomes free (R148). -/
def State.spillGroup (s : State) (slot : Nat) : State :=
  match s.groups.find slot with
  | none => s
  | some g =>
    let t := s.team g.team
    let s := { s.setTeam g.team { t with away := t.away ++ [(slot, g)] } with groups := s.groups.del slot }
    s.chargeSpill (s.owner g).1

/-- The HELD teams of a core whose state may be claimed, the one that ran least recently first (R148). -/
def State.claimable (s : State) (core : Nat) : List Nat :=
  let ts := s.teams.filter fun t => t.2.core == core && t.2.held && t.2.placed &&
    s.groups.all fun g => g.2.team != t.1 || s.settled g.1 g.2
  let ins (l : List (Nat × Nat)) (x : Nat × Nat) : List (Nat × Nat) :=
    l.takeWhile (fun y => decide (y.1 ≤ x.1)) ++ x :: l.dropWhile fun y => decide (y.1 ≤ x.1)
  (ts.foldl (fun l t => ins l (t.2.lastRun, t.1)) []).map Prod.snd

/-! ## Seats (R266) -/

/-- A block is FREE, or held by one of the given teams. -/
def Core.blockOpen (k : Core) (ok : List Nat) (n : Nat) : Bool :=
  match k.blocks.find n with
  | none => true
  | some o => ok.contains o.team

/-- The lowest run of `n` open blocks in a sub-core. -/
def Core.findRun (k : Core) (ok : List Nat) (sub n : Nat) : Option Nat :=
  (List.range (257 - n)).find? fun b => (List.range n).all fun m => k.blockOpen ok (256 * sub + b + m)

/-- The lowest group slot of a sub-core that is free, or else HELD by one of the given teams. -/
def State.findSlot (s : State) (core sub : Nat) (ok : List Nat) : Option Nat :=
  let all := (List.range 16).map fun n => 192 * core + 16 * sub + n
  match all.find? fun x => (s.groups.find x).isNone with
  | some x => some x
  | none => all.find? fun x => (s.groups.find x).all fun g => ok.contains g.team

/-- The seat of a group: the lowest-numbered sub-core with a slot and a run of blocks. -/
def State.findSeat (s : State) (core n : Nat) (ok : List Nat) : Option (Nat × Nat) :=
  (List.range 12).findSome? fun sub => match s.findSlot core sub ok, (s.core core).findRun ok sub n with
    | some x, some b => some (x, b)
    | _, _ => none

/-- FREE things first, and then those of ever more HELD teams, the least recently run first (R148). -/
def widen {α : Type} (owners : List Nat) (f : List Nat → Option α) : Option α :=
  (List.range (owners.length + 1)).findSome? fun n => f (owners.take n)

/-- Give a run of blocks to a team. -/
def State.takeBlocks (s : State) (core sub base n team : Nat) : State :=
  let k := s.core core
  let o := s.ownerTag core team .active
  s.setCore core { k with blocks := (List.range n).foldl (fun t m => t.put (256 * sub + base + m) o) k.blocks }

/-- Receive a group in a slot, whose HELD group is spilled, the slot's generation being counted on (R131); the accesses that the group still
has outstanding are of the new generation (R146). -/
def State.receive (s : State) (slot : Nat) (g : Group) : State :=
  let s := s.spillGroup slot
  let core := slotCore slot
  let k := s.core core
  let gen : BitVec 8 := k.slotGen.get (slotIn slot) + 1
  let s := { s with peers := s.peers.map fun (r : PeerReq) => if g.preempted && r.slot == slot && r.gen == g.heldGen then { r with gen := gen } else r }
  (s.setCore core { k with slotGen := k.slotGen.set (slotIn slot) gen }).setGroup slot
    { g with runStamp := k.runsBegun.getD (slotSub slot) 0, preempted := false,
             loads := g.loads.map fun l => { l with gen := gen }, fifo := g.fifo.map fun e => { e with gen := gen } }

/-- The units that are FREE, ascending. -/
def Core.freeUnits (k : Core) : List Nat := (List.range 320).filter fun u => (k.units.find u).isNone

/-- The units of a HELD team. -/
def Core.unitsOf (k : Core) (team : Nat) : List Nat := (k.units.filter fun u => u.2.team == team).map Prod.fst

/-- Take `n` units for a team: FREE ones first, and then HELD ones, which are spilled and zeroed (R148). -/
def State.takeUnits (s : State) (core team n : Nat) : Option (State × List Nat) :=
  let k := s.core core
  let us := (k.freeUnits ++ ((s.claimable core).filter (· != team)).flatMap k.unitsOf).take n
  if us.length < n then none
  else
    let s := us.foldl (fun s u => if (k.units.find u).isNone then s.checkFree core u else s.spillUnit core u) s
    let o := s.ownerTag core team .active
    let k := s.core core
    some (s.setCore core { k with units := us.foldl (fun t u => t.put u o) k.units }, us)

/-- The teams of a core that hold their resources as ACTIVE. -/
def State.activeTeams (s : State) (core : Nat) : List Nat :=
  (s.teams.filter fun t => t.2.core == core && t.2.placed && !t.2.held).map Prod.fst

/-- The tiles, maps, musters, channels, format registers and buffer descriptors of the core's ACTIVE teams leave room for one more team
of a grid (R138, R187, R208, R266). -/
def State.grantsFit (s : State) (core : Nat) (g : Grid) : Bool :=
  let room (f : Grid → Nat) (limit : Nat) : Bool :=
    decide ((s.activeTeams core).foldl (fun n t => n + f (s.gridOf t)) (f g) ≤ limit)
  room (fun g => g.accn * (1 + g.tangents)) 64 && room Grid.omn 16 && room Grid.musn 16 && room Grid.chn 16 &&
  room Grid.fmtn 32 && room Grid.bufn 64

/-- Queue q is bound to the grid in its record. -/
def Grid.binds (g : Grid) (q : Nat) : Bool := bit (g.field 0x20 38 35) q

/-- The item queue that a record describes (R260). -/
def Grid.itemQueue (g : Grid) (id q : Nat) : ItemQueue :=
  let c := g.field 0x28 (16 * q + 15) (16 * q)
  ⟨id, [], bits c 3 0, bit c 4, bits c 12 5, false, []⟩

/-- Item queue q of a core is free, bound to the grid, or bound to a grid all of whose teams on the core are HELD. -/
def State.iqOpen (s : State) (core grid q : Nat) : Bool :=
  match (s.core core).iq.find q with
  | none => true
  | some x => x.grid == grid || (s.activeTeams core).all fun t => (s.team t).grid != x.grid

/-- Bind the item queues of a grid on a core; a queue that another grid's pre-empted teams held is put aside, and one that this grid's
had to give up comes back (R143). -/
def State.bindQueues (s : State) (core grid : Nat) : Option State :=
  let qs := (List.range 4).filter (s.grid grid).binds
  if !qs.all fun q => s.iqOpen core grid q then none
  else some (qs.foldl (fun s q =>
    let k := s.core core
    match k.iq.find q with
    | some x =>
      if x.grid = grid then s
      else s.setCore core { k with iqAway := k.iqAway.put (4 * x.grid + q) x,
                                   iq := k.iq.put q (k.iqAway.getD (4 * grid + q) ((s.grid grid).itemQueue grid q)) }
    | none => s.setCore core { k with iq := k.iq.put q (k.iqAway.getD (4 * grid + q) ((s.grid grid).itemQueue grid q)),
                                      iqAway := k.iqAway.del (4 * grid + q) }) s)

/-! ## A new team -/

/-- S0 to S23 at launch (R13, R260). -/
def Grid.sinit (g : Grid) : Regs 32 :=
  (List.range 24).foldl (fun r n => r.set n (BitVec.ofNat 32 (ofBytes ((g.record.drop (0x40 + 4 * n)).take 4)))) []

/-- A group at launch (R13). -/
def newGroup (team num base : Nat) (g : Grid) : Group :=
  { team := team, num := num, base := base,
    lanes := (List.range 64).map fun l => (l, ⟨BitVec.ofNat 56 (g.field 0 55 0), 0, 0, [], [], false, false, 0, none, false, 0⟩),
    s := g.sinit, queues := [], wins := [], fpx := 0, streams := [], fifo := [], loads := [], hazards := [], seq := 0,
    runCount := 0, runStamp := 0, wait := none, trap := TrapState.none, pending := none, mkept := [], imprecise := [],
    replay := none, readFrom := [], preempted := false, stopped := false, replayTo := 0 }

/-- Seat the groups of a new team in ascending number (R266). -/
def State.seatGroups (s : State) (core team : Nat) (g : Grid) : Nat → List Nat → Option (State × List Nat)
  | _, [] => some (s, [])
  | n, m :: ms =>
    match widen (s.claimable core) (s.findSeat core g.groupBlocks) with
    | none => none
    | some (slot, base) =>
      let s := s.takeBlocks core (slotSub slot) base g.groupBlocks team
      let s := s.receive slot (newGroup team m base g)
      (s.seatGroups core team g n ms).map fun r => (r.1, slot :: r.2)

/-- Give a new team all that it needs on a core, or nothing (R266). -/
def State.takeResources (s : State) (core team grid : Nat) : Option State :=
  let g := s.grid grid
  if !s.grantsFit core g then none
  else match s.bindQueues core grid with
    | none => none
    | some s => match s.takeUnits core team g.unitCount with
      | none => none
      | some (s, us) => match s.seatGroups core team g 0 (List.range (g.field 0x10 46 42)) with
        | none => none
        | some (s, slots) => some (s.setTeam team { s.team team with core := core, grid := grid, units := us, slots := slots, placed := true })

/-! ## Giving up resources -/

/-- Free the blocks of a group. -/
def State.freeBlocks (s : State) (slot : Nat) (g : Group) : State :=
  let core := slotCore slot
  let k := s.core core
  let lo := 256 * slotSub slot + g.base
  s.setCore core { k with blocks := k.blocks.keep fun b o =>
    !(o.team == g.team && decide (lo ≤ b) && decide (b < lo + (s.gridOf g.team).groupBlocks)) }

/-- Free everything that a team owns on its core, zeroed. -/
def State.freeTeam (s : State) (team : Nat) : State :=
  let core := (s.team team).core
  let k := s.core core
  let s := (k.unitsOf team).foldl (fun s u => s.zeroUnit core u) s
  s.setCore core { k with
    blocks := k.blocks.keep fun _ o => o.team != team, units := k.units.keep fun _ o => o.team != team }

/-! ## Pre-emption (R145) -/

/-- The parked accesses of a context that a core's engines made give up their fault slots; their numbers stay with them (R300). -/
def State.freeFaults (s : State) (core vd ctx : Nat) : State :=
  let die := coreDie core
  let d := s.die die
  let mine (f : FaultSlot) : Bool :=
    f.core == core && f.vdev == vd && f.ctx == ctx && !f.table &&
    decide (f.engine ∈ [Engine.core, .fetch, .stream, .matrix, .caster, .nearBank])
  let gone := (d.faults.filter fun f => mine f.2).map Prod.fst
  let s := s.setDie die { d with faults := d.faults.keep fun _ f => !mine f }
  { s with pager := s.pager.map fun r => { r with waiters := r.waiters.filter fun w => !(w.1 == die && gone.contains w.2) } }

/-- A group whose state becomes HELD: its outstanding accesses become replay packets, and its slot's generation is counted on. A BARWAIT is
reissued on resumption, as is what waited for a page (R146, R179). -/
def Group.hold (g : Group) (gen : BitVec 8) : Group :=
  let again : Bool := match g.wait with
    | some (.parked _ _) => true
    | some (.barrier _ _) => true
    | _ => false
  { g with
    preempted := true, heldGen := gen, replayTo := g.seq, hazards := [], wait := if again then none else g.wait,
    loads := g.loads.map fun l => { l with gen := gen, got := if l.deferred then l.got else [], locs := if l.deferred then l.locs else [] },
    fifo := g.fifo.map fun e => { e with gen := gen, locs := [] } }

/-- Pre-empt a group of a core. -/
def State.holdGroup (s : State) (slot : Nat) : State :=
  match s.groups.find slot with
  | none => s
  | some _ =>
    let core := slotCore slot
    let s := match (s.core core).runs.find (slotSub slot) with
      | some r => if r.slot = slot then s.endRun core (slotSub slot) else s
      | none => s
    let k := s.core core
    let gen : BitVec 8 := k.slotGen.get (slotIn slot) + 1
    let s := s.setCore core { k with slotGen := k.slotGen.set (slotIn slot) gen }
    let s := { s with peers := (s.peers.filter fun (r : PeerReq) => r.slot != slot || r.rmw).map fun (r : PeerReq) =>
      if r.slot = slot then { r with gen := gen } else r }
    { s with groups := s.groups.modify slot fun g => g.hold gen }

/-- Pre-empt a team. Late answers to what its engines have asked of a peer are dropped (R206, R217). -/
def State.holdTeam (s : State) (team : Nat) : State :=
  let t := s.team team
  let g := s.gridOf team
  let s := t.slots.foldl State.holdGroup s
  let s := { s with peers := s.peers.filter fun r => !tagOfTeam team r.slot }
  let s := s.freeFaults t.core g.vdev g.ctx
  let s := s.setOwned team .held
  let s := s.setCore t.core { s.core t.core with lag := 0 }
  { s.setTeam team { s.team team with held := true, lastRun := s.nextId } with nextId := s.nextId + 1 }

/-- The clusters of a context that have a team on a core. -/
def State.clustersOn (s : State) (core vd ctx : Nat) : List Nat :=
  ((s.teams.filter fun t => t.2.core == core && t.2.placed && (s.gridOf t.1).vdev == vd && (s.gridOf t.1).ctx == ctx).map
    fun t => t.2.cluster).dedup

/-- The teams of clusters that are resident and not yet HELD. -/
def State.residentOf (s : State) (cs : List Nat) : List Nat :=
  (s.teams.filter fun t => cs.contains t.2.cluster && t.2.placed && !t.2.held).map Prod.fst

/-- A near-bank command of teams that has been entered and has not completed (R347). -/
def State.nbPending (s : State) (teams : List Nat) : Option NbCmd :=
  s.nb.find? fun c => teams.contains c.team && decide (0 < c.entered) && (decide (c.fn < 9) || decide (c.finished < c.entered))

/-- What the pre-emption of teams still waits for: nothing; an event, that occurs next; or something that the core cannot bring about, the answer of a
peer to a read-modify-write that has left the core (R145), or a base die that does not respond. -/
inductive HoldWait where
  | ready
  | event (i : Instr)
  | stuck
  deriving DecidableEq, Repr

/-- What the pre-emption of teams waits for (R145, R347). -/
def State.holdWait (s : State) (teams : List Nat) : HoldWait :=
  let slots := teams.flatMap fun t => (s.team t).slots
  if s.peers.any fun r => r.rmw && slots.contains r.slot then .stuck
  else match s.flight.find? fun f => slots.contains f.slot && !f.inPeer with
    | some f => .event (.pointOfCoherenceArrival f.id)
    | none => match s.nbPending teams with
      | none => .ready
      | some c => if (s.stack c.stack).hung then .stuck else match s.nbNext c.stack with
        | none => .stuck
        | some e => .event e

/-- PREEMPT (R145, R347): all teams of the clusters that a context has on a core are pre-empted together, once their writes and
read-modify-writes that have left their cores are performed, a peer's answer having been written by the instruction that waits for it, and
their near-bank commands that have been entered have completed. -/
def execPreempt (core vd ctx : Nat) (s : State) : Host.Outcome State Fault Refusal :=
  let teams := s.residentOf (s.clustersOn core vd ctx)
  match s.holdWait teams with
  | .ready => .next (teams.foldl State.holdTeam s)
  | .event e => .next { s with agenda := e :: .preempt core vd ctx :: s.agenda }
  | .stuck => .next s

/-! ## Resumption (R146, R148) -/

/-- All `n` blocks from one on belong to a team. -/
def Core.ownsRun (k : Core) (team key n : Nat) : Bool :=
  (List.range n).all fun m => (k.blocks.find (key + m)).any fun o => o.team == team

/-- The blocks of a returning group: those that it still holds; else its old place, or the lowest run of its sub-core, FREE or
claimed. The answer is the new base. -/
def State.returnBlocks (s : State) (slot : Nat) (g : Group) : Option (State × Nat) :=
  let core := slotCore slot
  let sub := slotSub slot
  let n := (s.gridOf g.team).groupBlocks
  let k := s.core core
  if k.ownsRun g.team (256 * sub + g.base) n then some (s, g.base)
  else
    let s := s.freeBlocks slot g
    let k := s.core core
    let find (ok : List Nat) : Option Nat :=
      if (List.range n).all fun m => k.blockOpen ok (256 * sub + g.base + m) then some g.base else k.findRun ok sub n
    (widen ((s.claimable core).filter (· != g.team)) find).map fun b => (s.takeBlocks core sub b n g.team, b)

/-- Return a HELD group to its slot. -/
def State.returnGroup (s : State) (team slot : Nat) : Option State :=
  match s.groups.find slot with
  | some g =>
    if g.team = team then (s.returnBlocks slot g).map fun r => { r.1 with groups := r.1.groups.modify slot fun g =>
      { g with base := r.2, preempted := false, runStamp := (r.1.core (slotCore slot)).runsBegun.getD (slotSub slot) 0 } }
    else if !(s.claimable (slotCore slot)).contains g.team then none
    else match (s.team team).away.find? fun x => x.1 == slot with
      | none => none
      | some (_, h) =>
        let s := s.spillGroup slot
        (s.returnBlocks slot h).map fun r => r.1.receive slot { h with base := r.2 }
  | none => match (s.team team).away.find? fun x => x.1 == slot with
    | none => some s
    | some (_, h) => (s.returnBlocks slot h).map fun r => r.1.receive slot { h with base := r.2 }

/-- Return the units that were spilled: their contents are read back into FREE units, or into claimed ones (R148). -/
def State.returnUnits (s : State) (team : Nat) : Option State :=
  let t := s.team team
  (s.takeUnits t.core team t.saved.length).map fun r =>
    let s := (r.2.zip t.saved).foldl (fun s x => s.fillUnit t.core x.1 x.2.2) r.1
    let t := s.team team
    s.setTeam team { t with saved := [], units := (r.2.zip t.saved).foldl (fun us x => us.set x.2.1 x.1) t.units }

/-- Complete the spills in progress of a team's units and blocks (R148). -/
def State.finishSpills (s : State) (team : Nat) : State :=
  let core := (s.team team).core
  let mine (o : Owner) : Bool := o.team == team && o.state == .spilling
  let s := ((s.core core).units.filter fun u => mine u.2).foldl (fun s u => s.spillUnit core u.1) s
  let k := s.core core
  if k.blocks.any fun b => mine b.2 then s.setCore core { k with blocks := k.blocks.keep fun _ o => !mine o } else s

/-- Make a HELD team ACTIVE on its core, if all that it needs can be had there. -/
def State.returnTeam (s : State) (team : Nat) : Option State :=
  let s := s.finishSpills team
  let t := s.team team
  if !s.grantsFit t.core (s.gridOf team) then none
  else match s.bindQueues t.core t.grid with
    | none => none
    | some s => match s.returnUnits team with
      | none => none
      | some s => (t.slots.foldl (fun r slot => r.bind fun s => s.returnGroup team slot) (some s)).map fun s =>
        (s.setTeam team { s.team team with held := false, away := [], joining := false }).setOwned team .active

/-! ## The world latch (R150) -/

/-- Spill what a HELD team has on its core. -/
def State.spillTeam (s : State) (team : Nat) : State :=
  let t := s.team team
  let s := t.slots.foldl (fun s slot => match s.groups.find slot with
    | some g => if g.team = team then s.spillGroup slot else s
    | none => s) s
  ((s.core t.core).unitsOf team).foldl (fun s u => s.spillUnit t.core u) s

/-- Put aside the bound item queues of a core. -/
def Core.spillQueues (k : Core) : Core :=
  { k with iqAway := k.iq.foldl (fun t x => t.put (4 * x.2.grid + x.1) x.2) k.iqAway, iq := [] }

/-- Spill everything that a core holds of teams that are HELD, with its open coalescer records, and zero every part of it (R150). -/
def State.emptyCore (s : State) (core : Nat) : State :=
  let s := ((s.teams.filter fun t => t.2.core == core && t.2.placed).map Prod.fst).foldl State.spillTeam s
  let s := { s with mem := zeroCells s.mem (unitCell core 0) (320 * 65536) }
  let k := (s.core core).spillQueues
  s.setCore core { k with blocks := [], units := [], l1 := [], l1Bad := [], sramBad := [], tlb := [], coal := [], coalAway := k.coalAway ++ k.coal }

/-- WORLD_CHANGE (R150): resident contexts are pre-empted; then everything is spilled, with the open coalescer records, every part of the core
zeroed, and the latch set. The record of a contained context is written first, and the change is tried again (R395). -/
def execWorldChange (core world : Nat) (s : State) : Host.Outcome State Fault Refusal :=
  let k := s.core core
  let own := (s.activeTeams core).map fun t => ((s.gridOf t).vdev, (s.gridOf t).ctx)
  if k.world = world then .next s
  else match own with
    | x :: _ => if s.holdWait (s.residentOf (s.clustersOn core x.1 x.2)) = .stuck then .next s
      else .next { s with agenda := Instr.preempt core x.1 x.2 :: .worldChange core world :: s.agenda }
    | [] => match k.coal.find? fun r => !r.deliver && r.parked.isNone with
      | some r => .next { s with agenda := Instr.coalescerClose core r.seq :: s.agenda }
      | none =>
        let teams := (s.teams.filter fun t => t.2.core == core && t.2.placed).map Prod.fst
        if s.peers.any fun r => teams.any fun t => (s.team t).slots.contains r.slot then .next s
        else
          let s := s.emptyCore core
          .next (s.setCore core { s.core core with world := world })

/-! ## Compaction (R267) -/

/-- The groups whose blocks lie in a sub-core, by base. -/
def State.runsOf (s : State) (core sub : Nat) : List (Nat × Group) :=
  let gs := s.groups.filter fun g => slotCore g.1 == core && slotSub g.1 == sub &&
    (s.core core).ownsRun g.2.team (256 * sub + g.2.base) (s.gridOf g.2.team).groupBlocks
  let ins (l : List (Nat × Group)) (x : Nat × Group) : List (Nat × Group) :=
    l.takeWhile (fun y => decide (y.2.base ≤ x.2.base)) ++ x :: l.dropWhile fun y => decide (y.2.base ≤ x.2.base)
  gs.foldl ins []

/-- Move the runs of a sub-core toward block 0, keeping their order; blocks left of a run that was partly claimed stay with their owner
above them. -/
def State.compactSub (s : State) (core sub : Nat) : State :=
  let runs := s.runsOf core sub
  let moved := (runs.foldl (fun (r : Nat × List (Nat × Nat × Nat)) g =>
    let n := (s.gridOf g.2.team).groupBlocks
    (r.1 + n, r.2 ++ [(g.1, r.1, n)])) (0, [])).2
  let s := runs.foldl (fun s g => s.freeBlocks g.1 g.2) s
  let left := ((s.core core).blocks.filter fun b => b.1 / 256 == sub).map Prod.snd
  let used := moved.foldl (fun n m => n + m.2.2) 0
  let k := s.core core
  let k := { k with blocks := k.blocks.keep fun b _ => b / 256 != sub }
  let s := s.setCore core { k with blocks :=
    ((List.range left.length).zip left).foldl (fun t x => t.put (256 * sub + used + x.1) x.2) k.blocks }
  moved.foldl (fun s m => match s.groups.find m.1 with
    | none => s
    | some g =>
      let o := s.ownerTag core g.team (if (s.team g.team).held then .held else .active)
      let k := s.core core
      let s := s.setCore core { k with blocks := (List.range m.2.2).foldl (fun t n => t.put (256 * sub + m.2.1 + n) o) k.blocks }
      { s with groups := s.groups.modify m.1 fun g => { g with base := m.2.1 } }) s

end Sys2Proof.Machine
end

