-- ==== Sys2Proof/Machine/Streams.lean ====
section
/-! DEFINITION. Access-slice streams (R135, R181 to R183). -/

namespace Sys2Proof.Machine

open Sys2Proof

/-! ## Stream records (R181) -/

/-- A record that is not VALID, or is one that AQLOAD refuses, or a stream that stands at its entry 0. -/
inductive RecordKind where
  | absent
  | bad
  | good (r : Stream)
  deriving DecidableEq, Repr

/-- Read a stream record from its 64 bytes (R181, R183). -/
def recordOf64 (bs : List (BitVec 8)) : RecordKind :=
  let w (off : Nat) := ofBytes ((bs.drop off).take 4)
  let d := ofBytes ((bs.drop 0).take 8)
  let f := w 0x2C
  let ty := bits f 3 0
  if !bit f 16 then .absent
  else if 2 ^ 56 ≤ d ∨ bits f 15 12 ≠ 0 ∨ bits f 31 17 ≠ 0 ∨ ofBytes (bs.drop 0x30) ≠ 0 ∨ ty = 5 ∨ ty = 6 ∨ 9 < ty ∨
      5 < bits f 6 4 ∨ bits f 9 7 = 7 ∨ bits f 11 10 = 3 then .bad
  else .good
    { base := BitVec.ofNat 64 d, counts := (List.range 4).map fun l => w (8 + 8 * l),
      strides := (List.range 4).map fun l => (BitVec.ofNat 32 (w (12 + 8 * l))).toInt,
      lstride := (BitVec.ofNat 32 (w 0x28)).toInt, ty := ty, queue := bits f 6 4, scope := bits f 9 7,
      hint := bits f 11 10, running := false, pos := 0, kept := none, parked := none }

/-- COUNT of a level: 0 counts as 1 (R181). -/
def Stream.count (r : Stream) (l : Nat) : Nat := max 1 (r.counts.getD l 0)

/-- The number of entries of a stream (R181). -/
def Stream.total (r : Stream) : Nat := r.count 0 * r.count 1 * r.count 2 * r.count 3

/-- addr(e, L) (R181). -/
def Stream.addr (r : Stream) (e lane : Nat) : DWord :=
  let i0 := e % r.count 0
  let e1 := e / r.count 0
  let i1 := e1 % r.count 1
  let e2 := e1 / r.count 1
  let i2 := e2 % r.count 2
  let i3 := e2 / r.count 2
  r.base + BitVec.ofInt 64 (i0 * r.strides.getD 0 0 + i1 * r.strides.getD 1 0 + i2 * r.strides.getD 2 0 +
    i3 * r.strides.getD 3 0 + lane * r.lstride)

/-! ## The instructions (R183) -/

/-- Read accesses of a group in order, those to peers having their values (R142, R247, R248): the bytes of each, and the flights read. -/
def State.readParts (s : State) (slot : Nat) (g : Group) (v : Nat) (got : Table (List (BitVec 8))) :
    List (Nat × Acc × Loc) → Except (Cause × DWord ⊕ Instr) (State × List (List (BitVec 8)) × List Nat)
  | [] => .ok (s, [], [])
  | p :: ps =>
    let one : Except (Cause × DWord ⊕ Instr) (State × List (BitVec 8) × List Nat) := match got.find p.1 with
      | some bs => .ok (s, bs, [])
      | none => match s.readHere slot g g.seq v p.2.2 p.2.1.size with
        | .error (.inl c) => .error (.inl (c, p.2.1.ea))
        | .error (.inr e) => .error (.inr e)
        | .ok x => .ok x
    match one with
    | .error e => .error e
    | .ok (s, bs, ids) => match s.readParts slot g v got ps with
      | .error e => .error e
      | .ok (s, more, ids2) => .ok (s, bs :: more, ids ++ ids2)

/-- Read `n` bytes at each address precisely at issue, the way a load does, the values being fixed at once (R158, R163). -/
def State.loadNow (s : State) (i : Issue) (eas : List DWord) (n : Nat) : Except Stop (State × List (List (BitVec 8))) := do
  s.readsFixed i
  let accs : List Acc := eas.map fun ea => ⟨0, 0, ea, n, [], []⟩
  let locs ← s.locate i .load .groupLoad accs
  let (s, got) ← s.peerValues i (partsOf accs locs)
  let (v, s) := s.draw
  match s.readParts i.site.slot i.g v got (partsOf accs locs) with
  | .error (.inl (c, ea)) => trapA c ea
  | .error (.inr e) => .error (.wait s [e])
  | .ok (s, vals, ids) => .ok (i.change s fun g => { g with readFrom := (g.readFrom ++ ids).dedup }, vals)

/-- The tag under which a stream's request to a peer stands among the group's requests. -/
def streamTag (r pos : Nat) : Nat := 2 ^ 64 * (r + 1) + 2 ^ 72 * pos

/-- The requests to peers of the streams of a slot that are stopped or started anew are forgotten: their reads are discarded (R183). -/
def State.forgetStreams (s : State) (slot : Nat) (named : Nat → Bool) : State :=
  { s with peers := s.peers.filter fun r => !(r.slot == slot && r.seq / 2 ^ 64 % 256 != 0 && named (r.seq / 2 ^ 64 % 256 - 1)) }

/-- AQLOAD (R183). -/
def execAqload (n : BitVec 4) (a : RegField) (t : Tail) (s : State) : Host.Outcome State Fault Refusal :=
  let f : Form := { cls := .memory, acc := { ext := true }, srcs := [baseOpnd a],
                    bad := fun _ => !isS a || n == 0 || decide (8 < n.toNat) }
  issue f t s fun i s => do
    s.afterAcquires i
    let ea := i.ea 0 a i.mods.offset
    requireA (decide (ea.toNat % 64 = 0)) .align ea
    let (s, recs) ← s.loadNow i ((List.range n.toNat).map fun k => ea + BitVec.ofNat 64 (64 * k)) 64
    let kinds := recs.map recordOf64
    let queueOf (k : RecordKind) : Option Nat := match k with
      | .good r => some r.queue
      | _ => none
    let badAt := (List.range kinds.length).find? fun k =>
      match kinds.getD k .absent with
      | .absent => false
      | .bad => true
      | .good r => decide (1 < (kinds.filter fun x => queueOf x == some r.queue).length)
    match badAt with
    | some k => trapA .illegalField (ea + BitVec.ofNat 64 (64 * k))
    | none =>
      let table := (List.range kinds.length).foldl (fun (t : Table Stream) k =>
        match kinds.getD k .absent with
        | .good r => t.put k r
        | _ => t) []
      .ok (i.change (s.forgetStreams i.site.slot fun _ => true) fun g => { g with streams := table, queues := [] }, 0)

/-- An instruction with a mask register (R183). -/
def maskInstr (a : RegField) (t : Tail) (s : State) (body : Issue → State → Word → Except Stop State) :
    Host.Outcome State Fault Refusal :=
  let o : Opnd := { f := a }
  let f : Form := { cls := .memory, srcs := [o], bad := fun _ => !isSZ a }
  issue f t s fun i s =>
    (body i s (((i.read 0 o 0).headD 0).setWidth 32)).map fun s => (s, 0)

/-- AQSTART (R183): after the earlier stores are performed at each record's scope, the named streams start at entry 0. -/
def execAqstart (a : RegField) (t : Tail) (s : State) : Host.Outcome State Fault Refusal :=
  maskInstr a t s fun i s m => do
    s.afterAcquires i
    let js := (List.range 8).filter fun j => m.getLsbD j
    let valid := js.all fun j => (i.g.streams.find j).isSome
    require valid .illegalField
    allOk (fun j => match i.g.streams.find j with
      | some r => s.writesDone i r.scope false
      | none => .ok ()) js
    .ok (i.change (s.forgetStreams i.site.slot js.contains) fun g => js.foldl (fun g j => match g.streams.find j with
      | none => g
      | some r => { g with queues := g.queues.del r.queue,
                           streams := g.streams.put j { r with running := true, pos := 0, kept := none, parked := none } }) g)

/-- AQSTOP (R183). -/
def execAqstop (a : RegField) (t : Tail) (s : State) : Host.Outcome State Fault Refusal :=
  maskInstr a t s fun i s m =>
    let stop (j : Nat) (r : Stream) : Stream :=
      if j < 8 && m.getLsbD j then { r with running := false, parked := none } else r
    .ok (i.change (s.forgetStreams i.site.slot fun j => decide (j < 8) && m.getLsbD j) fun g => { g with streams := g.streams.mapVals stop })

/-- QFLUSH (R183). -/
def execQflush (a : RegField) (t : Tail) (s : State) : Host.Outcome State Fault Refusal :=
  maskInstr a t s fun i s m =>
    .ok (i.change s fun g => { g with queues := g.queues.keep fun q _ => !(decide (q < 6) && m.getLsbD q) })

/-! ## Filling (R135, R182) -/

/-- What one element of a stream meets: a cause, a page to park on, a wait on a buffer (R141), or a walk. -/
inductive StreamStop where
  | keep (c : Cause) (ea : DWord)
  | absent (ea gpa : Nat)
  | hold
  | walk (ea : Nat)
  deriving DecidableEq, Repr

/-- Locate one element of a stream (R137, R141, R158, R182). -/
def State.elementLoc (s : State) (slot : Nat) (g : Group) (a : Acc) : Except StreamStop Loc :=
  let ea := a.ea.toNat
  if ea % a.size ≠ 0 then .error (.keep .align a.ea)
  else if isWindow ea then
    match s.window g.team ea a.size with
    | none => .error (.keep .sramRange a.ea)
    | some (t, o) =>
      let p := s.slicePlace t o
      if s.acrossBoundary (coreDie (s.team g.team).core) p then .error (.keep .linkDown a.ea)
      else match bufCheck (s.team t).bufs .engineRead o a.size with
        | .trap c => .error (.keep c a.ea)
        | .wait => .error .hold
        | .ok => .ok (sliceLoc p)
  else
    let own := s.owner g
    match s.lookCore (slotCore slot) own.1 own.2 .load ea with
    | .ok l _ => if attrOrd l.attr then .error (.keep .orderAttr a.ea) else .ok l
    | .fault .xlateNotPresent gpa => .error (.absent ea gpa)
    | .fault c _ => .error (.keep c a.ea)
    | .miss => .error (.walk ea)

/-- The accesses of one entry: every lane, whatever the predicates, with the tangents of R161 (R181). -/
def Stream.accs (r : Stream) (k tstride : Nat) : List Acc :=
  (List.range 64).flatMap fun l =>
    laneAccs l (r.addr r.pos l) (typeSize r.ty) 1 tstride (if typeFloat r.ty then (List.range k).map (· + 1) else [])
      (fun _ _ => []) fun _ _ => []

/-- Change a stream of a group. -/
def State.setStream (s : State) (slot r : Nat) (f : Stream → Stream) : State :=
  { s with groups := s.groups.modify slot fun g => { g with streams := g.streams.modify r f } }

/-- The elements of an entry, those at peers having their values from the peer-read cache (R142, R247, R248). -/
def State.readEntry (s : State) (slot : Nat) (g : Group) (v : Nat) (vals : Table (List (BitVec 8))) (parts : List (Nat × Acc × Loc)) :
    Except (Cause × DWord ⊕ Instr) (State × List (List (BitVec 8)) × List Nat) :=
  match s.overPeer slot g g.seq vals (peerParts parts) with
  | .error e => .error (.inr e)
  | .ok got => s.readParts slot g v got parts

/-- The queue entry of the elements read: one per lane, with its tangents (R16, R135). -/
def entryOf (ty : Nat) (accs : List Acc) (vals : List (List (BitVec 8))) : QEntry :=
  (accs.zip vals).foldl (fun (e : QEntry) x => e.set (8 * x.1.lane + x.1.j) ((convert ty x.2).headD 0)) []

/-- An entry enters a queue, its elements with their codes (R16, R22). -/
def Group.pushed (g : Group) (q : Nat) (e : QEntry) : Group :=
  let es := g.queues.getD q []
  { g with queues := g.queues.put q (es ++ [e]),
           codes := g.codes.filter fun x => match x.1 with
             | .q p n _ => !(p == q && n == es.length)
             | _ => true }

/-- A T cause stops the stream and is kept with it; an F cause contains the context (R182, R9). -/
def State.stopStream (s : State) (slot r : Nat) (g : Group) (c : Cause) (ea : DWord) : State :=
  if c.kind = .F then
    let (v, s) := s.draw
    s.containAccess slot (s.owner g).1 (s.owner g).2 c .stream ea.toNat (BitVec.ofNat 56 (4 * v)) ((g.streams.find r).any fun x => x.parked.isSome)
  else
    let own := s.owner g
    (s.dropWalks (coreDie (slotCore slot)) own.1 own.2 ea.toNat).setStream slot r fun x =>
      { x with running := false, kept := some (c, ea), parked := none }

/-- STREAM_FILL (R135, R181, R182): the stream engine reads the next entry of a running stream into its queue. -/
def execStreamFill (slot r : Nat) (s : State) : Host.Outcome State Fault Refusal :=
  match s.groups.find slot with
  | none => .next s
  | some g => match g.streams.find r with
    | none => .next s
    | some x =>
      let die := coreDie (slotCore slot)
      let grid := s.gridOf g.team
      let core := slotCore slot
      let s := s.setCore core { s.core core with sturn := 8 * slot + r }
      if !x.running || g.preempted || decide (4 ≤ (g.queues.getD x.queue []).length) ||
          x.parked.any (fun q => s.isParked die q) then .next s
      else if typeFloat x.ty && decide (0 < grid.tangents) && grid.tstride == 0 then
        .next (s.stopStream slot r g .tangentUnsupported (x.addr x.pos 0))
      else
        let accs := x.accs grid.tangents grid.tstride
        match collect (s.elementLoc slot g) accs with
        | .error (.keep c ea) => .next (s.stopStream slot r g c ea)
        | .error .hold => .next s
        | .error (.walk ea) => match s.startWalk die (s.owner g).1 (s.owner g).2 ea with
          | (s, some id) => .next (s.await [.walkStep die id])
          | (s, none) => .next s
        | .error (.absent ea gpa) =>
          let own := s.owner g
          match s.parkCore slot g .stream false ea gpa (s.runPc slot g) x.parked with
          | none => .next s
          | some (s, q) => .next ((s.dropWalks die own.1 own.2 ea).setStream slot r fun y => { y with parked := some q })
        | .ok locs =>
          let parts := partsOf accs locs
          let peers := peerParts parts
          let tag := streamTag r x.pos
          match s.readPeer slot tag peers with
          | .wait s => .next s
          | .nack => .next ((s.forgetStreams slot (· == r)).stopStream slot r g .peerXlate ((peers.head?.map fun p => p.2.1.ea).getD 0))
          | .got s vals pids =>
            let (v, s) := s.draw
            match s.readEntry slot g v vals parts with
            | .error (.inl (c, ea)) => .next (s.stopStream slot r g c ea)
            | .error (.inr e) => .next (s.await [e])
            | .ok (s, vals, ids) =>
              let s := locs.foldl State.used s
              let s := { s with groups := s.groups.modify slot fun g =>
                { g.pushed x.queue (entryOf x.ty accs vals) with readFrom := (g.readFrom ++ pids ++ ids).dedup } }
              .next (s.setStream slot r fun y =>
                { y with pos := y.pos + 1, running := decide (y.pos + 1 < y.total), parked := none })

end Sys2Proof.Machine
end

