-- ==== Sys2Proof/Machine/Items.lean ====
section
/-! DEFINITION. The range unit (R268) and item queues (R26, R99, R143, R144, R184). -/

namespace Sys2Proof.Machine

open Sys2Proof

/-! ## The range unit (R268) -/

/-- The die that holds a device's range slot of a number, if it is granted (R268, R377). -/
def State.rangeDie (s : State) (vd n : Nat) : Option Nat :=
  let d := s.vdev vd
  let r0 := d.prof 0x28 40 32
  if n < r0 then some 0 else if n < r0 + d.prof 0x28 56 48 then some 1 else none

/-- BASE, REM, DIV and MINC of a slot; one never initialised holds REM = 0 (R268). -/
def State.rangeSlot (s : State) (die vd n : Nat) : Nat × Nat × Nat × Nat :=
  (s.die die).ranges.getD (256 * vd + n) (0, 0, 0, 0)

/-- Set a slot. -/
def State.setRange (s : State) (die vd n : Nat) (x : Nat × Nat × Nat × Nat) : State :=
  s.setDie die { s.die die with ranges := (s.die die).ranges.put (256 * vd + n) x }

/-- A grab (R268): the start, the length, and the slot after it. -/
def grabOf (x : Nat × Nat × Nat × Nat) : Nat × Nat × (Nat × Nat × Nat × Nat) :=
  let (base, rem, div, minc) := x
  let n := min rem (max minc ((rem + div - 1) / div))
  (base, n, ((base + n) % 2 ^ 32, rem - n, div, minc))

/-! ## Item queues (R143, R144) -/

/-- An item queue that a team is granted (R143). -/
def State.itemQueue (s : State) (team q : Nat) : Option ItemQueue :=
  let t := s.team team
  match (s.core t.core).iq.find q with
  | some x => if x.grid == t.grid && bit ((s.gridOf team).field 0x20 38 35) q then some x else none
  | none => none

/-- Set an item queue of a team's core. -/
def State.setItemQueue (s : State) (team q : Nat) (x : ItemQueue) : State :=
  let c := (s.team team).core
  s.setCore c { s.core c with iq := (s.core c).iq.put q x }

/-- Take up to `n` items from runs of consecutive items. -/
def pullRuns : Nat → List (Nat × Nat) → List Word × List (Nat × Nat)
  | 0, t => ([], t)
  | _ + 1, [] => ([], [])
  | n + 1, (x, len) :: t =>
    let r := pullRuns n (if len ≤ 1 then t else ((x + 1) % 2 ^ 32, len - 1) :: t)
    (BitVec.ofNat 32 x :: r.1, r.2)

/-- Let a waiting append enter as far as there is room (R144, R184). -/
def ItemQueue.settle (x : ItemQueue) : ItemQueue :=
  let r := pullRuns (2 ^ x.logCap - x.items.length) x.tail
  { x with items := x.items ++ r.1, tail := r.2 }

/-- ITEMPUSH (R184): the items enter as far as there is room; the group is suspended until the last has entered. -/
def execItempush (q : BitVec 2) (a : RegField) (t : Tail) (s : State) : Host.Outcome State Fault Refusal :=
  let o : Opnd := { f := a, tan := false }
  let f : Form := { cls := .memory, acc := { index := true }, srcs := [o] }
  issue f t s fun i s =>
    match s.itemQueue i.g.team q.toNat with
    | none => trapE .itemQueue
    | some x =>
      if x.range then trapE .itemQueue
      else if !x.tail.isEmpty then .error (i.suspend s (.itemRoom q.toNat))
      else
        let lanes := if isSZ a then [lowest i.site.set] else i.act
        let items := lanes.map fun l => (((i.read l o 0).headD 0).toNat % 2 ^ 32, 1)
        let y := { x with tail := items }.settle
        let s := s.setItemQueue i.g.team q.toNat y
        if y.tail.isEmpty then .ok (s, 0)
        else
          let s := s.endRun (slotCore i.site.slot) (slotSub i.site.slot)
          .ok (i.change s fun g => { g with wait := some (.itemRoom q.toNat) }, 0)

/-- REFILL (R26, R99): every lane of the set whose predicate is true takes the next item, or leaves for the exit label. -/
def execRefill (d : RegField) (p : BitVec 3) (q : BitVec 2) (x : BitVec 9) (t : Tail) (s : State) :
    Host.Outcome State Fault Refusal :=
  let o : Opnd := { f := d }
  let f : Form := { cls := .scalar, acc := { index := true }, dst := some o, reads := [.p p.toNat], writes := [.p p.toNat], rule := .vOnly,
                    bad := fun _ => p == 0 }
  issue f t s fun i s =>
    match s.itemQueue i.g.team q.toNat with
    | none => trapR .itemQueue d
    | some iq =>
      let fin := (lanesOf i.site.set).filter fun l => (i.seen.lane l).pred p.toNat
      let taken := fin.zip iq.items
      let gone := fin.drop taken.length
      let s := s.setItemQueue i.g.team q.toNat { iq with items := iq.items.drop taken.length }.settle
      let s := i.commit s none (taken.flatMap fun y =>
        (i.destOf y.1 d 1 0 i.tans).cells y.1 [y.2] ++ [RCell.p y.1 p.toNat false])
      let out : BitVec 56 := i.site.pc + (x.signExtend 56 <<< 2)
      .ok (i.change s fun g => g.onLanes gone fun y => { y with pc := out, clause := none }, laneSet gone)

/-- ITEM_QUEUE_GRAB (R144): a RANGE-mode queue that runs low performs a grab and appends what it gives; a grab of nothing marks it
DRY. -/
def execItemQueueGrab (core q : Nat) (s : State) : Host.Outcome State Fault Refusal :=
  match (s.core core).iq.find q with
  | none => .next s
  | some x =>
    let vd := (s.grid x.grid).vdev
    if !x.range || x.dry || decide (64 ≤ x.items.length) || !x.tail.isEmpty then .next s
    else match s.rangeDie vd x.slot with
      | none => .next s
      | some die =>
        let (start, n, slot) := grabOf (s.rangeSlot die vd x.slot)
        let s := s.setRange die vd x.slot slot
        let y := if n = 0 then { x with dry := true } else { x with tail := [(start, n)] }.settle
        .next (s.setCore core { s.core core with iq := (s.core core).iq.put q y })

end Sys2Proof.Machine
end

