-- ==== Sys2Proof/Machine/Traps.lean ====
section
/-! DEFINITION. The trap coalescer's closing (R151, R152, R302, R303, R382), imprecise store causes (R170), and SETHDLR, TRAPRET,
RDCAUSE and PROBE (R304 to R308). -/

namespace Sys2Proof.Machine

open Sys2Proof

/-! ## The record (R152) -/

/-- The number of a kind in a record (R152). -/
def CauseKind.code : CauseKind → Nat
  | .T => 0
  | .P => 1
  | .F => 2

/-- The 64 bytes of a record of a core (R152). -/
def CoalRec.bytes (r : CoalRec) (core world : Nat) : List (BitVec 8) :=
  let b (x : Bool) (n : Nat) : Nat := if x then 2 ^ n else 0
  toBytes 8 (r.cause.code + r.kind.code * 2 ^ 8 + b r.addr.isSome 10 + b r.replayed 11 + b r.exited 12 +
    r.count * 2 ^ 16 + core * 2 ^ 32 + world * 2 ^ 38) ++
  toBytes 8 ((r.addr.getD 0).toNat % 2 ^ 56) ++ toBytes 8 r.pc.toNat ++
  toBytes 24 (r.groups.foldl (fun m n => m ||| 2 ^ n) 0) ++
  toBytes 8 (r.vdev + r.ctx * 2 ^ 11 + r.grid * 2 ^ 16 + r.gen.toNat * 2 ^ 48) ++
  toBytes 4 r.seq ++ toBytes 4 r.team

/-- A record as it is written: TEAM is all ones when the team of a group that had exited has retired (R152, R170). -/
def State.attributed (s : State) (r : CoalRec) : CoalRec :=
  if r.exited && (s.teams.find r.tid).isNone then { r with team := 2 ^ 32 - 1 } else r

/-- Write a record to its context's trap ring, then TCOUNT, and raise TVEC (R382). -/
def State.writeRecord (s : State) (core : Nat) (r : CoalRec) : State × Except EngStop Unit :=
  let x := s.ctx r.vdev r.ctx
  let w : Agent := ⟨2 ^ 60 + core, .core, core, r.vdev, r.ctx, (s.core core).world⟩
  match s.agentLocs w .store [(x.tring + 64 * (x.written % 2 ^ (x.trlog + 6)), 64), (x.tcount, 8)] with
  | (s, .error e) => (s, .error e)
  | (s, .ok ls) => match readOnlyAt ls with
    | some a => (s, .error (.cause .writeReadonly a))
    | none => match s.writePieces w ls ((s.attributed r).bytes core (s.core core).world ++ toBytes 8 (x.written + 1)) with
      | .error e => (s, .error e)
      | .ok s =>
        ((s.setCtx r.vdev r.ctx { s.ctx r.vdev r.ctx with written := x.written + 1 }).interruptField r.vdev x.tvec, .ok ())

/-! ## Entering the handler (R302, R303) -/

/-- TRAP ENTRY: the group's trap state is written, and every lane of the trapping set takes PC := HDLR. -/
def Group.enterHandler (g : Group) (p : Pending) (r : CoalRec) (hdlr : BitVec 56) : Group :=
  let ls := (lanesOf p.set).filter fun l => !(g.lane l).exited
  let g := (g.encoded (ls.map Stored.pc)).onLanes ls fun x =>
    { x with pc := hdlr, clause := none, held := false, tsync := false, stamp := g.runCount }
  { g with
    wait := none, pending := none,
    trap := { active := true, cause := r.cause, kind := BitVec.ofNat 2 r.kind.code, addrv := r.addr.isSome,
              replayed := r.replayed, exited := r.exited, addr := (r.addr.getD 0) &&& 0x00FFFFFFFFFFFFFF, tpc := p.tpc.setWidth 64,
              lanes := p.lanes, aux := p.aux, seq := BitVec.ofNat 32 r.seq, hdr := p.hdr, set := p.set,
              excs := p.excs } }

/-- Every group in a record's bitmap enters its handler (R151). -/
def State.deliver (s : State) (core : Nat) (r : CoalRec) : State :=
  let hdlr := (s.ctx r.vdev r.ctx).hdlr
  { s with groups := s.groups.mapVals fun slot g =>
      if slotCore slot == core && r.groups.contains (slotIn slot) then
        match g.pending with
        | some p => if g.wait = some WaitCond.trap then g.enterHandler p r hdlr else g
        | none => g
      else g }

/-- A group of a record waits to enter its handler: a group that has exited does not (R170). -/
def State.awaited (s : State) (core : Nat) (r : CoalRec) : Bool :=
  s.groups.any fun g => slotCore g.1 == core && r.groups.contains (slotIn g.1) && g.2.pending.isSome && g.2.wait == some WaitCond.trap

/-- Take a record out of a core's coalescer. -/
def State.dropRecord (s : State) (core seq : Nat) : State :=
  let k := s.core core
  s.setCore core { k with coal := k.coal.filter fun r => r.seq != seq }

/-- COALESCER_CLOSE (R151, R302, R382): a record is written to the trap ring; then its groups enter their handler, or, with no handler
set, the context is contained. -/
def execCoalescerClose (core seq : Nat) (s : State) : Host.Outcome State Fault Refusal :=
  match (s.core core).coal.find? fun r => r.seq == seq with
  | none => .next s
  | some r =>
    let die := coreDie core
    if r.parked.any fun q => s.isParked q.1 q.2 then .next s
    else
      let world := (s.core core).world
      match s.writeRecord core r with
      | (s, .error .hold) => .next s
      | (s, .error (.absent ea gpa)) =>
        match s.agentPark ⟨2 ^ 60 + core, .core, core, r.vdev, r.ctx, world⟩ true ea gpa (r.parked.map Prod.snd) with
        | none => .next s
        | some (s, q) =>
          let k := s.core core
          .next (s.setCore core { k with coal := k.coal.map fun y =>
            if y.seq == seq then { y with parked := some (die, q) } else y })
      | (s, .error (.cause c ea)) =>
        let s := if r.deliver then s.report (.record r r.kind core world) else s
        .next ((s.dropRecord core seq).contain r.vdev r.ctx c .core ea)
      | (s, .ok ()) =>
        let s := s.dropRecord core seq
        if !r.deliver || !s.awaited core r then .next s
        else if (s.ctx r.vdev r.ctx).hdlr = 0 then
          .next (s.contain r.vdev r.ctx r.cause .core (r.addr.getD 0).toNat (some (r, core, world)))
        else .next (s.deliver core r)

/-! ## Imprecise causes of stores (R170) -/

/-- The set that would issue at the group's next instruction boundary (R302): that of its run, or else the set that its next run
issues. -/
def State.boundarySet (s : State) (slot : Nat) (g : Group) : BitVec 64 :=
  match (s.core (slotCore slot)).runs.find (slotSub slot) with
  | some r => if r.slot = slot then r.set else laneSet g.nextSet
  | none => laneSet g.nextSet

/-- A group whose 64 lanes have exited (R100). -/
def Group.done (g : Group) : Bool := g.alive.isEmpty

/-- IMPRECISE_STORE_TRAP (R169, R170, R302): the T cause of a dropped store is delivered. -/
def execImpreciseStoreTrap (slot : Nat) (s : State) : Host.Outcome State Fault Refusal :=
  match s.groups.find slot with
  | none => .next s
  | some g => match g.imprecise with
    | [] => .next s
    | p :: ps =>
      let core := slotCore slot
      let drop (s : State) : State := { s with groups := s.groups.modify slot fun g => { g with imprecise := ps } }
      let r := { s.recordOf slot g p.cause p.addr p.pc p.replayed g.done true with gen := p.gen }
      if g.preempted || g.stopped then .next s
      else if g.done then
        let grid := (s.team g.team).grid
        if (s.core core).coalFull r then .next (s.await [.coalescerClose core (((s.core core).coal.head?.map CoalRec.seq).getD 0)])
        else
          let s := ((drop s).coalesce core r).1
          .next { s with grids := s.grids.modify grid fun x => { x with imprecise := (x.imprecise + 1) % 2 ^ 32 } }
      else if g.pending.isSome then .next s
      else if g.trap.active then
        .next ((drop s).containRecord core r .core (p.addr.getD 0).toNat)
      else if (s.core core).coalFull r then
        .next (s.await [.coalescerClose core (((s.core core).coal.head?.map CoalRec.seq).getD 0)])
      else
        let set := s.boundarySet slot g
        if set = 0 then .next s
        else
          let x := g.lane (lowest set)
          let q : Pending := { p with tpc := x.pc, hdr := x.clause, set := set }
          let s := ((drop s).coalesce core r).1
          let s := match (s.core core).runs.find (slotSub slot) with
            | some run => if run.slot = slot then s.endRun core (slotSub slot) else s
            | none => s
          .next { s with groups := s.groups.modify slot fun g => { g with wait := some .trap, pending := some q } }

/-! ## The instructions -/

/-- What the die and system instructions accept (R272, R304). -/
def accSys (ext : Bool) : Accept := { ext := ext }

/-- The pair that an S register pair or ZERO holds. -/
def Issue.pairOf (i : Issue) (a : RegField) : DWord := (i.read 0 { f := a, width := 2, tan := false } 0).headD 0

/-- A code address: bits [1:0] and [63:56] are 0 (R305, R306). -/
def badCode (x : DWord) : Bool := x.extractLsb' 0 2 != 0 || x.extractLsb' 56 8 != 0

/-- SETHDLR (R305). -/
def execSethdlr (a : RegField) (t : Tail) (s : State) : Host.Outcome State Fault Refusal :=
  let f : Form := { cls := .system, srcs := [{ f := a, width := 2, tan := false }], bad := fun _ => !isSZ a }
  issue f t s fun i s =>
    let v := i.pairOf a
    if badCode v then trapE .align
    else
      let own := s.owner i.g
      .ok (s.setCtx own.1 own.2 { s.ctx own.1 own.2 with hdlr := v.setWidth 56 }, 0)

/-- TRAPRET (R306, R54): the return from the handler. -/
def execTrapret (a : RegField) (t : Tail) (s : State) : Host.Outcome State Fault Refusal :=
  let f : Form := { cls := .system, srcs := [{ f := a, width := 2, tan := false }], bad := fun _ => !isSZ a }
  issue f t s fun i s =>
    let tr := i.g.trap
    let target := if isZero a then tr.tpc else i.pairOf a
    if !tr.active then trapE .illegalOpcode
    else if badCode target then trapE .align
    else
      let s := i.change s fun g =>
        let g := g.onLanes ((lanesOf tr.set).filter fun l => !(g.lane l).exited) fun x =>
          { x with pc := target.setWidth 56, clause := if isZero a then tr.hdr else none, stamp := g.runCount, entry := g.runCount }
        Group.release { g with trap := { g.trap with active := false } }
      .ok (s.endRun (slotCore i.site.slot) (slotSub i.site.slot), i.site.set)

/-- The pair that a selector of RDCAUSE reads (R307). -/
def TrapState.read (t : TrapState) (sel : Nat) : DWord :=
  let b (x : Bool) (n : Nat) : Nat := if x then 2 ^ n else 0
  match sel with
  | 0 => t.seq ++ BitVec.ofNat 32 (t.cause.code + t.kind.toNat * 2 ^ 8 + b t.addrv 10 + b t.replayed 11 + b t.exited 12 +
      b t.active 13)
  | 1 => t.addr
  | 2 => t.tpc
  | 3 => t.lanes
  | _ => t.aux

/-- A register pair, V or S, and no other register (R272). -/
def notPair (d : RegField) : Bool := !(isV d || isS d)

/-- RDCAUSE (R307). -/
def execRdcause (d a : RegField) (t : Tail) (s : State) : Host.Outcome State Fault Refusal :=
  let f : Form := { cls := .system, dst := some { f := d, width := 2 }, rule := .anyS,
                    bad := fun _ => notPair d || decide (4 < a.toNat) }
  issue f t s fun i s => .ok (i.writeOnce s d (words 2 (i.g.trap.read a.toNat)), 0)

/-! ## PROBE (R308) -/

/-- A walk made for PROBE, which neither parks nor asks for a page: at most `n` table reads. -/
def State.probeWalk (s : State) (die : Nat) (w : Walk) : Nat → Except Cause Xlation
  | 0 => .error .walkTimeout
  | n + 1 => match w.phase with
    | .done x => .ok x
    | .failed c _ => .error c
    | _ => match s.walkRead die w 1 with
      | .ok (p, _) => s.probeWalk die { w with phase := p } n
      | .error (c, _) => .error c

/-- What a load at an address would meet: the first cause, and the stage-1 translation when there is one (R282, R308). -/
def State.probe (s : State) (core vd ctx ea : Nat) : Cause × Option Xlation :=
  let x := s.ctx vd ctx
  let die := coreDie core
  let outcome (t : Xlation) : Cause :=
    match s.linkCheck die (s.resolve vd (s.core core).world .load t ea) with
    | .fault c _ => c
    | _ => .none
  if 2 ^ 56 ≤ ea then (.xlateRangeInvalid, none)
  else match (s.cached (s.core core).tlb vd ctx ea).or (s.cached (s.die die).tlc vd ctx ea) with
    | some t => (if t.dataBad then .tlbParity else outcome t, some t)
    | none => match s.probeWalk die ⟨vd, ctx, ea, x.walkStart ea, none⟩ 20 with
      | .ok t => (outcome t, some t)
      | .error c => (c, none)

/-- The pair that PROBE gives (R308). -/
def State.probePair (s : State) (slot : Nat) (g : Group) (ea : DWord) : DWord :=
  let a := ea.toNat
  if isWindow a then
    BitVec.ofNat 64 (2 ^ 8 + if (s.window g.team a 1).isSome then 0 else Cause.sramRange.code)
  else
    let own := s.owner g
    let (c, x) := s.probe (slotCore slot) own.1 own.2 a
    match x with
    | none => BitVec.ofNat 64 c.code
    | some t =>
      let dead := attrKeyed t.attr && decide (attrGen t.attr < (s.key (attrSlot t.attr)).kgen)
      BitVec.ofNat 64 (c.code + t.size * 2 ^ 9 + t.attr.toNat % 1024 * 2 ^ 11 + (if dead then 2 ^ 21 else 0) +
        bits (t.gpa + (a - t.vlo)) 47 16 * 2 ^ 32)

/-- PROBE (R308). -/
def execProbe (d a : RegField) (t : Tail) (s : State) : Host.Outcome State Fault Refusal :=
  let o : Opnd := { f := d, width := 2 }
  let f : Form := { cls := .system, acc := accSys true, dst := some o, srcs := [baseOpnd a],
                    bad := fun _ => notPair d || notPair a }
  issue f t s fun i s =>
    let pairAt (l : Nat) := s.probePair i.site.slot i.g (i.ea l a i.mods.offset)
    if isS a then .ok (i.writeOnce s d (words 2 (pairAt 0)), 0)
    else .ok (i.commit s none (i.act.flatMap fun l => i.destCells l o (i.plain (pairAt l)).vals), 0)

end Sys2Proof.Machine
end

