-- ==== Sys2Proof/Machine/Launch.lean ====
section
/-! DEFINITION. Grids (R260 to R270): the record, the pending pool, the placing of clusters and teams, retirement; and RNGINIT, GRAB,
LAUNCH, JOIN and LSTAT (R272 to R277). -/

namespace Sys2Proof.Machine

open Sys2Proof

/-! ## The record (R260, R261) -/

/-- The teams of a grid, its cluster shape, and its clusters (R260, R263). -/
def Grid.teamCount (g : Grid) : Nat := g.field 8 31 0 * g.field 8 63 32 * g.field 0x10 31 0
def Grid.cw (g : Grid) : Nat := g.field 0x10 35 32
def Grid.ch (g : Grid) : Nat := g.field 0x10 39 36
def Grid.clusterSize (g : Grid) : Nat := if g.cw = 0 then 1 else g.cw * g.ch
def Grid.clusterCount (g : Grid) : Nat := g.teamCount / g.clusterSize
def Grid.prio (g : Grid) : Nat := g.field 0x10 41 40
def Grid.statAddr (g : Grid) : Nat := g.field 0x38 55 0

/-- The rectangles of `w` columns and `h` rows of the logical mesh that lie in a placement set, by their top-left core: the cores of
each in rank order (R2, R240). -/
def rectangles (place w h : Nat) : List (List Nat) :=
  ((List.range (9 - h)).flatMap fun r => (List.range (9 - w)).map fun c =>
    (List.range h).flatMap fun y => (List.range w).map fun x => 8 * (r + y) + c + x).filter fun l => l.all (bit place)

/-- The cores of a device's placement set (R377). -/
def VDev.place (d : VDev) : Nat := d.prof 8 63 0

/-- The cores of a device's placement set that are in service: one that is OFFLINE is removed from every set (R434). -/
def State.placeOf (s : State) (vd : Nat) : Nat :=
  (s.cores.filter fun k => k.2.offline && bit (s.vdev vd).place k.1).foldl (fun n k => n - 2 ^ k.1) (s.vdev vd).place

/-- A reserved field of the record is not zero, or a field is out of range: the first row of R261. -/
def Grid.badField (g : Grid) : Bool :=
  g.field 0 63 56 != 0 || g.field 0x10 63 54 != 0 || g.field 0x20 63 39 != 0 ||
  ((List.range 4).any fun q => g.field 0x28 (16 * q + 15) (16 * q + 13) != 0) ||
  g.field 0x30 63 56 != 0 || g.field 0x38 63 56 != 0 || ((g.record.drop 0xA0).any (· != 0)) ||
  g.field 0 1 0 != 0 || g.teamCount == 0 || decide (2 ^ 32 < g.teamCount) ||
  !(decide (1 ≤ g.field 0x10 46 42) && decide (g.field 0x10 46 42 ≤ 16)) ||
  !(decide (1 ≤ g.regb) && decide (g.regb ≤ 12)) || decide (4 < g.tangents) ||
  decide (64 < g.accn) || decide (16 < g.omn) || decide (16 < g.musn) || decide (16 < g.chn) || decide (32 < g.fmtn) ||
  decide (64 < g.bufn) || decide (64 < g.accn * (1 + g.tangents)) || g.sramsz % 65536 != 0 || decide (20 * 2 ^ 20 < g.sramsz) ||
  ((List.range 4).any fun q => g.binds q &&
    !(decide (4 ≤ g.field 0x28 (16 * q + 3) (16 * q)) && decide (g.field 0x28 (16 * q + 3) (16 * q) ≤ 12)))

/-- The cause for which a record is refused (R261): the first row that applies. -/
def State.recordCause (s : State) (vd : Nat) (g : Grid) : Option Cause :=
  if g.badField || (g.tangents != 0 && !s.feature 0) then some .illegalField
  else if (g.fmtn != 0 && g.field 0x30 2 0 != 0) || g.field 0x38 4 0 != 0 then some .align
  else if ((g.cw == 0) != (g.ch == 0)) || decide (8 < g.cw) || decide (8 < g.ch) || decide (12 < g.cw * g.ch) ||
      g.teamCount % g.clusterSize != 0 ||
      (rectangles (s.placeOf vd) (max 1 g.cw) (max 1 g.ch)).isEmpty then some .clusterShape
  else if (List.range 4).any fun q => g.binds q && g.field 0x28 (16 * q + 4) (16 * q + 4) == 1 &&
      (s.rangeDie vd (g.field 0x28 (16 * q + 12) (16 * q + 5))).isNone then some .rangeSlot
  else none

/-! ## The pending pool (R262, R269, R270) -/

/-- POOLQ of a die (R377). -/
def VDev.poolQuota (d : VDev) (die : Nat) : Nat := if die = 0 then d.prof 0x28 12 0 else d.prof 0x28 28 16

/-- The pool entries that a device holds on a die (R269). -/
def State.poolHeld (s : State) (vd die : Nat) : Nat := ((s.die die).pool.filter fun g => (s.grid g).vdev == vd).length

/-- The pool of a die has an entry within the device's quota (R259, R269). -/
def State.poolRoom (s : State) (vd die : Nat) : Bool :=
  decide ((s.die die).pool.length < 4096) && decide (s.poolHeld vd die < (s.vdev vd).poolQuota die)

/-- The die of a dispatched grid (R262): that which holds more cores of the placement set, or die 0. -/
def State.homeDie (s : State) (vd : Nat) : Nat :=
  let cs := (List.range 64).filter (bit (s.placeOf vd))
  if (cs.filter fun c => coreDie c == 0).length < (cs.filter fun c => coreDie c == 1).length then 1 else 0

/-- Enter a validated grid in a pool (R262, R270): its number in the machine, its sequence number, and the state. -/
def State.enterGrid (s : State) (vd ctx die : Nat) (record : List (BitVec 8)) (parent : Option Nat) (queue : Option (Nat × Nat))
    (launcher : Option (Nat × After)) : Nat × Nat × State :=
  let d := s.vdev vd
  let n := (d.gridCount + 1) % 2 ^ 32
  let n := if n = 0 then 1 else n
  let s := s.setVdev vd { d with gridCount := n }
  let id := s.nextId
  let x := s.die die
  let s := s.setDie die { x with pool := x.pool ++ [id], poolSeq := x.poolSeq + 1 }
  let g : Grid := { Grid.gone with
    record := record, seq := n, vdev := vd, ctx := ctx, die := die, entry := x.poolSeq, parent := parent, queue := queue,
    launcher := launcher, since := s.gtime }
  (id, n, { s.setGrid id g with nextId := id + 1 })

/-! ## Distribution (R263 to R265) -/

/-- The placement set of a device is named by its lowest core; the set's slice is held by the device (R392). -/
def VDev.setKey (d : VDev) : Nat := ((List.range 64).find? (bit d.place)).getD 64

/-- The device holds the slice on its placement set (R388, R392). -/
def State.holdsSlice (s : State) (vd : Nat) : Bool :=
  ((s.sets.find (s.vdev vd).setKey).bind PlaceSet.running) == some vd

/-- A grid that can be served: it has clusters to place, its context is ACTIVE, its device holds the slice, and the writes that its
accesses stand after are performed (R264, R275). -/
def State.canServe (s : State) (g : Grid) : Bool :=
  decide (g.nextCluster < g.clusterCount) && s.isActive g.vdev g.ctx && s.holdsSlice g.vdev &&
  g.launcher.all fun l => s.afterMet l.1 l.2

/-- The grid that a die serves next for a device (R264): the highest priority, and then the first to enter; a later grid of the same
priority never overtakes one that waits. -/
def State.nextGrid (s : State) (die vd : Nat) : Option Nat :=
  let gs := (s.die die).pool.filter fun n => (s.grid n).vdev == vd && decide ((s.grid n).nextCluster < (s.grid n).clusterCount)
  let best := gs.foldl (fun (b : Option Nat) n => match b with
    | none => some n
    | some m => if (s.grid m).prio < (s.grid n).prio then some n else some m) none
  best.filter fun n => s.canServe (s.grid n)

/-- The groups of ACTIVE teams on a core (R265). -/
def State.residents (s : State) (core : Nat) : Nat :=
  (s.groups.filter fun g => slotCore g.1 == core && !(s.team g.2.team).held).length

/-- A core takes a team of a grid now (R149, R155, R265): in the device's world, in service, not refusing the context, its needs met. -/
def State.canTake (s : State) (core grid : Nat) : Bool :=
  let g := s.grid grid
  let k := s.core core
  k.world == (s.vdev g.vdev).world && !k.offline && !(s.die (coreDie core)).ioDown && !k.refused.any (fun v => victimHits v g.vdev g.ctx) &&
  (s.takeResources core s.nextId grid).isSome

/-- The cores on which the next cluster of a grid is placed, in rank order (R265). -/
def State.placeFor (s : State) (grid : Nat) : Option (List Nat) :=
  let g := s.grid grid
  let place := s.placeOf g.vdev
  if g.clusterSize = 1 then
    let cs := ((List.range 64).filter (bit place)).filter fun c => s.canTake c grid
    (cs.foldl (fun (b : Option Nat) c => match b with
      | none => some c
      | some x => if s.residents c < s.residents x then some c else some x) none).map fun c => [c]
  else (rectangles place g.cw g.ch).find? fun l =>
    l.all (fun c => s.canTake c grid) && !((s.boundaryDown || s.boundaryHeld) && l.any fun c => coreDie c != coreDie (l.headD 0))

/-- Give the next cluster of a grid to the leaf controllers of its cores (R263, R265). -/
def State.placeCluster (s : State) (grid : Nat) (cores : List Nat) : State :=
  let g := s.grid grid
  let cl := s.nextId
  let n := cores.length
  let teams := (List.range n).map fun r => cl + 1 + r
  let s := { s with nextId := cl + 1 + n, clusters := s.clusters.put cl ⟨grid, cores.headD 0, max 1 g.cw, max 1 g.ch, teams, []⟩ }
  let s := (teams.zip ((List.range n).zip cores)).foldl (fun s x =>
    s.setTeam x.1 { Team.gone with
      grid := grid, index := g.nextCluster * n + x.2.1, rank := x.2.1, cluster := cl, core := x.2.2, placed := false,
      since := g.since }) s
  { s.setGrid grid { g with nextCluster := g.nextCluster + 1, since := s.gtime } with agenda := teams.map Instr.teamPlace ++ s.agenda }

/-! ## Placement on a core (R261, R266) -/

/-- What the reading of a team's format values gives: they wait on an absent page, wait, contain the context, or are read, the addresses on
failing pages being unset. -/
inductive FormatRead where
  | parked (ea gpa : Nat)
  | hold
  | fatal (c : Cause) (ea : Nat)
  | values (vs : List (Option (BitVec 64))) (pages : List Nat)
  deriving DecidableEq, Repr

/-- Read the format values one by one (R261). -/
def State.readFormats (s : State) (w : Agent) : List Nat → State × FormatRead
  | [] => (s, .values [] [])
  | ea :: eas => match s.agentRead w ea 8 with
    | (s, .error (.absent ea gpa)) => (s, .parked ea gpa)
    | (s, .error .hold) => (s, .hold)
    | (s, .error (.cause c ea)) =>
      if c.kind = .F then (s, .fatal c ea)
      else match s.readFormats w eas with
        | (s, .values vs ps) => (s, .values (none :: vs) ((ea / 4096 :: ps).dedup))
        | r => r
    | (s, .ok bs) => match s.readFormats w eas with
      | (s, .values vs ps) => (s, .values (some (BitVec.ofNat 64 (ofBytes bs)) :: vs) ps)
      | r => r

/-- The format registers of a new team: a value that FMTSET refuses is an unset register (R38, R261). -/
def formatRegs (vs : List (Option (BitVec 64))) : Regs 64 :=
  ((List.range vs.length).zip vs).foldl (fun r x => match x.2 with
    | some v => if Narrow.valid v then r.set x.1 v else r
    | none => r) []

/-- The HELD things that one table gives to a team and that another team has in the other table. -/
def takenOver (old new : Table Owner) (team : Nat) : List Nat :=
  (old.filter fun o => o.2.state == .held && (new.find o.1).any fun n => n.team == team).map Prod.fst

/-- The spills that giving a team its resources begins (R147, R148): what it claims of HELD units and blocks becomes SPILLING; none when it claims
nothing whose spill has not begun. -/
def State.beginSpills (s given : State) (core team : Nat) : Option State :=
  let k := s.core core
  let us := takenOver k.units (given.core core).units team
  let bs := takenOver k.blocks (given.core core).blocks team
  let mark (t : Table Owner) (l : List Nat) : Table Owner := t.mapVals fun n o => if l.contains n then { o with state := .spilling } else o
  if us.isEmpty && bs.isEmpty then none else some (s.setCore core { k with units := mark k.units us, blocks := mark k.blocks bs })

/-- TEAM_PLACE (R261, R266): a leaf controller reads a team's format values, and then, once all of its needs can be met and what it claims has
been spilled, takes them. A child's core acquires what its launcher wrote before (R275). -/
def execTeamPlace (team : Nat) (s : State) : Host.Outcome State Fault Refusal :=
  match s.teams.find team with
  | none => .next s
  | some t =>
    let g := s.grid t.grid
    let die := coreDie t.core
    if t.placed || !s.isActive g.vdev g.ctx || !s.holdsSlice g.vdev || s.stillParked die t.fpark ||
        (s.core t.core).world != (s.vdev g.vdev).world then .next s
    else
      let w : Agent := ⟨2 ^ 59 + team, .core, t.core, g.vdev, g.ctx, (s.core t.core).world⟩
      match s.readFormats w ((List.range g.fmtn).map fun n => g.field 0x30 55 0 + 8 * n) with
      | (s, .hold) => .next s
      | (s, .parked ea gpa) => match s.agentPark w false ea gpa t.fpark with
        | none => .next s
        | some (s, q) => .next (s.setTeam team { s.team team with fpark := some q })
      | (s, .fatal c ea) => .next (s.contain g.vdev g.ctx c .core ea)
      | (s, .values vs ps) => match s.takeResources t.core team t.grid with
        | none => .next s
        | some given => match s.beginSpills given t.core team with
          | some s => .next s
          | none =>
          let s := given.setTeam team { given.team team with fmts := formatRegs vs, fpark := none }
          let s := if g.launcher.isSome then s.discard t.core 5 else s
          .next { s with grids := s.grids.modify t.grid fun g => { g with imprecise := (g.imprecise + ps.length) % 2 ^ 32 } }

/-! ## Retirement (R100, R187, R243, R269) -/

/-- Every access that a group made has completed or been discarded. -/
def State.quiet (s : State) (slot : Nat) (g : Group) : Bool :=
  g.fifo.isEmpty && g.loads.isEmpty && g.imprecise.isEmpty && g.pending.isNone &&
  s.flight.all (fun f => f.slot != slot) && s.peers.all (fun r => r.slot != slot) &&
  s.nb.all fun c => c.slot != slot || c.team != g.team

/-- A cluster barrier at which every group of a team that is left is marked: the team's arrival is performed (R243). No group is left to raise
BARRIER_OVERFLOW when the object takes no arrival any more: the arrival is dropped and the marks stay (DESIGN CHOICE: log 73). -/
def State.settleMarks (s : State) (team : Nat) : State :=
  (s.team team).marks.foldl (fun s m =>
    if s.allMarked team m.1 [] then match s.barPlace team m.1 with
      | some p => (s.teamMark team m.1 (m.2.headD 0) p).getD s
      | none => s
    else s) s

/-- GROUP_RETIRE (R100): a group whose 64 lanes have exited retires once its accesses are done with. Its blocks are freed, its team's
musters and barriers no longer wait for it (R202, R180, R243), and a kept cause of it is dropped (R194). -/
def execGroupRetire (slot : Nat) (s : State) : Host.Outcome State Fault Refusal :=
  match s.groups.find slot with
  | none => .next s
  | some g =>
    if !g.done || !s.quiet slot g || g.preempted || g.stopped then .next s
    else
      let s := (s.freeBlocks slot g).clearKept slot (some 0)
      let s := match (s.core (slotCore slot)).runs.find (slotSub slot) with
        | some r => if r.slot = slot then s.endRun (slotCore slot) (slotSub slot) else s
        | none => s
      let t := s.team g.team
      let s := { s.setTeam g.team { t with slots := t.slots.filter (· != slot) } with groups := s.groups.del slot }
      .next (((s.musterRetire g.team g.num).settleMarks g.team).tsyncRelease g.team)

/-- The operations and commands that a team issued are done with (R187). -/
def State.teamIdle (s : State) (team : Nat) : Bool :=
  let t := s.team team
  t.slots.isEmpty && t.placed && !t.held && (s.core t.core).mq.all (fun o => o.team != team) &&
  t.chans.all (fun c => c.2.queue.isEmpty) && s.nb.all (fun c => c.team != team) && s.flight.all fun f => !tagOfTeam team f.slot

/-- Release the item queues of a grid whose last team on a core retires: the items left are dropped (R144). -/
def State.releaseQueues (s : State) (core grid : Nat) : State :=
  if s.teams.any fun t => t.2.grid == grid && t.2.core == core && t.2.placed then s
  else
    let k := s.core core
    let mine := k.iq.filter fun q => q.2.grid == grid
    let n := mine.foldl (fun n q => n + q.2.items.length + q.2.tail.foldl (fun m r => m + r.2) 0) 0
    let s := s.setCore core { k with iq := k.iq.keep fun _ q => q.grid != grid }
    { s with grids := s.grids.modify grid fun g => { g with dropped := (g.dropped + n) % 2 ^ 32 } }

/-- TEAM_RETIRE (R144, R187, R269, R270): a team retires when every group has, and every operation that it issued has completed. It is
counted on its die; its children are counted against its grid from then on. -/
def execTeamRetire (team : Nat) (s : State) : Host.Outcome State Fault Refusal :=
  match s.teams.find team with
  | none => .next s
  | some t =>
    if !s.teamIdle team then .next s
    else
      let s := s.freeTeam team
      let children := (s.grids.filter fun g => g.2.parent == some team).map Prod.fst
      let s := { s with teams := s.teams.del team, drains := s.drains.filter fun d => d.team != team }
      let s := { s with grids := s.grids.mapVals fun n g =>
        if n = t.grid then
          { g with ret0 := g.ret0 + (if coreDie t.core = 0 then 1 else 0), ret1 := g.ret1 + (if coreDie t.core = 1 then 1 else 0),
                   orphans := g.orphans ++ children }
        else if g.parent = some team then { g with parent := none } else g }
      let s := s.releaseQueues t.core t.grid
      .next (if (s.clusters.find t.cluster).all fun c => c.teams.all fun x => (s.teams.find x).isNone then
        { s with clusters := s.clusters.del t.cluster } else s)

/-! ## The range unit's instructions (R273, R274) -/

/-- Bits [7:0] of an S register or ZERO: a slot number. -/
def Issue.slotNum (i : Issue) (f : RegField) : Nat := ((i.read 0 { f := f, tan := false } 0).headD 0).toNat % 256

/-- RNGINIT (R273). -/
def execRnginit (d a : RegField) (t : Tail) (s : State) : Host.Outcome State Fault Refusal :=
  let f : Form := { cls := .system, acc := accSys false, srcs := [{ f := d, tan := false }, runOpnd a 4],
                    bad := fun _ => !isSZ d || badRunAt 4 a }
  issue f t s fun i s =>
    let n := i.slotNum d
    let w (m : Nat) : Nat := ((i.sregs a 4).getD m 0).toNat
    let vd := (s.owner i.g).1
    match s.rangeDie vd n with
    | none => trapE .rangeSlot
    | some die =>
      let bad (x : Nat) : Bool := x == 0 || decide (65535 < x)
      if bad (w 2) || bad (w 3) || decide (2 ^ 32 < w 0 + w 1) then trapE .rangeSlot
      else .ok (s.setRange die vd n (w 0, w 1, w 2, w 3), 0)

/-- GRAB (R268, R274). -/
def execGrab (d a : RegField) (t : Tail) (s : State) : Host.Outcome State Fault Refusal :=
  let f : Form := { cls := .system, acc := accSys false, dst := some { f := d, width := 2 }, srcs := [{ f := a, tan := false }],
                    rule := .anyS, bad := fun _ => notPair d || !isSZ a }
  issue f t s fun i s =>
    let n := i.slotNum a
    let vd := (s.owner i.g).1
    match s.rangeDie vd n with
    | none => trapE .rangeSlot
    | some die =>
      let (start, len, x) := grabOf (s.rangeSlot die vd n)
      .ok (i.writeOnce (s.setRange die vd n x) d [BitVec.ofNat 32 start, BitVec.ofNat 32 len], 0)

/-! ## LAUNCH and JOIN (R275, R276) -/

/-- Read a record precisely at issue (R158, R275). -/
def State.loadRecord (s : State) (i : Issue) (ea : DWord) : Except Stop (State × List (BitVec 8)) :=
  (s.loadNow i ((List.range 3).map fun n => ea + BitVec.ofNat 64 (64 * n)) 64).map fun r => (r.1, r.2.flatten)

/-- LAUNCH (R275). -/
def execLaunch (d a : RegField) (t : Tail) (s : State) : Host.Outcome State Fault Refusal :=
  let f : Form := { cls := .system, acc := accSys true, dst := some { f := d }, srcs := [baseOpnd a], rule := .anyS,
                    bad := fun _ => !isSZ d || !isS a }
  issue f t s fun i s => do
    s.afterAcquires i
    let ea := i.ea 0 a i.mods.offset
    requireA (decide (ea.toNat % 64 = 0)) .align ea
    let (s, rec) ← s.loadRecord i ea
    let own := s.owner i.g
    let die := coreDie (slotCore i.site.slot)
    match s.recordCause own.1 { Grid.gone with record := rec } with
    | some c => trapA c ea
    | none =>
      let tm := s.team i.g.team
      if !s.poolRoom own.1 die || decide (65535 ≤ tm.jcnt) then trapE .launchPoolFull
      else
        let (_, seq, s) := s.enterGrid own.1 own.2 die rec (some i.g.team) none (some (i.g.team, i.afterNow))
        let s := s.setTeam i.g.team { s.team i.g.team with jcnt := tm.jcnt + 1 }
        .ok (i.writeOnce s d [BitVec.ofNat 32 seq], 0)

/-- JOIN (R276). A condition that a change of JCNT has met while the group waited stays met. -/
def execJoin (a : RegField) (t : Tail) (s : State) : Host.Outcome State Fault Refusal :=
  let f : Form := { cls := .system, acc := accSys false, srcs := [{ f := a, tan := false }], bad := fun _ => !isSZ a }
  issue f t s fun i s =>
    let n := ((i.read 0 { f := a, tan := false } 0).headD 0).toNat % 2 ^ 32
    let tm := s.team i.g.team
    if 65535 < n then trapE .joinInvalid
    else if n < tm.jcnt && i.g.joinMet != some n then .error (i.suspend s (.join n))
    else match tm.childBad with
      | x :: _ => .error (.trap { cause := .joinInvalid, addr := some x, after := true, clears := some 17 })
      | [] => .ok (i.change (s.discard (slotCore i.site.slot) 5) fun g => { g with joinMet := none }, 0)

/-! ## LSTAT (R277) -/

/-- LSTAT (R277). -/
def execLstat (d a : RegField) (t : Tail) (s : State) : Host.Outcome State Fault Refusal :=
  let f : Form := { cls := .system, acc := accSys false, dst := some { f := d, width := 2 }, srcs := [{ f := a, tan := false }],
                    rule := .anyS, bad := fun _ => notPair d || !isSZ a }
  issue f t s fun i s =>
    let v := ((i.read 0 { f := a, tan := false } 0).headD 0).toNat
    let core := slotCore i.site.slot
    let vd := (s.owner i.g).1
    let give (lo hi : Nat) : Except Stop (State × BitVec 64) := .ok (i.writeOnce s d [BitVec.ofNat 32 lo, BitVec.ofNat 32 hi], 0)
    match bits v 3 0 with
    | 0 => give (s.team i.g.team).jcnt 0
    | 1 => give (s.poolHeld vd (coreDie core)) ((s.vdev vd).poolQuota (coreDie core))
    | 2 => match s.rangeDie vd (bits v 15 8) with
      | none => trapE .rangeSlot
      | some die =>
        let x := s.rangeSlot die vd (bits v 15 8)
        give x.2.1 x.1
    | 3 => match s.itemQueue i.g.team (bits v 9 8) with
      | none => trapE .itemQueue
      | some q => give q.items.length (q.logCap + (if q.range then 16 else 0) + if q.dry then 32 else 0)
    | 4 =>
      give (s.clockMhz core).toNat (BitVec.ofInt 32 (s.core core).lag).toNat
    | _ => trapE .illegalField

end Sys2Proof.Machine
end

