-- ==== Sys2Proof/Machine/Resume.lean ====
section
/-! DEFINITION. Where clusters go: their resumption on the cores that hold their state or on others (R146, R148), teams that give up their resources
to their children (R271), the placing of new clusters (R264, R265), and compaction (R267). -/

namespace Sys2Proof.Machine

open Sys2Proof

/-! ## Moving to other cores (R146) -/

/-- Nothing that goes on outside a team's cores names its groups by their slots. -/
def State.detached (s : State) (team : Nat) : Bool :=
  let t := s.team team
  let mine (slot : Nat) : Bool := t.slots.contains slot || tagOfTeam team slot
  s.flight.all (fun f => !mine f.slot) && s.peers.all (fun r => !mine r.slot) && s.nb.all (fun c => c.team != team) &&
  s.drains.all (fun d => d.team != team) && s.keys.all (fun k => k.2.enders.all fun e => e.2 != team) &&
  s.groups.all (fun g => g.2.team != team || g.2.pending.isNone) && t.away.all fun g => g.2.pending.isNone

/-- Spill everything that a HELD team has on its core, its grid's item queues among it. -/
def State.spillAway (s : State) (team : Nat) : State :=
  let t := s.team team
  let s := s.spillTeam team
  let k := s.core t.core
  let mine := k.iq.filter fun q => q.2.grid == t.grid
  s.setCore t.core { k with
    blocks := k.blocks.keep fun _ o => o.team != team, iq := k.iq.keep fun _ q => q.grid != t.grid,
    iqAway := mine.foldl (fun r q => r.put (4 * t.grid + q.1) q.2) k.iqAway }

/-- The slot of a group that has moved stands in what an operation comes after. -/
def After.moved (seats : List (Nat × Nat)) (a : After) : After := { a with slot := (seats.lookup a.slot).getD a.slot }

/-- Seat the spilled groups of a team, each as a new one is seated (R266): the old slots and the new ones. -/
def State.seatAway (s : State) (core team : Nat) : List (Nat × Group) → Option (State × List (Nat × Nat))
  | [] => some (s, [])
  | (old, g) :: gs =>
    let n := (s.gridOf team).groupBlocks
    match widen (s.claimable core) (s.findSeat core n) with
    | none => none
    | some (slot, base) =>
      let s := (s.takeBlocks core (slotSub slot) base n team).receive slot { g with base := base }
      (s.seatAway core team gs).map fun r => (r.1, (old, slot) :: r.2)

/-- The engines' state of a team goes with it to another core: the operations in its matrix queue, and its grid's item queues. -/
def State.moveQueues (s : State) (team core : Nat) : State :=
  let t := s.team team
  let k := s.core t.core
  let mine (n : Nat) : Bool := n / 4 == t.grid
  let s := s.setCore t.core { k with mq := k.mq.filter fun o => o.team != team, iqAway := k.iqAway.keep fun n _ => !mine n }
  let c := s.core core
  (s.setCore core { c with
    mq := c.mq ++ k.mq.filter (fun o => o.team == team),
    iqAway := (k.iqAway.filter fun q => mine q.1).foldl (fun r q => r.put q.1 q.2) c.iqAway }).setTeam team { t with core := core }

/-- Make a team whose state has been spilled ACTIVE on another core, if all that it needs can be had there (R146, R148, R266). The core discards its
copies, so that no group reads a line older than what it has read before. -/
def State.moveTeam (s : State) (team core : Nat) : Option State :=
  let t := s.team team
  if !s.grantsFit core (s.gridOf team) then none
  else match (s.moveQueues team core).bindQueues core t.grid with
    | none => none
    | some s => match s.returnUnits team with
      | none => none
      | some s => match s.seatAway core team (t.away.mergeSort fun a b => decide (a.2.num ≤ b.2.num)) with
        | none => none
        | some (s, seats) =>
          let x := s.team team
          let k := s.core core
          let s := s.setCore core { k with mq := k.mq.map fun o => if o.team = team then { o with after := o.after.map (After.moved seats) } else o }
          let s := s.setTeam team { x with
            held := false, joining := false, away := [], slots := x.slots.map fun slot => (seats.lookup slot).getD slot,
            musters := x.musters.mapVals fun _ m => { m with after := m.after.map (After.moved seats) },
            chans := x.chans.mapVals fun _ c => { c with queue := c.queue.map fun y => { y with after := y.after.map (After.moved seats) } } }
          some ((s.setOwned team .active).discard core 5)

/-- A core takes teams of a context now (R149, R155). -/
def State.coreServes (s : State) (core vd ctx : Nat) : Bool :=
  let k := s.core core
  k.world == (s.vdev vd).world && !k.offline && !(s.die (coreDie core)).ioDown && !k.refused.any fun v => victimHits v vd ctx

/-- The teams of a cluster that have not retired. -/
def State.liveTeams (s : State) (cl : Nat) : List Nat := (s.teams.filter fun t => t.2.cluster == cl).map Prod.fst

/-- Move a cluster that does not fit where its state lies (R146): to the first rectangle of its placement set on which its teams fit, each on its
own die (DEDUCED: log 31). Item queues go with all of their grid's teams, or not at all. -/
def State.moveCluster (s : State) (cl : Nat) : Option State :=
  match s.clusters.find cl with
  | none => none
  | some c =>
    let g := s.grid c.grid
    let live := s.liveTeams cl
    let alone := !((List.range 4).any g.binds) || s.teams.all fun t => t.2.grid != c.grid || !t.2.placed || live.contains t.1
    if !alone || !live.all (fun t => (s.team t).held && s.detached t) then none
    else
      let away := live.foldl State.spillAway s
      ((rectangles (s.placeOf g.vdev) c.cw c.ch).filter fun l => l.headD 0 != c.core0 && live.all fun t =>
        let core := l.getD (s.team t).rank 0
        s.coreServes core g.vdev g.ctx && coreDie core == coreDie (s.team t).core).findSome? fun l =>
          (live.foldl (fun r t => r.bind fun s => s.moveTeam t (l.getD (s.team t).rank 0)) (some away)).map fun s =>
            s.modCluster cl fun c => { c with core0 := l.headD 0 }

/-! ## Giving up resources to children (R271) -/

/-- A group waits in a JOIN whose condition has not been met. -/
def State.joinWaits (s : State) (g : Group) : Bool :=
  match g.wait with
  | some (.join n) => g.joinMet.isNone && decide (n < (s.team g.team).jcnt)
  | _ => false

/-- Every group of a team has exited or waits in JOIN, and one waits (R271). -/
def State.inJoin (s : State) (team : Nat) : Bool :=
  let t := s.team team
  let gs := t.slots.filterMap (fun slot => (s.groups.find slot).filter fun g => g.team == team) ++ t.away.map Prod.snd
  gs.any s.joinWaits && gs.all fun g => g.done || s.joinWaits g

/-- Pre-empt one cluster of a placement set whose teams all wait for their children (R271, R145): its resources are then available to other
teams. -/
def State.yieldJoined (s : State) (place : Nat) : State :=
  match (s.clusters.map Prod.fst).find? fun cl =>
      let live := s.liveTeams cl
      !live.isEmpty && live.all (fun t => (s.team t).placed && !(s.team t).held && s.inJoin t && bit place (s.team t).core) &&
      s.holdWait live == .ready with
  | none => s
  | some cl => (s.liveTeams cl).foldl (fun s t =>
    let s := s.holdTeam t
    s.setTeam t { s.team t with joining := true }) s

/-! ## Resumption (R146) -/

/-- The spilled records of a context are in the coalescer again (R150). -/
def State.returnRecords (s : State) (core vd ctx : Nat) : State :=
  let k := s.core core
  let mine (r : CoalRec) : Bool := r.vdev == vd && r.ctx == ctx
  if k.coalAway.any mine then
    s.setCore core { k with coal := k.coal ++ k.coalAway.filter mine, coalAway := k.coalAway.filter fun r => !mine r }
  else s

/-- RESUME (R146, R271): the clusters that a context holds on a core resume, all teams of a cluster together: where their state lies, or else on
other cores of the placement set; one that fits nowhere stays HELD, and so does one whose teams all wait for their children. A core takes only
teams of its latched world (R149). -/
def execResume (core vd ctx : Nat) (s : State) : Host.Outcome State Fault Refusal :=
  .next ((s.clustersOn core vd ctx).foldl (fun s c =>
    let teams := (s.teams.filter fun t => t.2.cluster == c && t.2.held).map Prod.fst
    if teams.isEmpty || !s.isActive vd ctx || (teams.any fun t => (s.core (s.team t).core).world != (s.vdev vd).world) ||
        (teams.any fun t => (s.team t).joining) && teams.all (fun t => s.inJoin t) then s
    else
      let s := (teams.map fun t => (s.team t).core).dedup.foldl (fun s core => s.returnRecords core vd ctx) s
      match teams.foldl (fun r t => r.bind fun s => s.returnTeam t) (some s) with
      | some s => s
      | none => (s.moveCluster c).getD s) s)

/-! ## The placing of clusters (R264, R265) -/

/-- CLUSTER_PLACE (R264, R265): a die's scheduler places the next cluster of the grid that it serves, for the first device that holds a
slice and has a cluster that can be placed. Where one waits for room, a cluster that waits for its children gives up its own (R271). -/
def execClusterPlace (die : Nat) (s : State) : Host.Outcome State Fault Refusal :=
  let vds := ((s.die die).pool.map fun g => (s.grid g).vdev).dedup.mergeSort
  match vds.findSome? fun vd => (s.nextGrid die vd).bind fun g => (s.placeFor g).map fun cs => s.placeCluster g cs with
  | some s => .next s
  | none => match vds.find? fun vd => (s.nextGrid die vd).isSome with
    | some vd => .next (s.yieldJoined (s.vdev vd).place)
    | none => .next s

/-! ## Compaction (R267) -/

/-- COMPACT_WAIT of a device, in ns (R267, R377). -/
def VDev.compactWait (d : VDev) : Nat := 1000 * (if d.prof 0x10 63 32 = 0 then 200 else d.prof 0x10 63 32)

/-- The grid whose next team has waited longest for a core (R267). -/
def State.oldestWaiting (s : State) (core : Nat) : Option Nat :=
  (s.grids.filter fun g => ((s.die 0).pool ++ (s.die 1).pool).contains g.1 && decide (g.2.nextCluster < g.2.clusterCount) &&
      s.isActive g.2.vdev g.2.ctx && bit (s.vdev g.2.vdev).place core && s.coreServes core g.2.vdev g.2.ctx).foldl (fun (b : Option Nat) g =>
    match b with
    | none => some g.1
    | some x => if g.2.since < (s.grid x).since then some g.1 else some x) none

/-- The time at which the oldest waiting team of a core has waited longer than COMPACT_WAIT. -/
def State.compactAt (s : State) (core : Nat) : Option Nat :=
  (s.oldestWaiting core).map fun g => (s.grid g).since + (s.vdev (s.grid g).vdev).compactWait + 1

/-- A sub-core can be helped by compaction: it has a free slot, and blocks enough for a group, but no run of them. -/
def State.compactHelps (s : State) (core n sub : Nat) : Bool :=
  let k := s.core core
  (s.findSlot core sub []).isSome && (k.findRun [] sub n).isNone &&
  decide (n ≤ ((List.range 256).filter fun b => k.blockOpen [] (256 * sub + b)).length)

/-- Compact the sub-cores that wait for it and in which no run goes on: a group is never moved inside a run (R267). -/
def State.compactIdle (s : State) (core : Nat) : State :=
  let k := s.core core
  let idle := k.compacting.filter fun sub => (k.runs.find sub).isNone
  let s := idle.foldl (fun s sub => s.compactSub core sub) s
  if idle.isEmpty then s else s.setCore core { s.core core with compacting := (s.core core).compacting.filter fun sub => !idle.contains sub }

/-- Compact a core at a slice boundary when that is due and would let its oldest waiting team fit (R267). -/
def State.compact (s : State) (core : Nat) : State :=
  if !(s.core core).compact then s
  else
    let s := s.setCore core { s.core core with compact := false }
    match s.oldestWaiting core with
    | none => s
    | some g =>
      let subs := (List.range 12).filter fun sub => s.compactHelps core (s.grid g).groupBlocks sub
      let done := subs.foldl (fun s sub => s.compactSub core sub) s
      if (s.takeResources core s.nextId g).isNone && (done.takeResources core s.nextId g).isSome then
        (s.setCore core { s.core core with compacting := subs }).compactIdle core
      else s

/-- COMPACT_WAIT_EXPIRY (R267): the oldest waiting team of a core has waited too long, and compaction is due at the next slice boundary; a
sub-core whose run has ended since the boundary is compacted. -/
def execCompactWaitExpiry (core : Nat) (s : State) : Host.Outcome State Fault Refusal :=
  if !(s.core core).compacting.isEmpty then .next (s.compactIdle core)
  else match s.compactAt core with
    | none => .next s
    | some t => .next ({ s with gtime := max s.gtime t }.setCore core { s.core core with compact := true })

end Sys2Proof.Machine
end

