-- ==== Sys2Proof/Machine/NearBank.lean ====
section
/-! DEFINITION. Near-bank units (R335 to R347): CC frames, the instructions, the queues and units, completion, and failures. -/

namespace Sys2Proof.Machine

open Sys2Proof

/-! ## CC frames (R335) -/

/-- A stack-local profile (R322). -/
def Profile.stackLocal (p : Profile) : Bool :=
  p.glog == 8 && (maskBits 8 p.stks.toNat).length == 1 && p.channels == 0xFFFFFFFF

/-- The 32 granules of a 2 MiB frame, `gpa` being that of its first byte: each is pinned, resident, and in its place in one buffer
from a buffer offset that is a multiple of 2 MiB on. -/
def State.frameCause (s : State) (vd gpa : Nat) : Option (Cause × Nat) :=
  let leaf (n : Nat) := s.s2leaf vd (gpa + 65536 * n)
  match leaf 0 with
  | none => some (.xlateStage2, gpa)
  | some f0 => (List.range 32).findSome? fun n => match leaf n with
    | none => some (.xlateStage2, gpa + 65536 * n)
    | some f =>
      if !f.pin then some (.xlateRights, gpa + 65536 * n)
      else if !f.res then some (.xlateNotPresent, gpa + 65536 * n)
      else if f.buf != f0.buf || f.boff != f0.boff + n || f0.boff % 32 != 0 then some (.ccAttr, gpa + 65536 * n)
      else none

/-- Translate an address that must lie in a CC frame (R282, R335): its stack and SPA. -/
def State.ccLoc (s : State) (slot : Nat) (g : Group) (k : Access) (ea : DWord) : Except Stop Loc :=
  let own := s.owner g
  let a := ea.toNat
  if isWindow a then trapA .ccAttr ea
  else match s.lookCore (slotCore slot) own.1 own.2 k a with
    | .fault .xlateNotPresent gpa => .error (.wait (s.parkGroup slot g .nearBank k.writes a gpa) [])
    | .fault c _ => trapA c ea
    | .miss => .error (s.waitWalk slot g a)
    | .ok l x =>
      let gpa := x.gpa + (a - x.vlo)
      if !attrCC l.attr || attrKeyed l.attr || !x.big then trapA .ccAttr ea
      else match s.frameCause own.1 (gpa - a % 2 ^ 21) with
        | some (.xlateNotPresent, gpa) => .error (.wait (s.parkGroup slot g .nearBank k.writes a gpa) [])
        | some (c, _) => trapA c ea
        | none => match x.s2 with
          | .leaf _ _ _ _ buf _ =>
            if (s.bufs.find buf).all fun b => b.kind != 0 || !(s.profs.getD b.prof ⟨0, 0, 0, 0⟩).stackLocal then trapA .ccAttr ea
            else .ok l
          | .missing => trapA .ccAttr ea

/-- The stack and SPA of a location in device memory. -/
def Loc.dram (l : Loc) : Nat × Nat :=
  match l.place with
  | .dram st spa => (st, spa)
  | _ => (8, 0)

/-! ## The commands (R341 to R343) -/

/-- A command as its octet gives it, before its operands are located. -/
def nbOf (i : Issue) (own : Nat × Nat) (gen : BitVec 8) (fn : Nat) (octet : List Word) (bar : Nat) : NbCmd :=
  ⟨0, i.site.slot, i.g.num, gen, i.site.pc, i.g.team, slotCore i.site.slot, own.1, own.2, fn, octet, bar, 0, 0, 0, 0, i.afterNow, [],
    none, 0, 0, [], none, false⟩

/-- The three addresses of an octet (R342). -/
def NbCmd.addr (c : NbCmd) (n : Nat) : Nat := ofWords ((c.octet.drop (2 * n)).take 2)

/-- The operands that a command uses: X, Y, Z (R342). -/
def NbCmd.uses (c : NbCmd) : List Nat :=
  match c.fn with
  | 1 => [0, 2]
  | 6 => [0, 2]
  | 7 => [0, 2]
  | 8 => [2]
  | _ => [0, 1, 2]

/-- Step 1 of R341 for an octet (R342). -/
def NbCmd.badOctet (c : NbCmd) : Bool :=
  let w6 := (c.octet.getD 6 0).toNat
  let arg := (c.octet.getD 7 0).toNat
  bits w6 31 28 != 0 || c.cpp == 0 || decide (32 < c.cpp) ||
  (bit w6 26 != bit w6 27 && !(c.fn == 4 || c.fn == 5 || c.fn == 6 || c.fn == 7)) ||
  (arg != 0 && !(c.fn == 0 || c.fn == 1 || c.fn == 8)) || (c.fn == 8 && !bit w6 26 && decide (65536 ≤ arg)) ||
  (List.range 3).any fun n => decide (2 ^ 56 ≤ c.addr n) || (!c.uses.contains n && c.addr n != 0)

/-- P(a) and S(a) of an address in a CC frame (R335). -/
def pairOf (a : Nat) : Nat := bits a 20 10
def segOf (a : Nat) : Nat := a % 1024

/-- The striped operands of a command with their element sizes (R337, R342). -/
def NbCmd.striped (c : NbCmd) : List (Nat × Nat) :=
  c.uses.filterMap fun n =>
    if n = 2 && c.single then none else some (c.addr n, if n = 2 && c.fn == 6 then c.os else c.es)

/-- NB_CROSS (R337, R343). -/
def NbCmd.crosses (c : NbCmd) : Bool :=
  if c.fn = 5 then decide (2047 < pairOf (c.addr 0) + c.elems - 1)
  else c.striped.any fun o => decide (2047 < pairOf o.1 + c.pairs - 1)

/-- NB_LAYOUT for the extents of operands and for co-striping (R337, R342, R343). -/
def NbCmd.badLayout (c : NbCmd) : Bool :=
  if c.fn = 5 then
    let x := c.addr 0
    let y := c.addr 1
    let z := c.addr 2
    segOf x % 32 != 0 || decide (1024 < segOf x + c.cpp * 32) || segOf y % c.es != 0 ||
    decide (1024 < segOf y + c.perPair * c.es) || pairOf z != pairOf x || segOf z % c.os != 0 || decide (1024 < segOf z + c.os)
  else
    c.striped.any (fun o => segOf o.1 % 32 != 0 || decide (1024 < segOf o.1 + c.perPair * o.2)) ||
    c.striped.any fun o => c.striped.any fun q => pairOf o.1 != pairOf q.1

/-- Room at the dispatch (R341). -/
def State.nbRoom (s : State) (i : Issue) : Except Stop Unit :=
  if 8 ≤ s.nbHeld i.site.slot i.g then .error (i.suspend s .nbRoom) else .ok ()

/-- NBAXPY to NBFILL (R341, R342). -/
def nbInstr (fn : Nat) (d a : RegField) (t : Tail) (s : State) : Host.Outcome State Fault Refusal :=
  let f : Form := { cls := .near, srcs := [{ f := d, tan := false }, runOpnd a 8], bad := fun _ => badRunAt 8 a || !isSZ d }
  issue f t s fun i s => do
    let bar := if isZero d then noBarrier else ((i.read 0 { f := d, tan := false } 0).headD 0).toNat % 2 ^ 32
    let gen := (s.core (slotCore i.site.slot)).slotGen.get (slotIn i.site.slot)
    let c := nbOf i (s.owner i.g) gen fn (i.sregs a 8) bar
    refuseIf c.badOctet .illegalField
    barAlign bar
    requireA (!c.single || c.addr 2 % c.os == 0) .align (BitVec.ofNat 64 (c.addr 2))
    s.barRange i.g.team bar
    refuseIf c.crosses .nbCross
    refuseIf c.badLayout .nbLayout
    let locs ← collect (fun n => (s.ccLoc i.site.slot i.g (if n = 2 then .store else .load) (BitVec.ofNat 64 (c.addr n))).map
      fun l => (n, l.dram)) c.uses
    let stack := (locs.head?.map fun x => x.2.1).getD 0
    refuseIf (locs.any fun x => x.2.1 != stack) .nbLayout
    s.nbRoom i
    let spa (n : Nat) : Nat := ((locs.find? fun x => x.1 == n).map fun x => x.2.2).getD 0
    .ok ({ s with nb := s.nb ++ [{ c with id := s.nextId, stack := stack, x := spa 0, y := spa 1, z := spa 2 }],
                  nextId := s.nextId + 1 }, 0)

/-- NBAXPY (R342). -/
def execNbaxpy (d a : RegField) (t : Tail) (s : State) : Host.Outcome State Fault Refusal := nbInstr 0 d a t s

/-- NBSCAL (R342). -/
def execNbscal (d a : RegField) (t : Tail) (s : State) : Host.Outcome State Fault Refusal := nbInstr 1 d a t s

/-- NBADD (R342). -/
def execNbadd (d a : RegField) (t : Tail) (s : State) : Host.Outcome State Fault Refusal := nbInstr 2 d a t s

/-- NBMUL (R342). -/
def execNbmul (d a : RegField) (t : Tail) (s : State) : Host.Outcome State Fault Refusal := nbInstr 3 d a t s

/-- NBDOT (R340, R342). -/
def execNbdot (d a : RegField) (t : Tail) (s : State) : Host.Outcome State Fault Refusal := nbInstr 4 d a t s

/-- NBGEMV (R343). -/
def execNbgemv (d a : RegField) (t : Tail) (s : State) : Host.Outcome State Fault Refusal := nbInstr 5 d a t s

/-- NBCOPY (R342). -/
def execNbcopy (d a : RegField) (t : Tail) (s : State) : Host.Outcome State Fault Refusal := nbInstr 6 d a t s

/-- NBRED (R340, R342). -/
def execNbred (d a : RegField) (t : Tail) (s : State) : Host.Outcome State Fault Refusal := nbInstr 7 d a t s

/-- NBFILL (R342). -/
def execNbfill (d a : RegField) (t : Tail) (s : State) : Host.Outcome State Fault Refusal := nbInstr 8 d a t s

/-! ## NBLD and NBST (R344) -/

/-- The checks of a lane access (R344, R335): the locations in ascending lane order, all of them checked. -/
def State.nbLanes (s : State) (i : Issue) (k : Access) (accs : List Acc) : Except Stop (List Loc) := do
  alignOk accs
  collect (fun (a : Acc) => s.ccLoc i.site.slot i.g k a.ea) accs

/-- Enter the lanes' accesses, one command for each stack that they lie in. -/
def Issue.nbEnter (i : Issue) (s : State) (fn : Nat) (accs : List (Acc × Loc)) (load : Option Nat) : State :=
  let gen := (s.core (slotCore i.site.slot)).slotGen.get (slotIn i.site.slot)
  let c := nbOf i (s.owner i.g) gen fn [] noBarrier
  ((accs.map fun x => x.2.dram.1).dedup).foldl (fun s st =>
    { s with
      nb := s.nb ++ [{ c with id := s.nextId, stack := st, load := load, accs := accs.map fun x =>
        if x.2.dram.1 = st then (x.2.dram.2, x.1.data) else (2 ^ 40, []) }],
      nextId := s.nextId + 1 }) s

/-- NBLD (R344). -/
def execNbld (d a : RegField) (t : Tail) (s : State) : Host.Outcome State Fault Refusal :=
  let f : Form := { cls := .near, acc := { ext := true }, dst := some { f := d }, srcs := [baseOpnd a], bad := fun _ => badBase a }
  issue f t s fun i s => do
    s.afterAcquires i
    let lanes := if isS d then [lowest i.site.set] else i.act
    let accs := lanes.map fun l => (⟨l, 0, i.ea l a i.mods.offset, 4, [], []⟩ : Acc)
    let locs ← s.nbLanes i .load accs
    if accs.isEmpty then .ok (s, 0)
    else
      let dests := lanes.map fun l => i.destOf l d 1 0 i.tans
      let id := s.nextId
      let s := i.enterLoad s 4 (accs.zip dests) locs [] 0 true
      .ok (i.nbEnter s 9 (accs.zip locs) (some id), 0)

/-- NBST (R344). -/
def execNbst (d a : RegField) (t : Tail) (s : State) : Host.Outcome State Fault Refusal :=
  let f : Form := { cls := .near, acc := { ext := true }, srcs := [baseOpnd a, { f := d }], bad := fun _ => badBase a }
  issue f t s fun i s => do
    s.afterAcquires i
    let accs := i.act.map fun l => (⟨l, 0, i.ea l a i.mods.offset, 4, bytesOf (i.wordsAt l d 1 0), []⟩ : Acc)
    let locs ← s.nbLanes i .store accs
    s.nbRoom i
    if accs.isEmpty then .ok (s, 0) else .ok (i.nbEnter s 10 (accs.zip locs) none, 0)

/-! ## NBFENCE (R345) -/

/-- A response of the Stack Port. -/
def State.respond (s : State) (stack tag status : Nat) (data : List (BitVec 8)) : State :=
  let k := s.stack stack
  s.setStack stack { k with responses := k.responses ++ [⟨tag, status, data⟩] }

/-- The request of a drain (R318, R320). -/
def NbDrain.header (d : NbDrain) : PortHdr := { stack := d.stack, tag := d.slot % 1024, spa := 0, domain := 0, arg := d.pair0 + 2 ^ 11 * d.pairs }

/-- A write in flight to a CC frame in named pairs of a stack. -/
def Flight.toPairs (f : Flight) (stack p0 n : Nat) : Bool :=
  f.parts.any fun p => attrCC p.2.2.attr && p.2.2.dram.1 == stack && decide (p0 ≤ spaPair p.2.2.dram.2) &&
    decide (spaPair p.2.2.dram.2 < p0 + n)

/-- NBFENCE (R345): REL waits for the group's earlier ordinary stores to the named pairs; ACQ for the work that stands in their queues
when its NBDRAIN arrives. -/
def execNbfence (d a : RegField) (t : Tail) (s : State) : Host.Outcome State Fault Refusal :=
  let f : Form := { cls := .near, acc := { needOrder := true, flavs := [1, 2, 3], bank := true },
                    srcs := [{ f := d, tan := false }, baseOpnd a], bad := fun _ => !isS a || !isSZ d }
  issue f t s fun i s => do
    s.afterAcquires i
    let fl := i.mods.flavour.1
    let ea := i.ea 0 a 0
    let p0 := if isZero d then 0 else pairOf ea.toNat
    let n := if isZero d then 2048 else ((i.read 0 { f := d, tan := false } 0).headD 0).toNat % 2 ^ 32
    refuseIf (n == 0 || decide (2048 < p0 + n)) .nbCross
    let l ← s.ccLoc i.site.slot i.g .load ea
    let stack := l.dram.1
    if releases fl then
      let _ ← if i.g.fifo.isEmpty then Except.ok () else Except.error (s.waitFifo i.site.slot i.g)
      let _ ← match s.flight.find? fun f => f.slot == i.site.slot && f.toPairs stack p0 n with
        | some f => Except.error (Stop.wait s [.pointOfCoherenceArrival f.id])
        | none => Except.ok ()
    if acquires fl then
      match s.drains.find? fun x => x.slot == i.site.slot && x.team == i.g.team with
      | some x =>
        if s.drained x then
          let s := if x.answered then s else s.respond x.stack x.header.tag 0 []
          .ok ({ s with drains := s.drains.filter (· != x) }, 0)
        else .error (i.suspend s .nbDrain)
      | none =>
        let x : NbDrain := ⟨i.site.slot, i.g.team, stack, p0, n, none, false⟩
        let s := { s with drains := s.drains ++ [x], agenda := Instr.nbdrain x.header :: s.agenda }
        .error (i.suspend s .nbDrain)
    else .ok (s, 0)

/-! ## The Stack Port's NBCMD and NBDRAIN (R320, R338) -/

/-- The release at issue of a command (R346): the group's earlier stores outside CC frames are performed. An NBST waits for the group's earlier
reads too (R251). -/
def State.nbAfterMet (s : State) (c : NbCmd) : Bool :=
  let inCC (g : Group) (e : FifoEntry) : Bool :=
    (List.range e.accs.length).all fun n => match e.accs[n]? with
      | some a => (s.fifoLoc c.slot g e n a).any fun l => attrCC l.attr
      | none => true
  (match s.groups.find c.slot with
    | some g => g.team != c.team ||
      (g.fifo.all (fun e => decide (c.after.seq ≤ e.seq) || inCC g e) &&
        (c.fn != 10 || g.loads.all fun l => decide (c.after.seq ≤ l.seq) || l.fixed))
    | none => true) &&
  s.flight.all fun f => !(c.after.reads.contains f.id || (f.slot == c.slot && decide (f.seq < c.after.seq))) ||
    f.parts.all fun p => attrCC p.2.2.attr

/-- A command is not pre-empted, its context is ACTIVE, and nothing refuses it (R347). -/
def State.nbGoes (s : State) (c : NbCmd) : Bool :=
  s.isActive c.vdev c.ctx && !(s.team c.team).held && !(s.stack c.stack).hung &&
  !(s.die (stackDie c.stack)).nbRefused.any fun v => victimHits v c.vdev c.ctx

/-- A queue has room (R338). -/
def Stack.nbRoom (k : Stack) (pair : Nat) : Bool := decide ((k.queues.getD pair []).length < 16)

/-- Append a part to a queue. -/
def Stack.nbPush (k : Stack) (pair : Nat) (p : NbPart) : Stack :=
  { k with queues := k.queues.put pair (k.queues.getD pair [] ++ [p]) }

/-- The pairs in which a lane access lies; an access of another stack takes no part in this command. -/
def NbCmd.skips (c : NbCmd) (n : Nat) : Bool := decide (9 ≤ c.fn) && (c.accs.getD n (0, [])).1 == 2 ^ 40

/-- Enter the lanes of an NBLD or NBST from the next one on, as far as there is room (R344). -/
def nbEnterLanes (c : NbCmd) : Nat → Stack → Stack × NbCmd
  | 0, k => (k, c)
  | fuel + 1, k =>
    if c.accs.length ≤ c.entered then (k, c)
    else if c.skips c.entered then nbEnterLanes { c with entered := c.entered + 1, finished := c.finished + 1 } fuel k
    else
      let pair := spaPair (c.accs.getD c.entered (0, [])).1
      if k.nbRoom pair then
        nbEnterLanes { c with entered := c.entered + 1 } fuel (k.nbPush pair ⟨c.id, .lane c.entered, 0⟩)
      else (k, c)

/-- Two commands touch a pair in common. -/
def NbCmd.meets (c e : NbCmd) : Bool := c.parts.any fun p => e.parts.any fun q => p.1 == q.1

/-- An earlier command that must be entered first: of the same group, or one that has reached the base die and touches a common pair
(R338). -/
def State.nbBefore (s : State) (c : NbCmd) : Bool :=
  s.nb.any fun e => decide (e.id < c.id) && decide (e.entered < e.parts.length) &&
    ((e.slot == c.slot && e.team == c.team) || (e.stack == c.stack && e.meets c && s.nbAfterMet e && s.nbGoes e))

/-- NBCMD (R338, R344): all parts of a command enter their queues in one step, once every queue has room; a lane's access enters its
queue in its turn. -/
def execNbcmd (h : PortHdr) (data : List (BitVec 8)) (s : State) : Host.Outcome State Fault Refusal :=
  match s.nb.find? fun c => c.stack == h.stack && c.id % 1024 == h.tag && c.vdev == h.domain &&
      decide (c.entered < c.parts.length) && (c.octet.flatMap fun w => toBytes 4 w.toNat) == data with
  | none => .next s
  | some c =>
    if !s.nbGoes c || !s.nbAfterMet c || s.nbBefore c then .next s
    else
      let k := s.stack c.stack
      let put (s : State) (c : NbCmd) : State := { s with nb := s.nb.map fun x => if x.id = c.id then c else x }
      if 9 ≤ c.fn then
        let (k, c) := nbEnterLanes c c.accs.length k
        let s := put (s.setStack c.stack k) c
        .next (if c.entered < c.accs.length then s else s.respond c.stack h.tag 0 [])
      else if c.parts.all fun p => k.nbRoom p.1 then
        let k := c.parts.foldl (fun k p => k.nbPush p.1 ⟨c.id, p.2, 0⟩) k
        .next ((put (s.setStack c.stack k) { c with entered := c.parts.length }).respond c.stack h.tag 0 [])
      else .next s

/-- The drain of a fence that waits for this NBDRAIN. -/
def NbDrain.carriedBy (d : NbDrain) (h : PortHdr) : Bool :=
  d.stack == h.stack && d.slot % 1024 == h.tag && d.pair0 == h.arg % 2 ^ 11 && d.pairs == h.arg / 2 ^ 11 % 2 ^ 12 && !d.answered

/-- A near-bank command that the fence's group issued before it to the stack has not entered its queues yet: the NBDRAIN goes behind it
(R338, R345; DEDUCED: log 57). -/
def State.drainBehind (s : State) (d : NbDrain) : Bool :=
  s.nb.any fun c => c.slot == d.slot && c.team == d.team && c.stack == d.stack && decide (c.entered < c.parts.length)

/-- A drain as it arrives: it names the commands that have parts in its queues then. -/
def State.drainArrives (s : State) (d : NbDrain) : NbDrain :=
  let k := s.stack d.stack
  { d with cmds := some ((k.queues.filter fun q => decide (d.pair0 ≤ q.1) && decide (q.1 < d.pair0 + d.pairs)).flatMap fun q => q.2.map NbPart.cmd).dedup }

/-- Answer the drains that a request carries and that are over (R320); one that no fence waits for is then done with. -/
def State.answerDrain (s : State) (h : PortHdr) : State :=
  let over_ (d : NbDrain) : Bool := d.carriedBy h && s.drained d
  if s.drains.any over_ then
    let left := (s.drains.map fun d => if over_ d then { d with answered := true } else d).filter fun d => !(d.answered && decide (2 ^ 20 ≤ d.slot))
    { s with drains := left }.respond h.stack h.tag 0 []
  else s

/-- NBDRAIN (R320, R345): it names the commands that have parts in the named queues when it arrives, and is answered when they have completed.
A range that passes pair 2,047, or a count of 0 (DESIGN CHOICE: log 57), is answered RANGE. -/
def execNbdrain (h : PortHdr) (s : State) : Host.Outcome State Fault Refusal :=
  let p0 := h.arg % 2 ^ 11
  let n := h.arg / 2 ^ 11 % 2 ^ 12
  if n = 0 ∨ 2048 < p0 + n then .next (s.respond h.stack h.tag 4 [])
  else if s.drains.any fun d => d.carriedBy h && d.cmds.isNone && s.drainBehind d then .next s
  else
    let s := if s.drains.any fun d => d.carriedBy h then s
      else { s with drains := s.drains ++ [⟨2 ^ 20 + h.tag, 0, h.stack, p0, n, none, false⟩] }
    let s := { s with drains := s.drains.map fun (d : NbDrain) => if d.carriedBy h && d.cmds.isNone then s.drainArrives d else d }
    .next (s.answerDrain h)

/-! ## One column (R339, R340) -/

/-- The float format of an element size. -/
def nbFmt (es : Nat) : Fmt := if es = 4 then f32 else bf16

/-- The byte of pair `n` of an operand at byte `b` of its segment part, from the operand's SPA on. -/
def nbSpa (base n b : Nat) : Nat := base + 1024 * n + b

/-- What a unit's step gives: the command after it, or a cause. -/
abbrev NbStep := Except Cause (State × NbCmd)

/-- A 32-byte column of a command's part: its elements [lo, hi) of the operand, as places within the pair. -/
def NbCmd.column (c : NbCmd) (n col : Nat) : Nat × Nat :=
  let per := 32 / c.es
  let count := if c.fn = 5 then c.perPair else min c.perPair (c.elems - n * c.perPair)
  (col * per, min count ((col + 1) * per))

/-- The columns of a part. -/
def NbCmd.columns (c : NbCmd) (n : Nat) : Nat :=
  let count := if c.fn = 5 then c.perPair else min c.perPair (c.elems - n * c.perPair)
  (count * c.es + 31) / 32

/-- Read elements [lo, hi) of an operand in pair n. -/
def State.nbRead (s : State) (c : NbCmd) (base n es lo hi : Nat) : Except Cause (List Nat) :=
  (s.readDram c.stack (nbSpa base n (lo * es)) ((hi - lo) * es) c.vdev none).map (elements es)

/-- Write elements of an operand in pair n. -/
def State.nbWrite (s : State) (c : NbCmd) (base n es lo : Nat) (xs : List Nat) : Except Cause State :=
  s.writeDram c.stack (nbSpa base n (lo * es)) (xs.flatMap (toBytes es)) c.vdev none

/-- A sum of products rounded once to nearest even (R339). -/
def nbSum (f : Fmt) (terms : List (List FVal)) : Nat := ((sumOf (terms.map prodOf)).toFmt f .nearest false 0).1

/-- One element of an elementwise command (R342). -/
def NbCmd.element (c : NbCmd) (x y : Nat) : Nat :=
  let f := nbFmt c.es
  let a := f32.value (c.octet.getD 7 0).toNat
  match c.fn with
  | 0 => nbSum f [[a, f.value x], [f.value y]]
  | 1 => nbSum f [[a, f.value x]]
  | 2 => nbSum f [[f.value x], [f.value y]]
  | 3 => nbSum f [[f.value x, f.value y]]
  | 6 => if c.es = c.os then x else (convFloat f (nbFmt c.os) false x).1
  | _ => (c.octet.getD 7 0).toNat % 2 ^ (8 * c.es)

/-- Add a column's products into an F32 partial (R340): summed exactly, rounded to F32, and added. -/
def nbPartial (f : Fmt) (terms : List (List Nat)) (acc : BitVec 32) : BitVec 32 :=
  let p := nbSum f32 (terms.map fun l => l.map f.value)
  BitVec.ofNat 32 (f32.sumProd false 0 [[p], [acc.toNat]]).1

/-- Round an F32 result once to OTYPE (R340). -/
def NbCmd.out (c : NbCmd) (x : Nat) : Nat := if c.os = 4 then x else (convFloat f32 bf16 false x).1

/-- One column of a part. -/
def State.nbStep (s : State) (c : NbCmd) (n col : Nat) : NbStep := do
  let (lo, hi) := c.column n col
  let f := nbFmt c.es
  if c.fn = 4 ∨ c.fn = 5 ∨ c.fn = 7 then
    let xs ← s.nbRead c c.x n c.es lo hi
    let terms ← if c.fn = 7 then Except.ok (xs.map fun x => [x])
      else if c.fn = 5 then Except.ok ((xs.zip (((elements c.es (c.vec.getD [])).drop lo).take (hi - lo))).map fun z => [z.1, z.2])
      else (s.nbRead c c.y n c.es lo hi).map fun ys => (xs.zip ys).map fun z => [z.1, z.2]
    let acc := nbPartial f terms (c.partials.getD n 0)
    let c' := { c with partials := c.partials.put n acc }
    if c.fn = 5 && decide (c.columns n ≤ col + 1) then
      (s.nbWrite c c.z n c.os 0 [c.out acc.toNat]).map fun s => (s, c')
    else .ok (s, c')
  else
    let xs ← if c.fn = 8 then Except.ok (List.replicate (hi - lo) 0) else s.nbRead c c.x n c.es lo hi
    let ys ← if c.uses.contains 1 then s.nbRead c c.y n c.es lo hi else Except.ok (xs.map fun _ => 0)
    (s.nbWrite c c.z n (if c.fn = 6 then c.os else c.es) lo ((xs.zip ys).map fun z => c.element z.1 z.2)).map fun s => (s, c)

/-- The vector of an NBGEMV (R343), each of its lines being checked as it is read (R324). -/
def State.nbVector (s : State) (c : NbCmd) : Except Cause (List (BitVec 8)) :=
  let last := c.y + c.perPair * c.es
  let lines := ((List.range 17).map fun i => lineOf c.y + 64 * i).filter fun a => decide (a < last)
  (collect (fun (a : Nat) => s.readDram c.stack (max a c.y) (min (a + 64) last - max a c.y) c.vdev none) lines).map List.flatten

/-- A lane's access (R344). -/
def State.nbLane (s : State) (c : NbCmd) (n : Nat) : Except Cause (State × List (BitVec 8)) :=
  let (spa, data) := c.accs.getD n (0, [])
  if c.fn = 9 then (s.readDram c.stack spa 4 c.vdev none).map fun bs => (s, bs)
  else (s.writeDram c.stack spa data c.vdev none).map fun s => (s, [])

/-- Change a command. -/
def State.putNb (s : State) (c : NbCmd) : State := { s with nb := s.nb.map fun x => if x.id = c.id then c else x }

/-- Take the part at the head of a queue out of it. -/
def State.nbPop (s : State) (stack pair : Nat) : State :=
  let k := s.stack stack
  let q := (k.queues.getD pair []).drop 1
  s.setStack stack { k with queues := if q.isEmpty then k.queues.del pair else k.queues.put pair q }

/-- A part is done with. -/
def State.nbDone (s : State) (stack pair : Nat) (c : NbCmd) : State :=
  (s.nbPop stack pair).putNb { c with finished := c.finished + 1 }

/-- The part at the head met a detected error (R324, R347): it stops there, the context is contained, and the error is logged with the bytes read. -/
def State.nbError (s : State) (stack pair : Nat) (c : NbCmd) (e : Cause) (read : List (Place × Nat)) : State :=
  (((s.nbDone stack pair c).putNb { c with finished := c.finished + 1, failed := true }).contain c.vdev c.ctx e .nearBank 0).detected e read

/-- The bytes of the operands that a column of a part works on. -/
def NbCmd.colBytes (c : NbCmd) (n col : Nat) : List (Place × Nat) :=
  let (lo, hi) := c.column n col
  c.uses.map fun u => (.dram c.stack (nbSpa (if u = 0 then c.x else if u = 1 then c.y else c.z) n (lo * c.es)), (hi - lo) * c.es)

/-- NB_COLUMN (R339, R343, R344): one 32-byte column access of the part at the head of a bank pair's queue. -/
def execNbColumn (stack pair : Nat) (s : State) : Host.Outcome State Fault Refusal :=
  let k := s.stack stack
  match (k.queues.getD pair []).head? with
  | none => .next s
  | some p => match s.nb.find? fun c => c.id == p.cmd with
    | none => .next (s.nbPop stack pair)
    | some c =>
      if k.hung || !s.nbRunnable p then .next s
      else match p.kind with
        | .vector => match s.nbVector c with
          | .error e => .next (s.nbError stack pair c e [(.dram stack c.y, c.perPair * c.es)])
          | .ok bs => .next (s.nbDone stack pair { c with vec := some bs })
        | .lane n => match s.nbLane c n with
          | .error e => .next (s.nbError stack pair c e [(.dram stack (c.accs.getD n (0, [])).1, 4)])
          | .ok (s, bs) =>
            let s := s.nbDone stack pair c
            .next { s with groups := s.groups.modify c.slot fun g => g.giveOlds c.load [(n, bs)] }
        | .cols n => match s.nbStep c n p.col with
          | .error e => .next (s.nbError stack pair c e (c.colBytes n p.col))
          | .ok (s, c) =>
            if c.columns n ≤ p.col + 1 then .next (s.nbDone stack pair c)
            else
              let k := s.stack stack
              let q := k.queues.getD pair []
              .next ((s.putNb c).setStack stack { k with queues := k.queues.put pair ({ p with col := p.col + 1 } :: q.drop 1) })

/-! ## Completion (R340, R342) -/

/-- The bytes that a command counts (R342). -/
def NbCmd.counts (c : NbCmd) : Nat :=
  if c.single then c.os else c.elems * (if c.fn = 5 || c.fn = 6 then c.os else c.es)

/-- An overflow of a command's barrier, delivered to its group as an imprecise cause (R342). -/
def State.nbOverflow (s : State) (c : NbCmd) : State :=
  { s with groups := s.groups.modify c.slot fun g =>
      if g.team = c.team ∧ g.num = c.num then
        { g with imprecise := g.imprecise ++
          [{ cause := .barrierOverflow, addr := some (BitVec.ofNat 64 (barAddr c.bar)), replayed := false, pc := c.pc, tpc := 0, hdr := none,
             lanes := 0, aux := 0, set := 0, gen := c.gen }] }
      else g }

/-- NB_COMMAND_COMPLETE (R340, R342, R393): the base die writes a single-element result, the command leaves, and its bytes are
counted. -/
def execNbCommandComplete (id : Nat) (s : State) : Host.Outcome State Fault Refusal :=
  match s.nb.find? fun c => c.id == id with
  | none => .next s
  | some c =>
    if c.finished < c.parts.length || (s.stack c.stack).hung then .next s
    else
      let s := { s with nb := s.nb.filter fun x => x.id != id }
      if c.failed || decide (9 ≤ c.fn) then .next s
      else
        let k := s.stack c.stack
        let s := s.setStack c.stack { k with served := k.served + 1 }
        let total := (List.range c.pairs).foldl (fun (x : Nat) n =>
          (f32.sumProd false 0 [[x], [(c.partials.getD n 0).toNat]]).1) 0
        let written : Except Cause State :=
          if c.single then s.writeDram c.stack c.z (toBytes c.os (c.out total)) c.vdev none else .ok s
        match written with
        | .error e => .next ((s.contain c.vdev c.ctx e .nearBank 0).detected e [(.dram c.stack c.z, c.os)])
        | .ok s =>
          let d := s.vdev c.vdev
          let s := s.setVdev c.vdev { d with meters := d.meters.set 2 (d.meters.get 2 + 1) }
          match s.countFor c.team c.bar c.counts with
          | (s, false) => .next s
          | (s, true) => .next (s.nbOverflow c)

/-! ## Failures (R326, R347) -/

/-- Clear queues of a stack, with NB_QUEUE_ERROR against every context that has a part in them (R347, R397). -/
def State.nbClear (s : State) (stack p0 n : Nat) : State :=
  let k := s.stack stack
  let named (q : Nat) : Bool := decide (p0 ≤ q) && decide (q < p0 + n)
  let ids := ((k.queues.filter fun q => named q.1).flatMap fun q => q.2.map NbPart.cmd).dedup
  let own := ((s.nb.filter fun c => ids.contains c.id).map fun c => (c.vdev, c.ctx)).dedup
  let s := s.setStack stack { k with queues := k.queues.keep fun q _ => !named q }
  let s := { s with nb := s.nb.map fun c => if ids.contains c.id then
    { c with failed := true, finished := c.finished + ((k.queues.filter fun q => named q.1).foldl (fun m q =>
      m + (q.2.filter fun p => p.cmd == c.id).length) 0) } else c }
  own.foldl (fun s o => s.contain o.1 o.2 .nbQueueError .nearBank 0) s

/-- NB_QUEUE_FAILURE (R327, R347): a parity error in a queue entry, or a unit that the engine finds faulty; which of the two it is, is open
(DESIGN CHOICE: log 7). -/
def execNbQueueFailure (stack pair : Nat) (s : State) : Host.Outcome State Fault Refusal :=
  let (v, s) := s.draw
  let k := s.stack stack
  let unit := v % 2
  let s := s.setStack stack { k.log ⟨1024 * pair, 3 + unit, crucible, s.gtime⟩ with parity := k.parity + (1 - unit) }
  .next ((s.nbClear stack pair 1).report (.die 3 stack pair))

end Sys2Proof.Machine
end

