-- ==== Sys2Proof/Machine/Keys.lean ====
section
/-! DEFINITION. Sequence keys (R352 to R357): SEQNEW, SEQEND and the ending of a sequence. -/

namespace Sys2Proof.Machine

open Sys2Proof

/-- Set a key slot. -/
def State.setKey (s : State) (n : Nat) (k : KeySlot) : State := { s with keys := s.keys.put n k }

/-- The slots of a device's pool, ascending (R352, R377). -/
def VDev.pool (d : VDev) : List Nat := (List.range (d.prof 0x20 28 14)).map (· + d.prof 0x20 13 0)

/-- Draw a key (R353). -/
def State.drawKey (s : State) : BitVec 256 × State := (Config.randomKey s.free, { s with free := s.free + 1 })

/-- Make a FREE slot LIVE or SAVE with a new key (R353). -/
def State.openKey (s : State) (n world : Nat) (st : KeyState) : State :=
  let (x, s) := s.drawKey
  s.setKey n { s.key n with state := st, world := world, key := x }

/-- The end point (R353, R357 step 1): the generation is counted on and the slot becomes FREE, or RETIRED when no generation is left. The
key stays for the accesses that passed before. -/
def KeySlot.ended (k : KeySlot) : KeySlot :=
  if k.kgen + 1 < 2 ^ 20 then { k with state := .free, kgen := k.kgen + 1, draining := some k.kgen }
  else { k with state := .retired, draining := some k.kgen }

/-- A location lies in a page keyed with a slot and generation. -/
def Loc.under (l : Loc) (n gen : Nat) : Bool := l.key.any fun u => u.slot == n && u.gen == gen

/-- An access that was translated under a slot and generation and has not completed (R357 step 2). -/
def State.keyUsed (s : State) (n gen : Nat) : Bool :=
  s.flight.any (fun f => f.parts.any fun p => p.2.2.under n gen) ||
  s.groups.any fun g => !g.2.preempted && !g.2.stopped &&
    (g.2.loads.any (fun l => l.locs.any fun x => x.under n gen) || g.2.fifo.any fun e => e.locs.any fun x => x.under n gen)

/-- SEQUENCE_DRAIN_DONE (R357 steps 2 to 4): once no access under the ended sequence is left, its copies are discarded and the key is
zeroised. -/
def execSequenceDrainDone (slot : Nat) (s : State) : Host.Outcome State Fault Refusal :=
  match (s.key slot).draining with
  | none => .next s
  | some gen =>
    if s.keyUsed slot gen then .next s
    else
      let s := s.setKey slot { s.key slot with key := 0, draining := none }
      .next { s with cores := s.cores.mapVals fun _ k =>
        { k with l1 := k.l1.keep fun key _ => key / 2 ^ 90 != 1 + slot + 2 ^ 14 * gen } }

/-- SEQNEW (R353, R355): the lowest FREE slot of the pool becomes LIVE. A slot whose last sequence still drains is waited for. -/
def execSeqnew (d : RegField) (t : Tail) (s : State) : Host.Outcome State Fault Refusal :=
  let f : Form := { cls := .system, acc := accSys false, dst := some { f := d, width := 2 }, rule := .anyS, bad := fun _ => notPair d }
  issue f t s fun i s =>
    let core := slotCore i.site.slot
    match (s.vdev (s.owner i.g).1).pool.find? fun n => (s.key n).state == .free with
    | none => .ok (i.writeOnce s d [0xFFFFFFFF, 0], 0)
    | some n =>
      if (s.key n).draining.isSome then .error (.wait s [.sequenceDrainDone n])
      else
        let s := s.openKey n (s.core core).world .live
        .ok (i.writeOnce s d [BitVec.ofNat 32 n, BitVec.ofNat 32 (s.key n).kgen], 0)

/-- A slot that a context may not name (R282 step 4, R356). -/
def State.foreignKey (s : State) (vd world n : Nat) : Bool :=
  let k := s.key n
  !(s.vdev vd).inPool n || (s.vdev vd).save == some n || (k.state == .live && k.world != world)

/-- SEQEND (R356, R357): the end point comes after the group's earlier accesses are performed at DEVICE scope; the result is written when
the ending is complete. -/
def execSeqend (d a : RegField) (t : Tail) (s : State) : Host.Outcome State Fault Refusal :=
  let f : Form := { cls := .system, acc := accSys false, dst := some { f := d }, srcs := [baseOpnd a], rule := .anyS,
                    bad := fun _ => !isSZ d || !isS a }
  issue f t s fun i s => do
    let v := ((i.read 0 (baseOpnd a) 0).headD 0).toNat
    let n := bits v 13 0
    let gen := bits v 51 32
    refuseIf (bits v 31 14 != 0 || bits v 63 52 != 0) .illegalField
    let k := s.key n
    let me := (i.site.slot, i.g.team)
    if k.enders.contains me then
      if k.draining.isSome then .error (i.suspend s (.seqEnd n))
      else .ok (i.writeOnce (s.setKey n { k with enders := k.enders.filter (· != me) }) d [1], 0)
    else
      refuseIf (s.foreignKey (s.owner i.g).1 (s.core (slotCore i.site.slot)).world n) .keyWorld
      if k.state == .live && k.kgen == gen then
        s.afterAcquires i
        s.readsFixed i
        s.writesDone i 5 false
        .error (i.suspend (s.setKey n { k.ended with enders := k.enders ++ [me] }) (.seqEnd n))
      else .ok (i.writeOnce s d [0], 0)

end Sys2Proof.Machine
end

