-- ==== Sys2Proof/Machine/Ports.lean ====
section
/-! DEFINITION. The Stack Port's requests and the base-die engines (R318 to R327), firmware images (R423). -/

namespace Sys2Proof.Machine

open Sys2Proof

/-! ## Reading and writing lines (R319, R320, R324, R331) -/

/-- The status of an access of a domain to lines from one on (R320, R331): RANGE, OWNER, UNCORR or OK. -/
def Stack.status (k : Stack) (spa dom : Nat) (isRead : Bool) : Nat :=
  if k.rows ≤ spaRow spa then 4
  else if dom != crucible && k.owner spa != some dom then 2
  else if k.deadChans.contains (spaChan spa) || (isRead && k.bad.contains (spa / 64)) then 1
  else 0

/-- A read of `n` lines (R320): the first status that is not OK answers the request. -/
def portRead (h : PortHdr) (n : Nat) (s : State) : Host.Outcome State Fault Refusal :=
  let k := s.stack h.stack
  let base := h.spa / (64 * n) * (64 * n)
  let lines := (List.range n).map fun i => base + 64 * i
  match lines.find? fun a => k.status a h.domain true != 0 with
  | some a =>
    let st := k.status a h.domain true
    .next ((if st = 1 then s.detect h.stack a 0 else s).respond h.stack h.tag st [])
  | none => .next (s.respond h.stack h.tag 0 (readCells s.mem (Place.dram h.stack base).key (64 * n)))

/-- RD64 (R320). -/
def execRd64 (h : PortHdr) (s : State) : Host.Outcome State Fault Refusal := portRead h 1 s

/-- RD256 (R320). -/
def execRd256 (h : PortHdr) (s : State) : Host.Outcome State Fault Refusal := portRead h 4 s

/-- A write of the bytes that a mask selects, in `n` lines (R320). A line that is written whole reads without a detected error again. -/
def portWrite (h : PortHdr) (n : Nat) (data : List (BitVec 8)) (mask : Nat → Bool) (s : State) : Host.Outcome State Fault Refusal :=
  let k := s.stack h.stack
  let base := h.spa / (64 * n) * (64 * n)
  let lines := (List.range n).map fun i => base + 64 * i
  match lines.find? fun a => k.status a h.domain false != 0 with
  | some a => .next (s.respond h.stack h.tag (k.status a h.domain false) [])
  | none =>
    let cell := (Place.dram h.stack base).key
    let mem := ((List.range (64 * n)).zip data).foldl (fun m x => if mask x.1 then writeCell m (cell + x.1) x.2 else m) s.mem
    let whole := (List.range (64 * n)).all mask
    let s := { s with mem := mem }
    let s := if whole then s.setStack h.stack { k with bad := k.bad.filter fun l => !lines.contains (64 * l) } else s
    .next (s.respond h.stack h.tag 0 [])

/-- WR64 (R320). -/
def execWr64 (h : PortHdr) (data : List (BitVec 8)) (mask : BitVec 64) (s : State) : Host.Outcome State Fault Refusal :=
  portWrite h 1 data (fun i => mask.getLsbD i) s

/-- WR256 (R320). -/
def execWr256 (h : PortHdr) (data : List (BitVec 8)) (s : State) : Host.Outcome State Fault Refusal := portWrite h 4 data (fun _ => true) s

/-! ## Configuration registers (R321) -/

/-- The value of a configuration register. -/
def Stack.config (k : Stack) (a : Nat) : Nat :=
  match k.cfg.find a with
  | some v => v.toNat
  | none => match a with
    | 0x000 => k.prev
    | 0x008 => k.height + 2 ^ 6 * k.dens + 2 ^ 12 * 32 + 2 ^ 32 * k.rows + 2 ^ 48 * k.cap
    | 0x010 => 32
    | 0x020 => k.engver
    | _ => 0

/-- CFGRD (R320, R321). -/
def execCfgrd (h : PortHdr) (s : State) : Host.Outcome State Fault Refusal :=
  .next (s.respond h.stack h.tag 0 (toBytes 8 ((s.stack h.stack).config h.spa)))

/-- The bits of a configuration register that are not reserved; none at an address that is not in the table (R6, R321). -/
def configMask (a : Nat) : Nat :=
  match a with
  | 0x000 => 2 ^ 16 - 1
  | 0x008 => 2 ^ 64 - 2 ^ 32 + 2 ^ 18 - 1
  | 0x010 => 2 ^ 16 - 1
  | 0x018 => 2 ^ 64 - 1
  | 0x020 => 2 ^ 32 - 1
  | _ => 0

/-- CFGWR (R320, R321): what is written to a reserved field or address is ignored (R6). -/
def execCfgwr (h : PortHdr) (data : List (BitVec 8)) (s : State) : Host.Outcome State Fault Refusal :=
  let k := s.stack h.stack
  let v := BitVec.ofNat 64 (ofBytes data) &&& BitVec.ofNat 64 (configMask h.spa)
  .next ((if configMask h.spa = 0 then s else s.setStack h.stack { k with cfg := k.cfg.put h.spa v }).respond h.stack h.tag 0 [])

/-! ## The physical allocation table (R331) -/

/-- A row may belong to a domain: it is in service, and no row within two of it in its channel belongs to another. -/
def Stack.guardOk (k : Stack) (key dom : Nat) : Bool :=
  !k.retired.contains key &&
  k.pat.all fun e => e.1 == key || e.2 == dom || e.1 / 65536 != key / 65536 || decide (e.1 + 2 < key) || decide (key + 2 < e.1)

/-- Update the physical allocation table for one row of a channel (R331): none where the guard rule or the row's retirement refuses it. -/
def Stack.patset (k : Stack) (key dom : Nat) : Option Stack :=
  if dom = 0xFFF then some { k with pat := k.pat.del key }
  else if k.guardOk key dom then some { k with pat := k.pat.put key dom }
  else none

/-- Raise GUARD_ROW against a device that is being configured: it enters ERROR (R331, R379). -/
def State.guardRow (s : State) (vd : Nat) : State :=
  (if (s.vdevs.find vd).isSome then s.setVdev vd { s.vdev vd with state := .error } else s).report (.die 14 vd 0)

/-- PATSET (R320, R331): the Crucible gives a row to a domain, or frees it (0xFFF). The owner stands in the first two bytes of the payload
(DESIGN CHOICE: log 72). -/
def execPatset (r : PatReq) (s : State) : Host.Outcome State Fault Refusal :=
  let h := r.hdr
  let k := s.stack h.stack
  let dom := ofBytes (r.data.take 2) % 2 ^ 12
  if h.domain != crucible then .next (s.respond h.stack h.tag 2 [])
  else if k.rows ≤ spaRow h.spa then .next (s.respond h.stack h.tag 4 [])
  else match k.patset (patKey h.spa) dom with
    | some k => .next ((s.setStack h.stack k).respond h.stack h.tag 0 [])
    | none => .next ((s.respond h.stack h.tag 5 []).guardRow dom)

/-- An undefined CMD (R320). -/
def execStackPortBadcmd (h : PortHdr) (cmd : Nat) (s : State) : Host.Outcome State Fault Refusal :=
  .next ((s.respond h.stack h.tag 3 []).report (.die 1 h.stack cmd))

/-! ## Firmware images (R423) -/

/-- A field of an image's header. -/
def imageField (img : List (BitVec 8)) (off n : Nat) : Nat := ofBytes ((img.drop off).take n)

/-- An image is valid for a KIND (R423). -/
def State.imageValid (s : State) (kind : Nat) (img : List (BitVec 8)) : Bool :=
  imageField img 0 4 == 0x42494C44 && imageField img 4 1 == kind && decide (s.mgmt.svnMin.getD kind 0 ≤ imageField img 5 3) &&
  Config.imageSigned img

/-! ## Engine commands (R326, R327) -/

/-- The response of an engine: STATUS, SEQ, COUNT and DATA. -/
def engRsp (h : EngHdr) (status count : Nat) (data : List (BitVec 8)) : List (BitVec 8) :=
  toBytes 8 (status + 2 ^ 16 * (h.seq % 2 ^ 16) + 2 ^ 32 * count) ++ (data ++ List.replicate 56 0).take 56

/-- An engine serves a command of the Crucible, one at a time, unless it has stopped responding (R326, R327): the ENGRSP goes to the request's tag, with
the port's status OK and the engine's own in its bytes. Another domain's is answered OWNER (DESIGN CHOICE: log 72). -/
def engServe (h : EngHdr) (s : State) (f : Stack → State × Nat × Nat × List (BitVec 8)) : Host.Outcome State Fault Refusal :=
  let k := s.stack h.stack
  if k.hung then .next s
  else if h.domain != crucible then .next (s.respond h.stack h.tag 2 [])
  else
    let (s, status, count, data) := f k
    .next (s.respond h.stack h.tag 0 (engRsp h status count data))

/-- The bytes of a RAS log entry (R327). -/
def RasEntry.bytes (e : RasEntry) : List (BitVec 8) :=
  toBytes 8 (e.spa % 2 ^ 40 + 2 ^ 40 * (e.kind % 8) + 2 ^ 43 * (e.domain % 2 ^ 12)) ++ toBytes 8 e.time

/-- RASREAD (R327). -/
def execRasread (h : EngHdr) (s : State) : Host.Outcome State Fault Refusal :=
  engServe h s fun k =>
    let i := h.arg0 % 2 ^ 32
    if k.ras.length < i then (s, 2, 0, [])
    else
      let es := (k.ras.drop i).take 3
      (s, 0, es.length, toBytes 8 (i + es.length + 2 ^ 32 * k.ras.length) ++ es.flatMap RasEntry.bytes)

/-- PATROL (R325, R327). -/
def execPatrol (h : EngHdr) (s : State) : Host.Outcome State Fault Refusal :=
  engServe h s fun k =>
    let hours := h.arg0 % 256
    if hours = 0 ∨ 168 < hours then (s, 2, 0, [])
    else (s.setStack h.stack { k with patrolHours := hours, patrolPaused := bit h.arg0 8 }, 0, 0, [])

/-- PATSTAT (R327). -/
def execPatstat (h : EngHdr) (s : State) : Host.Outcome State Fault Refusal :=
  engServe h s fun k => (s, 0, 0, toBytes 8 k.patrolNext ++ toBytes 8 k.patrolPasses)

/-- ENGSTAT (R327): uptime is package time in ms. -/
def execEngstat (h : EngHdr) (s : State) : Host.Outcome State Fault Refusal :=
  engServe h s fun k =>
    (s, 0, 0, toBytes 8 (k.engver % 2 ^ 32 + 2 ^ 32 * (s.gtime / 10 ^ 6 % 2 ^ 32)) ++ toBytes 8 k.parity ++ toBytes 8 k.served)

/-- IMGCHUNK (R327). -/
def execImgchunk (h : EngHdr) (data : List (BitVec 8)) (s : State) : Host.Outcome State Fault Refusal :=
  engServe h s fun k =>
    let off := h.arg0 % 2 ^ 32
    if off % 48 ≠ 0 then (s, 2, 0, [])
    else
      let img := ((List.range 48).zip data).foldl (fun (r : Regs 8) x => r.set (off + x.1) x.2) k.image
      (s.setStack h.stack { k with image := img }, 0, 0, [])

/-- IMGACT (R327, R423). -/
def execImgact (h : EngHdr) (s : State) : Host.Outcome State Fault Refusal :=
  engServe h s fun k =>
    let img := (List.range (h.arg0 % 2 ^ 32)).map k.image.get
    if s.imageValid 3 img then
      let s := s.setStack h.stack { k with image := [], engver := imageField img 8 4 }
      ({ s with mgmt := { s.mgmt with running := s.mgmt.running.put (16 + h.stack) img } }, 0, 0, [])
    else (s, 2, 0, [])

/-- QRESET (R327, R397). -/
def execQreset (h : EngHdr) (s : State) : Host.Outcome State Fault Refusal :=
  engServe h s fun _ =>
    let p0 := bits h.arg0 10 0
    let n := bits h.arg0 22 11
    if n = 0 ∨ 2048 < p0 + n then (s, 2, 0, []) else (s.nbClear h.stack p0 n, 0, 0, [])

/-- An undefined OP (R327). -/
def execEngcmdBadop (h : EngHdr) (op : Nat) (s : State) : Host.Outcome State Fault Refusal :=
  let _ := op
  engServe h s fun _ => (s, 1, 0, [])

/-! ## Channels, the patrol, and the engine itself (R321, R325, R326) -/

/-- CHANNEL_RECALIBRATE (R321): the channel's requests wait while it lasts. -/
def execChannelRecalibrate (stack ch : Nat) (s : State) : Host.Outcome State Fault Refusal := .next (s.recalibrate stack ch)

/-- PATROL_READ (R325). -/
def execPatrolRead (stack : Nat) (s : State) : Host.Outcome State Fault Refusal :=
  let k := s.stack stack
  if k.hung || k.patrolPaused then .next s
  else
    let a := k.patrolNext
    let last := decide (k.rows * 2 ^ 22 ≤ a + 64)
    let found := k.bad.contains (a / 64) || k.deadChans.contains (spaChan a)
    let s := s.setStack stack { k with
      patrolNext := if last then 0 else a + 64, patrolPasses := k.patrolPasses + (if last then 1 else 0) }
    if found then
      let k := s.stack stack
      let own := (k.owner a).getD crucible
      .next ((s.setStack stack (k.log ⟨a, 1, own, s.gtime⟩)).report (.die 2 stack own))
    else .next s

/-- BASE_DIE_ENGINE_HANG (R326). -/
def execBaseDieEngineHang (stack : Nat) (s : State) : Host.Outcome State Fault Refusal :=
  .next ((s.setStack stack { s.stack stack with hung := true }).report (.die 4 stack 0))

end Sys2Proof.Machine
end

