-- ==== Sys2Proof/Machine/Pager.lean ====
section
/-! DEFINITION. The pager (R296 to R300), backing in host memory (R332) and keyed granules in it (R363). -/

namespace Sys2Proof.Machine

open Sys2Proof

/-! ## Moving bytes -/

/-- Copy `n` cells. -/
def moveCells (m : List Host.Cell) (src dst n : Nat) : List Host.Cell :=
  (m.filter fun c => decide (src ≤ c.1) && decide (c.1 < src + n)).foldl (fun m c => writeCell m (c.1 - src + dst) c.2)
    (zeroCells m dst n)

/-- The places of the 1,024 lines of a granule's frame: granule `o` of a buffer (R330). -/
def State.frameLines (s : State) (buf o : Nat) : List Place :=
  match s.bufs.find buf with
  | none => []
  | some b => (List.range 1024).map fun i => s.bufPlace buf b (65536 * o + 64 * i)

/-- The counter blocks of a frame, by stack and the KiB of the SPA: none when its granule is below 1 KiB (R358). -/
def State.frameBlocks (s : State) (buf o : Nat) : List (Nat × Nat) :=
  match s.bufs.find buf with
  | none => []
  | some b =>
    if (s.profs.getD b.prof ⟨0, 0, 0, 0⟩).glog < 2 then []
    else (List.range 64).filterMap fun i => match s.bufPlace buf b (65536 * o + 1024 * i) with
      | .dram st spa => some (st, spa / 1024)
      | _ => none

/-! ## Counter blocks as bytes (R360, R363) -/

/-- A block's key is LIVE or SAVE with its generation. -/
def State.keyAlive (s : State) (b : CtrBlock) : Bool :=
  let k := s.key b.kslot
  b.keyv && k.kgen == b.kgen && (k.state == .live || k.state == .save)

/-- The seal of a block (R363): over the ciphertext of its 16 lines, their GPA and the block's other fields. -/
def State.sealOf (s : State) (b : CtrBlock) (ct : List (BitVec 8)) (gpa : Nat) : BitVec 56 :=
  Config.cmac (keyPart (s.key b.kslot).key 1) (ct ++ toBytes 6 gpa ++ { b with sealMac := 0 }.bytes)

/-! ## Places in backing (R332) -/

/-- The slots of 64 KiB that the host has granted, up to `n` of them. -/
def grantedSlots (ranges : List (Nat × Nat)) (n : Nat) : List Nat :=
  (ranges.flatMap fun r => (List.range (min (32 * r.2) n)).map fun i => r.1 + 65536 * i).take n

/-- The backing in use: the slots that hold granules, and the units of 4 KiB that hold counter blocks. -/
def State.backingUsed (s : State) : List Nat × List Nat :=
  let bs := s.vdevs.flatMap fun d => d.2.back.map Prod.snd
  (bs.map Backed.data, bs.filterMap Backed.counters)

/-- Slots of which one at least has room. -/
def State.backingSlots (s : State) : List Nat :=
  let (slots, units) := s.backingUsed
  (grantedSlots s.mgmt.ranges (slots.length + units.length + 1)).filter fun a => !slots.contains a

/-- The lowest free slot of 64 KiB, for a granule. -/
def State.backingSlot (s : State) : Option Nat :=
  let units := s.backingUsed.2
  s.backingSlots.find? fun a => !units.any fun c => c / 65536 == a / 65536

/-- The lowest free unit of 4 KiB, for a granule's counter blocks. -/
def State.backingUnit (s : State) : Option Nat :=
  let units := s.backingUsed.2
  s.backingSlots.findSome? fun a => ((List.range 16).map fun i => a + 4096 * i).find? fun c => !units.contains c

/-- The 4 KiB units of backing that a device uses: 16 for a granule and one more for a keyed one (R332). -/
def VDev.backingHeld (d : VDev) : Nat := d.back.foldl (fun n b => n + 16 + if b.2.counters.isSome then 1 else 0) 0

/-- Find a granule its place in backing, within the device's quota (R297, R332). -/
def State.placeBacking (s : State) (vd g : Nat) (keyed : Bool) : Option (Backed × State) :=
  let d := s.vdev vd
  let put (s : State) (b : Backed) : State := s.setVdev vd { s.vdev vd with back := (s.vdev vd).back.put g b }
  let quota := d.prof 0x30 63 32 * 512
  let old := d.back.find g
  let have_ := match old with
    | some b => if b.counters.isSome then 17 else 16
    | none => 0
  let need := if keyed then 17 else 16
  if quota + have_ < d.backingHeld + need then none
  else match old with
    | some b =>
      if keyed && b.counters.isNone then s.backingUnit.map fun c => ({ b with counters := some c }, put s { b with counters := some c })
      else some (b, s)
    | none => match s.backingSlot with
      | none => none
      | some a =>
        let s' := put s ⟨a, none⟩
        if keyed then s'.backingUnit.map fun c => (⟨a, some c⟩, put s' ⟨a, some c⟩) else some (⟨a, none⟩, s')

/-! ## Frames (R297, R377) -/

/-- The granules of a device that are not resident and still stand in their frames: those being evicted, and those that a command moves. -/
def State.leaving (s : State) (vd : Nat) : List Nat :=
  (s.pager.filter fun r => r.vdev == vd).filterMap PagerReq.victim ++ (s.mgmt.moving.filter fun x => x.1 == vd).map Prod.snd

/-- A granule of a device stands in the frame that its leaf names. -/
def State.framed (s : State) (vd g : Nat) (f : S2Leaf) : Bool := f.res || (s.leaving vd).contains g

/-- The granule places of a buffer that hold a granule, or in which a fill has begun. -/
def State.framesUsed (s : State) (vd buf : Nat) : List Nat :=
  ((s.vdev vd).s2.filterMap fun x => if x.2.res && x.2.buf == buf then some x.2.boff else none) ++
  ((s.leaving vd).filterMap (s.vdev vd).s2.find |>.filter fun x => x.buf == buf).map S2Leaf.boff ++
  s.pager.flatMap fun r => if r.vdev != vd then [] else (r.frame.toList.filter fun f => f.1 == buf).map Prod.snd

/-- A frame holds no part of a row that is RETIRED (R434). -/
def State.frameSound (s : State) (buf o : Nat) : Bool :=
  (s.frameLines buf o).all fun p => match p with
    | .dram st spa => !(s.stack st).retired.contains (patKey spa)
    | _ => true

/-- No row of any stack is RETIRED. -/
def State.allSound (s : State) : Bool := s.stackDies.all fun k => k.2.retired.isEmpty

/-- The lowest free frame of a buffer that is fit for use. -/
def State.frameIn (s : State) (vd : Nat) (fit : Nat → Nat → Bool) (buf : Nat) : Option (Nat × Nat) :=
  match s.bufs.find buf with
  | none => none
  | some b =>
    let used := s.framesUsed vd buf
    let n := if s.allSound then min (32 * b.size) (used.length + 1) else 32 * b.size
    ((List.range n).find? fun o => !used.contains o && (s.allSound || s.frameSound buf o) && fit buf o).map fun o => (buf, o)

/-- The device buffers of a device, the preferred one first. -/
def State.deviceBufs (s : State) (vd first : Nat) : List Nat :=
  let all := (s.bufs.filter fun b => b.2.kind == 0 && b.2.owner == vd).map Prod.fst
  all.filter (· == first) ++ all.filter (· != first)

/-- A free frame of a device's allotment. -/
def State.freeFrame (s : State) (vd buf : Nat) : Option (Nat × Nat) := (s.deviceBufs vd buf).findSome? (s.frameIn vd fun _ _ => true)

/-- The event that completes an access that lies in given places, outside its point of coherence (R298 step 3). -/
def State.usesFrame (s : State) (ps : List Place) : Option Instr :=
  let hit (l : Loc) : Bool := ps.any fun p => overlap p 64 l.place 1
  match s.flight.find? fun f => f.parts.any fun x => hit x.2.2 with
  | some f => some (.pointOfCoherenceArrival f.id)
  | none => s.groups.findSome? fun g =>
    if g.2.preempted || g.2.stopped then none
    else match g.2.fifo.find? fun e => e.locs.any hit with
      | some _ => some (.storeFifoPerform g.1)
      | none => (g.2.loads.find? fun l => !l.deferred && l.locs.any hit).map fun l => .loadReturn g.1 l.id

/-- A host access to bytes of backing meets a line that the host refuses (R332, R408). -/
def State.hostRefuses (s : State) (addr n : Nat) : Bool := (List.range (n / 64)).any fun i => s.hostBad.getD (addr / 64 + i) 0 != 0

/-- The host refuses a transfer of a granule or of its counter blocks (R332). -/
def State.backingRefused (s : State) (b : Backed) : Bool := s.hostRefuses b.data 65536 || b.counters.any fun c => s.hostRefuses c 4096

/-- Discard the copies of a frame's lines. -/
def State.dropFrame (s : State) (ps : List Place) : State :=
  { s with cores := s.cores.mapVals fun _ k =>
      { k with l1 := k.l1.keep fun key _ => !(ps.any fun p => decide (p.key ≤ key % 2 ^ 90) && decide (key % 2 ^ 90 < p.key + 64)) } }

/-- Copy a frame to its backing as it is stored, its counter blocks sealed (R298 step 5, R363). -/
def State.copyOut (s : State) (g : Nat) (f : S2Leaf) (b : Backed) : State :=
  let ps := s.frameLines f.buf f.boff
  let s := ((List.range 1024).zip ps).foldl (fun s x =>
    { s with mem := moveCells s.mem x.2.key (Place.host (b.data + 64 * x.1)).key 64 }) s
  match b.counters with
  | none => s
  | some c => ((List.range 64).zip (s.frameBlocks f.buf f.boff)).foldl (fun s x =>
    let blk := (s.stack x.2.1).blocks.getD x.2.2 CtrBlock.zero
    let ct := readCells s.mem (Place.host (b.data + 1024 * x.1)).key 1024
    let blk := { blk with sealMac := if s.keyAlive blk then s.sealOf blk ct (65536 * g + 1024 * x.1) else 0 }
    { s with mem := writeCells s.mem (Place.host (c + 64 * x.1)).key blk.bytes }) s

/-- Take a granule's counter blocks out of a frame. -/
def State.clearBlocks (s : State) (buf o : Nat) : State :=
  (s.frameBlocks buf o).foldl (fun s x =>
    if ((s.stack x.1).blocks.find x.2).isNone then s else s.setStack x.1 ((s.stack x.1).putBlock x.2 none)) s

/-- What the attempt to evict a granule gives: the host refuses the write-back; an access must complete first; or it is done. -/
inductive Evict where
  | refused (s : State)
  | busy (s : State) (e : Instr)
  | done (s : State)

/-- What is read as it moves to host backing is checked as any read is (R298, R324, R364): an error contains the device's contexts, and is logged. -/
def State.checkFrame (s : State) (vd : Nat) (ps : List Place) (blocks : List (Nat × Nat)) : State :=
  let bad := ps.filter fun p => match p with
    | .dram st spa => (s.stack st).bad.contains (spa / 64) || (s.stack st).deadChans.contains (spaChan spa)
    | _ => false
  let s := if bad.isEmpty then s
    else (s.containAll vd .memUncorrectable .walker).detected .memUncorrectable (bad.map fun p => (p, 64))
  (blocks.filter fun x => ((s.stack x.1).blocks.find x.2).isSome).foldl (fun s x =>
    (s.treeFailed x.1 (1024 * x.2)).mirrorServed x.1 (1024 * x.2)) s

/-- Evict a granule (R298): RES is clear from the first step on. `f` is its leaf as it was, and `b` its place in backing. -/
def State.evict (s : State) (vd g : Nat) (f : S2Leaf) (b : Backed) : Evict :=
  let ps := s.frameLines f.buf f.boff
  let d := s.vdev vd
  let s := (s.setVdev vd { d with s2 := d.s2.put g { f with res := false } }).invalidateGranule vd g
  match s.usesFrame ps with
  | some e => .busy s e
  | none =>
    if s.backingRefused b then .refused (s.setVdev vd { s.vdev vd with s2 := (s.vdev vd).s2.put g { f with res := true } })
    else
      let s := s.checkFrame vd ps (s.frameBlocks f.buf f.boff)
      let s := ((s.copyOut g f b).dropFrame ps).clearBlocks f.buf f.boff
      .done (s.setVdev vd { s.vdev vd with lru := (s.vdev vd).lru.filter (· != g) })

/-! ## Serving requests (R297, R299) -/

/-- The lowest sequence number of a request; one that nothing waits for comes last. -/
def PagerReq.order (r : PagerReq) : Nat := r.waiters.foldl (fun n w => min n (w.2 * 2 + w.1)) (2 ^ 40)

/-- The context of a waiting access. -/
def State.waiterCtx (s : State) (w : Nat × Nat) : Option FaultSlot := (s.die w.1).faults.find w.2

/-- Change a request. -/
def State.putReq (s : State) (r : PagerReq) : State :=
  { s with pager := s.pager.map fun x => if x.vdev == r.vdev && x.granule == r.granule then r else x }

/-- A request is done with. -/
def State.dropReq (s : State) (r : PagerReq) : State :=
  { s with pager := s.pager.filter fun x => !(x.vdev == r.vdev && x.granule == r.granule) }

/-- The event that makes a parked access again (R296): that of the walk, the store FIFO, the stream, the operation, the channel, the grid, the
record, the team's placing, or the group that waits under its number. -/
def State.replayEvent (s : State) (die seq : Nat) : Option Instr :=
  let mine (core : Nat) : Bool := coreDie core == die
  let here (q : Option Nat) : Bool := q == some seq
  (((s.die die).walks.find? fun w => here w.2.parked).map fun w => Instr.walkStep die w.1)
  |>.or (s.groups.findSome? fun g =>
    if !mine (slotCore g.1) then none
    else if g.2.fifo.any fun e => here e.parked then some (.storeFifoPerform g.1)
    else match g.2.streams.find? fun x => here x.2.parked with
      | some x => some (.streamFill g.1 x.1)
      | none => if g.2.wait == some (.parked die seq) then some (.runBegin (12 * slotCore g.1 + slotSub g.1)) else none)
  |>.or (s.cores.findSome? fun k => if !mine k.1 then none
    else ((k.2.mq.find? fun o => here o.parked).map fun o => Instr.matrixStep k.1 o.id)
      |>.or ((k.2.coal.find? fun r => r.parked == some (die, seq)).map fun r => .coalescerClose k.1 r.seq))
  |>.or (s.teams.findSome? fun t => if !mine t.2.core then none
    else if here t.2.fpark then some (.teamPlace t.1)
    else (t.2.chans.find? fun c => c.2.queue.any fun x => here x.parked).map fun c => .copyRow t.1 c.1)
  |>.or ((s.grids.find? fun g => g.2.die == die && here g.2.parked).map fun g => .gridComplete g.1)

/-- The access with the lower number first (R297): on one die, a number is used once. -/
def waiterLe (a b : Nat × Nat) : Bool := decide (a.2 * 2 + a.1 ≤ b.2 * 2 + b.1)

/-- Free the fault slots of a request's waiters: each access is replayed, in ascending order of their numbers (R297 step 4). -/
def State.replayAll (s : State) (r : PagerReq) : State :=
  let ws := r.waiters.mergeSort waiterLe
  let events := ws.filterMap fun w => s.replayEvent w.1 w.2
  let s := ws.foldl (fun s w => s.setDie w.1 { s.die w.1 with faults := (s.die w.1).faults.del w.2 }) (s.dropReq r)
  { s with agenda := events ++ s.agenda }

/-- The number of an engine (R299). -/
def Engine.code (e : Engine) : Nat := e.ctorIdx

/-- The 32 bytes that the pager keeps of an access (R299), with the number of accesses merged into its granule's request. -/
def FaultSlot.bytes (f : FaultSlot) (die waiters : Nat) : List (BitVec 8) :=
  let b (x : Bool) (n : Nat) : Nat := if x then 2 ^ n else 0
  let core := if f.engine.code ≤ 4 then f.core else 0
  toBytes 8 (f.seq + b f.replayed 32 + b f.write 33 + b f.table 34 + 2 ^ 35 * f.engine.code + 2 ^ 39 * core + 2 ^ 45 * die + 2 ^ 47 * f.vdev +
    2 ^ 58 * f.ctx) ++
  toBytes 8 (f.va % 2 ^ 56) ++ toBytes 8 (f.gpa % 2 ^ 48) ++ toBytes 8 (min waiters 65535)

/-- Raise a cause against contexts that wait for a request: all of them, or that of the lowest number (R297). The entries of their accesses go to
error collection (R299). -/
def State.failReq (s : State) (r : PagerReq) (c : Cause) (all : Bool) : State :=
  let first := r.waiters.find? fun w => w.2 * 2 + w.1 == r.order
  let ws := if all then r.waiters else match first.bind s.waiterCtx with
    | some f => r.waiters.filter fun w => (s.waiterCtx w).any fun x => x.vdev == f.vdev && x.ctx == f.ctx
    | none => r.waiters
  let fs := ws.filterMap s.waiterCtx
  let s := ws.foldl (fun s w => match s.waiterCtx w with
    | some f => s.report (.entry (f.bytes w.1 r.waiters.length))
    | none => s) s
  let rest := r.waiters.filter fun w => !ws.contains w
  let s := if rest.isEmpty then s.dropReq r else s.putReq { r with waiters := rest, filling := false, frame := none }
  let s := ws.foldl (fun s w => s.setDie w.1 { s.die w.1 with faults := (s.die w.1).faults.del w.2 }) s
  ((fs.map fun f => (f.vdev, f.ctx, f.engine, f.va)).dedup).foldl (fun s x =>
    if (s.ctx x.1 x.2.1).state = 2 then s else s.contain x.1 x.2.1 c x.2.2.1 x.2.2.2) s

/-- The request that the pager takes next: one for which a granule is being evicted goes on, and one whose granule a command moves waits. -/
def State.nextReq (s : State) : Option PagerReq :=
  (s.pager.find? fun r => !r.filling && r.victim.isSome).or <|
  (s.pager.filter fun r => !r.filling && !s.mgmt.moving.contains (r.vdev, r.granule)).foldl (fun b r => match b with
    | none => some r
    | some x => if r.order < x.order then some r else some x) none

/-- Begin the fill of a request into a frame. -/
def State.beginFill (s : State) (r : PagerReq) (f : Nat × Nat) : State := s.putReq { r with filling := true, frame := some f, victim := none }

/-- The granule that the pager evicts for a device (R298): the least recently used one that is resident, not pinned, and can be written back. -/
def State.victimOf (s : State) (vd : Nat) : Option (Nat × S2Leaf × Backed × State) :=
  let d := s.vdev vd
  if d.prof 0x30 63 32 = 0 then none
  else d.lru.findSome? fun g => (d.s2.find g).bind fun f =>
    if !f.res || f.pin then none
    else
      let keyed := (s.frameBlocks f.buf f.boff).any fun x => ((s.stack x.1).blocks.getD x.2 CtrBlock.zero).keyv
      (s.placeBacking vd g keyed).map fun b => (g, f, b.1, b.2)

/-- Go on with the eviction of a granule for a request. -/
def State.evictFor (s : State) (r : PagerReq) (g : Nat) (f : S2Leaf) (b : Backed) : State :=
  match s.evict r.vdev g f b with
  | .busy s e => { s.putReq { r with victim := some g } with agenda := e :: s.agenda }
  | .refused s => s.failReq { r with victim := none } .hostPageError true
  | .done s => s.beginFill r (f.buf, f.boff)

/-- PAGER_SERVE (R297, R298): the request with the lowest number gets a frame, a granule being evicted if there is none free. -/
def execPagerServe (s : State) : Host.Outcome State Fault Refusal :=
  match s.nextReq with
  | none => .next s
  | some r =>
    let d := s.vdev r.vdev
    match r.victim.bind fun g => (d.s2.find g).bind fun x => (d.back.find g).map fun b => (g, x, b) with
    | some (g, x, b) => .next (s.evictFor r g x b)
    | none => match d.s2.find r.granule with
      | none => .next (s.replayAll r)
      | some f =>
        if f.res then .next (s.replayAll r)
        else match s.freeFrame r.vdev f.buf with
          | some x => .next (s.beginFill r x)
          | none => match s.victimOf r.vdev with
            | none => .next (s.failReq { r with victim := none } .pagerOvercommit false)
            | some (g, x, b, s) => .next (s.evictFor r g x b)

/-- Copy a granule's backing into a frame, as it is stored; the seals of blocks whose key is alive are checked, and their lines' MACs
computed again (R297, R363). -/
def State.copyIn (s : State) (vd g buf o : Nat) (b : Backed) : Except Cause State :=
  let ps := s.frameLines buf o
  if s.backingRefused b then .error .hostPageError
  else
    let s := ((List.range 1024).zip ps).foldl (fun s x =>
      { s with mem := moveCells s.mem (Place.host (b.data + 64 * x.1)).key x.2.key 64 }) s
    match b.counters with
    | none => .ok s
    | some c => foldE (fun (s : State) (x : Nat × Nat × Nat) =>
      let blk := CtrBlock.ofBytes (readCells s.mem (Place.host (c + 64 * x.1)).key 64)
      let ct := readCells s.mem (Place.host (b.data + 1024 * x.1)).key 1024
      let gpa := 65536 * g + 1024 * x.1
      if s.keyAlive blk && blk.sealMac != s.sealOf blk ct gpa then .error .integrity
      else
        let k := s.stack x.2.1
        let line (i : Nat) : BitVec 56 :=
          lineMac (s.key blk.kslot).key ((ct.drop (64 * i)).take 64) ⟨blk.kslot, blk.kgen, vd, gpa + 64 * i⟩ (blk.ctr i)
        let macs := if s.keyAlive blk then
            (List.range 16).foldl (fun (m : Regs 56) i => if blk.minors.get i == 0 then m else m.set (16 * x.2.2 + i) (line i)) k.macs
          else k.macs
        .ok (s.setStack x.2.1 ({ k with macs := macs }.putBlock x.2.2 (some blk))))
      s ((List.range 64).zip (s.frameBlocks buf o))

/-- Fill a frame with zeros (R297). -/
def State.zeroFrame (s : State) (buf o : Nat) : State :=
  { s.clearBlocks buf o with mem := (s.frameLines buf o).foldl (fun m p => zeroCells m p.key 64) s.mem }

/-- A granule is resident in a frame. -/
def State.resident (s : State) (vd g buf o : Nat) (f : S2Leaf) : State :=
  let d := s.vdev vd
  s.setVdev vd { d with
    s2 := d.s2.put g { f with res := true, buf := buf, boff := o, runl := 0 }, lru := d.lru.filter (· != g) ++ [g],
    meters := d.meters.set 4 (d.meters.get 4 + 1) }

/-- PAGER_FILL_COMPLETE (R297, R363, R393): the frame holds the granule, and every access that waits for it is replayed. -/
def execPagerFillComplete (s : State) : Host.Outcome State Fault Refusal :=
  match s.pager.find? fun r => r.filling with
  | none => .next s
  | some r => match (s.vdev r.vdev).s2.find r.granule, r.frame with
    | some f, some (buf, o) =>
      let filled := match (s.vdev r.vdev).back.find r.granule with
        | none => Except.ok (s.zeroFrame buf o)
        | some b => s.copyIn r.vdev r.granule buf o b
      match filled with
      | .error c => .next (s.failReq r c true)
      | .ok s => .next ((s.resident r.vdev r.granule buf o f).replayAll r)
    | _, _ => .next (s.replayAll r)

end Sys2Proof.Machine
end

