-- ==== Sys2Proof/Machine/Queues.lean ====
section
/-! DEFINITION. Queues: descriptors, kicks, hardware slots (R383 to R386), the packet engine and its packets (R387 to R391), the status
block (R384) and grid completion (R270). -/

namespace Sys2Proof.Machine

open Sys2Proof

/-! ## The packet engine's accesses (R282, R384) -/

/-- The packet engine as it works for a queue. It lies on the I/O die: no access of it crosses the die boundary (R315), so it walks on the
die that reaches the memory. -/
def State.packetAgent (s : State) (vd q : Nat) : Agent :=
  ⟨2 ^ 61 + 64 * vd + q, .packet, 0, vd, (s.queue vd q).ctx, (s.vdev vd).world⟩

/-- Make an access from die 0, or from die 1 when only that one reaches it. -/
def eitherDie {α : Type} (w : Agent) (f : Agent → State × Except EngStop α) : State × Except EngStop α :=
  match f w with
  | (s, .error (.cause .linkDown ea)) => match f { w with core := 4 } with
    | (_, .error (.cause .linkDown _)) => (s, .error (.cause .linkDown ea))
    | r => r
  | r => r

/-- Read for the packet engine. -/
def State.packetRead (s : State) (w : Agent) (ea n : Nat) : State × Except EngStop (List (BitVec 8)) :=
  eitherDie w fun w => s.agentRead w ea n

/-- Write for the packet engine. -/
def State.packetWrite (s : State) (w : Agent) (ea : Nat) (bs : List (BitVec 8)) : State × Except EngStop Unit :=
  eitherDie w fun w => s.agentWrite w ea bs

/-- Translate for the packet engine. -/
def State.packetLoc (s : State) (w : Agent) (k : Access) (ea : Nat) : State × Except EngStop Loc := eitherDie w fun w => s.agentLoc w k ea

/-! ## The status block (R384) -/

/-- The number of a queue's state. -/
def QState.code : QState → Nat
  | .disabled => 0
  | .idle => 1
  | .active => 2
  | .error => 3

/-- Word 0 of the status block, which QSTATUS reads as well (R376). -/
def Queue.word0 (q : Queue) : Nat := q.rdidx.toNat + 2 ^ 32 * q.state.code + 2 ^ 40 * q.cause.code

/-- The 16 bytes of a status block. -/
def Queue.block (q : Queue) : List (BitVec 8) := toBytes 8 q.word0 ++ toBytes 8 (q.failIdx.toNat + 2 ^ 32 * q.failTag.toNat)

/-- Change a queue. -/
def State.onQueue (s : State) (vd q : Nat) (f : Queue → Queue) : State := s.setQueue vd q (f (s.queue vd q))

/-- Raise EVEC when it is due (R391, R394). -/
def State.raiseEvec (s : State) (vd q : Nat) : State :=
  let k := s.queue vd q
  if k.evecDue then (s.setQueue vd q { k with evecDue := false }).interruptField vd k.evec else s

/-- Park an access of the packet engine (R296, R391). -/
def State.parkPacket (s : State) (vd q : Nat) (w : Agent) (wr : Bool) (ea gpa : Nat) : State :=
  match s.agentPark w wr ea gpa ((s.queue vd q).parked.map Prod.snd) with
  | none => s
  | some (s, n) => s.onQueue vd q fun k => { k with parked := some (0, n) }

/-- A queue's access is parked on a page that has not come. -/
def State.queueParked (s : State) (k : Queue) : Bool := k.parked.any fun p => s.isParked p.1 p.2

/-- Write the status block when it is due (R384). -/
def State.writeStatus (s : State) (vd q : Nat) : State :=
  let k := s.queue vd q
  if !k.statDue || s.queueParked k then s
  else if k.noStat then (s.setQueue vd q { k with statDue := false }).raiseEvec vd q
  else
    let w := s.packetAgent vd q
    match s.packetWrite w k.qstat k.block with
    | (s, .ok ()) => (s.onQueue vd q fun k => { k with statDue := false, parked := none }).raiseEvec vd q
    | (s, .error .hold) => s
    | (s, .error (.absent ea gpa)) => s.parkPacket vd q w true ea gpa
    | (s, .error (.cause c ea)) =>
      let s := s.onQueue vd q fun k => { k with statDue := false, noStat := true, parked := none }
      if c.kind = .F then (s.contain vd k.ctx c .packet ea).raiseEvec vd q
      else
        let s := s.onQueue vd q fun k => { k.fail c k.rdidx 0 with statDue := false, evecDue := true }
        s.raiseEvec vd q

/-! ## Enabling, resetting, kicks (R376, R383, R385) -/

/-- Registers take effect on a RUNNING or STOPPED device; otherwise a write is ignored and counted, unless the device is ABSENT (R376). -/
def State.takesWrites (s : State) (vd : Nat) : Bool := (s.vdev vd).state == .running || (s.vdev vd).state == .stopped

/-- A write that is ignored is counted (R376, R385). -/
def State.ignoreWrite (s : State) (vd : Nat) : State :=
  let d := s.vdev vd
  if d.state = .absent then s else s.setVdev vd { d with ignored := d.ignored + 1 }

/-- NQ of a device (R377). -/
def VDev.nq (d : VDev) : Nat := d.prof 0 27 21

/-- NP of a queue (R383). -/
def Queue.np (k : Queue) : Nat := 2 ^ (k.rlog - 6)

/-- Reset a queue (R383): it becomes DISABLED; grids that it dispatched run on, and nothing is signalled for them. -/
def Queue.reset (k : Queue) : Queue :=
  { k with
    enable := false, state := .disabled, rdidx := 0, w := 0, cause := .none, failIdx := 0, failTag := 0, packets := [], kicked := none,
    statDue := true, evecDue := false, ending := none, parked := none,
    quiet := k.quiet ++ k.packets.flatMap fun p => p.grids.map Prod.fst }

/-- Reset a queue that is enabled; the next status block is written afresh (R384). -/
def State.resetQueue (s : State) (vd q : Nat) : State :=
  let k := s.queue vd q
  if k.state = .disabled then s
  else ((s.setQueue vd q k.reset).writeStatus vd q).onQueue vd q fun k => { k with noStat := false, mapped := false }

/-- QCTL_RESET (R383). -/
def execQctlReset (vd q : Nat) (s : State) : Host.Outcome State Fault Refusal :=
  .next (if s.takesWrites vd then s.resetQueue vd q else s.ignoreWrite vd)

/-- QUEUE_ENABLE (R383): a change of ENABLE. -/
def execQueueEnable (vd q : Nat) (on : Bool) (s : State) : Host.Outcome State Fault Refusal :=
  if !s.takesWrites vd then .next (s.ignoreWrite vd)
  else if !on then .next (s.resetQueue vd q)
  else
    let k := s.queue vd q
    let d := s.vdev vd
    let nvec := d.prof 0x20 57 45
    if k.enable then .next s
    else if q < d.nq && (s.ctx vd k.ctx).state == 1 && decide (k.cvec < nvec) && decide (k.evec < nvec) then
      .next (s.setQueue vd q { k with
        enable := true, state := .idle, rdidx := 0, w := 0, cause := .none, failIdx := 0, failTag := 0, packets := [], kicked := none,
        statDue := true, noStat := false, parked := none, ending := none })
    else .next (s.setQueue vd q { k with enable := false, cause := .illegalField })

/-- Read bytes at a GPA for a kick's check: a granule that is not resident is read where it is backed (R385: residence is not required). -/
def State.peekGpa (s : State) (vd gpa n : Nat) : Option (List (BitVec 8)) :=
  match s.s2leaf vd gpa with
  | none => none
  | some f =>
    if !f.rd then none
    else if f.res then match s.readGpa 0 vd gpa n with
      | .ok bs => some bs
      | .error .linkDown => (s.readGpa 1 vd gpa n).toOption
      | .error _ => none
    else match (s.vdev vd).back.find (gpa / 65536) with
      | some b => some (readCells s.mem (Place.host (b.data + gpa % 65536)).key n)
      | none => some (List.replicate n 0)

/-- The range record that covers an address (R284, R285), at most eight nodes deep. -/
def State.rangeOf (s : State) (vd ctx ea : Nat) : Nat → WalkPhase → Option Xlation
  | 0, _ => none
  | n + 1, p => match p with
    | .node gpa depth _ => (s.peekGpa vd gpa 512).bind fun node =>
      s.rangeOf vd ctx ea n (walkNode (s.ctx vd ctx) vd ctx ea depth node)
    | .stage2 x => some x
    | _ => none

/-- The ring of a queue lies in one range record with R set, and every granule of it is valid in stage 2 with RD set (R385). -/
def State.ringOk (s : State) (vd : Nat) (k : Queue) : Bool :=
  decide (12 ≤ k.rlog) && decide (k.rlog ≤ 24) &&
  match (s.ctx vd k.ctx).rtlive with
  | 0 => false
  | root => match s.rangeOf vd k.ctx k.rbase 10 (.node root 1 []) with
    | none => false
    | some x =>
      let g0 := (x.gpa + (k.rbase - x.vlo)) / 65536
      let g1 := (x.gpa + (k.rbase - x.vlo) + 2 ^ k.rlog - 1) / 65536
      attrR x.attr && decide (k.rbase + 2 ^ k.rlog ≤ x.vhi) &&
      (List.range (g1 + 1 - g0)).all fun i => ((s.vdev vd).s2.find (g0 + i)).any fun f => f.rd

/-- KICK (R385). -/
def execKick (vd q w : Nat) (s : State) : Host.Outcome State Fault Refusal :=
  let k := s.queue vd q
  let w : Word := BitVec.ofNat 32 w
  if !s.takesWrites vd || decide ((s.vdev vd).nq ≤ q) || !k.enable || k.state == .error then .next (s.ignoreWrite vd)
  else if s.ringOk vd k && decide ((w - k.rdidx).toNat ≤ k.np) then
    .next { s.setQueue vd q { k with
      w := w, kicked := if k.kicked.isNone && w != k.rdidx then some s.nextId else k.kicked,
      state := if w != k.rdidx then .active else k.state, statDue := k.statDue || (k.state == .idle && w != k.rdidx) } with
      nextId := s.nextId + 1 }
  else .next (((s.setQueue vd q (k.fail .queueRing k.rdidx 0)).report (.context .queueRing vd k.ctx .packet 0)))

/-! ## Hardware slots (R386) -/

/-- A queue has packets to fetch or steps to perform. -/
def Queue.pending (k : Queue) : Bool := (k.state == .idle || k.state == .active) && (k.w != k.rdidx || !k.packets.isEmpty)

/-- A device's bucket has run dry (R393). -/
def VDev.dry (d : VDev) : Bool := d.prof 0x18 31 0 != 0 && d.bucket == 0

/-- A device has an unbegun packet or step, or a grid with unplaced or resident teams, in a context that goes on (R392). -/
def State.hasWork (s : State) (vd : Nat) : Bool :=
  (s.vdev vd).queues.any (fun k => k.2.pending && (s.ctx vd k.2.ctx).state == 1) ||
  s.grids.any fun g => g.2.vdev == vd && (s.ctx vd g.2.ctx).state == 1 && !g.2.statDone

/-- A device is eligible on its set (R392). -/
def State.eligibleNow (s : State) (vd : Nat) : Bool := (s.vdev vd).state == .running && s.hasWork vd && !(s.vdev vd).dry

/-- A queue that waits for a slot. -/
def State.wantsSlot (s : State) (vd q : Nat) : Bool :=
  let k := s.queue vd q
  k.enable && !k.mapped && k.pending && s.eligibleNow vd

/-- All queues of all devices. -/
def State.allQueues (s : State) : List (Nat × Nat × Queue) := s.vdevs.flatMap fun d => d.2.queues.map fun k => (d.1, k.1, k.2)

/-- QUEUE_SLOT_GRANT (R386): one of the 512 slots goes to the waiting queue with the oldest unserved kick. -/
def execQueueSlotGrant (vd q : Nat) (s : State) : Host.Outcome State Fault Refusal :=
  let all := s.allQueues
  let mine := (s.queue vd q).kicked.getD s.nextId
  if !s.wantsSlot vd q || decide (512 ≤ (all.filter fun x => x.2.2.mapped).length) ||
      all.any (fun x => s.wantsSlot x.1 x.2.1 && decide (x.2.2.kicked.getD s.nextId < mine)) then .next s
  else .next (s.onQueue vd q fun k => { k with mapped := true })

/-- A queue gives up its slot: its step index stays, and lines fetched ahead from an indirect buffer are discarded. -/
def Queue.unmap (k : Queue) : Queue :=
  { k with mapped := false, packets := k.packets.map fun p => if p.subStep = 0 then { p with subWords := none } else p }

/-- QUEUE_SLOT_RELEASE (R386): an IDLE queue with nothing to do, or one whose device does not run or has run dry. -/
def execQueueSlotRelease (vd q : Nat) (s : State) : Host.Outcome State Fault Refusal :=
  let k := s.queue vd q
  if k.mapped && (!k.pending || (s.vdev vd).state != .running || (s.vdev vd).dry) then .next (s.onQueue vd q Queue.unmap)
  else .next s

/-! ## Packets (R387, R391) -/

/-- A word of a packet. -/
def pw (ws : Regs 64) (n : Nat) : Nat := (ws.get n).toNat

/-- TYPE, ORDERED, INTR and TAG of a packet (R387). -/
def pType (ws : Regs 64) : Nat := bits (pw ws 0) 7 0
def pOrdered (ws : Regs 64) : Bool := bit (pw ws 0) 8
def pIntr (ws : Regs 64) : Bool := bit (pw ws 0) 9
def pTag (ws : Regs 64) : Word := BitVec.ofNat 32 (bits (pw ws 0) 63 32)

/-- The widths of the fields of words 1 to 5 of each type (R387); everything else is reserved. -/
def pWidths : Nat → List Nat
  | 1 => [56, 56]
  | 2 => [56, 64]
  | 3 => [56, 2, 64]
  | 4 => [56, 2, 64]
  | 5 => [56, 64, 56, 2, 64]
  | 6 => [1]
  | 7 => [56, 17]
  | 8 => [14, 20, 56]
  | _ => []

/-- The addresses of each type and their alignments (R387). -/
def pAligned : Nat → List (Nat × Nat)
  | 1 => [(1, 64), (2, 8)]
  | 2 => [(1, 8)]
  | 3 => [(1, 8)]
  | 4 => [(1, 8)]
  | 5 => [(1, 8), (3, 8)]
  | 7 => [(1, 64)]
  | 8 => [(3, 8)]
  | _ => []

/-- The cause for which a packet is refused before its first step (R391). OP 3 is reserved; COND 3 is GE, as R387 gives it. -/
def packetCause (ws : Regs 64) (nested : Bool) : Option Cause :=
  let t := pType ws
  let ms := pWidths t
  if ms.isEmpty || bits (pw ws 0) 31 10 != 0 || (nested && t == 7) ||
      ((List.range 7).any fun n => decide (2 ^ ms.getD n 0 ≤ pw ws (n + 1))) ||
      (t == 3 && pw ws 2 == 3) || (t == 5 && pw ws 4 == 3) || (t == 7 && (pw ws 2 == 0 || decide (65536 < pw ws 2))) then some .illegalField
  else if (pAligned t).any fun a => pw ws a.1 % a.2 != 0 then some .align
  else none

/-- What a step of a packet gives: the packet goes on, or it is at its end, perhaps with a grid that is still to complete; it yields; it
parks on an absent page; or it is refused. -/
inductive PStep where
  | more (s : State)
  | last (s : State)
  | grid (s : State) (id : Nat)
  | yield (s : State)
  | absent (s : State) (wr : Bool) (ea gpa : Nat)
  | refuse (s : State) (c : Cause) (ea : Nat)

/-- The outcome of an access of a step. -/
def pAccess {α : Type} (wr : Bool) (r : State × Except EngStop α) (f : State → α → PStep) : PStep :=
  match r with
  | (s, .ok x) => f s x
  | (s, .error .hold) => .yield s
  | (s, .error (.absent ea gpa)) => .absent s wr ea gpa
  | (s, .error (.cause c ea)) => .refuse s c ea

/-- A signal operation's result (R389). -/
def signalOp (op old v : Nat) : Nat :=
  match op with
  | 0 => v % 2 ^ 64
  | 1 => (old + v) % 2 ^ 64
  | _ => (old + (2 ^ 64 - v % 2 ^ 64)) % 2 ^ 64

/-- A signal operation (R389): an indivisible read-modify-write, and a release. At a peer it is sent, and the step ends with the peer's
acknowledgement. -/
def State.signal (s : State) (w : Agent) (ea op v : Nat) (f : State → PStep) : PStep :=
  pAccess true (s.packetLoc w .rmw ea) fun s l =>
    if attrCC l.attr || (match l.place with
        | .host _ => !Config.hostAtomics
        | _ => false) then .refuse s .atomicType ea
    else if attrHostCache l.attr then .refuse s .writeReadonly ea
    else if l.isPeer then
      let x := if op = 0 then toBytes 8 v else toBytes 8 (signalOp op 0 v)
      f { s with
        nextId := s.nextId + 1,
        flight := s.flight ++ [⟨s.nextId, w.tag, w.core, coreDie w.core, w.vdev, w.ctx, 0, 0, 0, .atom (if op = 0 then 6 else 0) 2,
          [(0, ⟨0, 0, BitVec.ofNat 64 ea, 8, x, []⟩, l)], none, true⟩] }
    else match s.readLoc l 8 with
      | .error c => .refuse s c ea
      | .ok old => match s.writeLoc l (toBytes 8 (signalOp op (ofBytes old) v)) with
        | .error c => .refuse s c ea
        | .ok s => f (s.dropL1 l.place 8)

/-- A condition of WAIT (R387). -/
def waitHolds (cond x v : Nat) : Bool :=
  match cond with
  | 0 => x == v
  | 1 => x != v
  | 2 => decide (x < v)
  | _ => decide (v ≤ x)

/-- The context for which a request to a peer stands, by the tag under which it does. -/
def State.tagOwner (s : State) (tag : Nat) : Nat × Nat :=
  let team (t : Nat) : Nat × Nat := ((s.gridOf t).vdev, (s.gridOf t).ctx)
  if tag < 2 ^ 40 then ((s.groups.find tag).map s.owner).getD (0, 0)
  else if tag < 2 ^ 50 then team ((tag - 2 ^ 40) / 16)
  else if 2 ^ 100 ≤ tag then team (tag / 2 ^ 100 - 1)
  else if tag < 2 ^ 60 then team (tag - 2 ^ 59)
  else if tag < 2 ^ 61 then (((s.core (tag - 2 ^ 60)).coal.head?).map fun r => (r.vdev, r.ctx)).getD (0, 0)
  else if tag < 2 ^ 61 + 2 ^ 20 then ((tag - 2 ^ 61) / 64, (s.queue ((tag - 2 ^ 61) / 64) (tag % 64)).ctx)
  else ((s.grid (tag - 2 ^ 61 - 2 ^ 20)).vdev, (s.grid (tag - 2 ^ 61 - 2 ^ 20)).ctx)

/-- The accesses of a context that an invalidation waits for: those that are translated and outside their points of coherence (R295). What a peer has
been asked for, or a base die that does not respond holds, only they can end. -/
def State.outside (s : State) (vd ctx : Nat) : HoldWait :=
  match s.flight.find? fun f => f.vdev == vd && f.ctx == ctx && !f.sent with
  | some f => .event (.pointOfCoherenceArrival f.id)
  | none =>
    let held := s.groups.findSome? fun g =>
      if g.2.preempted || g.2.stopped || s.owner g.2 != (vd, ctx) then none
      else match g.2.fifo.find? fun e => !e.locs.isEmpty with
        | some _ => some (.storeFifoPerform g.1)
        | none => (g.2.loads.find? fun l => !l.deferred && !l.locs.isEmpty).map fun l => Instr.loadReturn g.1 l.id
    match held, s.nb.find? fun c => c.vdev == vd && c.ctx == ctx with
    | some e, _ => .event e
    | none, some c => if (s.stack c.stack).hung then .stuck else .event (s.nbProgress c)
    | none, none =>
      if s.flight.any (fun f => f.vdev == vd && f.ctx == ctx) || s.peers.any (fun r => r.answer.isNone && s.tagOwner r.slot == (vd, ctx)) then .stuck
      else .ready

/-- Invalidate a context's translations (R295), a new root taking effect (R382). -/
def State.fenceInval (s : State) (vd ctx : Nat) : State :=
  let s := s.invalidate vd ctx
  let x := s.ctx vd ctx
  s.setCtx vd ctx { x with epoch := x.epoch + 1, rtlive := x.rtroot, ptlive := x.ptroot }

/-- One step of a packet (R387 to R391). `first` says that every earlier packet of the queue has completed. -/
def State.packetStep (s : State) (vd q : Nat) (k : Queue) (idx : Nat) (ws : Regs 64) (step : Nat) (first : Bool) : PStep :=
  let w := s.packetAgent vd q
  match pType ws with
  | 1 =>
    let die := s.homeDie vd
    pAccess false (s.packetRead w (pw ws 1) 192) fun s rec =>
      match s.recordCause vd { Grid.gone with record := rec } with
      | some c => .refuse s c (pw ws 1)
      | none =>
        if !s.poolRoom vd die then .yield s
        else
          let (id, _, s) := s.enterGrid vd k.ctx die rec none (some (q, idx)) none
          .grid s id
  | 2 => pAccess true (s.packetWrite w (pw ws 1) (toBytes 8 (pw ws 2))) fun s _ => .last s
  | 3 => s.signal w (pw ws 1) (pw ws 2) (pw ws 3) fun s => .last s
  | 4 => pAccess false (s.packetRead w (pw ws 1) 8) fun s bs =>
      if waitHolds (pw ws 2) (ofBytes bs) (pw ws 3) then .last s else .yield s
  | 5 =>
    if step = 0 then pAccess true (s.packetWrite w (pw ws 1) (toBytes 8 (pw ws 2))) fun s _ => .more s
    else s.signal w (pw ws 3) (pw ws 4) (pw ws 5) fun s => .last s
  | 6 =>
    if !first then .yield s
    else if !bit (pw ws 1) 0 then .last s
    else match s.outside vd k.ctx with
      | .event e => .yield { s with agenda := e :: s.agenda }
      | .stuck => .yield s
      | .ready => .last (s.fenceInval vd k.ctx)
  | 8 =>
    let n := pw ws 1
    let gen := pw ws 2
    let reply (s : State) (x : Nat) : PStep :=
      if pw ws 3 = 0 then .last s else pAccess true (s.packetWrite w (pw ws 3) (toBytes 8 x)) fun s _ => .last s
    if k.ending == some n then
      if (s.key n).draining.isSome then .yield s else reply (s.onQueue vd q fun k => { k with ending := none }) 1
    else if s.foreignKey vd (s.vdev vd).world n then .refuse s .keyWorld 0
    else if (s.key n).state == .live && (s.key n).kgen == gen then
      .yield ((s.setKey n (s.key n).ended).onQueue vd q fun k => { k with ending := some n })
    else reply s 0
  | _ => .refuse s .illegalField 0

/-! ## Serving a queue (R388, R390) -/

/-- The packet engine serves a queue now (R384, R388). -/
def State.serving (s : State) (vd q : Nat) : Bool :=
  let k := s.queue vd q
  (s.vdev vd).state == .running && s.holdsSlice vd && k.mapped && (k.state == .idle || k.state == .active) &&
  (s.ctx vd k.ctx).state == 1 && !k.statDue && !s.queueParked k && !s.qrefused.any (fun v => victimHits v vd k.ctx) &&
  !s.agentWaits (s.packetAgent vd q)

/-- A packet has no step left but the completion of its grids. -/
def Packet.stepped (p : Packet) : Bool := p.done

/-- The packet whose step comes next, and whether every earlier packet has completed. -/
def Queue.current (k : Queue) : Option (Packet × Bool) :=
  match k.packets.dropWhile Packet.stepped with
  | [] => none
  | p :: _ => some (p, (k.packets.head?.map Packet.idx) == some p.idx)

/-- Change a packet of a queue. -/
def Queue.onPacket (k : Queue) (idx : Nat) (f : Packet → Packet) : Queue :=
  { k with packets := k.packets.map fun p => if p.idx = idx then f p else p }

/-- A packet that has completed, its departure having waited for a peer's acknowledgement. -/
def Queue.leaving (k : Queue) : Bool := k.packets.any fun p => p.done && p.grids.isEmpty

/-- Packets that have completed leave, CVEC being raised for those with INTR; a queue with nothing left is IDLE (R384, R388). -/
def State.settleQueue (s : State) (vd q : Nat) : State :=
  let k := s.queue vd q
  let gone := k.packets.filter fun p => p.done && p.grids.isEmpty
  let left := k.packets.filter fun p => !(p.done && p.grids.isEmpty)
  let idle := left.isEmpty && k.w == k.rdidx && k.state == .active
  if s.agentWaits (s.packetAgent vd q) then s else
  let s := s.setQueue vd q { k with
    packets := left, state := if idle then .idle else k.state, statDue := k.statDue || idle, kicked := if idle then none else k.kicked }
  gone.foldl (fun s p => if pIntr p.words then s.interruptField vd k.cvec else s) s

/-- A packet is refused (R391): the queue enters ERROR, or a fatal cause contains the context. -/
def State.refusePacket (s : State) (vd q : Nat) (p : Packet) (c : Cause) (ea : Nat) : State :=
  let k := s.queue vd q
  let s := s.setQueue vd q { k.fail c (BitVec.ofNat 32 p.idx) (pTag p.words) with parked := none }
  let s := if c.kind = .F then s.contain vd k.ctx c .packet ea else s
  s.writeStatus vd q

/-- Carry out a step's outcome: `on` says how the packet goes on after a step that is complete, with a grid that it entered and whether the
packet, or sub-packet, is at its end. -/
def State.settleStep (s : State) (vd q : Nat) (p : Packet) (r : PStep) (on : Packet → Option Nat → Bool → Packet) : State :=
  let upd (s : State) (f : Packet → Packet) : State := s.onQueue vd q fun k => { k.onPacket p.idx f with parked := none }
  match r with
  | .more s => upd s fun p => on p none false
  | .last s => (upd s fun p => on p none true).settleQueue vd q
  | .grid s id => (upd s fun p => on p (some id) true).settleQueue vd q
  | .yield s => upd s fun p => { p with begun := true }
  | .absent s' wr ea gpa => (s'.onQueue vd q fun k => k.onPacket p.idx fun p => { p with begun := true }).parkPacket vd q (s.packetAgent vd q) wr ea gpa
  | .refuse s c ea => s.refusePacket vd q { p with begun := true } c ea

/-- A top-level packet after a step. -/
def Packet.after (p : Packet) (id : Option Nat) (last : Bool) : Packet :=
  { p with
    begun := true, step := p.step + 1, done := last,
    grids := p.grids ++ (id.map fun g => (g, pw p.words 2, false)).toList }

/-- An INDIRECT after a step of the packet that stands at its place in the buffer. -/
def Packet.afterSub (p : Packet) (id : Option Nat) (last : Bool) : Packet :=
  let ws := p.subWords.getD []
  let sub := if last then p.sub + 1 else p.sub
  { p with
    begun := true, step := p.step + 1, sub := sub, subStep := if last then 0 else p.subStep + 1,
    subWords := if last then none else p.subWords, done := last && decide (pw p.words 2 ≤ sub),
    grids := p.grids ++ (id.map fun g => (g, pw ws 2, pIntr ws)).toList }

/-- A step of the packet whose step comes next, when it is of the given type. -/
def State.serve (s : State) (vd q type : Nat) : State :=
  let s := s.writeStatus vd q
  if !s.serving vd q then s
  else
    let k := s.queue vd q
    match k.current with
    | none => s
    | some (p, first) =>
      if pType p.words != type || (packetCause p.words false).isSome || (pOrdered p.words && p.step == 0 && !first) then s
      else s.settleStep vd q p (s.packetStep vd q k p.idx p.words p.step first) Packet.after

/-- Perform the signal of a grid that has completed (R270, R387). -/
def State.gridSignal (s : State) (vd q : Nat) (p : Packet) (id sig : Nat) (intr : Bool) : State :=
  let k := s.queue vd q
  let doneWith (s : State) : State :=
    let s := (s.onQueue vd q fun k => { k.onPacket p.idx fun p => { p with grids := p.grids.filter fun g => g.1 != id } with parked := none }).settleQueue
      vd q
    if intr then s.interruptField vd k.cvec else s
  if sig = 0 then doneWith s
  else match s.signal (s.packetAgent vd q) sig 2 1 fun s => .last s with
    | .last s => doneWith s
    | .more s => s
    | .grid s _ => s
    | .yield s => s
    | .absent s wr ea gpa => s.parkPacket vd q (s.packetAgent vd q) wr ea gpa
    | .refuse s c ea => s.refusePacket vd q p c ea

/-- A packet of a queue with a grid that has completed. -/
def State.endedGrid (s : State) (k : Queue) : Option (Packet × Nat × Nat × Bool) :=
  k.packets.findSome? fun p => (p.grids.find? fun g => (s.grids.find g.1).isNone).map fun g => (p, g)

/-- DISPATCH (R387): the signal of a grid that has completed, or else the first step of a DISPATCH. -/
def execDispatch (vd q : Nat) (s : State) : Host.Outcome State Fault Refusal :=
  let s := s.writeStatus vd q
  if !s.serving vd q then .next s
  else match s.endedGrid (s.queue vd q) with
    | some (p, id, sig, intr) => .next (s.gridSignal vd q p id sig intr)
    | none => .next (s.serve vd q 1)

/-- WRITE (R387, R389). -/
def execWrite (vd q : Nat) (s : State) : Host.Outcome State Fault Refusal := .next (s.serve vd q 2)

/-- SIGNAL (R387, R389). -/
def execSignal (vd q : Nat) (s : State) : Host.Outcome State Fault Refusal := .next (s.serve vd q 3)

/-- WAIT (R387, R389): its first evaluation. -/
def execWait (vd q : Nat) (s : State) : Host.Outcome State Fault Refusal := .next (s.serve vd q 4)

/-- WAIT_REEVALUATE (R389). -/
def execWaitReevaluate (vd q : Nat) (s : State) : Host.Outcome State Fault Refusal :=
  match (s.queue vd q).current with
  | some (p, _) => .next (if p.begun then s.serve vd q 4 else s)
  | none => .next s

/-- WRITE_SIGNAL (R387): the write, and in the next step the signal operation. -/
def execWriteSignal (vd q : Nat) (s : State) : Host.Outcome State Fault Refusal := .next (s.serve vd q 5)

/-- FENCE (R389). -/
def execFencePacket (vd q : Nat) (s : State) : Host.Outcome State Fault Refusal := .next (s.serve vd q 6)

/-- SEQUENCE_END (R356, R387). -/
def execSequenceEnd (vd q : Nat) (s : State) : Host.Outcome State Fault Refusal := .next (s.serve vd q 8)

/-- INDIRECT (R390): the next packet of the buffer is fetched, or a step of it performed. -/
def execIndirect (vd q : Nat) (s : State) : Host.Outcome State Fault Refusal :=
  let s := s.writeStatus vd q
  if !s.serving vd q then .next s
  else
    let k := s.queue vd q
    match k.current with
    | none => .next s
    | some (p, first) =>
      if pType p.words != 7 || (packetCause p.words false).isSome || (pOrdered p.words && p.step == 0 && !first) then .next s
      else match p.subWords with
        | none =>
          let w := s.packetAgent vd q
          match s.packetRead w (pw p.words 1 + 64 * p.sub) 64 with
          | (s, .ok bs) =>
            let ws := (List.range 8).foldl (fun (r : Regs 64) n => r.set n (BitVec.ofNat 64 (word64 bs (8 * n)))) []
            .next (s.onQueue vd q fun k => { k.onPacket p.idx fun p => { p with begun := true, subWords := some ws } with parked := none })
          | (s, .error .hold) => .next s
          | (s, .error (.absent ea gpa)) => .next (s.parkPacket vd q w false ea gpa)
          | (s, .error (.cause c ea)) => .next (s.refusePacket vd q p c ea)
        | some ws => match packetCause ws true with
          | some c => .next (s.refusePacket vd q p c 0)
          | none =>
            let alone := first && p.grids.isEmpty
            if pOrdered ws && p.subStep == 0 && !alone then .next s
            else
              let s' := s.settleStep vd q p (s.packetStep vd q k p.idx ws p.subStep alone) Packet.afterSub
              let ended := (s'.queue vd q).packets.all fun x => x.idx != p.idx || x.sub != p.sub
              .next (if ended && pIntr ws && pType ws != 1 && (s'.queue vd q).state != .error then s'.interruptField vd k.cvec else s')

/-- PACKET_FETCH (R388, R391): a packet whose step comes next and that is malformed is refused; otherwise one more packet is read, at most
sixteen ahead and never beyond an unfinished FENCE. -/
def execPacketFetch (vd q : Nat) (s : State) : Host.Outcome State Fault Refusal :=
  let s := s.writeStatus vd q
  if !s.serving vd q then .next s
  else
    let k := s.queue vd q
    if k.leaving then .next (s.settleQueue vd q) else
    let bad := k.current.bind fun p => (packetCause p.1.words false).map fun c => (p.1, c)
    match bad with
    | some (p, c) => .next (s.refusePacket vd q p c 0)
    | none =>
      if k.w == k.rdidx || decide (16 ≤ (k.packets.filter fun p => !p.begun).length) || k.packets.any (fun p => pType p.words == 6) then
        .next s
      else
        let w := s.packetAgent vd q
        match s.packetRead w (k.rbase + 64 * (k.rdidx.toNat % k.np)) 64 with
        | (s, .ok bs) =>
          let ws := (List.range 8).foldl (fun (r : Regs 64) n => r.set n (BitVec.ofNat 64 (word64 bs (8 * n)))) []
          .next (s.onQueue vd q fun k => { k with
            packets := k.packets ++ [⟨k.rdidx.toNat, ws, 0, false, false, 0, 0, none, []⟩], rdidx := k.rdidx + 1, statDue := true,
            state := .active, parked := none })
        | (s, .error .hold) => .next s
        | (s, .error (.absent ea gpa)) => .next (s.parkPacket vd q w false ea gpa)
        | (s, .error (.cause c ea)) =>
          let s := s.setQueue vd q { (s.queue vd q).fail c k.rdidx 0 with parked := none }
          let s := if c.kind = .F then s.contain vd k.ctx c .packet ea else s
          .next (s.writeStatus vd q)

/-- The event that performs the next step of a queue (R388). -/
def State.queueNext (s : State) (vd q : Nat) : Option Instr :=
  let k := s.queue vd q
  if k.statDue then (if s.queueParked k then none else some (.packetFetch vd q))
  else if !s.serving vd q then none
  else if k.leaving then some (.packetFetch vd q)
  else if (s.endedGrid k).isSome then some (.dispatch vd q)
  else match k.current with
    | none => if k.w != k.rdidx then some (.packetFetch vd q) else none
    | some (p, _) =>
      if (packetCause p.words false).isSome then some (.packetFetch vd q)
      else match pType p.words with
        | 1 => some (.dispatch vd q)
        | 2 => some (.write vd q)
        | 3 => some (.signal vd q)
        | 4 => some (if p.begun then .waitReevaluate vd q else .wait vd q)
        | 5 => some (.writeSignal vd q)
        | 6 => some (.fencePacket vd q)
        | 7 => some (.indirect vd q)
        | _ => some (.sequenceEnd vd q)

/-! ## Grid completion (R270, R333) -/

/-- Every access of a grid's teams is done with, every team has retired and every child counted against it has completed. -/
def State.gridOver (s : State) (n : Nat) (g : Grid) : Bool :=
  decide (g.clusterCount ≤ g.nextCluster) && s.teams.all (fun t => t.2.grid != n) && g.orphans.isEmpty

/-- The 32 bytes of a grid's status block (R270). -/
def State.gridBlock (s : State) (g : Grid) : List (BitVec 8) :=
  toBytes 4 g.ret0 ++ toBytes 4 g.ret1 ++ toBytes 4 g.dropped ++ toBytes 4 g.imprecise ++
  toBytes 8 (g.cause.code + 2 ^ 16 * g.seq) ++ toBytes 8 s.gtime

/-- A grid's entry leaves its pool, its parent's count goes down, which may meet the condition of a JOIN, and grids that wait for it no longer do
(R269, R270, R276). A parent is told of a
child's imprecise causes, or of a status block that could not be written (R276). -/
def State.endGrid (s : State) (n : Nat) : State :=
  let g := s.grid n
  let d := s.die g.die
  let s := s.setDie g.die { d with pool := d.pool.filter (· != n) }
  let s := match g.parent with
    | none => s
    | some t =>
      if (s.teams.find t).isNone then s
      else
        let x := s.team t
        let n := x.jcnt - 1
        let met (y : Group) : Group := match y.wait with
          | some (.join m) => if y.team == t && decide (n ≤ m) then { y with joinMet := some m } else y
          | _ => y
        { s.setTeam t { x with
            jcnt := n, away := x.away.map fun (y : Nat × Group) => (y.1, met y.2),
            childBad := x.childBad ++ (if g.imprecise != 0 || g.statBad.isSome then [BitVec.ofNat 64 g.statAddr] else []) } with
          groups := s.groups.mapVals fun _ y => met y }
  { s with grids := (s.grids.del n).mapVals fun _ x => { x with orphans := x.orphans.filter (· != n) } }

/-- GRID_COMPLETE (R270, R280, R333): the status block is written, the parent told, and the queue's second step, or its error completion, is
left to the packet engine. A grid that a kill has discarded does not complete; one that a die-link failure ended writes its status block though its context is contained. -/
def execGridComplete (grid : Nat) (s : State) : Host.Outcome State Fault Refusal :=
  match s.grids.find grid with
  | none => .next s
  | some g =>
    let failed := g.cause != .none
    if !failed && (!s.gridOver grid g || !s.isActive g.vdev g.ctx || g.statDone) then .next s
    else if s.stillParked g.die g.parked then .next s
    else
      let finish (s : State) (bad : Option Cause) : State :=
        let s := s.setGrid grid { s.grid grid with statDone := true, statBad := bad }
        let s := s.endGrid grid
        match g.queue with
        | none => s
        | some (q, idx) =>
          let c := if failed then g.cause else bad.getD .none
          let k := s.queue g.vdev q
          if k.quiet.contains grid then s.setQueue g.vdev q { k with quiet := k.quiet.filter (· != grid) }
          else if c = .none then s
          else match k.packets.find? fun p => p.idx == idx with
            | some p => s.setQueue g.vdev q (k.fail c (BitVec.ofNat 32 idx) (pTag p.words))
            | none => s
      if g.statAddr = 0 then .next (finish s none)
      else
        let w : Agent := ⟨2 ^ 61 + 2 ^ 20 + grid, .packet, if g.die = 0 then 0 else 4, g.vdev, g.ctx, (s.vdev g.vdev).world⟩
        if s.agentWaits w then .next s
        else match s.agentWrite w g.statAddr (s.gridBlock g) with
          | (s, .ok ()) => .next (finish s none)
          | (s, .error .hold) => .next s
          | (s, .error (.absent ea gpa)) => match s.agentPark w true ea gpa g.parked with
            | none => .next s
            | some (s, q) => .next (s.setGrid grid { s.grid grid with parked := some q })
          | (s, .error (.cause c ea)) =>
            if c.kind = .F then .next (if failed then finish s none else s.contain g.vdev g.ctx c .packet ea)
            else .next (finish (s.report (.context c g.vdev g.ctx .packet g.statAddr)) (some c))

end Sys2Proof.Machine
end

