-- ==== Sys2Proof/Machine/Kill.lean ====
section
/-! DEFINITION. Kill-and-drain (R155, R206, R217, R301, R347, R396, R397, R421), and what follows it: teardown of a context (R382), RESET and
DESTROY of a device (R380). -/

namespace Sys2Proof.Machine

open Sys2Proof

/-! ## Participants (R396)

They are numbered: cores from 0, matrix units from 100, copy channels from 200 and near-bank queues from 300 by core or die, walkers from 400 by
die, the queue slots 500, and the fabric endpoints 600. -/

/-- The teams of a victim. -/
def State.victimTeams (s : State) (v : Victim) : List Nat :=
  (s.teams.filter fun t => victimHits v (s.grid t.2.grid).vdev (s.grid t.2.grid).ctx).map Prod.fst

/-- The queues of a victim that are enabled. -/
def State.victimQueues (s : State) (v : Victim) : List Nat :=
  ((s.vdev v.vdev).queues.filter fun k => victimHits v v.vdev k.2.ctx && k.2.state != .disabled).map Prod.fst

/-- The slots of a victim on a core. -/
def State.victimOn (s : State) (v : Victim) (core : Nat) : List Nat := (s.victimSlots v).filter fun slot => slotCore slot == core

/-- The endpoints bound to a victim (R415). -/
def State.victimEndpoints (s : State) (v : Victim) : List Nat :=
  (s.endpoints.filter fun e => victimHits v e.2.vdev e.2.ctx).map Prod.fst

/-- A request that a port has sent (R414). -/
def State.isCarried (s : State) (id : Nat) : Bool := s.ports.any fun p => p.2.carried.contains id

/-- A write of a victim that has been sent to a peer and waits for its answer (R421). -/
def State.awaitsPeer (s : State) (v : Victim) : Bool :=
  s.flight.any fun f => f.sent && s.isCarried f.id && victimHits v f.vdev f.ctx

/-- A participant holds nothing of the victim that is still to be done with: it acknowledges (R155, R206, R217, R301, R347, R396, R421). -/
def State.acks (s : State) (part : Nat) (v : Victim) : Bool :=
  if part < 64 then
    let slots := s.victimOn v part
    slots.all (fun slot => (s.groups.find slot).all fun g => g.stopped && g.fifo.isEmpty && g.loads.all Load.deferred) &&
    s.flight.all (fun f => f.kind == .store || !slots.contains f.slot) && s.peers.all fun r => !(r.rmw && slots.contains r.slot)
  else if part < 200 then ((s.core (part - 100)).mq.all fun o => !(s.victimTeams v).contains o.team)
  else if part < 300 then (s.victimTeams v).all fun t => (s.team t).core != part - 200 || (s.team t).chans.all fun c => c.2.queue.isEmpty
  else if part < 400 then s.nb.all fun c => stackDie c.stack != part - 300 || !victimHits v c.vdev c.ctx
  else if part < 500 then
    let d := s.die (part - 400)
    d.walks.all (fun w => !victimHits v w.2.vdev w.2.ctx) && d.faults.all fun f => !victimHits v f.2.vdev f.2.ctx
  else if part < 600 then (s.victimQueues v).all fun q => (s.queue v.vdev q).state == .error
  else !s.awaitsPeer v && s.incoming.all fun r => !(s.victimEndpoints v).contains r.ep

/-- The participants that hold a victim's identity. -/
def State.participants (s : State) (v : Victim) : List Nat :=
  let teams := s.victimTeams v
  let cores := (teams.map fun t => (s.team t).core).dedup
  cores ++ cores.map (· + 100) ++ cores.map (· + 200) ++ [300, 301, 400, 401, 500, 600]

/-- The KILL and the DRAIN of a participant. -/
def killOf (v : Victim) (part : Nat) : Instr :=
  if part < 100 then .coreKill part v
  else if part < 200 then .matrixKill (part - 100) v
  else if part < 300 then .casterKill (part - 200) v
  else if part < 400 then .nearbankKill (part - 300) v
  else if part < 500 then .walkerKill (part - 400) v
  else if part < 600 then .qslotKill v
  else .endpointKill v

@[inherit_doc killOf]
def drainOf (v : Victim) (part : Nat) : Instr :=
  if part < 100 then .coreDrain part v
  else if part < 200 then .matrixDrain (part - 100) v
  else if part < 300 then .casterDrain (part - 200) v
  else if part < 400 then .nearbankDrain (part - 300) v
  else if part < 500 then .walkerDrain (part - 400) v
  else if part < 600 then .qslotDrain v
  else .endpointDrain v

/-- The victim's pool entries are discarded, and its teams that have not been placed never are (R280). -/
def State.discardGrids (s : State) (v : Victim) : State :=
  let mine (g : Grid) : Bool := victimHits v g.vdev g.ctx && g.cause == .none
  let ids := (s.grids.filter fun g => mine g.2).map Prod.fst
  { s with
    grids := s.grids.mapVals fun _ g => if mine g then { g with nextCluster := max g.nextCluster g.clusterCount, statDone := true } else g,
    dies := s.dies.mapVals fun _ d => { d with pool := d.pool.filter fun n => !ids.contains n },
    teams := s.teams.keep fun _ t => t.placed || !(victimHits v (s.grid t.grid).vdev (s.grid t.grid).ctx) }

/-- Send KILL and then DRAIN to every participant of a kill (R396 phases 1 and 2). -/
def State.sendKill (s : State) (v : Victim) (parts : List Nat) : State :=
  { s with agenda := parts.map (killOf v) ++ parts.map (drainOf v) ++ s.agenda }

/-- Start kill-and-drain of a victim (R396). -/
def State.startKill (s : State) (v : Victim) (then_ : Nat) (reply : Option Nat) : State :=
  let parts := s.participants v
  let s := s.discardGrids v
  { s.sendKill v parts with kills := s.kills ++ [⟨v, 0, parts, then_, reply⟩] }

/-- Add a victim to a list of those refused. -/
def refuseAlso (l : List Victim) (v : Victim) : List Victim := if l.contains v then l else l ++ [v]

/-! ## Cores (R155) -/

/-- CORE_KILL (R155, R278): issue stops for the victim's groups, the core takes no team of it, and its clock returns to the base. -/
def execCoreKill (core : Nat) (v : Victim) (s : State) : Host.Outcome State Fault Refusal :=
  let mine := s.victimOn v core
  let s := s.stopGroups mine
  let k := s.core core
  .next (s.setCore core { k with refused := refuseAlso k.refused v, lag := if mine.isEmpty then k.lag else 0 })

/-- A group whose slot is drained: results still to come are dropped, FIFO entries and parked accesses are discarded; a read-modify-write
that has been sent is waited for. -/
def Group.drain (g : Group) : Group :=
  { g with
    fifo := [], loads := g.loads.filter fun l => l.deferred && l.got.length != l.accs.length, imprecise := [], pending := none,
    wait := none, stopped := true, replay := none }

/-- CORE_DRAIN (R155). A trap record whose write is parked is discarded with it; another is still written, and delivers no group (R382). -/
def execCoreDrain (core : Nat) (v : Victim) (s : State) : Host.Outcome State Fault Refusal :=
  let slots := s.victimOn v core
  let sent (slot : Nat) : Bool := s.flight.any fun f => f.kind != .store && f.slot == slot
  let after (slot : Nat) (g : Group) : Group :=
    if slots.contains slot then
      let g := g.drain
      if sent slot then g else { g with loads := [] }
    else g
  let s := { s with groups := s.groups.mapVals after }
  let k := s.core core
  let s := s.setCore core { k with
    slotGen := slots.foldl (fun (r : Regs 8) slot => r.set (slotIn slot) (r.get (slotIn slot) + 1)) k.slotGen,
    coal := (k.coal.filter fun r => !(victimHits v r.vdev r.ctx && r.parked.isSome)).map fun r =>
      if victimHits v r.vdev r.ctx then { r with deliver := false } else r }
  let s := { s with
    peers := s.peers.filter fun r => r.rmw || !slots.contains r.slot,
    keys := s.keys.mapVals fun _ x => { x with enders := x.enders.filter fun e => !slots.contains e.1 } }
  let ctxs := ((s.vdev v.vdev).ctxs.filter fun x => victimHits v v.vdev x.1).map Prod.fst
  .next (ctxs.foldl (fun s c => s.freeFaults core v.vdev c) s)

/-! ## Engines (R206, R217, R347) -/

/-- MATRIX_KILL (R206). -/
def execMatrixKill (core : Nat) (v : Victim) (s : State) : Host.Outcome State Fault Refusal :=
  let k := s.core core
  .next (s.setCore core { k with mrefused := refuseAlso k.mrefused v })

/-- MATRIX_DRAIN (R206): operations are discarded, and no barrier is counted. -/
def execMatrixDrain (core : Nat) (v : Victim) (s : State) : Host.Outcome State Fault Refusal :=
  let k := s.core core
  let teams := s.victimTeams v
  let ids := (k.mq.filter fun o => teams.contains o.team).map fun o => opTag o.team o.id
  let s := s.setCore core { k with mq := k.mq.filter fun o => !teams.contains o.team }
  .next { s with peers := s.peers.filter fun r => !ids.contains r.slot }

/-- CASTER_KILL (R217). -/
def execCasterKill (core : Nat) (v : Victim) (s : State) : Host.Outcome State Fault Refusal :=
  let k := s.core core
  .next (s.setCore core { k with crefused := refuseAlso k.crefused v })

/-- CASTER_DRAIN (R217): commands are discarded; bytes written remain, and no barrier is counted. -/
def execCasterDrain (core : Nat) (v : Victim) (s : State) : Host.Outcome State Fault Refusal :=
  let teams := (s.victimTeams v).filter fun t => (s.team t).core == core
  let s := teams.foldl (fun s t =>
    let x := s.team t
    s.setTeam t { x with chans := x.chans.mapVals fun _ c => { c with queue := [] } }) s
  .next { s with peers := s.peers.filter fun r =>
    !(decide (2 ^ 40 ≤ r.slot) && decide (r.slot < 2 ^ 50) && teams.contains ((r.slot - 2 ^ 40) / 16)) }

/-- NEARBANK_KILL (R347). -/
def execNearbankKill (die : Nat) (v : Victim) (s : State) : Host.Outcome State Fault Refusal :=
  let d := s.die die
  .next (s.setDie die { d with nbRefused := refuseAlso d.nbRefused v })

/-- NEARBANK_DRAIN (R347): parts and commands of the victim are discarded, and no barrier is counted. -/
def execNearbankDrain (die : Nat) (v : Victim) (s : State) : Host.Outcome State Fault Refusal :=
  let mine (c : NbCmd) : Bool := stackDie c.stack == die && victimHits v c.vdev c.ctx
  let ids := (s.nb.filter mine).map NbCmd.id
  let teams := s.victimTeams v
  .next { s with
    nb := s.nb.filter fun c => !mine c, drains := s.drains.filter fun d => !(stackDie d.stack == die && teams.contains d.team),
    stackDies := s.stackDies.mapVals fun n k => if stackDie n = die then
      { k with queues := (k.queues.mapVals fun _ q => q.filter fun p => !ids.contains p.cmd).keep fun _ q => !q.isEmpty } else k }

/-! ## Walkers (R301) -/

/-- WALKER_KILL (R301). -/
def execWalkerKill (die : Nat) (v : Victim) (s : State) : Host.Outcome State Fault Refusal :=
  let d := s.die die
  .next (s.setDie die { d with refused := refuseAlso d.refused v })

/-- WALKER_DRAIN (R301): walks are abandoned, fault slots freed, and pager requests whose transfer has not begun are cancelled when none but the
victim's accesses have waited for them. -/
def execWalkerDrain (die : Nat) (v : Victim) (s : State) : Host.Outcome State Fault Refusal :=
  let d := s.die die
  let gone := (d.faults.filter fun f => victimHits v f.2.vdev f.2.ctx).map Prod.fst
  let s := s.setDie die { d with
    walks := d.walks.keep fun _ w => !victimHits v w.vdev w.ctx, faults := d.faults.keep fun _ f => !victimHits v f.vdev f.ctx }
  .next { s with pager := s.pager.filterMap fun r =>
    let ws := r.waiters.filter fun w => !(w.1 == die && gone.contains w.2)
    let asks := r.askers.filter fun a => !victimHits v a.1 a.2
    if ws.isEmpty && asks.isEmpty && !r.askers.isEmpty && !r.filling && r.victim.isNone then none else some { r with waiters := ws, askers := asks } }

/-! ## Queue slots (R396) -/

/-- QSLOT_KILL (R396): no packet of the victim is fetched and no step begins. -/
def execQslotKill (v : Victim) (s : State) : Host.Outcome State Fault Refusal := .next { s with qrefused := refuseAlso s.qrefused v }

/-- QSLOT_DRAIN (R384, R396): a step not yet performed is dropped, and the queues enter ERROR with KILLED. -/
def execQslotDrain (v : Victim) (s : State) : Host.Outcome State Fault Refusal :=
  .next ((s.victimQueues v).foldl (fun s q =>
    let k := s.queue v.vdev q
    (s.setQueue v.vdev q { (k.fail .killed k.failPoint.1 k.failPoint.2).unmap with parked := none, ending := none }).writeStatus v.vdev q) s)

/-! ## Fabric endpoints (R421) -/

/-- ENDPOINT_KILL (R421). -/
def execEndpointKill (v : Victim) (s : State) : Host.Outcome State Fault Refusal := .next { s with erefused := refuseAlso s.erefused v }

/-- Answer a peer's request (R416). -/
def State.answerPeer (s : State) (ep : Nat) (ok : Bool) (data : List (BitVec 8)) : State :=
  { s with nextId := s.nextId + 1, replies := s.replies ++ [⟨s.nextId, ep, ok, data, false⟩] }

/-- ENDPOINT_DRAIN (R421): requests to the victim's endpoints that wait are answered NACK; requests that the victim has sent wait for their
responses, and their results are dropped; those that no port has sent are dropped at once. -/
def execEndpointDrain (v : Victim) (s : State) : Host.Outcome State Fault Refusal :=
  let eps := s.victimEndpoints v
  let s := (s.incoming.filter fun r => eps.contains r.ep).foldl (fun s r => s.answerPeer r.ep false []) s
  .next { s with
    incoming := s.incoming.filter fun r => !eps.contains r.ep,
    flight := s.flight.filter fun f => !(f.sent && !s.isCarried f.id && victimHits v f.vdev f.ctx) }

/-! ## What follows (R380, R382) -/

/-- Lift the refusals of a victim. -/
def State.liftRefusals (s : State) (v : Victim) : State :=
  let without (l : List Victim) : List Victim := l.filter (· != v)
  { s with
    cores := s.cores.mapVals fun _ k => { k with refused := without k.refused, mrefused := without k.mrefused, crefused := without k.crefused },
    dies := s.dies.mapVals fun _ d => { d with refused := without d.refused, nbRefused := without d.nbRefused },
    qrefused := without s.qrefused, erefused := without s.erefused }

/-- Contain a victim with KILLED (R396). A context that has been contained already is not reported again. -/
def State.containVictim (s : State) (v : Victim) (c : Cause) : State :=
  ((s.vdev v.vdev).ctxs.filter fun x => victimHits v v.vdev x.1 && x.2.state != 0).foldl (fun s x =>
    if x.2.state = 2 || (x.2.state = 3 && x.2.cause != .none) then s.fence v.vdev x.1 c else s.containResident v.vdev x.1 c) s

/-- Free everything that a victim's teams hold on the cores, zeroed and without a spill (R148). -/
def State.freeVictim (s : State) (v : Victim) : State :=
  let teams := s.victimTeams v
  let grids := (s.grids.filter fun g => victimHits v g.2.vdev g.2.ctx).map Prod.fst
  let s := teams.foldl State.freeTeam s
  let others (n : Nat) (g : Grid) : Bool := !(grids.contains n && g.cause == .none)
  let s := { s with
    groups := s.groups.keep fun _ g => !teams.contains g.team,
    teams := s.teams.keep fun t _ => !teams.contains t,
    clusters := s.clusters.keep fun _ c => !grids.contains c.grid,
    grids := (s.grids.keep others).mapVals fun _ g =>
      { g with orphans := g.orphans.filter fun n => !grids.contains n },
    nb := s.nb.filter fun c => !teams.contains c.team, drains := s.drains.filter fun d => !teams.contains d.team }
  { s with cores := s.cores.mapVals fun _ k => { k with
      iq := k.iq.keep fun _ q => !grids.contains q.grid, iqAway := k.iqAway.keep fun _ q => !grids.contains q.grid,
      coal := k.coal.filter fun r => !victimHits v r.vdev r.ctx, coalAway := k.coalAway.filter fun r => !victimHits v r.vdev r.ctx } }

/-- A context becomes DISABLED (R382). -/
def Ctx.disable (x : Ctx) : Ctx := { x with enable := false, state := 0, cause := .none, hdlr := 0, written := 0, reruns := 0 }

/-- Teardown of a context after its kill-and-drain (R382). -/
def State.teardown (s : State) (v : Victim) : State :=
  match v.ctx with
  | none => s
  | some c => (s.freeVictim v).setCtx v.vdev c (s.ctx v.vdev c).disable

/-- The lowest slot of a device's pool that is not RETIRED becomes its SAVE slot (R352, R353). -/
def State.chooseSave (s : State) (vd : Nat) : State :=
  match (s.vdev vd).pool.find? fun n => (s.key n).state != .retired with
  | none => s.setVdev vd { s.vdev vd with save := none }
  | some n => (s.setVdev vd { s.vdev vd with save := some n }).openKey n (s.vdev vd).world .save

/-- End every LIVE slot of a device's pool, and its SAVE slot, and the sequences that still drain: no access is left (R353, R357, R380). -/
def State.endKeys (s : State) (vd : Nat) : State :=
  (s.vdev vd).pool.foldl (fun s n =>
    let k := s.key n
    let on := k.state == .live || k.state == .save
    if on || k.draining.isSome then s.setKey n { (if on then k.ended else k) with draining := none, key := 0 } else s) s

/-- RESET after kill-and-drain (R380 steps 2 to 4, R379). -/
def State.resetDevice (s : State) (vd : Nat) : State :=
  let s := s.freeVictim ⟨vd, none⟩
  let s := (s.endKeys vd).chooseSave vd
  let d := s.vdev vd
  let s := s.setVdev vd { d with
    queues := [], ctxs := [], gridCount := 0, eligible := false, state := if d.world != 0 && d.save.isNone then .error else .configured }
  let own : List Nat := List.range (d.prof 0x28 40 32 + d.prof 0x28 56 48)
  own.foldl (fun s n => match s.rangeDie vd n with
    | none => s
    | some die =>
      let x := s.rangeSlot die vd n
      s.setRange die vd n (x.1, 0, x.2.2.1, x.2.2.2)) s

/-- Zero the unkeyed lines of a device's buffers, and free the buffers with their rows (R380, R430). -/
def State.freeBuffer (s : State) (vd buf : Nat) : State :=
  match s.bufs.find buf with
  | none => s
  | some b =>
    if b.kind != 0 then { s with bufs := s.bufs.del buf }
    else
      let lines := (List.range (32 * b.size)).flatMap fun o => s.frameLines buf o
      let wipe (m : List Host.Cell) (p : Place) : List Host.Cell :=
        match p with
        | .dram st spa =>
          let k := s.stack st
          let blk := k.block spa
          if k.keyed spa && blk.keyv && blk.minors.get (spa / 64 % 16) != 0 then m else zeroCells m p.key 64
        | _ => m
      let s := { s with mem := lines.foldl wipe s.mem }
      let rows := (lines.filterMap fun p => match p with
        | .dram st spa => some (st, patKey spa)
        | _ => none).dedup
      let s := rows.foldl (fun s x => if (s.stack x.1).pat.find x.2 == some vd then
        s.setStack x.1 (((s.stack x.1).patset x.2 0xFFF).getD (s.stack x.1)) else s) s
      { s with bufs := s.bufs.del buf }

/-- DESTROY after RESET (R380): the device's resources are released; its meters stay readable. -/
def State.destroyDevice (s : State) (vd : Nat) : State :=
  let s := s.endKeys vd
  let s := ((s.bufs.filter fun b => b.2.owner == vd).map Prod.fst).foldl (fun s b => s.freeBuffer vd b) s
  let d := s.vdev vd
  let remap := (List.range (d.prof 0x20 57 45)).foldl (fun (r : Regs 64) n => r.set (d.prof 0x20 44 32 + n) 0) s.remap
  let s := { s with remap := remap, endpoints := s.endpoints.keep fun _ e => e.vdev != vd }
  s.setVdev vd { VDev.absent with meters := d.meters }

/-- Answer a management command that kill-and-drain carried out (R429). -/
def State.mgmtDone (s : State) (r result cause : Nat) : State :=
  let m := s.mgmt.mbox.getD r Mbox.zero
  let s := { s with mgmt := { s.mgmt with
    mbox := s.mgmt.mbox.put r { m with st := 2, result := result, cause := cause, tagOut := m.tag },
    mctp := if r = 0 then s.mgmt.mctp ++ [m.tag] else s.mgmt.mctp } }
  if r = 0 then s else { s with msix := s.msix ++ [(0, 0)] }

/-- Every participant has acknowledged: the victim is contained, and what was asked for follows (R379, R380, R382, R396). -/
def State.finishKill (s : State) (k : Kill) : State :=
  let s := { s with kills := s.kills.filter (· != k) }
  let s := (s.containVictim k.victim .killed).liftRefusals k.victim
  let s := match k.then_ with
    | 1 => s.teardown k.victim
    | 2 => s.resetDevice k.victim.vdev
    | 3 => (s.resetDevice k.victim.vdev).destroyDevice k.victim.vdev
    | _ => s
  match k.reply with
  | none => s
  | some r => s.mgmtDone r 0 0

/-- KILL_ACK (R396 phase 3). -/
def execKillAck (part : Nat) (v : Victim) (s : State) : Host.Outcome State Fault Refusal :=
  match s.kills.find? fun k => k.victim == v && (k.waiting.contains part || k.waiting.isEmpty) with
  | none => .next s
  | some k =>
    if !s.acks part v then .next s
    else
      let k' := { k with waiting := k.waiting.filter (· != part) }
      if k'.waiting.isEmpty then .next (s.finishKill k)
      else .next { s with kills := s.kills.map fun x => if x = k then k' else x }

/-! ## Resets after a missing acknowledgement (R397) -/

/-- Reset a compute die: its cores hold nothing any more, and every device that had something there is contained. The way map and the base
clock are the Crucible's (R350, R435). -/
def State.resetDie (s : State) (die : Nat) : State :=
  let teams := (s.teams.filter fun t => coreDie t.2.core == die).map Prod.fst
  let vds := (teams.map (fun t => (s.gridOf t).vdev) ++ (s.die die).pool.map fun n => (s.grid n).vdev).dedup
  let s := vds.foldl (fun s vd => s.containVictim ⟨vd, none⟩ .killed) s
  let d := s.die die
  let cores := (List.range 64).filter fun c => coreDie c == die
  let s := { s with
    groups := s.groups.keep fun slot _ => coreDie (slotCore slot) != die,
    teams := s.teams.keep fun _ t => coreDie t.core != die,
    cores := s.cores.mapVals fun c k => if coreDie c = die then { Core.reset with world := k.world, offline := k.offline } else k,
    flight := s.flight.filter fun f => coreDie f.core != die,
    nb := s.nb.filter fun c => coreDie c.core != die, drains := s.drains.filter fun x => stackDie x.stack != die,
    mem := cores.foldl (fun m c => zeroCells m (Place.sram c 0).key (2 ^ 25)) s.mem,
    pager := s.pager.map fun (r : PagerReq) => { r with waiters := r.waiters.filter fun w => w.1 != die } }
  (s.setDie die { Die.reset with ways := d.ways, mhz := d.mhz, ioDown := d.ioDown }).report (.devices 16 vds)

/-- KILL_ACK_TIMEOUT (R397): a participant that has not acknowledged is reset. -/
def execKillAckTimeout (part : Nat) (v : Victim) (s : State) : Host.Outcome State Fault Refusal :=
  match s.kills.find? fun k => k.victim == v && k.waiting.contains part with
  | none => .next s
  | some k =>
    let die := if part < 300 then coreDie (part % 100) else part % 100
    let s :=
      if part < 300 ∨ (400 ≤ part ∧ part < 500) then s.resetDie die
      else if part < 400 then
        let owners := (s.nb.filter fun c => stackDie c.stack == die).map NbCmd.vdev
        let s := ((List.range 8).filter fun n => stackDie n == die).foldl (fun s n =>
          (s.nbClear n 0 2048).setStack n { (s.nbClear n 0 2048).stack n with hung := false }) s
        { s with nb := s.nb.filter fun c => stackDie c.stack != die || c.entered == 0 }.report (.devices 16 owners.dedup)
      else if part < 600 then
        ((s.victimQueues v).foldl (fun s q =>
          let x := s.queue v.vdev q
          s.setQueue v.vdev q { (x.fail .killed x.failPoint.1 x.failPoint.2).unmap with parked := none }) s).report (.devices 16 [v.vdev])
      else
        let eps := s.victimEndpoints v
        { s with
          incoming := s.incoming.filter fun r => !eps.contains r.ep,
          flight := s.flight.filter fun f => !(f.sent && victimHits v f.vdev f.ctx) }.report (.devices 16 [v.vdev])
    let k' := { k with waiting := k.waiting.filter (· != part) }
    if k'.waiting.isEmpty then .next (s.finishKill k)
    else .next { s with kills := s.kills.map fun x => if x = k then k' else x }

/-! ## Contexts (R382) -/

/-- CONTEXT_ENABLE (R382). -/
def execContextEnable (vd ctx : Nat) (s : State) : Host.Outcome State Fault Refusal :=
  let d := s.vdev vd
  let x := s.ctx vd ctx
  if !s.takesWrites vd then .next (s.ignoreWrite vd)
  else if x.state != 0 || decide (d.prof 0 20 16 ≤ ctx) then .next s
  else
    let s := s.invalidate vd ctx
    .next (s.setCtx vd ctx { x with
      enable := true, state := 1, cause := .none, written := 0, hdlr := 0, reruns := 0, epoch := x.epoch + 1, rtlive := x.rtroot,
      ptlive := x.ptroot })

/-- CONTEXT_TEARDOWN (R382): kill-and-drain of the context, during which it is in TEARDOWN; then its state is freed and it is DISABLED. -/
def execContextTeardown (vd ctx : Nat) (s : State) : Host.Outcome State Fault Refusal :=
  let x := s.ctx vd ctx
  if !s.takesWrites vd then .next (s.ignoreWrite vd)
  else if x.state != 1 && x.state != 2 then .next s
  else .next ((s.setCtx vd ctx { x with state := 3, enable := false }).startKill ⟨vd, some ctx⟩ 1 none)

end Sys2Proof.Machine
end

