-- ==== Sys2Proof/Machine/Slices.lean ====
section
/-! DEFINITION. The weighted fair order (R392), token buckets and meters (R393), pre-emption between tenants (R395), the progress monitor
(R154), and the failures of links (R316, R333). -/

namespace Sys2Proof.Machine

open Sys2Proof

/-! ## Fractions (R392) -/

/-- The sum of two fractions. -/
def Frac.add (a b : Frac) : Frac :=
  let n := a.num * b.den + b.num * a.den
  let d := a.den * b.den
  let g := Nat.gcd n.natAbs d
  ⟨n / g, d / g⟩

/-- One fraction is below another. -/
def Frac.lt (a b : Frac) : Bool := decide (a.num * b.den < b.num * a.den)

/-- The larger of two fractions. -/
def Frac.max (a b : Frac) : Frac := if a.lt b then b else a

/-! ## A device's share (R377, R392, R393) -/

/-- SLICE in µs. -/
def VDev.slice (d : VDev) : Nat := let t := d.prof 0x10 31 0; if t = 0 then 1000 else t

/-- WEIGHT, at least 1. -/
def VDev.weight (d : VDev) : Nat := max 1 (d.prof 0 7 0)

/-- `u µs / w` in ms. -/
def VDev.share (d : VDev) (u : Int) : Frac := ⟨u, 1000 * d.weight⟩

/-- The number of cores of a placement set. -/
def VDev.coreCount (d : VDev) : Nat := ((List.range 64).filter (bit d.place)).length

/-- The devices of a placement set, ascending. -/
def State.devicesOf (s : State) (set : Nat) : List Nat :=
  (s.vdevs.filter fun d => d.2.state != .absent && d.2.setKey == set).map Prod.fst

/-- RATE: the tokens added each ms; 0 for no bucket. -/
def VDev.rate (d : VDev) : Nat := d.prof 0x18 31 0

/-- The tokens at which a bucket that ran dry has recovered (R393): min(DEPTH, n × T). -/
def VDev.recovered (d : VDev) : Nat := min (d.prof 0x18 63 32) (d.coreCount * d.slice)

/-- The whole tokens added since a bucket was last brought up to date (R393). -/
def State.gained (s : State) (d : VDev) : Nat := d.rate * (s.gtime - d.bucketAt) / 10 ^ 6

/-- A bucket brought up to now, `spent` tokens being taken out as the others came in, up to DEPTH (R393). -/
def State.fillBucket (s : State) (d : VDev) (spent : Nat) : VDev :=
  { d with
    bucket := min (d.prof 0x18 63 32) (d.bucket + s.gained d - spent),
    bucketAt := d.bucketAt + (s.gained d * 10 ^ 6 + d.rate - 1) / d.rate }

/-- Refill a bucket up to now (R393). One that has run dry stays so until it has recovered. -/
def State.refill (s : State) (vd : Nat) : State :=
  let d := s.vdev vd
  if d.rate = 0 ∨ d.bucket = 0 ∧ (s.fillBucket d 0).bucket < d.recovered then s else s.setVdev vd (s.fillBucket d 0)

/-- Charge a device for `u` µs of its slice (R393). -/
def State.charge (s : State) (vd u : Nat) : State :=
  let d := s.vdev vd
  let n := d.coreCount * u
  let d' := if d.rate = 0 then d else s.fillBucket d n
  s.setVdev vd { d' with meters := d.meters.set 0 (d.meters.get 0 + BitVec.ofNat 64 n) }

/-! ## The slice boundary (R392, R395) -/

/-- Bring a device's eligibility up to date: one that becomes eligible gets a finish tag (R392). -/
def State.updateEligible (s : State) (v : Frac) (vd : Nat) : State :=
  let now := s.eligibleNow vd
  let d := s.vdev vd
  if now && !d.eligible then s.setVdev vd { d with eligible := true, tag := (d.tag.max v).add (d.share d.slice) }
  else if !now && d.eligible then s.setVdev vd { d with eligible := false }
  else s

/-- The eligible device with the smallest finish tag, the lower number on a tie (R392). -/
def State.chooseDevice (s : State) (set : Nat) : Option Nat :=
  ((s.devicesOf set).filter fun vd => (s.vdev vd).eligible).foldl (fun b vd => match b with
    | none => some vd
    | some x => if (s.vdev vd).tag.lt (s.vdev x).tag then some vd else some x) none

/-- Close the slice that a device holds after `u` µs: the charge, the finish tag, and a CONFIGURE that waits for the boundary (R378, R392,
R393). -/
def State.closeSlice (s : State) (vd u : Nat) : State :=
  let s := s.charge vd u
  let d := s.vdev vd
  let tag := if u < d.slice then d.tag.add (d.share ((u : Int) - d.slice)) else d.tag
  let s := s.setVdev vd { d with tag := tag, profile := d.configured.getD d.profile, configured := none }
  let s := s.refill vd
  if s.eligibleNow vd then
    let d := s.vdev vd
    s.setVdev vd { d with tag := d.tag.add (d.share d.slice), eligible := true }
  else s.setVdev vd { s.vdev vd with eligible := false }

/-- The contexts of a device that have teams on a core, HELD or not. -/
def State.contextsOn (s : State) (core vd : Nat) (held : Bool) : List Nat :=
  ((s.teams.filter fun t => t.2.core == core && t.2.placed && t.2.held == held && (s.gridOf t.1).vdev == vd).map
    fun t => (s.gridOf t.1).ctx).dedup

/-- The cores of a set. -/
def State.coresOf (s : State) (vd : Nat) : List Nat := (List.range 64).filter (bit (s.vdev vd).place)

/-- Pre-empt a device on its set (R395). -/
def State.preemptDevice (s : State) (vd : Nat) : List Instr :=
  (s.coresOf vd).flatMap fun c => (s.contextsOn c vd false).map fun x => .preempt c vd x

/-- Bring a device onto its set: worlds change where they differ, and pre-empted contexts resume (R146, R395). -/
def State.bringOn (s : State) (vd : Nat) : List Instr :=
  ((s.coresOf vd).filter fun c => (s.core c).world != (s.vdev vd).world).map (fun c => Instr.worldChange c (s.vdev vd).world) ++
  (s.coresOf vd).flatMap fun c => (s.contextsOn c vd true).map fun x => .resume c vd x

/-- A placement set. -/
def State.set (s : State) (n : Nat) : PlaceSet := s.sets.getD n ⟨⟨0, 1⟩, none, 0⟩

/-- SLICE_END (R392, R393, R395): a slice ends in full, or early because no work remains or the bucket is dry; or an idle set meets a
boundary. The eligible device with the smallest finish tag runs next. -/
def execSliceEnd (set : Nat) (s : State) : Host.Outcome State Fault Refusal :=
  let p := s.set set
  let (s, was) := match p.running with
    | none => (s, none)
    | some vd =>
      let full := s.eligibleNow vd
      let t := (s.vdev vd).slice
      let s := if full then { s with gtime := max s.gtime (p.began + 1000 * t) } else s
      (s.closeSlice vd (if full then t else min t ((s.gtime - p.began) / 1000)), some vd)
  let s := (s.devicesOf set).foldl (fun s vd => (s.refill vd).updateEligible p.v vd) s
  let s := match was with
    | none => s
    | some vd => (s.coresOf vd).foldl State.compact s
  match s.chooseDevice set with
  | none =>
    let s := { s with sets := s.sets.put set { p with running := none } }
    .next (match was with
      | none => s
      | some vd => { s with agenda := s.preemptDevice vd ++ s.agenda })
  | some vd =>
    let s := { s with sets := s.sets.put set { v := (s.vdev vd).tag, running := some vd, began := s.gtime } }
    if was = some vd then .next s
    else .next { s with agenda := (match was with
      | none => []
      | some x => s.preemptDevice x) ++ s.bringOn vd ++ s.agenda }

/-- The set stands at a boundary: its slice is over, or it is idle and a device is eligible (R392). -/
def State.sliceOver (s : State) (set : Nat) : Bool :=
  let p := s.set set
  match p.running with
  | none => (s.devicesOf set).any s.eligibleNow
  | some vd => !s.eligibleNow vd || decide (p.began + 1000 * (s.vdev vd).slice ≤ s.gtime)

/-- BUCKET_EMPTY (R393): the bucket is 0; the slice ends at once and the device's queues are unmapped. -/
def execBucketEmpty (vd : Nat) (s : State) : Host.Outcome State Fault Refusal :=
  let d := s.vdev vd
  if d.prof 0x18 31 0 = 0 ∨ d.state = .absent then .next s
  else
    let s := s.setVdev vd { d with bucket := 0, bucketAt := s.gtime, queues := d.queues.mapVals fun _ k => k.unmap }
    .next (if s.holdsSlice vd then { s with agenda := Instr.sliceEnd d.setKey :: s.agenda } else s)

/-- BUCKET_RECOVER (R393): the bucket holds min(DEPTH, n × T) tokens again, and the device may be eligible. -/
def execBucketRecover (vd : Nat) (s : State) : Host.Outcome State Fault Refusal :=
  let d := s.vdev vd
  if d.prof 0x18 31 0 = 0 ∨ d.state = .absent then .next s
  else
    .next ((s.setVdev vd { d with bucket := max d.bucket d.recovered, bucketAt := s.gtime }).updateEligible (s.set d.setKey).v vd)

/-! ## The progress monitor, and accesses without a response (R154, R241, R414) -/

/-- PROGRESS_HANG (R154): a context with resident groups made no progress for HANGT. -/
def execProgressHang (vd ctx : Nat) (s : State) : Host.Outcome State Fault Refusal :=
  let resident := s.groups.any fun g => s.owner g.2 == (vd, ctx) && !g.2.preempted
  if resident && (s.ctx vd ctx).state == 1 && (s.ctx vd ctx).hangt != 0xFFFFFF then .next (s.containResident vd ctx .hang) else .next s

/-- A location in another core's slice. -/
def Loc.remote (l : Loc) (core : Nat) : Bool :=
  match l.place with
  | .sram c _ => c != core
  | _ => false

/-- A group has an operation at another rank's slice under way: a load, or the wait for a phase of a barrier there. -/
def Group.atRemote (g : Group) (core : Nat) : Bool :=
  (g.loads.any fun l => l.locs.any fun x => x.remote core) || match g.wait with
  | some (.barrier key _) => key / 2 ^ 25 != core
  | _ => false

/-- REMOTE_TIMEOUT (R241): an access to another rank's slice, an operation on a cluster barrier or a multicast has had no response. -/
def execRemoteTimeout (vd ctx : Nat) (s : State) : Host.Outcome State Fault Refusal :=
  let waits := s.flight.any (fun f => f.vdev == vd && f.ctx == ctx && f.parts.any fun p => p.2.2.remote f.core) ||
    (s.groups.any fun g => s.owner g.2 == (vd, ctx) && g.2.atRemote (slotCore g.1)) ||
    s.teams.any fun t => ((s.gridOf t.1).vdev, (s.gridOf t.1).ctx) == (vd, ctx) &&
      t.2.chans.any fun c => c.2.queue.head?.any fun x => x.kind == .mcast
  if waits && (s.ctx vd ctx).state == 1 then .next (s.containResident vd ctx .remoteUnreachable) else .next s

/-! ## Links (R315, R316, R433) -/

/-- A link. -/
def State.link (s : State) (n : Nat) : Link := s.links.getD n Link.up

/-- Set a link. -/
def State.setLink (s : State) (n : Nat) (l : Link) : State := { s with links := s.links.put n l }

/-- A link has resent: its count is reported when it passes the threshold that the Crucible sets (R12). -/
def State.countResend (s : State) (link : Nat) (l : Link) : State :=
  let n := l.resends + 1
  let s := s.setLink link { l with fails := l.fails + 1, resends := n }
  if n = s.mgmt.linkLimit + 1 then s.report (.die 6 link n) else s

/-- ROW_LINK_FLIT (R11, R12, R316): a flit with a bad CRC is resent, which is counted; a flit whose resend has failed sixteen times in succession
makes the link retrain. -/
def execRowLinkFlit (link : Nat) (good : Bool) (s : State) : Host.Outcome State Fault Refusal :=
  let l := s.link link
  if l.retraining || l.retired then .next s
  else if good then .next (s.setLink link { l with fails := 0 })
  else if l.fails < 16 then .next (s.countResend link l)
  else .next ((s.setLink link { l with fails := 0, retraining := true }).report (.die 6 link l.resends))

/-- A grid that has not completed has teams, resident or retired, on both dies (R333). -/
def State.gridSpans (s : State) (n : Nat) (g : Grid) : Bool :=
  let on (d : Nat) : Bool := (s.teams.any fun t => t.2.grid == n && t.2.placed && coreDie t.2.core == d) || (if d = 0 then g.ret0 != 0 else g.ret1 != 0)
  on 0 && on 1

/-- The contexts of a list of grids. -/
def gridContexts (gs : Table Grid) : List (Nat × Nat) := (gs.map fun g => (g.2.vdev, g.2.ctx)).dedup

/-- Contain contexts with LINK_DOWN and fence their teams; the status blocks of their grids are written with that cause (R333). -/
def State.linkDown (s : State) (cs : List (Nat × Nat)) : State :=
  cs.foldl (fun s c =>
    let ids := (s.grids.filter fun g => g.2.vdev == c.1 && g.2.ctx == c.2 && !g.2.statDone).map Prod.fst
    let s := { s with grids := s.grids.mapVals fun n g => if ids.contains n then { g with cause := .linkDown } else g }
    let s := (s.containResident c.1 c.2 .linkDown).startKill ⟨c.1, some c.2⟩ 0 none
    { s with agenda := s.agenda ++ ids.map Instr.gridComplete }) s

/-- The die boundary goes DOWN (R316, R333): spanning contexts are contained, confined ones go on. -/
def State.boundaryGoesDown (s : State) : State :=
  let spans := gridContexts (s.grids.keep fun n g => !g.statDone && s.gridSpans n g)
  { s with boundaryDown := true, boundaryHeld := true }.linkDown spans

/-- IO_LINK_CUT (R316, R333): a compute die is cut off; every context with a team on it is contained. -/
def State.cutDie (s : State) (die : Nat) : State :=
  let cs := ((s.teams.filter fun t => t.2.placed && coreDie t.2.core == die).map fun t =>
    ((s.gridOf t.1).vdev, (s.gridOf t.1).ctx)).dedup
  (({ s.setDie die { s.die die with ioDown := true } with links := s.links.put (8 + die) { s.link (8 + die) with retraining := false, retired := true } }).report
    (.die 7 (8 + die) (s.link (8 + die)).resends)).linkDown cs

@[inherit_doc State.cutDie]
def execIoLinkCut (die : Nat) (s : State) : Host.Outcome State Fault Refusal :=
  if (s.die die).ioDown then .next s else .next (s.cutDie die)

/-- LINK_RETRAIN_TIMEOUT (R316): the link is retired; with the last row link the boundary goes DOWN, and a die link cuts its die off. -/
def execLinkRetrainTimeout (link : Nat) (s : State) : Host.Outcome State Fault Refusal :=
  let l := s.link link
  if !l.retraining then .next s
  else if 8 ≤ link then .next (s.cutDie (link - 8))
  else
    let s := (s.setLink link { l with retraining := false, retired := true }).report (.die 7 link l.resends)
    .next (if (List.range 8).all fun n => (s.link n).retired then s.boundaryGoesDown else s)

/-- LINK_RETRAIN_DONE (R316, R430): a link that retrains carries traffic again, and so does a retired one that has been trained anew. -/
def execLinkRetrainDone (link : Nat) (s : State) : Host.Outcome State Fault Refusal :=
  let l := s.link link
  if !l.retraining && !l.retired then .next s
  else
    let s := s.setLink link { l with fails := 0, retraining := false, retired := false }
    if 8 ≤ link then .next (s.setDie (link - 8) { s.die (link - 8) with ioDown := false })
    else .next { s with boundaryDown := false }

/-- ROW_LINK_RECAL (R433): traffic waits while the link recalibrates; nothing else changes. -/
def execRowLinkRecal (link : Nat) (s : State) : Host.Outcome State Fault Refusal :=
  let _ := link
  .next s

end Sys2Proof.Machine
end

