-- ==== Sys2Proof/Machine/Mgmt.lean ====
section
/-! DEFINITION. The management interface: the lock, feature negotiation, power, mailboxes (R425 to R431, R435), the lifecycle of virtual devices
(R378 to R380), and the fabric's tables (R412 to R415, R430). -/

namespace Sys2Proof.Machine

open Sys2Proof

/-! ## Mailboxes (R428, R429) -/

/-- A requester's mailbox. -/
def State.mbox (s : State) (r : Nat) : Mbox := s.mgmt.mbox.getD r Mbox.zero

/-- Set a mailbox. -/
def State.setMbox (s : State) (r : Nat) (m : Mbox) : State := { s with mgmt := { s.mgmt with mbox := s.mgmt.mbox.put r m } }

/-- An operand. -/
def Mbox.arg (m : Mbox) (n : Nat) : Nat := (m.args.get n).toNat

/-- Bytes of a bulk window. -/
def Mbox.bytes (m : Mbox) (off n : Nat) : List (BitVec 8) := (List.range n).map fun i => m.bulk.get (off + i)

/-- A requester holds the lock (R427). -/
def State.holdsLock (s : State) (r : Nat) : Bool := s.mgmt.held && s.mgmt.owner == r

/-- How a command ends: with OK, results and bulk output; with another result; later, after events that it waits for; or with the kill-and-drain
that it has started. -/
inductive MAns where
  | give (s : State) (res : List Nat) (bulk : List (BitVec 8))
  | no (s : State) (result cause : Nat)
  | later (s : State) (deps : List Instr)
  | killing (s : State)

/-- OK. -/
def MAns.ok (s : State) : MAns := .give s [] []

/-- A command that went on has ended. -/
def State.unpend (s : State) (r cmd : Nat) : State := { s with mgmt := { s.mgmt with pending := s.mgmt.pending.filter (· != (r, cmd)) } }

/-- Carry out a command's end (R429): results and bulk output are written before STATE becomes DONE. -/
def settleCommand (r cmd : Nat) : MAns → Host.Outcome State Fault Refusal
  | .give s res bulk =>
    let m := s.mbox r
    let s := s.setMbox r { m with
      res := ((List.range res.length).zip res).foldl (fun t x => t.set x.1 (BitVec.ofNat 64 x.2)) m.res,
      bulk := ((List.range bulk.length).zip bulk).foldl (fun t x => t.set x.1 x.2) m.bulk }
    .next ((s.unpend r cmd).mgmtDone r 0 0)
  | .no s result cause => .next ((s.unpend r cmd).mgmtDone r result cause)
  | .later s deps =>
    let s := s.setMbox r { s.mbox r with st := 1 }
    .next { s with agenda := deps ++ s.agenda, mgmt := { s.mgmt with pending := (s.unpend r cmd).mgmt.pending ++ [(r, cmd)] } }
  | .killing s => .next (s.setMbox r { s.mbox r with st := 1 })

/-- A mailbox command (R427, R429): one that goes on, or one that a DOORBELL submits. It is ignored and counted while the mailbox is BUSY, and before
BOOT; the
lock, recovery (R424) and the features it needs (R425) are checked first. -/
def State.command (s : State) (r cmd : Nat) (feature : Option Nat) (f : Mbox → State → MAns) : Host.Outcome State Fault Refusal :=
  let m := s.mbox r
  if 2 ≤ r then .next s
  else if s.mgmt.pending.contains (r, cmd) then settleCommand r cmd (f m s)
  else if m.st = 1 || !s.mgmt.booted then .next (s.setMbox r { m with ignored := m.ignored + 1 })
  else if m.cmd ≠ cmd then .next s
  else if !s.holdsLock r || (s.mgmt.recovery && cmd != 0x38) then .next (s.mgmtDone r 2 0)
  else if feature.any fun n => !s.feature n then .next (s.mgmtDone r 4 0)
  else settleCommand r cmd (f m s)

/-- The commands that are defined (R430). -/
def definedCommands : List Nat :=
  [1, 2, 3, 4, 5, 6, 7, 8, 9, 0x10, 0x11, 0x18, 0x19, 0x20, 0x21, 0x22, 0x23, 0x24, 0x28, 0x30, 0x31, 0x32, 0x33, 0x38, 0x39, 0x3A, 0x40]

/-- UNDEFINED_COMMAND (R429). -/
def execUndefinedCommand (r : Nat) (s : State) : Host.Outcome State Fault Refusal :=
  if definedCommands.contains (s.mbox r).cmd then .next s
  else s.command r (s.mbox r).cmd none fun _ s => .no s 1 0

/-- The virtual device that ARG0 names: 1 to 1,024. -/
def Mbox.device (m : Mbox) : Option Nat := if 1 ≤ m.arg 0 ∧ m.arg 0 ≤ 1024 then some (m.arg 0) else none

/-- A command on a virtual device. -/
def onDevice (f : Nat → Mbox → State → MAns) (m : Mbox) (s : State) : MAns :=
  match m.device with
  | none => .no s 1 0
  | some vd => f vd m s

/-! ## The lock (R426, R427) -/

/-- Record the result of a requester's own last write. -/
def Mgmt.last (m : Mgmt) (r x : Nat) : Mgmt := if r = 0 then { m with last0 := x } else { m with last1 := x }

/-- ACQUIRE (R427). -/
def execAcquire (r : Nat) (s : State) : Host.Outcome State Fault Refusal :=
  if 2 ≤ r then .next s
  else if s.mgmt.held then .next { s with mgmt := s.mgmt.last r 2 }
  else .next { s with mgmt := { s.mgmt.last r 1 with held := true, owner := r, lease := 2000 } }

/-- RENEW (R427). -/
def execRenew (r : Nat) (s : State) : Host.Outcome State Fault Refusal :=
  if 2 ≤ r then .next s
  else if !s.holdsLock r then .next { s with mgmt := s.mgmt.last r 2 }
  else .next { s with mgmt := { s.mgmt.last r 1 with lease := 2000 } }

/-- The lock is freed. -/
def Mgmt.unlocked (m : Mgmt) : Mgmt := { m with held := false, owner := 0, lease := 0 }

/-- RELEASE (R427). -/
def execRelease (r : Nat) (s : State) : Host.Outcome State Fault Refusal :=
  if 2 ≤ r then .next s
  else if !s.holdsLock r then .next { s with mgmt := s.mgmt.last r 2 }
  else .next { s with mgmt := (s.mgmt.last r 1).unlocked }

/-- LEASE_EXPIRY (R427). -/
def execLeaseExpiry (s : State) : Host.Outcome State Fault Refusal := .next { s with mgmt := s.mgmt.unlocked }

/-! ## Features and power (R425, R431, R435) -/

/-- Function 0 is ready once features are locked and the backing grant is closed (R424, R431). -/
def State.settleFunction0 (s : State) : State :=
  if s.mgmt.featLocked && s.mgmt.grantClosed then s.setVdev 0 { s.vdev 0 with state := .running } else s

/-- The features that this revision supports (R425). -/
def featSup : BitVec 256 := 0x7F

/-- FEATLOCK (R425): written by the lock holder, once. -/
def execFeatlock (s : State) : Host.Outcome State Fault Refusal :=
  if !s.mgmt.held || s.mgmt.featLocked then .next s
  else
    let s := { s with mgmt := { s.mgmt with featEn := featSup &&& s.mgmt.featReq, featLocked := true } }
    .next ((if s.feature 5 then s else { s with ports := s.ports.mapVals fun _ _ => Port.down }).settleFunction0)

/-- POWERCAP_WRITE (R431). -/
def execPowercapWrite (r w : Nat) (s : State) : Host.Outcome State Fault Refusal :=
  if s.holdsLock r && decide (1200 ≤ w) && decide (w ≤ 2800) then .next { s with mgmt := { s.mgmt with cap := w } } else .next s

/-- A base clock (R435): within 1,200 to 2,100 MHz in steps of 25. Which one the power manager chooses is open (DESIGN CHOICE: log 7). -/
def State.drawClock (s : State) (die : Nat) : State :=
  let (x, s) := s.draw
  s.setDie die { s.die die with mhz := 1200 + 25 * (x % 37) }

/-- POWER_SAMPLE (R428, R431, R435): POWER is updated, and the power manager sets the base clocks. -/
def execPowerSample (power temp : Nat) (s : State) : Host.Outcome State Fault Refusal :=
  .next (({ s with mgmt := { s.mgmt with power := power % 4096, temp := temp % 4096 } }.drawClock 0).drawClock 1)

/-! ## Profiles (R377, R378) -/

/-- The devices other than one that are not ABSENT. -/
def State.others (s : State) (vd : Nat) : List VDev :=
  (s.vdevs.filter fun x => x.1 != vd && x.1 != 0 && x.2.state != .absent).map Prod.snd

/-- Two ranges meet. -/
def rangesMeet (a n b m : Nat) : Bool := n != 0 && m != 0 && decide (a < b + m) && decide (b < a + n)

/-- Two placement sets are neither disjoint nor equal. -/
def placesClash (a b : Nat) : Bool := a != b && (List.range 64).any fun c => bit a c && bit b c

/-- Every field of a profile is within its range, and reserved bits are 0 (R377). -/
def VDev.fieldsOk (d : VDev) : Bool :=
  let w (n : Nat) : Nat := d.prof (8 * n) 63 0
  let between (a x b : Nat) : Bool := decide (a ≤ x) && decide (x ≤ b)
  between 1 (d.prof 0 7 0) 255 && bits (w 0) 15 10 == 0 && between 1 (d.prof 0 20 16) 16 && between 1 (d.prof 0 27 21) 64 && bits (w 0) 63 28 == 0 &&
  w 1 != 0 && (bits (w 2) 31 0 == 0 || between 50 (bits (w 2) 31 0) 100000) && (bits (w 2) 63 32 == 0 || between 20 (bits (w 2) 63 32) 10000) &&
  decide (bits (w 4) 28 14 ≤ 16384) && bits (w 4) 31 29 == 0 && decide (bits (w 4) 57 45 ≤ 2048) && bits (w 4) 63 58 == 0 &&
  decide (bits (w 4) 13 0 + bits (w 4) 28 14 ≤ 16384) && decide (bits (w 4) 44 32 + bits (w 4) 57 45 ≤ 8192) &&
  decide (bits (w 5) 12 0 ≤ 4096) && bits (w 5) 15 13 == 0 && decide (bits (w 5) 28 16 ≤ 4096) && bits (w 5) 31 29 == 0 &&
  bits (w 5) 47 41 == 0 && bits (w 5) 63 57 == 0 && decide (bits (w 5) 40 32 + bits (w 5) 56 48 ≤ 256) &&
  bits (w 7) 63 16 == 0 && (List.range 8).all fun n => w (8 + n) == 0

/-- A protected world that no device has, the lowest (R349). -/
def State.freeWorld (s : State) (vd : Nat) : Option Nat :=
  ((List.range 1023).map (· + 1)).find? fun w => (s.others vd).all fun e => e.world != w

/-- Device memory that S2MAP has mapped from a device's allotment, in 2 MiB units (R430). -/
def State.mappedUnits (s : State) (vd : Nat) : Nat :=
  s.bufs.foldl (fun n b => if b.2.owner == vd && b.2.kind == 0 then n + b.2.size else n) 0

/-- The conditions of R378 on a profile, but for those of a CONFIGURE and the guard rule. -/
def State.profileOk (s : State) (vd : Nat) (d : VDev) : Bool :=
  let es := s.others vd
  d.fieldsOk && (s.feature 2 || !bit (d.prof 0 63 0) 8) && (s.feature 3 || !bit (d.prof 0 63 0) 9) && (s.feature 4 || d.prof 0x30 63 32 == 0) &&
  es.all (fun e => !placesClash d.place e.place &&
    !rangesMeet (d.prof 0x20 13 0) (d.prof 0x20 28 14) (e.prof 0x20 13 0) (e.prof 0x20 28 14) &&
    !rangesMeet (d.prof 0x20 44 32) (d.prof 0x20 57 45) (e.prof 0x20 44 32) (e.prof 0x20 57 45)) &&
  (!bit (d.prof 0 63 0) 8 || ((d.pool.any fun n => (s.key n).state != .retired) && (s.freeWorld vd).isSome)) &&
  decide (es.foldl (fun n e => n + e.poolQuota 0) (d.poolQuota 0) ≤ 4096) && decide (es.foldl (fun n e => n + e.poolQuota 1) (d.poolQuota 1) ≤ 4096) &&
  decide (es.foldl (fun n e => n + e.prof 0x28 40 32) (d.prof 0x28 40 32) ≤ 256) &&
  decide (es.foldl (fun n e => n + e.prof 0x28 56 48) (d.prof 0x28 56 48) ≤ 256)

/-- The pairs of a stack and a channel, `32 stack + channel`, that a device's profiles reach; all of them when it has no profile that is set
(DESIGN CHOICE: log 14). -/
def State.pairsOf (s : State) (d : VDev) : List Nat :=
  let ps := ((List.range 16).filter (bit (d.prof 0x38 15 0))).map fun p => s.profs.getD p ⟨0, 0, 0, 0⟩
  let on := (List.range 256).filter fun k => ps.any fun p => p.stks.getLsbD (k / 32) && p.channels.getLsbD (k % 32)
  if on.isEmpty then List.range 256 else on

/-- The rows of each channel that an allotment takes when it is spread evenly (DESIGN CHOICE: log 14). -/
def State.rowsFor (s : State) (d : VDev) : Nat :=
  let n := (s.pairsOf d).length
  (d.prof 0x30 31 0 * 16 + n - 1) / n

/-- An allotment can be placed under the guard rule beside those of other devices (R331, R378; DESIGN CHOICE: log 14). -/
def State.allotFits (s : State) (vd : Nat) (d : VDev) : Bool :=
  let near := (s.others vd).filter fun e => e.prof 0x30 31 0 != 0 && (s.pairsOf e).any fun k => (s.pairsOf d).contains k
  d.prof 0x30 31 0 == 0 || decide (near.foldl (fun n e => n + s.rowsFor e + 2) (s.rowsFor d) ≤ 16384)

/-- Give the slots of a device's pool to it (R353). -/
def State.claimPool (s : State) (vd : Nat) : State := (s.vdev vd).pool.foldl (fun s n => s.setKey n { s.key n with owner := vd }) s

/-- Set or clear the remap entries of a device (R394). -/
def State.setRemap (s : State) (vd : Nat) (on : Bool) : State :=
  let d := s.vdev vd
  { s with remap := (List.range (d.prof 0x20 57 45)).foldl (fun (t : Regs 64) n =>
      t.set (d.prof 0x20 44 32 + n) (if on then BitVec.ofNat 64 (1 + 2 * vd + 2 ^ 12 * n) else 0)) s.remap }

/-- The world of a device under a profile (R349): the one that it has, if it goes on being confidential. -/
def State.worldFor (s : State) (vd : Nat) (d : VDev) : Nat :=
  if !bit (d.prof 0 63 0) 8 then 0 else if d.world != 0 then d.world else (s.freeWorld vd).getD 0

/-- The profile in the bulk window. -/
def Mbox.profile (m : Mbox) : BitVec 1024 := BitVec.ofNat 1024 (ofBytes (m.bytes 0 128))

/-- The devices that may use an interleave profile (R377). -/
def State.usersOf (s : State) (p : Nat) : List Nat := (s.vdevs.filter fun d => d.2.state != .absent && bit (d.2.prof 0x38 15 0) p).map Prod.fst

/-- Two profiles belong to different trust domains: one device may use the first and another the second. -/
def State.apart (s : State) (p q : Nat) : Bool := (s.usersOf p).any fun a => (s.usersOf q).any fun b => a != b

/-- The Crucible assigns the ways of the memory-side cache so that profiles of different trust domains share none (R323): a way that two of them
name goes to one that a RUNNING or STOPPED device may use, and of two such to the lower-numbered (DESIGN CHOICE: log 71). -/
def State.partWays (s : State) : State :=
  let rank (p : Nat) : Nat := if (s.usersOf p).any fun v => (s.vdev v).state == .running || (s.vdev v).state == .stopped then p else 16 + p
  { s with profs := s.profs.mapVals fun p v => { v with
      mscWays := v.mscWays &&& ~~~ (s.profs.foldl (fun m x => if rank x.1 < rank p && s.apart x.1 p then m ||| x.2.mscWays else m) 0) } }

/-- Set up a device under a profile (R379). -/
def State.setUp (s : State) (vd : Nat) (d : VDev) (st : VState) : State :=
  let s := s.setVdev vd { d with state := st, world := s.worldFor vd d }
  (((s.claimPool vd).chooseSave vd).setRemap vd true).partWays

/-- A device whose allotment breaks the guard rule (R331, R378): it enters ERROR. -/
def State.guardFail (s : State) (vd : Nat) : MAns := .no (s.guardRow vd) 1 Cause.guardRow.code

/-- CREATE (R378, R379). -/
def execCreate (r : Nat) (s : State) : Host.Outcome State Fault Refusal :=
  s.command r 1 none <| onDevice fun vd m s =>
    let d := { VDev.absent with profile := m.profile, bucketAt := s.gtime }
    if !(s.mgmt.featLocked && s.mgmt.grantClosed && (s.mgmt.running.find 3).isSome) || (s.vdev vd).state != .absent then .no s 2 0
    else if !s.profileOk vd d then .no s 1 0
    else if !s.allotFits vd d then (s.setUp vd d .error).guardFail vd
    else .ok (s.setUp vd d .configured)

/-- Two profiles agree but for the fields that a RUNNING device may change (R378). -/
def sameFixed (a b : VDev) : Bool :=
  let fixed (d : VDev) : List Nat :=
    [d.prof 0 8 8, d.prof 0 63 10, d.prof 8 63 0, d.prof 0x20 63 0, d.prof 0x28 63 0, d.prof 0x30 63 0, d.prof 0x38 63 0]
  fixed a == fixed b

/-- Two profiles agree in the partition layout (R398). -/
def sameLayout (a b : VDev) : Bool :=
  let fixed (d : VDev) : List Nat := [d.prof 8 63 0, d.prof 0x20 63 0, d.prof 0x28 63 0]
  fixed a == fixed b

/-- CONFIGURE (R378, R379, R398). -/
def execConfigure (r : Nat) (s : State) : Host.Outcome State Fault Refusal :=
  s.command r 2 none <| onDevice fun vd m s =>
    let old := s.vdev vd
    let d := { old with profile := m.profile }
    if old.state != .configured && old.state != .stopped && old.state != .running then .no s 2 0
    else if !s.profileOk vd d || decide (d.prof 0x30 31 0 < s.mappedUnits vd) then .no s 1 0
    else if old.state == .running then
      if sameFixed d old then .ok (s.setVdev vd { old with configured := some m.profile }) else .no s 2 0
    else if old.state == .stopped && !sameLayout d old then .no s 2 0
    else if !s.allotFits vd d then (s.setVdev vd { d with state := .error }).guardFail vd
    else if sameLayout d old then .ok (s.setVdev vd { d with world := s.worldFor vd d })
    else
      let s := (s.endKeys vd).setRemap vd false
      .ok (s.setUp vd d .configured)

/-! ## The lifecycle (R379, R380) -/

/-- START. -/
def execStart (r : Nat) (s : State) : Host.Outcome State Fault Refusal :=
  s.command r 3 none <| onDevice fun vd _ s =>
    let d := s.vdev vd
    if d.state = .configured ∨ d.state = .stopped then .ok (s.setVdev vd { d with state := .running }) else .no s 2 0

/-- STOP: every context is pre-empted, and the queues give up their slots. -/
def execStop (r : Nat) (s : State) : Host.Outcome State Fault Refusal :=
  s.command r 4 none <| onDevice fun vd _ s =>
    let d := s.vdev vd
    if d.state = .stopped ∧ s.mgmt.pending.contains (r, 4) then
      match s.preemptDevice vd with
      | [] => .ok s
      | es => .later s es
    else if d.state ≠ .running then .no s 2 0
    else
      let s := s.setVdev vd { d with state := .stopped, queues := d.queues.mapVals fun _ k => k.unmap }
      .later s (s.preemptDevice vd)

/-- Begin the RESET of a device, or its DESTROY. -/
def State.beginReset (s : State) (vd then_ : Nat) (reply : Option Nat) : State :=
  (s.setVdev vd { s.vdev vd with state := .resetting }).startKill ⟨vd, none⟩ then_ reply

/-- RESET (R380). -/
def execReset (r : Nat) (s : State) : Host.Outcome State Fault Refusal :=
  s.command r 5 none <| onDevice fun vd _ s =>
    if (s.vdev vd).state = .absent then .no s 2 0 else .killing (s.beginReset vd 2 (some r))

/-- DESTROY (R380). -/
def execDestroy (r : Nat) (s : State) : Host.Outcome State Fault Refusal :=
  s.command r 6 none <| onDevice fun vd _ s =>
    let d := s.vdev vd
    if d.state = .configured ∨ d.state = .stopped ∨ d.state = .error then .killing (s.beginReset vd 3 (some r)) else .no s 2 0

/-- FUNCTION_LEVEL_RESET (R379): as RESET. -/
def execFunctionLevelReset (vd : Nat) (s : State) : Host.Outcome State Fault Refusal :=
  if vd = 0 ∨ 1024 < vd ∨ (s.vdev vd).state = .absent then .next s else .next (s.beginReset vd 2 none)

/-- PROFILE_READ. -/
def execProfileRead (r : Nat) (s : State) : Host.Outcome State Fault Refusal :=
  s.command r 7 none <| onDevice fun vd _ s => .give s [] (toBytes 128 (s.vdev vd).profile.toNat)

/-- METER_READ (R393). -/
def execMeterRead (r : Nat) (s : State) : Host.Outcome State Fault Refusal :=
  s.command r 8 none <| onDevice fun vd _ s =>
    .give s ((List.range 5).map fun n => ((s.vdev vd).meters.get n).toNat) []

/-- CTX_KILL (R396). -/
def execCtxKill (r : Nat) (s : State) : Host.Outcome State Fault Refusal :=
  s.command r 9 none <| onDevice fun vd m s =>
    if 16 ≤ m.arg 1 then .no s 1 0 else .killing (s.startKill ⟨vd, some (m.arg 1)⟩ 0 (some r))

/-! ## The backing grant (R332, R431) -/

/-- A range of the bulk window: its address, its size, and the bits that must be 0. -/
def Mbox.range (m : Mbox) (n : Nat) : Nat × Nat × Nat :=
  (ofBytes (m.bytes (16 * n) 8), ofBytes (m.bytes (16 * n + 8) 4), ofBytes (m.bytes (16 * n + 12) 4))

/-- BACKING_GRANT (R431). -/
def execBackingGrant (r : Nat) (s : State) : Host.Outcome State Fault Refusal :=
  s.command r 0x28 none fun m s =>
    let count := bits (m.arg 0) 15 8
    let last := bit (m.arg 0) 16
    let rs : List (Nat × Nat × Nat) := (List.range count).map m.range
    let sizes : Nat := (s.mgmt.ranges.map Prod.snd).sum + (rs.map fun x => x.2.1).sum
    let bad := decide (2 ^ 17 ≤ m.arg 0) || s.mgmt.grantClosed || bits (m.arg 0) 7 0 != s.mgmt.ranges.length || decide (64 < count) ||
      (count == 0 && !last) || (!s.feature 4 && (count != 0 || !last)) || decide (256 < s.mgmt.ranges.length + count) ||
      decide (2 ^ 23 < sizes) || rs.any fun (x : Nat × Nat × Nat) => x.1 % 2 ^ 21 != 0 || x.2.1 == 0 || x.2.2 != 0
    if bad then .no s 1 0
    else .ok ({ s with mgmt := { s.mgmt with
      ranges := s.mgmt.ranges ++ rs.map fun (x : Nat × Nat × Nat) => (x.1, x.2.1), grantClosed := last } }.settleFunction0)

/-! ## The fabric's tables (R412 to R415, R421) -/

/-- The entry in the bulk window; none when it is not valid (R415). Whether the peer's entry names it back is the peer's (DESIGN CHOICE: log 7). -/
def Mbox.endpoint (m : Mbox) (up : Bool) : Option Endpoint :=
  let w (n : Nat) : Nat := ofBytes (m.bytes (8 * n) 8)
  let base := bits (w 1) 55 0
  let size := bits (w 2) 31 0
  if bits (w 0) 23 21 != 0 || bits (w 0) 63 55 != 0 || bits (w 1) 63 56 != 0 || base % 2 ^ 21 != 0 || bits (w 2) 63 32 != 0 || w 3 != 0 ||
      decide (1024 < bits (w 0) 12 2) || (decide (sramBase < base + size * 2 ^ 21) && decide (base < sramBase + 2 ^ 48)) then none
  else some ⟨up, bits (w 0) 12 2, bits (w 0) 16 13, bits (w 0) 20 17, bits (w 0) 39 24, bits (w 0) 51 40, bit (w 0) 52, bit (w 0) 53, bit (w 0) 54,
    base, size⟩

/-- EP_BIND (R415, R430). -/
def execEpBind (r : Nat) (s : State) : Host.Outcome State Fault Refusal :=
  s.command r 0x20 (some 5) fun m s =>
    let (x, s') := s.draw
    match m.endpoint (x % 2 == 1) with
    | none => .no s 1 0
    | some e =>
      if 4096 ≤ m.arg 0 then .no s 1 0
      else if !bit (ofBytes (m.bytes 0 8)) 0 then .ok { s with endpoints := s.endpoints.del (m.arg 0) }
      else .ok { s' with endpoints := s'.endpoints.put (m.arg 0) e }

/-- The endpoint through which a location is reached (R416): the one that a peer buffer names, or that of a fabric command. -/
def State.locEndpoint (s : State) (own : Nat × Nat) (l : Loc) : Option Nat :=
  match l.place with
  | .peer buf _ =>
    if 65536 ≤ buf then some (buf - 65536) else (s.bufs.find buf).bind fun b => s.endpointOf own.1 own.2 (b.base % 16)
  | _ => none

/-- An outgoing request goes through an endpoint and has no response yet. -/
def State.epBusy (s : State) (ep : Nat) : Bool :=
  s.flight.any (fun f => f.sent && f.parts.any fun p => s.locEndpoint (f.vdev, f.ctx) p.2.2 == some ep) ||
  s.peers.any fun r => r.answer.isNone && r.parts.any fun p => s.locEndpoint (s.tagOwner r.slot) p.2.2 == some ep

/-- EP_UNBIND (R421, R430): incoming requests that wait are answered NACK, outgoing ones wait for their responses, and the entry becomes
invalid. -/
def execEpUnbind (r : Nat) (s : State) : Host.Outcome State Fault Refusal :=
  s.command r 0x21 (some 5) fun m s =>
    if 4096 ≤ m.arg 0 then .no s 1 0
    else
      let s := (s.incoming.filter fun x => x.ep == m.arg 0).foldl (fun s x => s.answerPeer x.ep false []) s
      let s := { s with incoming := s.incoming.filter fun x => x.ep != m.arg 0 }
      if s.epBusy (m.arg 0) then .later s [] else .ok { s with endpoints := s.endpoints.del (m.arg 0) }

/-- ROUTE_SET (R414). -/
def execRouteSet (r : Nat) (s : State) : Host.Outcome State Fault Refusal :=
  s.command r 0x22 (some 5) fun m s =>
    if 2 ^ 16 ≤ m.arg 0 ∨ 2 ^ 16 ≤ m.arg 1 then .no s 1 0 else .ok { s with routes := s.routes.put (m.arg 0) (m.arg 1) }

/-- PKGID_SET (R413, R430): BUSY once any port is past KEYING. -/
def execPkgidSet (r : Nat) (s : State) : Host.Outcome State Fault Refusal :=
  s.command r 0x23 (some 5) fun m s =>
    if 2 ^ 16 ≤ m.arg 0 then .no s 1 0
    else if s.ports.any fun p => p.2.st == .up || p.2.st == .failed then .no s 2 0
    else .ok { s with pkgId := m.arg 0 }

/-- A fabric port. -/
def State.port (s : State) (n : Nat) : Port := s.ports.getD n Port.down

/-- Set a port. -/
def State.setPort (s : State) (n : Nat) (p : Port) : State := { s with ports := s.ports.put n p }

/-- The ASCII bytes of a text. -/
def ascii (t : List Nat) : List (BitVec 8) := t.map (BitVec.ofNat 8)

/-- K(0) of a direction (R412, R413): "bildal fabric", the port byte and the direction byte. -/
def firstKey (secret : BitVec 256) (port dir : Nat) : BitVec 256 :=
  Config.hkdf false secret (ascii [98, 105, 108, 100, 97, 108, 32, 102, 97, 98, 114, 105, 99] ++ [BitVec.ofNat 8 port, BitVec.ofNat 8 dir])

/-- The direction byte of this package's flits on a port (R413): 0 at the low end. -/
def State.txDir (s : State) (n : Nat) : Nat := if s.pkgId < Config.portPeer n then 0 else 1

/-- PORT_KEY (R412, R413): the SPDM session gives both directions their keys. Two packages with one ID cannot key a port. Whether the session
succeeds, and its secret, are open (DESIGN CHOICE: log 7); a session that fails is ABORTED. -/
def execPortKey (r : Nat) (s : State) : Host.Outcome State Fault Refusal :=
  s.command r 0x24 (some 5) fun m s =>
    let n := m.arg 0
    let p := s.port n
    if 16 ≤ n then .no s 1 0
    else if p.st != .keying && p.st != .failed then .no s 2 0
    else if Config.portPeer n == s.pkgId then .no (s.report (.die 10 n s.pkgId)) 1 0
    else
      let (x, s) := s.draw
      let (secret, s) := s.drawKey
      if x % 2 = 0 then .no s 3 0
      else
        let d := s.txDir n
        let byte := if d = 0 then n else Config.portNumber n
        .ok (s.setPort n { Port.down with
          st := .up, tx := ⟨firstKey secret byte d, 0, 0⟩, rx := ⟨firstKey secret byte (1 - d), 0, 0⟩, credits := [(0, 64), (1, 64)],
          carried := p.carried })

end Sys2Proof.Machine
end

