-- ==== Sys2Proof/Machine/Alloc.lean ====
section
/-! DEFINITION. The Crucible's allocation of device memory: S2MAP and S2UNMAP (R291, R328 to R331, R430), and the retirement of rows (R434). -/

namespace Sys2Proof.Machine

open Sys2Proof

/-! ## Rows (R331) -/

/-- A run of rows of a channel may be given to a domain: none of it is owned or RETIRED, and the guard rule holds (R331). -/
def Stack.runFree (k : Stack) (ch row n dom : Nat) : Bool :=
  decide (row + n ≤ k.rows) &&
  (k.pat.all fun e => e.1 / 65536 != ch ||
    (if e.2 = dom then decide (e.1 % 65536 < row) || decide (row + n ≤ e.1 % 65536)
     else decide (e.1 % 65536 + 3 ≤ row) || decide (row + n + 2 ≤ e.1 % 65536))) &&
  k.retired.all fun e => e / 65536 != ch || decide (e % 65536 < row) || decide (row + n ≤ e % 65536)

/-- The pairs of a stack and a channel of a profile. -/
def Profile.pairs (p : Profile) : List (Nat × Nat) :=
  (maskBits 8 p.stks.toNat).flatMap fun st => (maskBits 32 p.channels.toNat).map fun ch => (st, ch)

/-- The lowest run of `n` rows that every channel of a profile can give to a domain (DESIGN CHOICE: log 14). -/
def State.findRows (s : State) (p : Profile) (n dom : Nat) : Option Nat :=
  let ps := p.pairs
  let starts := 0 :: ps.flatMap fun x =>
    let k := s.stack x.1
    (k.pat.filter fun e => e.1 / 65536 == x.2).flatMap (fun e => [e.1 % 65536 + 1, e.1 % 65536 + 3]) ++
      (k.retired.filter fun e => e / 65536 == x.2).map fun e => e % 65536 + 1
  (starts.filter fun row => ps.all fun x => (s.stack x.1).runFree x.2 row n dom).min?

/-- Give rows to a domain by PATSET (R331). -/
def State.giveRows (s : State) (p : Profile) (row n dom : Nat) : State :=
  p.pairs.foldl (fun s x => s.setStack x.1 ((List.range n).foldl (fun k i => (k.patset (65536 * x.2 + row + i) dom).getD k) (s.stack x.1))) s

/-! ## S2MAP (R430) -/

/-- A profile may be used: it names a stack and a channel, and its granule is valid (R322). -/
def Profile.usable (p : Profile) : Bool := p.stks != 0 && p.channels != 0 && decide (p.glog ≤ 13)

/-- The leaves of a mapping: `n` granules from a granule on, in a buffer. -/
def mapLeaves (t : Table S2Leaf) (g n buf : Nat) (res rd wr pin : Bool) : Table S2Leaf :=
  (List.range n).foldl (fun t i => t.put (g + i) ⟨res, rd, wr, pin, buf, i, 0⟩) t

/-- S2MAP (R291, R328, R330, R331, R430). A device buffer that is not pinned takes what is left of the allotment when that is less than its
size: its granules are brought in by the pager (DEDUCED: log 15). -/
def execS2map (r : Nat) (s : State) : Host.Outcome State Fault Refusal :=
  s.command r 0x10 none <| onDevice fun vd m s =>
    let d := s.vdev vd
    let gpa := m.arg 1
    let size := m.arg 2
    let a := m.arg 3
    let rd := bit a 0
    let wr := bit a 1
    let pin := bit a 2
    let kind := bits a 4 3
    let prof := bits a 19 16
    let g := gpa / 65536
    let n := 32 * size
    let put (s : State) (b : BufEntry) (buf : Nat) (res : Bool) : State :=
      let s := { s with bufs := s.bufs.put buf b }
      let d := s.vdev vd
      s.setVdev vd { d with s2 := mapLeaves d.s2 g n buf res rd wr pin, maps := d.maps.put gpa (size, buf) }
    let bad := d.state == .absent || gpa % 65536 != 0 || size == 0 || decide (2 ^ 23 < size) || decide (2 ^ 48 < gpa + size * 2 ^ 21) || bits a 15 5 != 0 ||
      decide (2 ^ 20 ≤ a) || kind == 3 || d.s2.any fun e => decide (g ≤ e.1) && decide (e.1 < g + n)
    if bad then .no s 1 0
    else match (List.range 65536).find? fun i => (s.bufs.find i).isNone with
      | none => .no s 1 0
      | some buf =>
        if kind = 1 then
          if m.arg 4 % 2 ^ 21 != 0 then .no s 1 0 else .give (put s ⟨rd, wr, 1, vd, 0, size, m.arg 4⟩ buf true) [buf] []
        else if kind = 2 then
          if !s.feature 5 then .no s 4 0
          else if bits (m.arg 4) 20 4 != 0 then .no s 1 0
          else .give (put s ⟨rd, wr, 2, vd, 0, size, m.arg 4⟩ buf true) [buf] []
        else
          let p := s.profs.getD prof ⟨0, 0, 0, 0⟩
          let unit := 2 ^ (p.glog + 8) * p.pairs.length
          let step := unit / Nat.gcd unit (2 ^ 21)
          let left := d.prof 0x30 31 0 - s.mappedUnits vd
          let have_ := if pin then size else min size left / step * step
          if !bit (d.prof 0x38 15 0) prof || !p.usable || decide (left < have_) || have_ == 0 || have_ % step != 0 then .no s 1 0
          else
            let rows := (2 ^ 21 * have_ / p.pairs.length + 131071) / 131072
            match s.findRows p rows vd with
            | none => s.guardFail vd
            | some row =>
              let s := s.giveRows p row rows vd
              let s := put s ⟨rd, wr, 0, vd, prof, have_, row * 131072⟩ buf pin
              .give (if pin then (List.range n).foldl (fun s o => s.zeroFrame buf o) s else s) [buf] []

/-! ## S2UNMAP (R295, R430) -/

/-- A granule of a device that lies in a buffer's frames and outside a range of granules. -/
def State.guestOf (s : State) (vd buf g n : Nat) : Option (Nat × S2Leaf) :=
  (s.vdev vd).s2.find? fun e => s.framed vd e.1 e.2 && e.2.buf == buf && (decide (e.1 < g) || decide (g + n ≤ e.1))

/-- Withdraw the rights of the leaves of a range, so that no access is translated by them any more, and invalidate (R295). -/
def State.withdraw (s : State) (vd g n : Nat) : State :=
  let d := s.vdev vd
  let s := s.setVdev vd { d with s2 := d.s2.mapVals fun k f =>
    if g ≤ k ∧ k < g + n then { f with rd := false, wr := false } else f }
  d.ctxs.foldl (fun s c => s.invalidate vd c.1) s

/-- The stacks of a frame. -/
def frameStacks (ps : List Place) : List Nat := (ps.filterMap fun p => match p with
  | .dram st _ => some st
  | _ => none).dedup

/-- The events that complete the accesses of a device to places outside their points of coherence, near-bank commands in their stacks among them
(R295, R298 step 3); none when there is no such access. -/
def State.frameBusy (s : State) (vd : Nat) (ps : List Place) : Option (List Instr) :=
  match s.usesFrame ps with
  | some e => some [e]
  | none => (s.nb.find? fun c => c.vdev == vd && (frameStacks ps).contains c.stack).map fun c =>
    if (s.stack c.stack).hung then [] else [s.nbProgress c]

/-- Take a mapping out: its leaves, what is known of its granules, and its buffer with its rows. -/
def State.unmap (s : State) (vd gpa g n buf : Nat) : State :=
  let d := s.vdev vd
  let inside (k : Nat) : Bool := decide (g ≤ k) && decide (k < g + n)
  let s := s.setVdev vd { d with
    s2 := d.s2.keep fun k _ => !inside k, back := d.back.keep fun k _ => !inside k, lru := d.lru.filter fun k => !inside k,
    maps := d.maps.del gpa }
  let halt (q : PagerReq) : PagerReq :=
    let q := if q.frame.any fun x => x.1 == buf then { q with filling := false, frame := none } else q
    if q.vdev == vd && q.victim.any inside then { q with victim := none } else q
  { s with pager := s.pager.map halt, mgmt := { s.mgmt with moving := s.mgmt.moving.filter fun x => !(x.1 == vd && inside x.2) } }.freeBuffer vd buf

/-- A granule is being moved, or its move has ended. -/
def State.setMoving (s : State) (vd g : Nat) (on : Bool) : State :=
  let left := s.mgmt.moving.filter (· != (vd, g))
  { s with mgmt := { s.mgmt with moving := if on then left ++ [(vd, g)] else left } }

/-- Evict a granule that lies in the frames of a buffer that is to be freed (R298): BUSY where backing has no room for it or the host refuses it. -/
def State.turnOut (s : State) (vd g : Nat) (f : S2Leaf) : MAns :=
  let keyed := (s.frameBlocks f.buf f.boff).any fun x => ((s.stack x.1).blocks.getD x.2 CtrBlock.zero).keyv
  match s.placeBacking vd g keyed with
  | none => .no s 2 0
  | some (b, s) => match s.evict vd g f b with
    | .refused s => .no (s.setMoving vd g false) 2 0
    | .busy s e => .later (s.setMoving vd g true) [e]
    | .done s => .later (s.setMoving vd g false) []

/-- S2UNMAP: the range of one S2MAP. Granules of other mappings that lie in the buffer's frames are evicted first; then no access is translated
any more, those under way complete, and the buffer is freed. -/
def execS2unmap (r : Nat) (s : State) : Host.Outcome State Fault Refusal :=
  s.command r 0x11 none <| onDevice fun vd m s =>
    let gpa := m.arg 1
    let g := gpa / 65536
    let n := 32 * m.arg 2
    match (s.vdev vd).maps.find gpa with
    | none => .no s 1 0
    | some (size, buf) =>
      if size ≠ m.arg 2 then .no s 1 0
      else match s.guestOf vd buf g n with
        | some (k, f) => s.turnOut vd k f
        | none =>
          let s := s.withdraw vd g n
          let ps := ((s.vdev vd).s2.filter fun e => s.framed vd e.1 e.2 && decide (g ≤ e.1) && decide (e.1 < g + n)).flatMap fun e =>
            s.frameLines e.2.buf e.2.boff
          match s.frameBusy vd ps with
          | some es => .later s es
          | none => .ok ((s.dropFrame ps).unmap vd gpa g n buf)

/-! ## Retired rows (R434) -/

/-- A granule whose frame has a line in a row. -/
def State.inRow (s : State) (st key : Nat) : Option (Nat × Nat × S2Leaf) :=
  s.vdevs.findSome? fun d => (d.2.s2.find? fun e => s.framed d.1 e.1 e.2 && ((s.frameLines e.2.buf e.2.boff).any fun p => match p with
    | .dram n spa => n == st && patKey spa == key
    | _ => false)).map fun e => (d.1, e.1, e.2)

/-- A frame for a granule that must move: in a buffer of its device, and, for a pinned granule, in its own stacks (R434). -/
def State.newFrame (s : State) (vd : Nat) (f : S2Leaf) : Option (Nat × Nat) :=
  let old := frameStacks (s.frameLines f.buf f.boff)
  (s.deviceBufs vd f.buf).findSome? (s.frameIn vd fun buf o =>
    !f.pin || (frameStacks (s.frameLines buf o)).all fun st => old.contains st)

/-- Move the lines of a frame as they are stored, with their MACs and counter blocks. -/
def State.moveFrame (s : State) (f : S2Leaf) (buf o : Nat) : State :=
  let ps := s.frameLines f.buf f.boff
  let qs := s.frameLines buf o
  let blocks := (s.frameBlocks f.buf f.boff).map fun x => (s.stack x.1).blocks.getD x.2 CtrBlock.zero
  let s := (ps.zip qs).foldl (fun s x =>
    let s := { s with mem := moveCells s.mem x.1.key x.2.key 64 }
    match x.1, x.2 with
    | .dram a p, .dram b q =>
      let mac := (s.stack a).macs.get (p / 64)
      s.setStack b { s.stack b with macs := (s.stack b).macs.set (q / 64) mac }
    | _, _ => s) s
  let s := (blocks.zip (s.frameBlocks buf o)).foldl (fun s x =>
    s.setStack x.2.1 ((s.stack x.2.1).putBlock x.2.2 (some x.1))) s
  s.clearBlocks f.buf f.boff

/-- Migrate a granule to a new frame (R298, R434): RES is clear while accesses under way complete; a line that reads with a detected error contains
its owner, and the migration goes on. -/
def State.migrate (s : State) (vd g : Nat) (f : S2Leaf) (buf o : Nat) : MAns :=
  let ps := s.frameLines f.buf f.boff
  let d := s.vdev vd
  let s := (s.setVdev vd { d with s2 := d.s2.put g { f with res := false } }).invalidateGranule vd g
  match s.frameBusy vd ps with
  | some es => .later (s.setMoving vd g true) es
  | none =>
    let s := s.checkFrame vd ps (s.frameBlocks f.buf f.boff)
    let s := ((s.moveFrame f buf o).dropFrame ps).setMoving vd g false
    .later (s.setVdev vd { s.vdev vd with s2 := (s.vdev vd).s2.put g { f with res := true, buf := buf, boff := o } }) []

/-- A row of a channel is out of service; a channel all of whose rows are is retired, and no request is answered UNCORR for it any more
(R321, R434). -/
def State.rowRetired (s : State) (st key : Nat) : State :=
  let k := s.stack st
  let ch := key / 65536
  let dead := if k.deadChans.contains ch && (List.range k.rows).all fun r => k.retired.contains (65536 * ch + r) then
    k.deadChans.filter (· != ch) else k.deadChans
  { s.setStack st { k with pat := k.pat.del key, deadChans := dead } with mgmt := { s.mgmt with retired := (s.mgmt.retired ++ [(1, st, key)]).dedup } }

/-- RETIRE_ROW (R434). The row is RETIRED, and its granules move one by one; when no frame is free it stays in service, marked FAILING. -/
def execRetireRow (r : Nat) (s : State) : Host.Outcome State Fault Refusal :=
  s.command r 0x31 none fun m s =>
    let st := bits (m.arg 0) 2 0
    let key := bits (m.arg 0) 7 3 * 65536 + bits (m.arg 0) 31 8
    let k := s.stack st
    if 2 ^ 32 ≤ m.arg 0 ∨ k.rows ≤ bits (m.arg 0) 31 8 then .no s 1 0
    else
      let s := s.setStack st { k with retired := (k.retired ++ [key]).dedup }
      match s.inRow st key with
      | none => .ok (s.rowRetired st key)
      | some (vd, g, f) => match s.newFrame vd f with
        | none =>
          let k := s.stack st
          .ok ({ s.setStack st { k with retired := k.retired.filter (· != key) } with
            mgmt := { s.mgmt with retired := (s.mgmt.retired ++ [(3, st, key)]).dedup } }.report (.die 15 st key))
        | some (buf, o) => s.migrate vd g f buf o

end Sys2Proof.Machine
end

