-- ==== Sys2Proof/Machine/Service.lean ====
section
/-! DEFINITION. The partition layout and its journal (R398), the watchdog (R399), retirement of cores, mirrors and the boundary (R333, R365, R434),
firmware (R423, R432), error collection, boot (R424) and the loss of power (R398, R435). -/

namespace Sys2Proof.Machine

open Sys2Proof

/-! ## Changes of the layout (R322, R350, R398) -/

/-- The image that does not carry GEN. -/
def Mgmt.inactive (m : Mgmt) : Nat := if m.img1 ≠ m.gen then m.img1 else m.img0

/-- Write the generation of the inactive image. -/
def Mgmt.putInactive (m : Mgmt) (n : Nat) : Mgmt := if m.img1 ≠ m.gen then { m with img1 := n } else { m with img0 := n }

/-- The push of a change to the hardware's copies. -/
def State.push (s : State) : LayoutChange → State
  | .wayMap die es => s.setDie die { s.die die with ways := es }
  | .profile p v => ({ s with profs := s.profs.put p v } : State).partWays

/-- A change goes on by one phase (R398): the image is prepared; the commit point; the push. -/
def State.layoutStep (s : State) (r : Nat) (c : LayoutChange) : MAns :=
  let m := s.mgmt
  if m.done < m.gen then .ok { s.push c with mgmt := { m with done := m.gen, change := none } }
  else if m.inactive = m.gen + 1 then
    .later { s with mgmt := { m with gen := m.gen + 1 } } []
  else .later { s with mgmt := { m.putInactive (m.gen + 1) with change := some (c, r) } } []

/-- A layout command: it waits while another's change is under way. -/
def layoutCommand (r : Nat) (check : Mbox → State → Except Nat LayoutChange) (m : Mbox) (s : State) : MAns :=
  match s.mgmt.change with
  | some (c, r') => if r' = r then s.layoutStep r c else .later s []
  | none => match check m s with
    | .error x => .no s x 0
    | .ok c => s.layoutStep r c

/-- The worlds of devices that are RUNNING or STOPPED. -/
def State.heldWorlds (s : State) : List Nat := (s.vdevs.filter fun d => d.2.state == .running || d.2.state == .stopped).map fun d => d.2.world

/-- WAYMAP_SET (R350, R398): BUSY when a way that changes holds plaintext of the world of a RUNNING or STOPPED device. -/
def execWaymapSet (r : Nat) (s : State) : Host.Outcome State Fault Refusal :=
  s.command r 0x18 none <| layoutCommand r fun m s =>
    let es := (List.range 16).map fun n => ofBytes (m.bytes (2 * n) 2)
    let bad (e : Nat) : Bool := bits e 1 0 == 3 || bits e 15 12 != 0 || (bits e 1 0 == 1) != (bits e 11 2 != 0)
    if 2 ≤ m.arg 0 then .error 1
    else if es.any bad || !es.any (fun e => bits e 1 0 == 0) || !es.any (fun e => bits e 1 0 == 2) then .error 1
    else
      let old := (s.die (m.arg 0)).ways
      let held := ((List.range 16).zip es).any fun x =>
        let o := (old.get x.1).toNat
        o != x.2 && bits o 1 0 == 1 && s.heldWorlds.contains (bits o 11 2)
      if held then .error 2
      else .ok (.wayMap (m.arg 0) (((List.range 16).zip es).foldl (fun t x => t.set x.1 (BitVec.ofNat 16 x.2)) []))

/-- PROFILE_SET (R322, R398): BUSY when a RUNNING or STOPPED device may use the profile. -/
def execProfileSet (r : Nat) (s : State) : Host.Outcome State Fault Refusal :=
  s.command r 0x19 none <| layoutCommand r fun m s =>
    let v := m.arg 1
    let p : Profile := ⟨bits v 3 0, BitVec.ofNat 8 (bits v 11 4), BitVec.ofNat 32 (bits v 47 16), BitVec.ofNat 16 (bits v 63 48)⟩
    if 16 ≤ m.arg 0 ∨ bits v 15 12 ≠ 0 ∨ !p.usable ∨ (maskBits 8 p.stks.toNat).any fun n => (s.stack n).absent then .error 1
    else if s.vdevs.any fun d => (d.2.state == .running || d.2.state == .stopped) && bit (d.2.prof 0x38 15 0) (m.arg 0) then .error 2
    else .ok (.profile (m.arg 0) p)

/-! ## Firmware (R423, R432) -/

/-- The image in a slot of a KIND. -/
def State.image (s : State) (kind slot : Nat) : List (BitVec 8) := s.mgmt.images.getD (2 * kind + slot) (Config.flash (2 * kind + slot))

/-- The ACTIVE slot of a KIND. -/
def State.activeSlot (s : State) (kind : Nat) : Nat := s.mgmt.active.getD kind 0

/-- An image runs (R326, R432): the base-die engines report its release number. -/
def State.runImage (s : State) (kind : Nat) (img : List (BitVec 8)) : State :=
  let s := { s with mgmt := { s.mgmt with running := s.mgmt.running.put kind img } }
  if kind ≠ 3 then s
  else (List.range 8).foldl (fun s n =>
    let s := { s with mgmt := { s.mgmt with running := s.mgmt.running.put (16 + n) img } }
    s.setStack n { s.stack n with engver := imageField img 8 4 }) s

/-- The KIND that ARG0 names. -/
def Mbox.kind (m : Mbox) : Option Nat := if 1 ≤ m.arg 0 ∧ m.arg 0 ≤ 3 then some (m.arg 0) else none

/-- A command on a KIND of firmware. -/
def onKind (f : Nat → Mbox → State → MAns) (m : Mbox) (s : State) : MAns :=
  match m.kind with
  | none => .no s 1 0
  | some k => f k m s

/-- UPDATE_WRITE (R432): bytes of the inactive slot. -/
def execUpdateWrite (r : Nat) (s : State) : Host.Outcome State Fault Refusal :=
  s.command r 0x38 none <| onKind fun kind m s =>
    let off := m.arg 1
    let n := m.arg 2
    if off % 1024 ≠ 0 ∨ n = 0 ∨ 1024 < n then .no s 1 0
    else
      let slot := 1 - s.activeSlot kind
      let img := s.image kind slot
      let img := splice (img ++ List.replicate (off - img.length) 0) off (m.bytes 0 n)
      .ok { s with mgmt := { s.mgmt with images := s.mgmt.images.put (2 * kind + slot) img } }

/-- The Crucible restarts (R399): a kill-and-drain in progress starts again from KILL. -/
def State.restartKills (s : State) : State :=
  s.kills.foldl (fun s k =>
    let parts := s.participants k.victim
    { s.sendKill k.victim parts with kills := s.kills.map fun x => if x = k then { x with phase := 0, waiting := parts } else x }) s

/-- A restart of the Crucible finds a change of the layout (R398): before the commit point it is rolled back and ABORTED; after it, its push is run
again in full. -/
def State.recoverLayout (s : State) : State :=
  let m := s.mgmt
  match m.change with
  | none => s
  | some (c, r) =>
    let cmd := match c with
      | .wayMap _ _ => 0x18
      | .profile _ _ => 0x19
    if m.done < m.gen then ({ s.push c with mgmt := { m with done := m.gen, change := none } }.unpend r cmd).mgmtDone r 0 0
    else if m.inactive = m.gen + 1 then
      ({ s with mgmt := { m.putInactive 0 with change := none } }.unpend r cmd).mgmtDone r 3 0
    else s

/-- The Crucible restarts on its image (R399, R432). -/
def State.restartCrucible (s : State) : State := s.recoverLayout.restartKills

/-- UPDATE_ACTIVATE (R432): the inactive image is checked and becomes ACTIVE. -/
def execUpdateActivate (r : Nat) (s : State) : Host.Outcome State Fault Refusal :=
  s.command r 0x39 none <| onKind fun kind _ s =>
    let slot := 1 - s.activeSlot kind
    let img := s.image kind slot
    if !s.imageValid kind img then .no s 1 0
    else
      let s := { s with mgmt := { s.mgmt with active := s.mgmt.active.put kind slot } }.runImage kind img
      .ok (if kind = 1 then { s with mgmt := { s.mgmt with fresh := true, watchdogs := [] } }.restartCrucible else s)

/-- UPDATE_COMMIT (R432): the ACTIVE image's SVN becomes the minimum of its KIND. -/
def execUpdateCommit (r : Nat) (s : State) : Host.Outcome State Fault Refusal :=
  s.command r 0x3A none <| onKind fun kind _ s =>
    let svn := imageField (s.image kind (s.activeSlot kind)) 5 3
    .ok { s with mgmt := { s.mgmt with svnMin := s.mgmt.svnMin.put kind (max svn (s.mgmt.svnMin.getD kind 0)) } }

/-- WATCHDOG_EXPIRY (R398, R399, R432) of one of the eight Crucible cores: the Crucible restarts. An image that was activated live and takes three
resets within 60 s is abandoned for the other slot. -/
def execWatchdogExpiry (kind : Nat) (s : State) : Host.Outcome State Fault Refusal :=
  if 8 ≤ kind ∨ !s.mgmt.booted then .next s
  else
    let ts := (s.mgmt.watchdogs ++ [s.gtime]).filter fun t => decide (s.gtime ≤ t + 60 * 10 ^ 9)
    let s := { s with mgmt := { s.mgmt with watchdogs := ts } }.report (.die 17 kind ts.length)
    let s :=
      if s.mgmt.fresh && decide (3 ≤ ts.length) then
        let slot := 1 - s.activeSlot 1
        ({ s with mgmt := { s.mgmt with active := s.mgmt.active.put 1 slot, fresh := false, watchdogs := [] } }.runImage 1 (s.image 1 slot)).report (.die 12 1 slot)
      else s
    .next s.restartCrucible

/-! ## Cores, mirrors, the boundary (R333, R365, R434) -/

/-- The cores of a die. -/
def coresOn (die : Nat) : List Nat := (List.range 64).filter fun c => coreDie c == die

/-- RETIRE_CORE (R434). With a usable spare row, every context on the die is pre-empted, its state is spilled, and the rows are renumbered; without
one the core is OFFLINE. -/
def execRetireCore (r : Nat) (s : State) : Host.Outcome State Fault Refusal :=
  s.command r 0x30 none fun m s =>
    let core := m.arg 0
    let die := coreDie core
    if 64 ≤ core then .no s 1 0
    else if Config.spareGood die && !s.mgmt.retired.contains (2, die, 0) then
      let pre := (coresOn die).flatMap fun c =>
        (((s.activeTeams c).map fun t => ((s.gridOf t).vdev, (s.gridOf t).ctx)).dedup).map fun x => Instr.preempt c x.1 x.2
      let slots := (s.teams.filter fun t => coreDie t.2.core == die && t.2.placed).flatMap fun t => t.2.slots
      if !pre.isEmpty then .later s pre
      else if s.peers.any fun r => slots.contains r.slot then .later s []
      else
        let s := (coresOn die).foldl State.emptyCore s
        .ok { s with mgmt := { s.mgmt with retired := s.mgmt.retired ++ [(2, die, 0)] } }
    else .ok { s.setCore core { s.core core with offline := true } with
      mgmt := { s.mgmt with retired := (s.mgmt.retired ++ [(0, core, 0)]).dedup } }

/-- Compute the entries of a node again, in one copy (R364, R365): they are those of the other copy where that is in use, or else the CMACs of its
children. -/
def Stack.rebuildNode (k : Stack) (level n : Nat) (mirror : Bool) : Stack :=
  let other := (level, n, !mirror)
  let good := !k.treeBad.contains other && !k.treeOut.contains other
  let t := (List.range 8).foldl (fun t e =>
    let c := 8 * n + e
    setEntry t level c (if good then (k.nodes !mirror).find (treeSlot level c) else k.childMac (k.nodes mirror) level c)) (k.nodes mirror)
  let k := { k with treeBad := k.treeBad.filter (· != (level, n, mirror)), treeOut := k.treeOut.filter (· != (level, n, mirror)) }
  if level = 0 then k else if mirror then { k with mirror := t } else { k with tree := t }

/-- REBUILD_MIRROR (R365, R366, R430): the failed copies of the nodes of a level whose span begins at a row. -/
def execRebuildMirror (r : Nat) (s : State) : Host.Outcome State Fault Refusal :=
  s.command r 0x32 none fun m s =>
    let st := bits (m.arg 0) 2 0
    let level := bits (m.arg 0) 11 8
    if 2 ^ 12 ≤ m.arg 0 ∨ 8 < level ∨ 2 ^ 32 ≤ m.arg 1 then .no s 1 0
    else
      let k := s.stack st
      let bad := ((k.treeBad ++ k.treeOut).filter fun x => x.1 == level && (nodeSpan level x.2.1).1 == bits (m.arg 0) 7 3 * 2 ^ 14 + m.arg 1).dedup
      .ok (s.setStack st (bad.foldl (fun (k : Stack) x => k.rebuildNode level x.2.1 x.2.2) k))

/-- RECOVER_BOUNDARY (R333, R430). -/
def execRecoverBoundary (r : Nat) (s : State) : Host.Outcome State Fault Refusal :=
  s.command r 0x33 none fun _ s => if s.boundaryDown then .no s 2 0 else .ok { s with boundaryHeld := false }

/-! ## Error collection (R152, R366, R430) -/

/-- Open bytes (DESIGN CHOICE: log 7). -/
def State.drawBytes (s : State) : Nat → State × List (BitVec 8)
  | 0 => (s, [])
  | n + 1 =>
    let (x, s) := s.draw
    let (s, bs) := s.drawBytes n
    (s, BitVec.ofNat 8 x :: bs)

/-- Fill up to a multiple of a length with zeros. -/
def padTo (n : Nat) (bs : List (BitVec 8)) : List (BitVec 8) := bs ++ List.replicate ((n - bs.length % n) % n) 0

/-- A report as bytes: a record (R152), an integrity report (R366), or one whose layout is not given (DESIGN CHOICE: log 7). -/
def State.reportBytes (s : State) (seq : Nat) : Report → State × List (BitVec 8)
  | .record r _ core world => (s, r.bytes core world)
  | .context _ _ _ _ _ (some (r, core, world)) => (s, r.bytes core world)
  | .integrity st level ch row0 rows mirrored own =>
    (s, padTo 64 (padTo 8 (toBytes 8 (0x3C + st * 2 ^ 8 + level * 2 ^ 11 + (if mirrored then 2 ^ 15 else 0) + own.length * 2 ^ 16 + ch * 2 ^ 27 +
      row0 * 2 ^ 32) ++ toBytes 8 (rows + seq % 2 ^ 32 * 2 ^ 32) ++ own.flatMap fun v => toBytes 2 v)))
  | .entry bs => (s, padTo 64 bs)
  | _ => s.drawBytes 64

/-- The reports from a sequence number on that fit in sixteen entries of 64 bytes. -/
def State.readReports (s : State) : Nat → List Report → Nat → State × List (BitVec 8) × Nat
  | seq, [], _ => (s, [], seq)
  | seq, r :: rs, room =>
    let (s', bs) := s.reportBytes seq r
    if room * 64 < bs.length then
      if room = 16 then (s', bs.take 1024, seq + 1) else (s, [], seq)
    else
      let (s', more, next) := s'.readReports (seq + 1) rs (room - bs.length / 64)
      (s', bs ++ more, next)

/-- ERRLOG_READ. -/
def execErrlogRead (r : Nat) (s : State) : Host.Outcome State Fault Refusal :=
  s.command r 0x40 none fun m s =>
    if 2 ^ 32 ≤ m.arg 0 then .no s 1 0
    else
      let (s, bs, next) := s.readReports (m.arg 0) (s.errors.drop (m.arg 0)) 16
      .give s [bs.length / 64, next] bs

/-! ## Power and boot (R398, R424, R435) -/

/-- The package without power: configuration flash is kept, and what the host holds (R398, R423, R434). -/
def State.unpowered (s : State) : State :=
  { State.reset with
    powered := false, agenda := s.agenda, free := s.free, nextId := s.nextId,
    mem := s.mem.filter fun c => decide (2 ^ 70 ≤ c.1) && decide (c.1 < 2 ^ 80),
    mgmt := { Mgmt.reset with images := s.mgmt.images, active := s.mgmt.active, svnMin := s.mgmt.svnMin, retired := s.mgmt.retired, tripped := s.mgmt.tripped } }

/-- POWER_OFF (R398). -/
def execPowerOff (s : State) : Host.Outcome State Fault Refusal := .next s.unpowered

/-- THERMAL_TRIP (R435): the trip is logged for the next boot. -/
def execThermalTrip (s : State) : Host.Outcome State Fault Refusal := .next { s.unpowered with mgmt := { s.unpowered.mgmt with tripped := true } }

/-- The image that boot takes for a KIND: the ACTIVE one, or else the other, which is reported (R424). -/
def State.bootImage (s : State) (kind : Nat) : Option State :=
  let a := s.activeSlot kind
  if s.imageValid kind (s.image kind a) then some (s.runImage kind (s.image kind a))
  else if s.imageValid kind (s.image kind (1 - a)) then some ((s.runImage kind (s.image kind (1 - a))).report (.die 12 kind (1 - a)))
  else none

/-- The geometry that a stack reports (R317). -/
def Stack.geometry (k : Stack) : Nat × Nat × Nat × Nat := (k.height, k.dens, k.rows, k.cap)

/-- Discover the stacks, each with a new tree key, and reapply the retirement lists (R317, R358, R364, R424 step 3). A stack that reports no
geometry, or another than stack 0, stays absent and is reported. -/
def State.discover (s : State) : State :=
  (List.range 8).foldl (fun s n =>
    let (x, s) := s.drawKey
    let k := s.stack n
    let off := k.absent || k.geometry != (s.stack 0).geometry
    let s := if off then s.report (.die 20 n 0) else s
    let k := { s.stack n with treeKey := x, absent := off }
    let rows := (s.mgmt.retired.filter fun x => x.1 == 1 && x.2.1 == n).map fun x => x.2.2
    s.setStack n { k with keyedRow := min (Config.keyedRows n) k.rows, retired := rows })
    ((s.mgmt.retired.filter fun x => x.1 == 0).foldl (fun s x => s.setCore x.2.1 { s.core x.2.1 with offline := true }) s)

/-- BOOT (R410, R424): the package's power-on sequence, until it waits for negotiation and the backing grant. A step that fails is reported and
ends it. -/
def execBoot (s : State) : Host.Outcome State Fault Refusal :=
  if s.mgmt.booted then .next s
  else
    let s := { s with powered := true, mgmt := { s.mgmt with booted := true } }
    let s := if s.mgmt.tripped then { s with mgmt := { s.mgmt with tripped := false } }.report (.die 18 0 0) else s
    match s.bootImage 1 with
    | none => .next ({ s with mgmt := { s.mgmt with recovery := true } }.report (.die 13 1 0))
    | some s => match s.bootImage 2 with
      | none => .next (s.report (.die 13 2 0))
      | some s => match s.bootImage 3 with
        | none => .next (s.report (.die 13 3 0))
        | some s => .next { s.discover with ports := (List.range 16).map fun n => (n, { Port.down with st := .keying }) }

end Sys2Proof.Machine
end

