-- ==== Sys2Proof/Machine/Fabric.lean ====
section
/-! DEFINITION. The fabric's ports and flits (R410 to R414), peers' requests and responses (R415 to R417, R421), the host port (R408, R254) and the
SPDM responder (R367). -/

namespace Sys2Proof.Machine

open Sys2Proof

/-! ## Routes (R414) -/

/-- The port that carries an endpoint's traffic: position (endpoint mod m) among the m UP ports of its peer's mask. -/
def State.portFor (s : State) (ep : Nat) : Option Nat :=
  match s.endpoints.find ep with
  | none => none
  | some e =>
    let up := (maskBits 16 (s.routes.getD e.peer 0)).filter fun n => (s.port n).st == .up
    if up.isEmpty then none else up[ep % up.length]?

/-- The outgoing requests that have no response yet, oldest first: number and endpoint. -/
def State.requests (s : State) : List (Nat × Option Nat) :=
  let fs := (s.flight.filter fun f => f.sent).filterMap fun f => f.parts.head?.map fun p => (f.id, s.locEndpoint (f.vdev, f.ctx) p.2.2)
  let ps := (s.peers.filter fun r => r.answer.isNone).filterMap fun r => r.parts.head?.map fun p => (r.id, s.locEndpoint (s.tagOwner r.slot) p.2.2)
  let ins (l : List (Nat × Option Nat)) (x : Nat × Option Nat) : List (Nat × Option Nat) :=
    l.takeWhile (fun y => decide (y.1 < x.1)) ++ x :: l.dropWhile fun y => decide (y.1 < x.1)
  (fs ++ ps).foldl ins []

/-! ## Flits (R411 to R413) -/

/-- The KIND and VC of a flit. -/
def FlitLoad.kind : FlitLoad → Nat × Nat
  | .idle => (0, 0)
  | .request _ => (1, 0)
  | .reply _ => (2, 1)
  | .credit _ => (4, 0)

/-- The bytes of a flit's payload (R411). -/
def payloadSize : Nat := 228

/-- The 256 bytes of a flit (R411, R412). The layout of what REQUEST, RESPONSE and IDLE flits carry is not given: their payload is open (DESIGN CHOICE: log 7). -/
def flitBytes (f : Flit) (key : BitVec 256) (dir : Nat) (payload : List (BitVec 8)) : List (BitVec 8) :=
  let header := toBytes 8 (f.load.kind.1 + 16 * f.load.kind.2 + 2 ^ 8 * f.fseq)
  let body := (Config.gcm key (BitVec.ofNat 32 dir ++ (0 : BitVec 32) ++ BitVec.ofNat 32 f.fseq) header payload ++ List.replicate 244 0).take 244
  header ++ body ++ toBytes 4 (Config.crc32 (header ++ body)).toNat

/-- The next key of a direction (R412): "bildal ratchet" and the direction byte. -/
def nextKey (key : BitVec 256) (dir : Nat) : BitVec 256 :=
  Config.hkdf true key (ascii [98, 105, 108, 100, 97, 108, 32, 114, 97, 116, 99, 104, 101, 116] ++ [BitVec.ofNat 8 dir])

/-- A direction after one flit (R412): after FSEQ 2^32 − 1 the key is stepped. -/
def PortDir.next (d : PortDir) (dir : Nat) : PortDir :=
  if d.fseq + 1 < 2 ^ 32 then { d with fseq := d.fseq + 1 } else ⟨nextKey d.key dir, d.keyStep + 1, 0⟩

/-- Keys of earlier steps are zeroised once no flit of theirs is in the retry buffer (R412). -/
def Port.forgetKeys (p : Port) : Port := { p with oldKeys := p.oldKeys.keep fun n _ => p.retry.any fun f => f.keyStep == n }

/-- A CREDIT flit is due (R413). -/
def Port.owesCredit (p : Port) : Bool := p.nak || decide (64 ≤ p.received) || decide (16 ≤ p.freed0) || decide (16 ≤ p.freed1)

/-- The payload of a CREDIT flit (R413): ACK names the flit received last. -/
def Port.creditPayload (p : Port) : Nat :=
  let ack := if p.rx.fseq = 0 then 2 ^ 32 - 1 else p.rx.fseq - 1
  let n := if p.rx.fseq = 0 then p.rx.keyStep - 1 else p.rx.keyStep
  p.freed0 + 2 ^ 16 * p.freed1 + 2 ^ 32 * ack + 2 ^ 64 * (n % 2 ^ 16) + (if p.nak then 2 ^ 80 else 0)

/-- What a port sends next, when nothing is to be sent again (R413). -/
def State.nextLoad (s : State) (n : Nat) (p : Port) : FlitLoad :=
  if 512 ≤ p.retry.length then .idle
  else if p.owesCredit then .credit p.creditPayload
  else match (if p.credits.get 1 = 0 then none else s.replies.find? fun r => !r.sent && s.portFor r.ep == some n) with
    | some r => .reply r.n
    | none =>
      match (if p.credits.get 0 = 0 then none
          else s.requests.find? fun r => !s.isCarried r.1 && (r.2.bind s.portFor) == some n) with
      | some r => .request r.1
      | none => .idle

/-- A port after a new flit (R412, R413). -/
def Port.send (p : Port) (dir : Nat) (f : Flit) (bytes : List (BitVec 8)) : Port :=
  let p := match f.load with
    | .idle => p
    | .request id => { p with credits := p.credits.set 0 (p.credits.get 0 - 1), carried := p.carried ++ [id], retry := p.retry ++ [f] }
    | .reply _ => { p with credits := p.credits.set 1 (p.credits.get 1 - 1), retry := p.retry ++ [f] }
    | .credit _ => { p with received := 0, freed0 := 0, freed1 := 0, nak := false, retry := p.retry ++ [f] }
  let tx := p.tx.next dir
  ({ p with last := bytes, tx := tx, oldKeys := if tx.keyStep = p.tx.keyStep then p.oldKeys else p.oldKeys.put p.tx.keyStep p.tx.key }).forgetKeys

/-- FABRIC_FLIT_SEND (R411 to R413): a flit that must be sent again goes first, under its own number and key. -/
def execFabricFlitSend (port : Nat) (s : State) : Host.Outcome State Fault Refusal :=
  let p := s.port port
  let dir := s.txDir port
  if p.st != .up then .next s
  else
    let drawn := s.drawBytes payloadSize
    let s := drawn.1
    let payload (f : Flit) : List (BitVec 8) := match f.load with
      | .credit n => toBytes payloadSize n
      | _ => drawn.2
    match p.again with
    | f :: fs =>
      let key := if f.keyStep = p.tx.keyStep then p.tx.key else p.oldKeys.getD f.keyStep 0
      .next (s.setPort port { p with again := fs, last := flitBytes f key dir (payload f) })
    | [] =>
      let f : Flit := ⟨s.nextLoad port p, p.tx.fseq, p.tx.keyStep⟩
      let s := s.setPort port (p.send dir f (flitBytes f p.tx.key dir (payload f)))
      match f.load with
      | .reply n => .next { s with replies := s.replies.map fun (r : PeerReply) => if r.n = n then { r with sent := true } else r }
      | _ => .next s

/-- A port has asked for `n` resends, or made them: the count is reported when it passes the threshold that the Crucible sets (R12). -/
def State.countResends (s : State) (port n : Nat) : State :=
  let p := s.port port
  let s := s.setPort port { p with resends := p.resends + n }
  if p.resends ≤ s.mgmt.linkLimit ∧ s.mgmt.linkLimit < p.resends + n then s.report (.die 19 port (p.resends + n)) else s

/-- FABRIC_FLIT_RECEIVE (R411 to R413): the next flit in order; a bad CRC asks for a resend, and a bad tag makes the port FAILED. -/
def execFabricFlitReceive (port : Nat) (crcOk tagOk : Bool) (s : State) : Host.Outcome State Fault Refusal :=
  let p := s.port port
  if p.st != .up then .next s
  else if !crcOk then .next ((s.setPort port { p with nak := true, dropping := true }).countResends port 1)
  else if !tagOk then .next ((s.setPort port { p with st := .failed }).report (.die 9 port 0))
  else .next (s.setPort port { p with rx := p.rx.next (1 - s.txDir port), received := p.received + 1, dropping := false })

/-- CREDIT_FLIT (R413): credits return, flits up to the one that ACK and STEPLO name leave the retry buffer, and with NAK the rest is sent
again. -/
def execCreditFlit (port : Nat) (data : List (BitVec 8)) (nak : Bool) (s : State) : Host.Outcome State Fault Refusal :=
  let p := s.port port
  let x := ofBytes data
  if p.st != .up then .next s
  else
    let back := (p.tx.keyStep + 2 ^ 16 - bits x 79 64) % 2 ^ 16
    let step := p.tx.keyStep - back
    let left := p.retry.filter fun f => decide (step < f.keyStep) || (f.keyStep == step && decide (bits x 63 32 < f.fseq))
    let give (vc n : Nat) : BitVec 16 := BitVec.ofNat 16 (min 64 ((p.credits.get vc).toNat + n))
    let again := nak || bit x 80
    .next ((s.setPort port { p with
      credits := (p.credits.set 0 (give 0 (bits x 15 0))).set 1 (give 1 (bits x 31 16)), retry := left,
      again := if again then left else p.again.filter fun f => left.contains f }.forgetKeys).countResends port (if again then left.length else 0))

/-- FABRIC_RECAL (R433): flits wait while a direction recalibrates; nothing else changes. -/
def execFabricRecal (port : Nat) (s : State) : Host.Outcome State Fault Refusal :=
  let _ := port
  .next s

/-- FABRIC_ROUTE_TIMEOUT (R414): an access of the context has found no UP port to its peer for 100 µs. -/
def execFabricRouteTimeout (vd ctx : Nat) (s : State) : Host.Outcome State Fault Refusal :=
  let stuck (ep : Option Nat) (own : Nat × Nat) : Bool := own == (vd, ctx) && ep.any fun e => (s.portFor e).isNone
  let waits := s.flight.any (fun f => f.sent && !s.isCarried f.id && f.parts.any fun p => stuck (s.locEndpoint (f.vdev, f.ctx) p.2.2) (f.vdev, f.ctx)) ||
    s.peers.any fun r => r.answer.isNone && !s.isCarried r.id && r.parts.any fun p =>
      stuck (s.locEndpoint (s.tagOwner r.slot) p.2.2) (s.tagOwner r.slot)
  if waits && (s.ctx vd ctx).state == 1 then .next (s.containResident vd ctx .remoteUnreachable) else .next s

/-! ## Requests of peers (R416, R417, R421) -/

/-- What a peer's request comes to: an answer, or it waits, perhaps on an absent page. -/
inductive PeerEnd where
  | answer (s : State) (ok : Bool) (data : List (BitVec 8))
  | wait (s : State) (parked : Option (Nat × Nat))

/-- The operation of a request's kind. -/
def peerOp (kind : Nat) : FifoKind :=
  if kind = 3 then .atom 6 2 else if kind = 4 then .atom 0 2 else if kind = 5 then .cas else .atom ((kind - 16) % 16) ((kind - 16) / 16)

/-- The export allows the request (R416). -/
def Endpoint.exports (e : Endpoint) (kind : Nat) : Bool := if kind = 0 then e.exr else if kind ≤ 2 then e.exw else e.exa

/-- The outcome of an access for a peer: a T cause is counted at the target, an F cause contains it (R416); one that parks again keeps its
number, `parked` (R296). -/
def peerAccess {α : Type} (wr : Bool) (w : Agent) (parked : Option (Nat × Nat)) (r : State × Except EngStop α) (f : State → α → PeerEnd) : PeerEnd :=
  match r with
  | (s, .ok x) => f s x
  | (s, .error .hold) => .wait s parked
  | (s, .error (.absent ea gpa)) =>
    match s.agentPark w wr ea gpa ((parked.filter fun q => q.1 == coreDie w.core).map Prod.snd) with
    | none => .wait s parked
    | some (s, q) => .wait s (some (coreDie w.core, q))
  | (s, .error (.cause c ea)) =>
    if c.kind = .F then .answer (s.contain w.vdev w.ctx c .endpoint ea) false []
    else
      let x := s.ctx w.vdev w.ctx
      .answer (s.setCtx w.vdev w.ctx { x with peerBad := x.peerBad + 1 }) false []

/-- Perform a request at its target (R416, R417). -/
def State.servePeer (s : State) (r : PeerIn) : PeerEnd :=
  match s.endpoints.find r.ep with
  | none => .answer s false []
  | some e =>
    if !e.up || s.erefused.any (fun v => victimHits v e.vdev e.ctx) || decide (e.exsize * 2 ^ 21 < r.addr + r.size) || !e.exports r.kind ||
        (s.ctx e.vdev e.ctx).state != 1 then .answer s false []
    else
      let w : Agent := ⟨2 ^ 62 + r.ep, .endpoint, 0, e.vdev, e.ctx, (s.vdev e.vdev).world⟩
      let ea := e.exbase + r.addr
      if r.kind = 0 then peerAccess false w r.parked (eitherDie w fun w => s.agentRead w ea r.size) fun s bs => .answer s true bs
      else if r.kind ≤ 2 then peerAccess true w r.parked (eitherDie w fun w => s.agentWrite w ea (r.data.take r.size)) fun s _ => .answer s true []
      else if r.size = 0 ∨ ea % r.size ≠ 0 then .answer s false []
      else peerAccess true w r.parked (eitherDie w fun w => s.agentLoc w .rmw ea) fun s l =>
        if attrCC l.attr || attrHostCache l.attr || l.isPeer then peerAccess (α := Unit) true w none (s, .error (.cause .atomicType ea)) fun s _ => .answer s false []
        else
          let a : Acc := ⟨0, 0, BitVec.ofNat 64 ea, r.size, (if r.kind = 5 then r.data.drop r.size else r.data).take r.size, r.data.take r.size⟩
          match s.performPart (peerOp r.kind) (0, a, l) with
          | .error c => peerAccess (α := Unit) true w none (s, .error (.cause c ea)) fun s _ => .answer s false []
          | .ok (s, olds) => .answer (s.dropL1 l.place r.size) true (olds.getD 0 [])

/-- A request waits for an earlier one of its pair: to the same line, or any when it is a releasing one (R417). -/
def PeerIn.behind (r x : PeerIn) : Bool :=
  r.ep == x.ep && (r.kind == 2 || r.kind == 3 || r.kind == 4 || (decide (r.addr / 64 ≤ (x.addr + x.size) / 64) && decide (x.addr / 64 ≤ (r.addr + r.size) / 64)))

/-- PEER_REQUEST (R416, R417): it is performed and answered, or it waits. -/
def execPeerRequest (ep kind addr size : Nat) (data : List (BitVec 8)) (s : State) : Host.Outcome State Fault Refusal :=
  let r : PeerIn := ⟨ep, kind, addr, size, data, none⟩
  let s := match s.portFor ep with
    | some n => s.setPort n { s.port n with freed0 := (s.port n).freed0 + 1 }
    | none => s
  if s.incoming.any fun x => r.behind x then .next { s with incoming := s.incoming ++ [r] }
  else match s.servePeer r with
    | .answer s ok bs => .next (s.answerPeer ep ok bs)
    | .wait s q => .next { s with incoming := s.incoming ++ [{ r with parked := q }] }

/-- The incoming request that can be tried again: its page has come, and nothing before it of its pair holds it back. -/
def State.retryable (s : State) : List PeerIn → List PeerIn → Option PeerIn
  | _, [] => none
  | before, r :: rs =>
    if !before.any (fun x => r.behind x) && !r.parked.any (fun p => s.isParked p.1 p.2) then some r else s.retryable (before ++ [r]) rs

/-- Try a waiting request again (R296, R416). -/
def State.retryPeer (s : State) (r : PeerIn) : State :=
  let i := indexIn r s.incoming
  match s.servePeer r with
  | .answer s ok bs => { s with incoming := s.incoming.eraseIdx i }.answerPeer r.ep ok bs
  | .wait s q => { s with incoming := s.incoming.set i { r with parked := q } }

/-! ## Responses of peers (R416, R417) -/

/-- A peer has refused a write: PEER_XLATE goes where a T cause of its issuer goes (R169, R194, R216, R382, R391). -/
def State.peerRefused (s : State) (f : Flight) : State :=
  let ea := (f.parts.head?.map fun p => p.2.1.ea.toNat).getD 0
  let tag := f.slot
  if tag < 2 ^ 40 then
    { s with groups := s.groups.modify tag fun g => { g with imprecise := g.imprecise ++
      [{ cause := .peerXlate, addr := some (BitVec.ofNat 64 ea), replayed := false, pc := f.pc, tpc := 0, hdr := none,
         lanes := laneSet (f.parts.map fun p => p.2.1.lane).dedup, aux := 0, set := 0, gen := f.gen }] } }
  else if tag < 2 ^ 50 then
    let team := (tag - 2 ^ 40) / 16
    let ch := tag % 16
    match ((s.team team).chan ch).queue with
    | c :: _ => s.failChan team ch c.pc false .peerXlate ea
    | [] => s
  else if 2 ^ 100 ≤ tag then
    match (s.core f.core).mq.find? fun o => o.id == opOfTag tag with
    | some o => s.failOp f.core o .peerXlate ea
    | none => s
  else if tag < 2 ^ 61 then s.contain f.vdev f.ctx .peerXlate .core ea
  else if tag < 2 ^ 61 + 2 ^ 20 then
    let vd := (tag - 2 ^ 61) / 64
    let q := tag % 64
    let k := s.queue vd q
    (s.setQueue vd q (k.fail .peerXlate k.failPoint.1 k.failPoint.2)).writeStatus vd q
  else s.report (.context .peerXlate f.vdev f.ctx .packet ea)

/-- A response has come back on its port: the request is no longer carried, and its buffer is free (R413). -/
def Port.responded (p : Port) (id : Nat) : Port :=
  if p.carried.contains id then { p with carried := p.carried.filter (· != id), freed1 := p.freed1 + 1 } else p

/-- PEER_RESPONSE (R416, R417): the answer to a read or a read-modify-write is kept for its issuer; an acknowledged write is performed, and a
refused one raises PEER_XLATE. -/
def execPeerResponse (id : Nat) (ok : Bool) (data : List (BitVec 8)) (s : State) : Host.Outcome State Fault Refusal :=
  let s := { s with
    ports := s.ports.mapVals fun _ p => p.responded id,
    peers := s.peers.map fun (r : PeerReq) => if r.id == id && r.answer.isNone then { r with answer := some (if ok then some data else none) } else r }
  match s.flight.find? fun f => f.id == id && f.sent with
  | none => .next s
  | some f =>
    let s := s.landFlight id
    let s := if !ok then s.peerRefused f
      else if 2 ^ 40 ≤ f.slot then f.parts.foldl (fun s p => s.dropPeerCopies p.2.2.place p.2.1.size) s
      else s
    match s.groups.find f.slot with
    | some g => .next (s.tsyncRelease g.team)
    | none => .next s

/-- An outgoing request whose endpoint is not bound and UP: it is refused without being sent (R416, R422). -/
def State.unroutable (s : State) : Option Nat := (s.requests.find? fun r => r.2.isNone && !s.isCarried r.1).map Prod.fst

/-! ## The host port (R254, R408) -/

/-- HOST_COMPLETION (R408) for a line of host memory: its bytes; or UR (1), CA (2) or poisoned data (3), which the accesses that read the line meet. -/
def execHostCompletion (id status : Nat) (data : List (BitVec 8)) (s : State) : Host.Outcome State Fault Refusal :=
  if status = 0 then
    .next { s with
      hostBad := s.hostBad.del id,
      mem := if 2 ^ 58 ≤ id then s.mem else writeCells s.mem (Place.host (64 * id)).key (data.take 64) }
  else if status ≤ 3 then .next { s with hostBad := s.hostBad.put id status }
  else .next s

/-- HOST_COMPLETION_TIMEOUT (R408). -/
def execHostCompletionTimeout (id : Nat) (s : State) : Host.Outcome State Fault Refusal := .next { s with hostBad := s.hostBad.put id 4 }

/-- HOST_POISONED_REQUEST (R408): dropped, and reported with its requester ID. -/
def execHostPoisonedRequest (requester : Nat) (s : State) : Host.Outcome State Fault Refusal := .next (s.report (.die 11 requester 0))

/-- HOST_MEMORY_WRITE (R254): copies that the package holds are not touched. -/
def execHostMemoryWrite (addr : Nat) (data : List (BitVec 8)) (s : State) : Host.Outcome State Fault Refusal :=
  .next { s with mem := writeCells s.mem (Place.host addr).key (data.take (2 ^ 64 - addr)) }

/-! ## Measurements (R367, R368) -/

/-- SHA-256 as bytes, the most significant first. -/
def digest (bs : List (BitVec 8)) : List (BitVec 8) := (toBytes 32 (Config.sha256 bs).toNat).reverse

/-- The image that runs, by key. -/
def State.runs (s : State) (k : Nat) : List (BitVec 8) := s.mgmt.running.getD k []

/-- Measurement 4 of a stack; zero when it is absent. -/
def State.measure4 (s : State) (n : Nat) : List (BitVec 8) := if (s.stack n).absent then List.replicate 32 0 else digest (s.runs (16 + n))

/-- Measurement 5: the feature set. -/
def State.measure5 (s : State) : List (BitVec 8) := digest (toBytes 32 s.mgmt.featEn.toNat)

/-- Measurement 6: the way maps, and the world of each virtual device (DESIGN CHOICE: log 16). -/
def State.measure6 (s : State) : List (BitVec 8) :=
  digest (([0, 1].flatMap fun d => (List.range 16).flatMap fun n => toBytes 2 ((s.die d).ways.get n).toNat) ++
    (List.range 1024).flatMap fun v => toBytes 2 (s.vdev (v + 1)).world)

/-- A signature as bytes, r then s. -/
def signature (bs : List (BitVec 8)) : List (BitVec 8) := (toBytes 64 (Config.sign (Config.sha256 bs)).toNat).reverse

/-- The 528 bytes of a world report (R368). -/
def State.worldReport (s : State) (vd : Nat) : List (BitVec 8) :=
  let d := s.vdev vd
  let fitted := ((List.range 8).filter fun n => !(s.stack n).absent).length
  let body := toBytes 8 (d.world + vd * 2 ^ 16 + d.prof 0x20 28 14 * 2 ^ 32 + fitted * 2 ^ 47) ++ toBytes 8 s.gtime ++ toBytes 32 d.nonce.toNat ++
    digest Config.bootRom ++ digest (s.runs 1) ++ digest (s.runs 2) ++ (List.range 8).flatMap s.measure4 ++ s.measure5 ++ s.measure6
  body ++ signature body

/-- WORLD_REPORT_REQUEST (R368, R376): the report is pending until it has been signed. -/
def execWorldReportRequest (vd : Nat) (s : State) : Host.Outcome State Fault Refusal :=
  if !s.takesWrites vd then .next (s.ignoreWrite vd)
  else .next (s.setVdev vd { s.vdev vd with repPending := true, repReady := false })

/-- The report of a device is signed and ready. -/
def State.signReport (s : State) (vd : Nat) : State :=
  s.setVdev vd { s.vdev vd with repPending := false, repReady := true, report := s.worldReport vd }

/-- SPDM_REQUEST (R367): GET_MEASUREMENTS is answered with the signed measurements (DESIGN CHOICE: log 16); what other requests are answered with is not given
(DESIGN CHOICE: log 7). -/
def execSpdmRequest (chan : Nat) (data : List (BitVec 8)) (s : State) : Host.Outcome State Fault Refusal :=
  if data.getD 1 0 = 0xE0 then
    let body := digest Config.bootRom ++ digest (s.runs 1) ++ digest (s.runs 2) ++ ((List.range 8).filter fun n => !(s.stack n).absent).flatMap s.measure4 ++
      s.measure5 ++ s.measure6
    .next { s with mgmt := { s.mgmt with spdm := s.mgmt.spdm ++ [(chan, body ++ signature body)] } }
  else
    let (s, bs) := s.drawBytes 64
    .next { s with mgmt := { s.mgmt with spdm := s.mgmt.spdm ++ [(chan, bs)] } }

end Sys2Proof.Machine
end

