-- ==== Sys2Proof/Machine/Registers.lean ====
section
/-! DEFINITION. The register regions of functions (R376, R381 to R385) and the management interface's locations (R428, R429). -/

namespace Sys2Proof.Machine

open Sys2Proof

/-! ## Writing part of a register -/

/-- A 64-bit register after a write of `size` bytes at byte `b` of it. -/
def patch (old b size val : Nat) : Nat :=
  let lo := 8 * b
  old % 2 ^ lo + val % 2 ^ (8 * size) * 2 ^ lo + old / 2 ^ (lo + 8 * size) * 2 ^ (lo + 8 * size)

/-- A write has a size of 1, 2, 4 or 8 bytes and is aligned to it. -/
def sizeOk (off size : Nat) : Bool := [1, 2, 4, 8].contains size && off % size == 0

/-! ## Queue and context descriptors (R381, R383) -/

/-- The words of a queue descriptor. -/
def Queue.word (k : Queue) (n : Nat) : Nat :=
  match n with
  | 0 => k.rbase
  | 1 => k.rlog + 2 ^ 5 * k.ctx + (if k.enable then 2 ^ 9 else 0) + 2 ^ 16 * k.cvec + 2 ^ 28 * k.evec
  | 2 => k.qstat
  | _ => 0

/-- Write a word of a queue descriptor: while ENABLE is set only ENABLE is written (R383). -/
def State.writeQueueWord (s : State) (vd q n x : Nat) : Host.Outcome State Fault Refusal :=
  let k := s.queue vd q
  let put (k : Queue) : State := if k.enable then s else s.setQueue vd q k
  match n with
  | 0 => .next (put { k with rbase := bits x 55 12 * 2 ^ 12 })
  | 1 =>
    let s := put { k with rlog := bits x 4 0, ctx := bits x 8 5, cvec := bits x 27 16, evec := bits x 39 28 }
    if bit x 9 = k.enable then .next s else execQueueEnable vd q (bit x 9) s
  | 2 => .next (put { k with qstat := bits x 55 4 * 2 ^ 4 })
  | _ => .next s

/-- The words of a context descriptor. -/
def Ctx.word (x : Ctx) (n : Nat) : Nat :=
  match n with
  | 0 => x.rtroot
  | 1 => x.ptroot
  | 2 => x.tring + 2 ^ 56 * x.trlog
  | 3 => x.tcount
  | 4 => (if x.enable then 1 else 0) + (if x.schk then 2 else 0) + 2 ^ 8 * x.hangt + 2 ^ 32 * x.tvec
  | 5 => x.state + 4 * x.cause.code
  | _ => 0

/-- Write a word of a context descriptor: unless the context is DISABLED only RTROOT, PTROOT, HANGT, TVEC and ENABLE are written (R382). -/
def State.writeCtxWord (s : State) (vd c n v : Nat) : Host.Outcome State Fault Refusal :=
  let x := s.ctx vd c
  let off : Bool := x.state == 0
  match n with
  | 0 => .next (s.setCtx vd c { x with rtroot := bits v 47 9 * 2 ^ 9 })
  | 1 => .next (s.setCtx vd c { x with ptroot := bits v 47 13 * 2 ^ 13 })
  | 2 => .next (if off then s.setCtx vd c { x with tring := bits v 55 12 * 2 ^ 12, trlog := min 10 (bits v 59 56) } else s)
  | 3 => .next (if off then s.setCtx vd c { x with tcount := bits v 55 3 * 8 } else s)
  | 4 =>
    let s := s.setCtx vd c { x with schk := if off then bit v 1 else x.schk, hangt := bits v 31 8, tvec := bits v 43 32 }
    if bit v 0 = x.enable then .next s else if bit v 0 then execContextEnable vd c s else execContextTeardown vd c s
  | _ => .next s

/-! ## BAR0 of a function (R376) -/

/-- A write to the region of a function. -/
def State.writeBar (s : State) (vd off size val : Nat) : Host.Outcome State Fault Refusal :=
  if !s.takesWrites vd then .next (s.ignoreWrite vd)
  else
    let b := off % 8
    if off < 0x1000 then
      if off % 64 = 0 ∧ 4 ≤ size then execKick vd (off / 64) (val % 2 ^ 32) s
      else if off % 64 = 8 ∧ bit val 0 then execQctlReset vd (off / 64) s
      else .next s
    else if off < 0x2000 then
      let q := (off - 0x1000) / 64
      s.writeQueueWord vd q (off % 64 / 8) (patch ((s.queue vd q).word (off % 64 / 8)) b size val)
    else if off < 0x2400 then
      let c := (off - 0x2000) / 64
      s.writeCtxWord vd c (off % 64 / 8) (patch ((s.ctx vd c).word (off % 64 / 8)) b size val)
    else if off / 8 * 8 = 0x3010 then .next (s.setVdev vd { s.vdev vd with verrvec := bits (patch (s.vdev vd).verrvec b size val) 11 0 })
    else if 0x3100 ≤ off ∧ off < 0x3120 then
      let d := s.vdev vd
      let n := 8 * (off - 0x3100)
      let x := d.nonce.toNat
      .next (s.setVdev vd { d with
        nonce := BitVec.ofNat 256 (x % 2 ^ n + val % 2 ^ (8 * size) * 2 ^ n + x / 2 ^ (n + 8 * size) * 2 ^ (n + 8 * size)) })
    else if off = 0x3120 ∧ bit val 0 then execWorldReportRequest vd s
    else .next s

/-- A descriptor is shown: that of what is DISABLED reads as zero unless the device is RUNNING or STOPPED (R376). -/
def State.shows (s : State) (vd : Nat) (disabled : Bool) : Bool := s.takesWrites vd || !disabled

/-- The 64-bit word that a read of the region of a function gives (R376): zero from an ABSENT device and from reserved locations. -/
def State.readBar (s : State) (vd off : Nat) : Nat :=
  let d := s.vdev vd
  let n := off % 64 / 8
  if d.state = .absent then 0
  else if off < 0x1000 then
    let k := s.queue vd (off / 64)
    if n = 0 then k.w.toNat else if n = 2 then k.word0 else 0
  else if off < 0x2000 then
    let k := s.queue vd ((off - 0x1000) / 64)
    if s.shows vd (k.state == .disabled) then k.word n else 0
  else if off < 0x2400 then
    let x := s.ctx vd ((off - 0x2000) / 64)
    if s.shows vd (x.state == 0) then x.word n else 0
  else if off = 0x3000 then vd
  else if off = 0x3008 then d.state.ctorIdx
  else if off = 0x3010 then d.verrvec
  else if 0x3100 ≤ off ∧ off < 0x3120 then bits d.nonce.toNat (8 * (off - 0x3100) + 63) (8 * (off - 0x3100))
  else if off = 0x3120 then (if d.repReady then 1 else 0)
  else if 0x3200 ≤ off ∧ off < 0x3410 then ofBytes ((d.report.drop (off - 0x3200)).take 8)
  else 0

/-! ## The management interface (R428, R429) -/

/-- The command that a CMD stands for, carried out. -/
def runCommand (r cmd : Nat) (s : State) : Host.Outcome State Fault Refusal :=
  match cmd with
  | 0x01 => execCreate r s
  | 0x02 => execConfigure r s
  | 0x03 => execStart r s
  | 0x04 => execStop r s
  | 0x05 => execReset r s
  | 0x06 => execDestroy r s
  | 0x07 => execProfileRead r s
  | 0x08 => execMeterRead r s
  | 0x09 => execCtxKill r s
  | 0x10 => execS2map r s
  | 0x11 => execS2unmap r s
  | 0x18 => execWaymapSet r s
  | 0x19 => execProfileSet r s
  | 0x20 => execEpBind r s
  | 0x21 => execEpUnbind r s
  | 0x22 => execRouteSet r s
  | 0x23 => execPkgidSet r s
  | 0x24 => execPortKey r s
  | 0x28 => execBackingGrant r s
  | 0x30 => execRetireCore r s
  | 0x31 => execRetireRow r s
  | 0x32 => execRebuildMirror r s
  | 0x33 => execRecoverBoundary r s
  | 0x38 => execUpdateWrite r s
  | 0x39 => execUpdateActivate r s
  | 0x3A => execUpdateCommit r s
  | 0x40 => execErrlogRead r s
  | _ => execUndefinedCommand r s

/-- Write a mailbox (R429): CMD, TAG and the operands, ignored while it is BUSY; a 1 to DOORBELL submits the command. -/
def State.writeMbox (s : State) (r off size val : Nat) : Host.Outcome State Fault Refusal :=
  let m := s.mbox r
  let x := patch (if off < 8 then m.cmd + 2 ^ 32 * m.tag else (m.args.get (off / 8 - 1)).toNat) (off % 8) size val
  if off = 0x48 ∧ bit val 0 then runCommand r m.cmd s
  else if m.st = 1 then .next s
  else if off < 8 then .next (s.setMbox r { m with cmd := bits x 15 0, tag := bits x 63 32 })
  else if off < 0x48 then .next (s.setMbox r { m with args := m.args.set (off / 8 - 1) (BitVec.ofNat 64 x) })
  else .next s

/-- A write by a requester to the management interface (R425 to R431). -/
def State.writeMgmt (s : State) (r off size val : Nat) : Host.Outcome State Fault Refusal :=
  if off = 0 ∧ size = 8 then
    match bits val 63 62 with
    | 1 => execAcquire r s
    | 2 => execRenew r s
    | 3 => execRelease r s
    | _ => .next s
  else if 0x60 ≤ off ∧ off < 0x80 then
    let n := 8 * (off - 0x60)
    let x := s.mgmt.featReq.toNat
    if s.holdsLock r && !s.mgmt.featLocked then
      .next { s with mgmt := { s.mgmt with
        featReq := BitVec.ofNat 256 (x % 2 ^ n + val % 2 ^ (8 * size) * 2 ^ n + x / 2 ^ (n + 8 * size) * 2 ^ (n + 8 * size)) } }
    else .next s
  else if off = 0xA0 ∧ bit val 0 then (if s.holdsLock r then execFeatlock s else .next s)
  else if off = 0xC0 ∧ 2 ≤ size then execPowercapWrite r (bits val 11 0) s
  else if 0x100 + 0x100 * r ≤ off ∧ off < 0x200 + 0x100 * r then s.writeMbox r (off - 0x100 - 0x100 * r) size val
  else if 0x400 + 0x400 * r ≤ off ∧ off < 0x800 + 0x400 * r then
    let m := s.mbox r
    if m.st = 1 then .next s
    else .next (s.setMbox r { m with
      bulk := (List.range size).foldl (fun t i => t.set (off - 0x400 - 0x400 * r + i) (BitVec.ofNat 8 (val / 2 ^ (8 * i)))) m.bulk })
  else .next s

/-- The words of a mailbox. -/
def Mbox.word (m : Mbox) (off : Nat) : Nat :=
  if off = 0 then m.cmd + 2 ^ 32 * m.tag
  else if off < 0x48 then (m.args.get (off / 8 - 1)).toNat
  else if off = 0x50 then m.st + 2 ^ 8 * m.result + 2 ^ 16 * m.cause + 2 ^ 32 * m.tagOut
  else if 0x58 ≤ off ∧ off < 0x98 then (m.res.get (off / 8 - 11)).toNat
  else 0

/-- The 64-bit word that a requester reads from the management interface (R426, R428). -/
def State.readMgmt (s : State) (r off : Nat) : Nat :=
  let g := s.mgmt
  if off = 0 then
    (if g.held then 1 + 2 * g.owner else 0) + 4 * (if r = 0 then g.last0 else g.last1) + 2 ^ 32 * g.lease
  else if 0x40 ≤ off ∧ off < 0x60 then bits featSup.toNat (8 * (off - 0x40) + 63) (8 * (off - 0x40))
  else if 0x60 ≤ off ∧ off < 0x80 then bits g.featReq.toNat (8 * (off - 0x60) + 63) (8 * (off - 0x60))
  else if 0x80 ≤ off ∧ off < 0xA0 then bits g.featEn.toNat (8 * (off - 0x80) + 63) (8 * (off - 0x80))
  else if off = 0xC0 then g.cap
  else if off = 0xC8 then g.power + 2 ^ 16 * g.temp
  else if 0x100 + 0x100 * r ≤ off ∧ off < 0x200 + 0x100 * r then (s.mbox r).word (off - 0x100 - 0x100 * r)
  else if 0x400 + 0x400 * r ≤ off ∧ off < 0x800 + 0x400 * r then ofBytes ((s.mbox r).bytes (off - 0x400 - 0x400 * r) 8)
  else 0

/-- REGISTER_WRITE (R376, R428): a write to the region of function `vd`, or, for `vd = 2048 + r`, by requester r to the management interface
(DESIGN CHOICE: log 17). -/
def execRegisterWrite (vd off size val : Nat) (s : State) : Host.Outcome State Fault Refusal :=
  if !sizeOk off size then .next s
  else if vd ≤ 1024 then s.writeBar vd off size val
  else if vd = 2048 ∨ vd = 2049 then s.writeMgmt (vd - 2048) off size val
  else .next s

end Sys2Proof.Machine
end

