-- ==== Sys2Proof/Machine/Background.lean ====
section
/-! DEFINITION. The work of engines, the Crucible and base dies that goes on by itself: what can occur next when no event is due (DESIGN CHOICE: log 1). -/

namespace Sys2Proof.Machine

open Sys2Proof

/-- Something that can go on: an event, a management command that has been accepted, an incoming request that waits, an outgoing one that no
endpoint carries, a world report to be signed, or the compaction of a core. -/
inductive Work where
  | event (i : Instr)
  | command (r cmd : Nat)
  | retry (r : PeerIn)
  | nack (id : Nat)
  | report (vd : Nat)
  | compact (core : Nat)

/-- Do a piece of work that is no event. -/
def Work.run (x : Work) (s : State) (exec : Instr → State → Host.Outcome State Fault Refusal) : Host.Outcome State Fault Refusal :=
  match x with
  | .event i => exec i s
  | .command r cmd => runCommand r cmd s
  | .retry r => .next (s.retryPeer r)
  | .nack id => execPeerResponse id false [] s
  | .report vd => .next (s.signReport vd)
  | .compact core => execCompactWaitExpiry core s

/-- A group's loads, stores, imprecise causes and retirement (R142, R163, R169, R170, R266). -/
def Group.work (slot : Nat) (g : Group) : List Instr :=
  if g.preempted || g.stopped then []
  else
    (g.loads.map fun l => .loadReturn slot l.id) ++ (if g.fifo.isEmpty then [] else [.storeFifoPerform slot]) ++
    (if g.imprecise.isEmpty then [] else [.impreciseStoreTrap slot]) ++ (if g.done then [.groupRetire slot] else [])

/-- A record whose 512 clocks have passed, at `mhz`: its core writes it now (R151). -/
def CoalRec.due (r : CoalRec) (now mhz : Nat) : Bool := decide (r.opened + 512000 / mhz < now)

/-- A core's trap records, item queues, matrix unit and world latch (R144, R150, R151, R192). -/
def Core.work (core : Nat) (k : Core) (now mhz : Nat) : List Instr :=
  ((k.coal.find? fun r => r.due now mhz).map fun r => Instr.coalescerClose core r.seq).toList ++
  ((k.iq.filter fun q => q.2.range && !q.2.dry).map fun q => .itemQueueGrab core q.1) ++
  k.mq.flatMap fun o => [.matrixStep core o.id, .matrixComplete core o.id]

/-- A team's placing, copy channels and retirement (R209, R266). -/
def Team.work (team : Nat) (t : Team) : List Instr :=
  (if t.placed then [] else [.teamPlace team]) ++
  (t.chans.filter fun c => !c.2.queue.isEmpty).flatMap (fun c => [.copyRow team c.1, .copyComplete team c.1]) ++
  (if t.placed && t.slots.isEmpty then [.teamRetire team] else [])

/-- A core whose oldest waiting team has waited longer than COMPACT_WAIT, or in which a sub-core can be compacted now (R267). -/
def State.compactDue (s : State) (core : Nat) : Bool :=
  let k := s.core core
  if k.compacting.isEmpty then !k.compact && (s.compactAt core).any fun t => decide (t ≤ s.gtime)
  else k.compacting.any fun sub => (k.runs.find sub).isNone

/-- The walks of a die and its scheduler (R264, R292). -/
def State.dieWork (s : State) (die : Nat) : List Instr :=
  ((s.die die).walks.filter fun w => !w.2.phase.ended).map (fun w => .walkStep die w.1) ++ [.clusterPlace die]

/-- The queues of a device (R386, R388). -/
def State.queueWork (s : State) (vd : Nat) (d : VDev) : List Instr :=
  d.queues.flatMap fun k => (s.queueNext vd k.1).toList ++ (if s.wantsSlot vd k.1 then [.queueSlotGrant vd k.1] else []) ++
    (if k.2.mapped && d.state != .running then [.queueSlotRelease vd k.1] else [])

/-- Contexts that should not be on their cores, or that should be there again, and cores whose world differs (R379, R395). -/
def State.sliceWork (s : State) (vd : Nat) : List Instr := if s.holdsSlice vd then s.bringOn vd else s.preemptDevice vd

/-- Near-bank commands, units and drains (R338, R345). -/
def State.nbWork (s : State) : List Instr :=
  (s.nb.map s.nbProgress) ++ ((List.range 8).filterMap s.nbNext) ++
  (s.drains.filter fun d => d.cmds.isNone || (!d.answered && s.drained d)).map fun d => Instr.nbdrain d.header

/-- Acknowledgements of kill-and-drains (R396). -/
def State.killWork (s : State) : List Instr := s.kills.flatMap fun k => (k.waiting.filter fun n => s.acks n k.victim).map fun n => .killAck n k.victim

/-- Everything that can go on, in a fixed order (DESIGN CHOICE: log 1). -/
def State.background (s : State) : List Work :=
  if !s.mgmt.booted then [.event .boot]
  else
    let events : List Instr :=
      s.groups.flatMap (fun g => g.2.work g.1) ++ (s.flight.filter fun f => !f.sent).map (fun f => .pointOfCoherenceArrival f.id) ++
      s.cores.flatMap (fun k => s.streamWork k.1) ++ s.cores.flatMap (fun k => k.2.work k.1 s.gtime (s.clockMhz k.1).toNat) ++ s.teams.flatMap (fun t => t.2.work t.1) ++ s.dieWork 0 ++ s.dieWork 1 ++ s.nbWork ++
      (if (s.nextReq).isSome then [.pagerServe] else []) ++ (if s.pager.any PagerReq.filling then [.pagerFillComplete] else []) ++
      (s.grids.filter fun g => g.2.cause != .none || s.gridOver g.1 g.2).map (fun g => .gridComplete g.1) ++
      s.vdevs.flatMap (fun d => s.queueWork d.1 d.2) ++
      (s.keys.filter fun k => k.2.draining.isSome).map (fun k => .sequenceDrainDone k.1) ++
      ((s.vdevs.filter fun d => d.2.state != .absent).map fun d => d.2.setKey).dedup.filterMap (fun n => if s.sliceOver n then some (.sliceEnd n) else none) ++
      (s.vdevs.filter fun d => d.2.state != .absent).flatMap (fun d => s.sliceWork d.1) ++ s.killWork
    events.map Work.event ++ s.mgmt.pending.map (fun x => .command x.1 x.2) ++ (s.retryable [] s.incoming).toList.map Work.retry ++
      s.unroutable.toList.map Work.nack ++ ((s.vdevs.filter fun d => d.2.repPending).map fun d => .report d.1) ++
      (s.cores.filter fun k => s.compactDue k.1).map fun k => .compact k.1

end Sys2Proof.Machine
end

