-- ==== Sys2Proof/Machine/Control.lean ====
section
/-! DEFINITION. Control flow (R96 to R102). -/

namespace Sys2Proof.Machine

open Sys2Proof

/-- NOP (R102). -/
def execNop (t : Tail) (s : State) : Host.Outcome State Fault Refusal :=
  issue { cls := .any } t s fun _ s => .ok (s, 0)

/-- The target of a J-format word (R56). -/
def jumpTarget (pc : BitVec 56) (o : BitVec 21) : BitVec 56 := pc + (o.signExtend 56 <<< 2)

/-- The issuing group after a change. -/
def Issue.onGroup (i : Issue) (s : State) (f : Group → Group) : State :=
  { s with groups := s.groups.modify i.site.slot f }

/-- Active lanes take a target each (R96): they stand at a clause header there. -/
def Issue.transfer (i : Issue) (s : State) (target : Nat → BitVec 56) : State × BitVec 64 :=
  (i.onGroup s fun g => i.act.foldl (fun g l => g.setLane l { g.lane l with pc := target l, clause := none }) g,
   laneSet i.act)

/-- BRA (R97). -/
def execBra (o : BitVec 21) (t : Tail) (s : State) : Host.Outcome State Fault Refusal :=
  issue { cls := .scalar } t s fun i s => .ok (i.transfer s fun _ => jumpTarget i.site.pc o)

/-- A branch to a register pair (R97): ALIGN when a target of an active lane is not aligned. -/
def branchReg (a : RegField) (t : Tail) (s : State) : Host.Outcome State Fault Refusal :=
  let f : Form := { cls := .scalar, acc := { index := true }, srcs := [{ f := a, width := 2 }] }
  issue f t s fun i s =>
    let target (l : Nat) : BitVec 56 := (opd (i.readAll l f.srcs 0) 0).setWidth 56
    if i.act.any fun l => (target l).extractLsb' 0 2 != 0 then trapE .align
    else .ok (i.transfer s target)

/-- BRX (R97). -/
def execBrx (a : RegField) (t : Tail) (s : State) : Host.Outcome State Fault Refusal := branchReg a t s

/-- RET (R97). -/
def execRet (a : RegField) (t : Tail) (s : State) : Host.Outcome State Fault Refusal := branchReg a t s

/-- CALL (R97). -/
def execCall (o : BitVec 21) (t : Tail) (s : State) : Host.Outcome State Fault Refusal :=
  let d : Opnd := { f := 0, width := 2 }
  issue { cls := .scalar, dst := some d } t s fun i s =>
    let back : DWord := (i.site.pc + BitVec.ofNat 56 (4 * i.site.len)).setWidth 64
    .ok (i.transfer (i.commit s none (i.act.flatMap fun l => i.destCells l d (i.plain back).vals))
      fun _ => jumpTarget i.site.pc o)

/-- MEET (R98). A lane that takes another MEET value no longer keeps held lanes waiting (R25). -/
def execMeet (o : BitVec 21) (t : Tail) (s : State) : Host.Outcome State Fault Refusal :=
  issue { cls := .scalar } t s fun i s =>
    .ok (i.onGroup s fun g => ((g.encoded (i.act.map Stored.meet)).onLanes i.act fun x => { x with meet := jumpTarget i.site.pc o }).release, 0)

/-- MEETX (R98): the MEET values that it reads are checked (R23). -/
def execMeetx (d : RegField) (t : Tail) (s : State) : Host.Outcome State Fault Refusal :=
  let o : Opnd := { f := d, width := 2 }
  issue { cls := .scalar, acc := { index := true }, dst := some o, rule := .vOnly,
          pre := fun i => if i.act.any fun l => i.g.mismatch (.meet l) then trapR .residue 0 else .ok () } t s fun i s =>
    .ok (i.commit s none (i.act.flatMap fun l =>
      i.destCells l o (i.plain ((i.seen.lane l).meet.setWidth 64)).vals), 0)

/-- MEETR (R98). -/
def execMeetr (a : RegField) (t : Tail) (s : State) : Host.Outcome State Fault Refusal :=
  let f : Form := { cls := .scalar, acc := { index := true }, srcs := [{ f := a, width := 2 }] }
  issue f t s fun i s =>
    let v (l : Nat) : DWord := opd (i.readAll l f.srcs 0) 0
    if i.act.any fun l => (v l).extractLsb' 0 2 != 0 || (v l).extractLsb' 56 8 != 0 then trapR .meetInvalid a
    else
      .ok (i.onGroup s fun g =>
        (i.act.foldl (fun g l => g.setLane l { g.lane l with meet := (v l).setWidth 56 }) (g.encoded (i.act.map Stored.meet))).release, 0)

/-- EXIT (R100): each active lane exits; a lane held only for it is released (R25). -/
def execExit (t : Tail) (s : State) : Host.Outcome State Fault Refusal :=
  issue { cls := .scalar } t s fun i s =>
    .ok (i.onGroup s fun g => (g.onLanes i.act fun x => { x with exited := true }).release, laneSet i.act)

/-- YIELD (R100): every lane goes on to the next word, and the run ends. -/
def execYield (t : Tail) (s : State) : Host.Outcome State Fault Refusal :=
  issue { cls := .scalar } t s fun i s => .ok (s.endRun (slotCore i.site.slot) (slotSub i.site.slot), 0)

/-- TRAP and BRK (R101): the cause is raised when a lane is active. -/
def trapInstr (c : Cause) (after : Bool) (code : BitVec 14) (t : Tail) (s : State) :
    Host.Outcome State Fault Refusal :=
  issue { cls := .scalar } t s fun i s =>
    if i.act.isEmpty then .ok (s, 0)
    else .error (.trap { cause := c, aux := code.setWidth 64, after := after, leave := true })

/-- TRAP (R101): the group resumes at the word after it. -/
def execTrap (c : BitVec 14) (t : Tail) (s : State) : Host.Outcome State Fault Refusal :=
  trapInstr .softwareTrap true c t s

/-- BRK (R101): the group resumes at the BRK itself. -/
def execBrk (c : BitVec 14) (t : Tail) (s : State) : Host.Outcome State Fault Refusal :=
  trapInstr .breakpoint false c t s

end Sys2Proof.Machine
end

