-- ==== Sys2Proof/Machine/CrossLane.lean ====
section
/-! DEFINITION. Cross-lane and dual instructions (R118 to R124). -/

namespace Sys2Proof.Machine

open Sys2Proof

/-! ## XCH, BCAST and VOTE (R118 to R121) -/

/-- XCH (R119): each active lane receives the A value of a source lane, with its tangents. -/
def xchInstr (more : List RegField) (source : Nat → List (List DWord) → Int) (d a : RegField) (t : Tail) (s : State) :
    Host.Outcome State Fault Refusal :=
  laneInstr { cls := .vector, acc := { dual := true, moves := true }, dst := some { f := d }, srcs := regs (a :: more), rule := .vOnly }
    none t s
    fun i l o =>
      let n := source l o
      { vals := i.read (if 0 ≤ n ∧ n < 64 then n.toNat else l) { f := a } 0 }

/-- XCH.IDX (R119). -/
def execXchIdx (d a b : RegField) (t : Tail) (s : State) : Host.Outcome State Fault Refusal :=
  xchInstr [b] (fun _ o => (opw o 1).toNat) d a t s

/-- XCH.UP (R119). -/
def execXchUp (d a : RegField) (n : BitVec 6) (t : Tail) (s : State) : Host.Outcome State Fault Refusal :=
  xchInstr [] (fun l _ => (l : Int) - n.toNat) d a t s

/-- XCH.DOWN (R119). -/
def execXchDown (d a : RegField) (n : BitVec 6) (t : Tail) (s : State) : Host.Outcome State Fault Refusal :=
  xchInstr [] (fun l _ => (l : Int) + n.toNat) d a t s

/-- XCH.XOR (R119). -/
def execXchXor (d a : RegField) (n : BitVec 6) (t : Tail) (s : State) : Host.Outcome State Fault Refusal :=
  xchInstr [] (fun l _ => (l ^^^ n.toNat : Nat)) d a t s

/-- BCAST with the lane in a scalar (R120). -/
def execBcast (d a b : RegField) (t : Tail) (s : State) : Host.Outcome State Fault Refusal :=
  laneInstr { cls := .vector, acc := { dual := true, moves := true }, dst := some { f := d }, srcs := regs [a, b], rule := .anyS,
              bad := fun _ => !isSZ b } none t s
    fun i _ o => { vals := i.read ((opw o 1).toNat % 64) { f := a } 0 }

/-- BCAST with the lane in an immediate (R120). -/
def execBcastImm (d a : RegField) (l : BitVec 6) (t : Tail) (s : State) : Host.Outcome State Fault Refusal :=
  laneInstr { cls := .vector, acc := { dual := true, moves := true }, dst := some { f := d }, srcs := regs [a], rule := .anyS } none t s
    fun i _ _ => { vals := i.read l.toNat { f := a } 0 }

/-- The result of VOTE's mode over the active lanes (R121). -/
def voteOf (mode : Nat) (xs : List (Nat × Bool)) : DWord :=
  let one (b : Bool) : DWord := if b then 1 else 0
  match mode with
  | 0 => one (xs.any Prod.snd)
  | 1 => one (xs.all Prod.snd)
  | 2 => laneSet ((xs.filter Prod.snd).map Prod.fst)
  | 3 => BitVec.ofNat 64 (xs.filter Prod.snd).length
  | _ => one (xs.all Prod.snd || xs.all fun x => !x.2)

/-- VOTE (R121). -/
def execVote (d : RegField) (n : BitVec 1) (p v : BitVec 3) (t : Tail) (s : State) : Host.Outcome State Fault Refusal :=
  laneInstr { cls := .vector, dst := some { f := d, width := if v = 2 then 2 else 1 }, reads := [.p p.toNat],
              rule := .anyS } none t s
    fun i _ _ => i.plain (voteOf v.toNat (i.act.map fun l => (l, (i.seen.lane l).pred p.toNat != (n == 1))))

/-! ## GRED and GSCAN (R122, R123) -/

/-- A value that a reduction combines: its word, its tangents, and the active lanes that have entered it. -/
structure RedVal where
  v : Word
  ts : List Word
  lanes : List Nat
  deriving DecidableEq, Repr

/-- What GRED and GSCAN raised: for each step, the lanes that it is attributed to and its exceptions (R122, R34). -/
abbrev RedFlags := List (List Nat × BitVec 6 × BitVec 6)

/-- The identity of a reduction (R122). -/
def redIdentity (f : Nat) : Word :=
  match f with
  | 0 => 0
  | 1 => 0x7FFFFFFF
  | 2 => 0xFFFFFFFF
  | 3 => 0x80000000
  | 4 => 0
  | 5 => 0xFFFFFFFF
  | 6 => 0
  | 7 => 0
  | 8 => 0x80000000
  | 9 => 0x7F800000
  | _ => 0xFF800000

/-- One combining step of a reduction (R122): the value, its tangents, and what it raised. -/
def redStep (f : Nat) (x y : RedVal) : RedVal × RedFlags :=
  let lanes := x.lanes ++ y.lanes
  let int (v : Word) : RedVal × RedFlags := (⟨v, x.ts.map fun _ => 0, lanes⟩, [])
  let flo (r : LaneRes) : RedVal × RedFlags :=
    (⟨((r.vals.headD 0).setWidth 32), (r.vals.drop 1).map fun w => w.setWidth 32, lanes⟩, [(lanes, r.flags, r.tflags)])
  let xs : List FOpd := [⟨x.v.toNat, x.ts.map BitVec.toNat, 0, 0⟩, ⟨y.v.toNat, y.ts.map BitVec.toNat, 0, 0⟩]
  match f with
  | 0 => int (x.v + y.v)
  | 1 => int (pickInt false BitVec.toInt x.v y.v)
  | 2 => int (pickInt false unat x.v y.v)
  | 3 => int (pickInt true BitVec.toInt x.v y.v)
  | 4 => int (pickInt true unat x.v y.v)
  | 5 => int (x.v &&& y.v)
  | 6 => int (x.v ||| y.v)
  | 7 => int (x.v ^^^ y.v)
  | 8 => flo (FOp.add.lane f32 Arith.none x.ts.length xs)
  | 9 => flo (pickLane false f32 Arith.none x.ts.length xs)
  | _ => flo (pickLane true f32 Arith.none x.ts.length xs)

/-- One level of the tree: neighbours combined (R122). -/
def redLevel (f : Nat) : List RedVal → List RedVal × RedFlags
  | x :: y :: rest =>
    let r := redStep f x y
    let more := redLevel f rest
    (r.1 :: more.1, r.2 ++ more.2)
  | xs => (xs, [])

/-- The tree of R122: `n` levels. -/
def redTree (f : Nat) : Nat → List RedVal → List RedVal × RedFlags
  | 0, xs => (xs, [])
  | n + 1, xs =>
    let r := redLevel f xs
    let more := redTree f n r.1
    (more.1, r.2 ++ more.2)

/-- The value of A in a lane as GRED and GSCAN take it: the identity, with tangents +0, in a lane that is not active. -/
def Issue.redIn (i : Issue) (f : Nat) (a : RegField) (l : Nat) : RedVal :=
  if i.act.contains l then
    let x := i.read l { f := a } 0
    ⟨(x.headD 0).setWidth 32, (x.drop 1).map fun w => w.setWidth 32, [l]⟩
  else ⟨redIdentity f, i.tans.map fun _ => 0, []⟩

/-- A reduced value as a lane result. -/
def RedVal.res (x : RedVal) : LaneRes := { vals := x.v.setWidth 64 :: x.ts.map fun w => w.setWidth 64 }

/-- GRED (R122): it has tangents in a V destination only. -/
def execGred (d a : RegField) (f : BitVec 4) (t : Tail) (s : State) : Host.Outcome State Fault Refusal :=
  let o : Opnd := { f := d }
  issue { cls := .vector, acc := { dual := true, moves := decide (8 ≤ f.toNat) }, dst := some o, srcs := regs [a], rule := .anyS } t s fun i s =>
    let i := if isS d then { i with tans := [] } else i
    let r := redTree f.toNat 6 ((List.range 64).map (i.redIn f.toNat a))
    match floatFlags i false r.2 s with
    | .error e => .error e
    | .ok s => match r.1 with
      | x :: _ => .ok (i.commit s none ((i.doers o).flatMap fun l => i.destCells l o x.res.vals), 0)
      | [] => .ok (s, 0)

/-- The running combination of R123 over the active lanes. -/
def scanFrom (f : Nat) (excl : Bool) : RedVal → List RedVal → List (Nat × RedVal) × RedFlags
  | _, [] => ([], [])
  | acc, x :: xs =>
    let r := redStep f acc x
    let more := scanFrom f excl r.1 xs
    ((x.lanes.headD 0, if excl then acc else r.1) :: more.1, r.2 ++ more.2)

/-- GSCAN (R123). -/
def execGscan (d a : RegField) (f : BitVec 4) (e : BitVec 1) (t : Tail) (s : State) : Host.Outcome State Fault Refusal :=
  let o : Opnd := { f := d }
  issue { cls := .vector, acc := { dual := true, moves := decide (8 ≤ f.toNat) }, dst := some o, srcs := regs [a], rule := .vOnly } t s fun i s =>
    let r := scanFrom f.toNat (e == 1) ⟨redIdentity f.toNat, i.tans.map fun _ => 0, []⟩ (i.act.map (i.redIn f.toNat a))
    match floatFlags i false r.2 s with
    | .error x => .error x
    | .ok s => .ok (i.commit s none (r.1.flatMap fun x => i.destCells x.1 o x.2.res.vals), 0)

/-! ## Dual instructions (R124) -/

/-- A shadow number must be 1 to 4 (R124). -/
def badShadow (n : RegField) : Bool := n == 0 || decide (4 < n.toNat)

/-- DUALGET (R124). -/
def execDualget (d a n : RegField) (t : Tail) (s : State) : Host.Outcome State Fault Refusal :=
  laneInstr { cls := .vector, acc := { index := true }, dst := some { f := d }, srcs := regs [a], rule := .vOnly,
              bad := fun _ => badShadow n } none t s
    fun i _ o => i.plain ((o.getD 0 []).getD n.toNat 0)

/-- DUALSET (R124): only the shadow is written. -/
def execDualset (d a n : RegField) (t : Tail) (s : State) : Host.Outcome State Fault Refusal :=
  let f : Form := { cls := .vector, acc := { index := true }, dst := some { f := d }, srcs := regs [a], rule := .vOnly,
                    bad := fun _ => badShadow n }
  issue f t s fun i s =>
    .ok (i.commit s none (i.act.flatMap fun l =>
      match i.vreg l d with
      | some r => if n.toNat ≤ i.k then [RCell.v l (8 * r + n.toNat) (opw (i.readAll l f.srcs 0) 0)] else []
      | none => []), 0)

/-- DUALZERO (R124). -/
def execDualzero (d : RegField) (t : Tail) (s : State) : Host.Outcome State Fault Refusal :=
  issue { cls := .vector, acc := { index := true }, dst := some { f := d }, rule := .vOnly } t s fun i s =>
    .ok (i.commit s none (i.act.flatMap fun l =>
      match i.vreg l d with
      | some r => (List.range i.k).map fun j => RCell.v l (8 * r + j + 1) 0
      | none => []), 0)

end Sys2Proof.Machine
end

