-- ==== Sys2Proof/Machine/Moves.lean ====
section
/-! DEFINITION. Comparison, predicates, selection, moves, constants, special registers and index registers (R87 to
R95). -/

namespace Sys2Proof.Machine

open Sys2Proof

/-! ## Comparison and predicates (R87, R88) -/

/-- The comparison of ISETP's condition (R87). -/
def icond (c : BitVec 4) (x y : Word) : Bool :=
  match c.toNat with
  | 0 => x == y
  | 1 => x != y
  | 2 => x.slt y
  | 3 => x.sle y
  | 4 => y.slt x
  | 5 => y.sle x
  | 6 => x.ult y
  | 7 => x.ule y
  | 8 => y.ult x
  | _ => y.ule x

/-- The operands are in scalar form: one result for the group (R52). -/
def scalarOps (srcs : List RegField) : Bool := srcs.all isSZ

/-- ISETP (R87). -/
def execIsetp (c : BitVec 4) (p : BitVec 3) (a b : RegField) (t : Tail) (s : State) :
    Host.Outcome State Fault Refusal :=
  let f : Form := { cls := .lane, acc := { index := true }, srcs := [{ f := a }, { f := b }], writes := [.p p.toNat],
                    bad := fun _ => decide (10 ≤ c.toNat) }
  issue f t s fun i s =>
    .ok (i.commit s (some 4) (predCells p i.act fun l =>
      let o := i.readAll l f.srcs 0
      icond c (opw o 0) (opw o 1)), 0)

/-- The predicate instructions (R88): a Boolean of two predicates, each possibly negated, in each active lane. -/
def predInstr (f : Bool → Bool → Bool) (p : BitVec 3) (n : BitVec 1) (a : BitVec 3) (g : BitVec 1) (b : BitVec 3)
    (t : Tail) (s : State) : Host.Outcome State Fault Refusal :=
  issue { cls := .vector, reads := [.p a.toNat, .p b.toNat], writes := [.p p.toNat] } t s fun i s =>
    .ok (i.commit s (some 4) (predCells p i.act fun l =>
      let x := (i.seen.lane l).pred a.toNat != (n == 1)
      let y := (i.seen.lane l).pred b.toNat != (g == 1)
      f x y), 0)

/-- PAND (R88). -/
def execPand (p : BitVec 3) (n : BitVec 1) (a : BitVec 3) (g : BitVec 1) (b : BitVec 3) (t : Tail) (s : State) :
    Host.Outcome State Fault Refusal := predInstr (fun x y => x && y) p n a g b t s

/-- POR (R88). -/
def execPor (p : BitVec 3) (n : BitVec 1) (a : BitVec 3) (g : BitVec 1) (b : BitVec 3) (t : Tail) (s : State) :
    Host.Outcome State Fault Refusal := predInstr (fun x y => x || y) p n a g b t s

/-- PXOR (R88). -/
def execPxor (p : BitVec 3) (n : BitVec 1) (a : BitVec 3) (g : BitVec 1) (b : BitVec 3) (t : Tail) (s : State) :
    Host.Outcome State Fault Refusal := predInstr (fun x y => x != y) p n a g b t s

/-- PNOT (R88). -/
def execPnot (p : BitVec 3) (n : BitVec 1) (a : BitVec 3) (t : Tail) (s : State) : Host.Outcome State Fault Refusal :=
  predInstr (fun x _ => !x) p n a 0 0 t s

/-! ## Selection, moves and constants (R89 to R91) -/

/-- The predicate that C names for SEL (R89). -/
def selPred (m : Mods) (x : Lane) : Bool := x.pred (m.ar.c.extractLsb' 0 3).toNat != m.ar.c.getLsbD 3

/-- SEL (R89). -/
def execSel (d a b : RegField) (t : Tail) (s : State) : Host.Outcome State Fault Refusal :=
  let c : Nat := (Tail.modifiers t).ar.c.toNat % 8
  laneInstr { cls := .lane, acc := { accLogic with useC := true, moves := true }, dst := some { f := d },
              srcs := [{ f := a }, { f := b }], reads := [.p c], regC := false,
              bad := fun m => m.ar.c >>> 4 != 0 } (some 4) t s
    fun i l o =>
      let n := if isS d then i.act.headD l else l
      { vals := o.getD (if selPred i.mods (i.seen.lane n) then 0 else 1) [] }

/-- MOV (R90). -/
def execMov (d a : RegField) (t : Tail) (s : State) : Host.Outcome State Fault Refusal :=
  laneInstr { cls := .lane, acc := { accLogic with moves := true }, dst := some { f := d }, srcs := [{ f := a }] } (some 4) t s
    fun _ _ o => { vals := o.getD 0 [] }

/-- The constant of MOVI and MOVHI: 14 bits sign-extended, or 18 bits of the EXT word above them (R91). -/
def constOf (m : Mods) (l : BitVec 14) : Word :=
  match m.ext with
  | none => l.signExtend 32
  | some e => e.extractLsb' 0 18 ++ l

/-- IMM28[27:18] of a constant's EXT word must be 0 (R91). -/
def badConst (m : Mods) : Bool := m.ext.any fun e => e.extractLsb' 18 10 != 0

/-- MOVI (R91). -/
def execMovi (d : RegField) (l : BitVec 14) (t : Tail) (s : State) : Host.Outcome State Fault Refusal :=
  laneInstr { cls := .lane, acc := { accLogic with ext := true }, dst := some { f := d }, bad := badConst } (some 4) t s
    fun i _ _ => i.plain ((constOf i.mods l).setWidth 64)

/-- The cells that MOVHI writes in a lane: the odd half of the pair, and its shadows (R91). -/
def Issue.oddHalf (i : Issue) (lane : Nat) (d : RegField) (x : Word) : List RCell :=
  match i.vreg lane d with
  | some n => .v lane (8 * (n + 1)) x :: i.tans.map fun j => RCell.v lane (i.tanKey (n + 1) j) 0
  | none => if isS d then [.s (d.toNat - 95) x] else []

/-- MOVHI (R91). -/
def execMovhi (d : RegField) (l : BitVec 14) (t : Tail) (s : State) : Host.Outcome State Fault Refusal :=
  let o : Opnd := { f := d, width := 2 }
  issue { cls := .lane, acc := { accLogic with ext := true }, dst := some o, bad := badConst } t s fun i s =>
    .ok (i.commit s (some 4) ((i.doers o).flatMap fun n => i.oddHalf n d (constOf i.mods l)), 0)

/-! ## Special registers (R92, R93) -/

/-- The shape of a cluster as CLSHAPE gives it (R92): a team outside any cluster is a cluster of one. -/
def State.clusterShape (s : State) (team : Nat) : Nat :=
  match s.clusters.find (s.team team).cluster with
  | some c => c.cw + 16 * c.ch
  | none => 17

/-- The contents of a special register (R92). -/
def State.special (s : State) (i : Issue) (lane n : Nat) : DWord :=
  let core := slotCore i.site.slot
  let t := s.team i.g.team
  let r := s.gridOf i.g.team
  let gx := r.field 0x08 31 0
  let gy := r.field 0x08 63 32
  BitVec.ofNat 64 <| match n with
    | 0 => lane
    | 1 => i.g.num
    | 2 => slotSub i.site.slot
    | 3 => core
    | 4 => coreDie core
    | 5 => t.index % gx
    | 6 => t.index / gx % gy
    | 7 => t.index / gx / gy
    | 8 => gx
    | 9 => gy
    | 10 => r.field 0x10 31 0
    | 11 => t.rank
    | 12 => s.clusterShape i.g.team
    | 13 => (s.core core).clock
    | 14 => s.gtime
    | 15 => i.g.fpx.toNat
    | 16 => (s.core core).world
    | 17 => r.vdev
    | 18 => r.ctx
    | 19 => r.tangents
    | 20 => r.tstride
    | 21 => r.sramsz
    | _ => r.regb

/-- RDSP (R92, R93). -/
def execRdsp (d n : RegField) (t : Tail) (s : State) : Host.Outcome State Fault Refusal :=
  laneInstr { cls := .lane, acc := { index := true },
              dst := some { f := d, width := if n = 13 ∨ n = 14 then 2 else 1 },
              rule := if n = 0 then .vOnly else .std, bad := fun _ => decide (22 < n.toNat) } none t s
    fun i l _ => i.plain (s.special i l n.toNat)

/-- WRSP (R92, R93): FPX is the only writable register. -/
def execWrsp (a n : RegField) (t : Tail) (s : State) : Host.Outcome State Fault Refusal :=
  let f : Form := { cls := .lane, acc := { index := true }, srcs := [{ f := a }], rule := .scalarSrc,
                    bad := fun _ => n != 15 }
  issue f t s fun i s =>
    let x := opw (i.readAll (lowest i.site.set) f.srcs 0) 0
    .ok ({ s with groups := s.groups.modify i.site.slot fun g => { g with fpx := x &&& fpxMask } }, 0)

/-! ## Index registers (R94, R95) -/

/-- The window that IXSET's scalar source gives (R94). -/
def Issue.windowOf (i : Issue) (a : RegField) : BitVec 7 × BitVec 7 :=
  let w := opw (i.readAll (lowest i.site.set) [{ f := a }] 0) 0
  (w.extractLsb' 0 7, w.extractLsb' 8 7)

/-- IXSET (R94). -/
def execIxset (k : BitVec 2) (a b : RegField) (t : Tail) (s : State) : Host.Outcome State Fault Refusal :=
  let f : Form := { cls := .vector, acc := { index := true }, srcs := [{ f := a }, { f := b }],
                    bad := fun _ => !isSZ a,
                    pre := fun i =>
                      let w := i.windowOf a
                      if w.1.toNat ≤ w.2.toNat && decide (i.alloc ≤ w.2.toNat) then trapR .indexBounds a else .ok () }
  issue f t s fun i s =>
    let (lo, hi) := i.windowOf a
    .ok (i.commit s (some 4) (.win k.toNat lo hi :: i.act.map fun l =>
        RCell.ix l k.toNat ((opw (i.readAll l f.srcs 0) 1).setWidth 8)), 0)

/-- IXADD (R95). -/
def execIxadd (k : BitVec 2) (b : RegField) (t : Tail) (s : State) : Host.Outcome State Fault Refusal :=
  let f : Form := { cls := .vector, acc := { index := true }, srcs := [{ f := b }], reads := [.ix k.toNat] }
  issue f t s fun i s =>
    .ok (i.commit s (some 4) (i.act.map fun l =>
      RCell.ix l k.toNat ((i.seen.lane l).ix.get k.toNat + (opw (i.readAll l f.srcs 0) 0).setWidth 8)), 0)

end Sys2Proof.Machine
end

