-- ==== Sys2Proof/Machine/Dispatch.lean ====
section
/-! DEFINITION. One arm per constructor: what each operation or event does. -/

namespace Sys2Proof.Machine

open Sys2Proof

def exec (i : Instr) (s : State) : Host.Outcome State Fault Refusal :=
  match i with
  | .nop t => Sys2Proof.Machine.execNop t s
  | .iadd d a b t => Sys2Proof.Machine.execIadd d a b t s
  | .iaddImm d a imm t => Sys2Proof.Machine.execIaddImm d a imm t s
  | .isub d a b t => Sys2Proof.Machine.execIsub d a b t s
  | .imul d a b t => Sys2Proof.Machine.execImul d a b t s
  | .imulhiS32 d a b t => Sys2Proof.Machine.execImulhiS32 d a b t s
  | .imulhiN32 d a b t => Sys2Proof.Machine.execImulhiN32 d a b t s
  | .imad d a b t => Sys2Proof.Machine.execImad d a b t s
  | .iminS32 d a b t => Sys2Proof.Machine.execIminS32 d a b t s
  | .iminN32 d a b t => Sys2Proof.Machine.execIminN32 d a b t s
  | .imaxS32 d a b t => Sys2Proof.Machine.execImaxS32 d a b t s
  | .imaxN32 d a b t => Sys2Proof.Machine.execImaxN32 d a b t s
  | .csub d a b t => Sys2Proof.Machine.execCsub d a b t s
  | .iadd64 d a b t => Sys2Proof.Machine.execIadd64 d a b t s
  | .lea d a b t => Sys2Proof.Machine.execLea d a b t s
  | .iand d a b t => Sys2Proof.Machine.execIand d a b t s
  | .ior d a b t => Sys2Proof.Machine.execIor d a b t s
  | .ixor d a b t => Sys2Proof.Machine.execIxor d a b t s
  | .iandn d a b t => Sys2Proof.Machine.execIandn d a b t s
  | .shl d a b t => Sys2Proof.Machine.execShl d a b t s
  | .shr d a b t => Sys2Proof.Machine.execShr d a b t s
  | .sar d a b t => Sys2Proof.Machine.execSar d a b t s
  | .rot d a b t => Sys2Proof.Machine.execRot d a b t s
  | .shlImm d a n t => Sys2Proof.Machine.execShlImm d a n t s
  | .shrImm d a n t => Sys2Proof.Machine.execShrImm d a n t s
  | .sarImm d a n t => Sys2Proof.Machine.execSarImm d a n t s
  | .rotImm d a n t => Sys2Proof.Machine.execRotImm d a n t s
  | .bfx d a b t => Sys2Proof.Machine.execBfx d a b t s
  | .bfi d a b t => Sys2Proof.Machine.execBfi d a b t s
  | .iabs d a t => Sys2Proof.Machine.execIabs d a t s
  | .popc d a t => Sys2Proof.Machine.execPopc d a t s
  | .clz d a t => Sys2Proof.Machine.execClz d a t s
  | .brev d a t => Sys2Proof.Machine.execBrev d a t s
  | .isetp c p a b t => Sys2Proof.Machine.execIsetp c p a b t s
  | .pand p n a g b t => Sys2Proof.Machine.execPand p n a g b t s
  | .por p n a g b t => Sys2Proof.Machine.execPor p n a g b t s
  | .pxor p n a g b t => Sys2Proof.Machine.execPxor p n a g b t s
  | .pnot p n a t => Sys2Proof.Machine.execPnot p n a t s
  | .sel d a b t => Sys2Proof.Machine.execSel d a b t s
  | .mov d a t => Sys2Proof.Machine.execMov d a t s
  | .movi d l t => Sys2Proof.Machine.execMovi d l t s
  | .movhi d l t => Sys2Proof.Machine.execMovhi d l t s
  | .rdsp d n t => Sys2Proof.Machine.execRdsp d n t s
  | .wrsp a n t => Sys2Proof.Machine.execWrsp a n t s
  | .ixset k a b t => Sys2Proof.Machine.execIxset k a b t s
  | .ixadd k b t => Sys2Proof.Machine.execIxadd k b t s
  | .bra o t => Sys2Proof.Machine.execBra o t s
  | .brx a t => Sys2Proof.Machine.execBrx a t s
  | .call o t => Sys2Proof.Machine.execCall o t s
  | .meet o t => Sys2Proof.Machine.execMeet o t s
  | .meetx d t => Sys2Proof.Machine.execMeetx d t s
  | .meetr a t => Sys2Proof.Machine.execMeetr a t s
  | .refill d p q x t => Sys2Proof.Machine.execRefill d p q x t s
  | .ret a t => Sys2Proof.Machine.execRet a t s
  | .exit t => Sys2Proof.Machine.execExit t s
  | .yield t => Sys2Proof.Machine.execYield t s
  | .trap c t => Sys2Proof.Machine.execTrap c t s
  | .brk c t => Sys2Proof.Machine.execBrk c t s
  | .faddF32 d a b t => Sys2Proof.Machine.execFaddF32 d a b t s
  | .faddF16 d a b t => Sys2Proof.Machine.execFaddF16 d a b t s
  | .faddBf16 d a b t => Sys2Proof.Machine.execFaddBf16 d a b t s
  | .fsubF32 d a b t => Sys2Proof.Machine.execFsubF32 d a b t s
  | .fsubF16 d a b t => Sys2Proof.Machine.execFsubF16 d a b t s
  | .fsubBf16 d a b t => Sys2Proof.Machine.execFsubBf16 d a b t s
  | .fmulF32 d a b t => Sys2Proof.Machine.execFmulF32 d a b t s
  | .fmulF16 d a b t => Sys2Proof.Machine.execFmulF16 d a b t s
  | .fmulBf16 d a b t => Sys2Proof.Machine.execFmulBf16 d a b t s
  | .ffmaF32 d a b t => Sys2Proof.Machine.execFfmaF32 d a b t s
  | .ffmaF16 d a b t => Sys2Proof.Machine.execFfmaF16 d a b t s
  | .ffmaBf16 d a b t => Sys2Proof.Machine.execFfmaBf16 d a b t s
  | .fminF32 d a b t => Sys2Proof.Machine.execFminF32 d a b t s
  | .fminF16 d a b t => Sys2Proof.Machine.execFminF16 d a b t s
  | .fminBf16 d a b t => Sys2Proof.Machine.execFminBf16 d a b t s
  | .fmaxF32 d a b t => Sys2Proof.Machine.execFmaxF32 d a b t s
  | .fmaxF16 d a b t => Sys2Proof.Machine.execFmaxF16 d a b t s
  | .fmaxBf16 d a b t => Sys2Proof.Machine.execFmaxBf16 d a b t s
  | .fsetpF32 c p a b t => Sys2Proof.Machine.execFsetpF32 c p a b t s
  | .fsetpF16 c p a b t => Sys2Proof.Machine.execFsetpF16 c p a b t s
  | .fsetpBf16 c p a b t => Sys2Proof.Machine.execFsetpBf16 c p a b t s
  | .fdivF32 d a b t => Sys2Proof.Machine.execFdivF32 d a b t s
  | .fdivF16 d a b t => Sys2Proof.Machine.execFdivF16 d a b t s
  | .fdivBf16 d a b t => Sys2Proof.Machine.execFdivBf16 d a b t s
  | .padd2F16 d a b t => Sys2Proof.Machine.execPadd2F16 d a b t s
  | .padd2Bf16 d a b t => Sys2Proof.Machine.execPadd2Bf16 d a b t s
  | .pmul2F16 d a b t => Sys2Proof.Machine.execPmul2F16 d a b t s
  | .pmul2Bf16 d a b t => Sys2Proof.Machine.execPmul2Bf16 d a b t s
  | .pfma2F16 d a b t => Sys2Proof.Machine.execPfma2F16 d a b t s
  | .pfma2Bf16 d a b t => Sys2Proof.Machine.execPfma2Bf16 d a b t s
  | .frcp d a ty t => Sys2Proof.Machine.execFrcp d a ty t s
  | .frsq d a ty t => Sys2Proof.Machine.execFrsq d a ty t s
  | .fsqrt d a ty t => Sys2Proof.Machine.execFsqrt d a ty t s
  | .fexp2 d a ty t => Sys2Proof.Machine.execFexp2 d a ty t s
  | .flog2 d a ty t => Sys2Proof.Machine.execFlog2 d a ty t s
  | .fsin d a ty t => Sys2Proof.Machine.execFsin d a ty t s
  | .fcos d a ty t => Sys2Proof.Machine.execFcos d a ty t s
  | .fcvt d a c r t => Sys2Proof.Machine.execFcvt d a c r t s
  | .frndF32 d a r t => Sys2Proof.Machine.execFrndF32 d a r t s
  | .frndF16 d a r t => Sys2Proof.Machine.execFrndF16 d a r t s
  | .frndBf16 d a r t => Sys2Proof.Machine.execFrndBf16 d a r t s
  | .fclassF32 c p a t => Sys2Proof.Machine.execFclassF32 c p a t s
  | .fclassF16 c p a t => Sys2Proof.Machine.execFclassF16 c p a t s
  | .fclassBf16 c p a t => Sys2Proof.Machine.execFclassBf16 c p a t s
  | .xchIdx d a b t => Sys2Proof.Machine.execXchIdx d a b t s
  | .xchUp d a n t => Sys2Proof.Machine.execXchUp d a n t s
  | .xchDown d a n t => Sys2Proof.Machine.execXchDown d a n t s
  | .xchXor d a n t => Sys2Proof.Machine.execXchXor d a n t s
  | .vote d n p v t => Sys2Proof.Machine.execVote d n p v t s
  | .bcast d a b t => Sys2Proof.Machine.execBcast d a b t s
  | .bcastImm d a l t => Sys2Proof.Machine.execBcastImm d a l t s
  | .gred d a f t => Sys2Proof.Machine.execGred d a f t s
  | .gscan d a f e t => Sys2Proof.Machine.execGscan d a f e t s
  | .dualget d a n t => Sys2Proof.Machine.execDualget d a n t s
  | .dualset d a n t => Sys2Proof.Machine.execDualset d a n t s
  | .dualzero d t => Sys2Proof.Machine.execDualzero d t s
  | .ld d a h ty t => Sys2Proof.Machine.execLd d a h ty t s
  | .st d a h ty t => Sys2Proof.Machine.execSt d a h ty t s
  | .ldm d a h f n t => Sys2Proof.Machine.execLdm d a h f n t s
  | .stm d a h f n t => Sys2Proof.Machine.execStm d a h f n t s
  | .atom d a b t => Sys2Proof.Machine.execAtom d a b t s
  | .cas d a b t => Sys2Proof.Machine.execCas d a b t s
  | .cas128 d a b t => Sys2Proof.Machine.execCas128 d a b t s
  | .fence t => Sys2Proof.Machine.execFence t s
  | .pref l a t => Sys2Proof.Machine.execPref l a t s
  | .bufdcl n a t => Sys2Proof.Machine.execBufdcl n a t s
  | .bufset n e t => Sys2Proof.Machine.execBufset n e t s
  | .bufq d a t => Sys2Proof.Machine.execBufq d a t s
  | .barinit d a t => Sys2Proof.Machine.execBarinit d a t s
  | .barexp d a t => Sys2Proof.Machine.execBarexp d a t s
  | .bararv d a t => Sys2Proof.Machine.execBararv d a t s
  | .barwait d a t => Sys2Proof.Machine.execBarwait d a t s
  | .bartest d a t => Sys2Proof.Machine.execBartest d a t s
  | .tsync t => Sys2Proof.Machine.execTsync t s
  | .cbararv d a t => Sys2Proof.Machine.execCbararv d a t s
  | .cbarwait d a t => Sys2Proof.Machine.execCbarwait d a t s
  | .aqload n a t => Sys2Proof.Machine.execAqload n a t s
  | .aqstart a t => Sys2Proof.Machine.execAqstart a t s
  | .aqstop a t => Sys2Proof.Machine.execAqstop a t s
  | .qflush a t => Sys2Proof.Machine.execQflush a t s
  | .itempush q a t => Sys2Proof.Machine.execItempush q a t s
  | .mma d t => Sys2Proof.Machine.execMma d t s
  | .mmas d t => Sys2Proof.Machine.execMmas d t s
  | .mmz g n t => Sys2Proof.Machine.execMmz g n t s
  | .accld g n a t => Sys2Proof.Machine.execAccld g n a t s
  | .accst n a t => Sys2Proof.Machine.execAccst n a t s
  | .accmv ty u t => Sys2Proof.Machine.execAccmv ty u t s
  | .accadd g ty u t => Sys2Proof.Machine.execAccadd g ty u t s
  | .omset n a t => Sys2Proof.Machine.execOmset n a t s
  | .mstcfg n a t => Sys2Proof.Machine.execMstcfg n a t s
  | .msign n a t => Sys2Proof.Machine.execMsign n a t s
  | .mmwait t => Sys2Proof.Machine.execMmwait t s
  | .mmstat d c t => Sys2Proof.Machine.execMmstat d c t s
  | .cpy c a t => Sys2Proof.Machine.execCpy c a t s
  | .cpyt c a t => Sys2Proof.Machine.execCpyt c a t s
  | .cpyo c a t => Sys2Proof.Machine.execCpyo c a t s
  | .cpyg c a t => Sys2Proof.Machine.execCpyg c a t s
  | .cpys c a t => Sys2Proof.Machine.execCpys c a t s
  | .cpyfill c a t => Sys2Proof.Machine.execCpyfill c a t s
  | .cmcast c a t => Sys2Proof.Machine.execCmcast c a t s
  | .chwait c a t => Sys2Proof.Machine.execChwait c a t s
  | .chstat d l c t => Sys2Proof.Machine.execChstat d l c t s
  | .fmtset n a t => Sys2Proof.Machine.execFmtset n a t s
  | .fmtget d n t => Sys2Proof.Machine.execFmtget d n t s
  | .cpyp c a t => Sys2Proof.Machine.execCpyp c a t s
  | .psig c a t => Sys2Proof.Machine.execPsig c a t s
  | .nbaxpy d a t => Sys2Proof.Machine.execNbaxpy d a t s
  | .nbscal d a t => Sys2Proof.Machine.execNbscal d a t s
  | .nbadd d a t => Sys2Proof.Machine.execNbadd d a t s
  | .nbmul d a t => Sys2Proof.Machine.execNbmul d a t s
  | .nbdot d a t => Sys2Proof.Machine.execNbdot d a t s
  | .nbgemv d a t => Sys2Proof.Machine.execNbgemv d a t s
  | .nbcopy d a t => Sys2Proof.Machine.execNbcopy d a t s
  | .nbred d a t => Sys2Proof.Machine.execNbred d a t s
  | .nbfill d a t => Sys2Proof.Machine.execNbfill d a t s
  | .nbld d a t => Sys2Proof.Machine.execNbld d a t s
  | .nbst d a t => Sys2Proof.Machine.execNbst d a t s
  | .nbfence d a t => Sys2Proof.Machine.execNbfence d a t s
  | .rnginit d a t => Sys2Proof.Machine.execRnginit d a t s
  | .grab d a t => Sys2Proof.Machine.execGrab d a t s
  | .launch d a t => Sys2Proof.Machine.execLaunch d a t s
  | .join a t => Sys2Proof.Machine.execJoin a t s
  | .lstat d a t => Sys2Proof.Machine.execLstat d a t s
  | .sethdlr a t => Sys2Proof.Machine.execSethdlr a t s
  | .trapret a t => Sys2Proof.Machine.execTrapret a t s
  | .rdcause d a t => Sys2Proof.Machine.execRdcause d a t s
  | .probe d a t => Sys2Proof.Machine.execProbe d a t s
  | .seqnew d t => Sys2Proof.Machine.execSeqnew d t s
  | .seqend d a t => Sys2Proof.Machine.execSeqend d a t s
  | .runBegin sc => Sys2Proof.Machine.execRunBegin sc s
  | .loadReturn slot id => Sys2Proof.Machine.execLoadReturn slot id s
  | .storeFifoPerform slot => Sys2Proof.Machine.execStoreFifoPerform slot s
  | .impreciseStoreTrap slot => Sys2Proof.Machine.execImpreciseStoreTrap slot s
  | .streamFill slot r => Sys2Proof.Machine.execStreamFill slot r s
  | .coalescerClose core seq => Sys2Proof.Machine.execCoalescerClose core seq s
  | .preempt core vd ctx => Sys2Proof.Machine.execPreempt core vd ctx s
  | .resume core vd ctx => Sys2Proof.Machine.execResume core vd ctx s
  | .worldChange core world => Sys2Proof.Machine.execWorldChange core world s
  | .groupRetire slot => Sys2Proof.Machine.execGroupRetire slot s
  | .teamRetire team => Sys2Proof.Machine.execTeamRetire team s
  | .itemQueueGrab core q => Sys2Proof.Machine.execItemQueueGrab core q s
  | .matrixStep core op => Sys2Proof.Machine.execMatrixStep core op s
  | .matrixComplete core op => Sys2Proof.Machine.execMatrixComplete core op s
  | .copyRow team ch => Sys2Proof.Machine.execCopyRow team ch s
  | .copyComplete team ch => Sys2Proof.Machine.execCopyComplete team ch s
  | .nbColumn stack pair => Sys2Proof.Machine.execNbColumn stack pair s
  | .nbCommandComplete cmd => Sys2Proof.Machine.execNbCommandComplete cmd s
  | .nbcmd h data => Sys2Proof.Machine.execNbcmd h data s
  | .nbdrain h => Sys2Proof.Machine.execNbdrain h s
  | .walkStep die walk => Sys2Proof.Machine.execWalkStep die walk s
  | .pagerServe => Sys2Proof.Machine.execPagerServe s
  | .pagerFillComplete => Sys2Proof.Machine.execPagerFillComplete s
  | .clusterPlace die => Sys2Proof.Machine.execClusterPlace die s
  | .teamPlace team => Sys2Proof.Machine.execTeamPlace team s
  | .gridComplete grid => Sys2Proof.Machine.execGridComplete grid s
  | .queueSlotGrant vd q => Sys2Proof.Machine.execQueueSlotGrant vd q s
  | .packetFetch vd q => Sys2Proof.Machine.execPacketFetch vd q s
  | .dispatch vd q => Sys2Proof.Machine.execDispatch vd q s
  | .write vd q => Sys2Proof.Machine.execWrite vd q s
  | .signal vd q => Sys2Proof.Machine.execSignal vd q s
  | .wait vd q => Sys2Proof.Machine.execWait vd q s
  | .waitReevaluate vd q => Sys2Proof.Machine.execWaitReevaluate vd q s
  | .writeSignal vd q => Sys2Proof.Machine.execWriteSignal vd q s
  | .fencePacket vd q => Sys2Proof.Machine.execFencePacket vd q s
  | .indirect vd q => Sys2Proof.Machine.execIndirect vd q s
  | .sequenceEnd vd q => Sys2Proof.Machine.execSequenceEnd vd q s
  | .sliceEnd set => Sys2Proof.Machine.execSliceEnd set s
  | .coreKill core v => Sys2Proof.Machine.execCoreKill core v s
  | .coreDrain core v => Sys2Proof.Machine.execCoreDrain core v s
  | .matrixKill core v => Sys2Proof.Machine.execMatrixKill core v s
  | .matrixDrain core v => Sys2Proof.Machine.execMatrixDrain core v s
  | .casterKill core v => Sys2Proof.Machine.execCasterKill core v s
  | .casterDrain core v => Sys2Proof.Machine.execCasterDrain core v s
  | .nearbankKill die v => Sys2Proof.Machine.execNearbankKill die v s
  | .nearbankDrain die v => Sys2Proof.Machine.execNearbankDrain die v s
  | .walkerKill die v => Sys2Proof.Machine.execWalkerKill die v s
  | .walkerDrain die v => Sys2Proof.Machine.execWalkerDrain die v s
  | .qslotKill v => Sys2Proof.Machine.execQslotKill v s
  | .qslotDrain v => Sys2Proof.Machine.execQslotDrain v s
  | .endpointKill v => Sys2Proof.Machine.execEndpointKill v s
  | .endpointDrain v => Sys2Proof.Machine.execEndpointDrain v s
  | .killAck part v => Sys2Proof.Machine.execKillAck part v s
  | .sequenceDrainDone slot => Sys2Proof.Machine.execSequenceDrainDone slot s
  | .pointOfCoherenceArrival id => Sys2Proof.Machine.execPointOfCoherenceArrival id s
  | .kick vd q w => Sys2Proof.Machine.execKick vd q w s
  | .queueSlotRelease vd q => Sys2Proof.Machine.execQueueSlotRelease vd q s
  | .progressHang vd ctx => Sys2Proof.Machine.execProgressHang vd ctx s
  | .nbQueueFailure stack pair => Sys2Proof.Machine.execNbQueueFailure stack pair s
  | .rd64 h => Sys2Proof.Machine.execRd64 h s
  | .rd256 h => Sys2Proof.Machine.execRd256 h s
  | .wr64 h data mask => Sys2Proof.Machine.execWr64 h data mask s
  | .wr256 h data => Sys2Proof.Machine.execWr256 h data s
  | .cfgrd h => Sys2Proof.Machine.execCfgrd h s
  | .cfgwr h data => Sys2Proof.Machine.execCfgwr h data s
  | .patset h => Sys2Proof.Machine.execPatset h s
  | .stackPortBadcmd h cmd => Sys2Proof.Machine.execStackPortBadcmd h cmd s
  | .rasread h => Sys2Proof.Machine.execRasread h s
  | .patrol h => Sys2Proof.Machine.execPatrol h s
  | .patstat h => Sys2Proof.Machine.execPatstat h s
  | .engstat h => Sys2Proof.Machine.execEngstat h s
  | .imgchunk h data => Sys2Proof.Machine.execImgchunk h data s
  | .imgact h => Sys2Proof.Machine.execImgact h s
  | .qreset h => Sys2Proof.Machine.execQreset h s
  | .engcmdBadop h op => Sys2Proof.Machine.execEngcmdBadop h op s
  | .channelRecalibrate stack ch => Sys2Proof.Machine.execChannelRecalibrate stack ch s
  | .patrolRead stack => Sys2Proof.Machine.execPatrolRead stack s
  | .baseDieEngineHang stack => Sys2Proof.Machine.execBaseDieEngineHang stack s
  | .rowLinkFlit link good => Sys2Proof.Machine.execRowLinkFlit link good s
  | .linkRetrainTimeout link => Sys2Proof.Machine.execLinkRetrainTimeout link s
  | .ioLinkCut die => Sys2Proof.Machine.execIoLinkCut die s
  | .rowLinkRecal link => Sys2Proof.Machine.execRowLinkRecal link s
  | .walkTimeout die walk => Sys2Proof.Machine.execWalkTimeout die walk s
  | .remoteTimeout vd ctx => Sys2Proof.Machine.execRemoteTimeout vd ctx s
  | .compactWaitExpiry core => Sys2Proof.Machine.execCompactWaitExpiry core s
  | .qctlReset vd q => Sys2Proof.Machine.execQctlReset vd q s
  | .queueEnable vd q on => Sys2Proof.Machine.execQueueEnable vd q on s
  | .contextEnable vd ctx => Sys2Proof.Machine.execContextEnable vd ctx s
  | .contextTeardown vd ctx => Sys2Proof.Machine.execContextTeardown vd ctx s
  | .worldReportRequest vd => Sys2Proof.Machine.execWorldReportRequest vd s
  | .registerWrite vd off size val => Sys2Proof.Machine.execRegisterWrite vd off size val s
  | .functionLevelReset vd => Sys2Proof.Machine.execFunctionLevelReset vd s
  | .bucketEmpty vd => Sys2Proof.Machine.execBucketEmpty vd s
  | .bucketRecover vd => Sys2Proof.Machine.execBucketRecover vd s
  | .killAckTimeout part v => Sys2Proof.Machine.execKillAckTimeout part v s
  | .watchdogExpiry kind => Sys2Proof.Machine.execWatchdogExpiry kind s
  | .acquire r => Sys2Proof.Machine.execAcquire r s
  | .renew r => Sys2Proof.Machine.execRenew r s
  | .release r => Sys2Proof.Machine.execRelease r s
  | .leaseExpiry => Sys2Proof.Machine.execLeaseExpiry s
  | .featlock => Sys2Proof.Machine.execFeatlock s
  | .powercapWrite r w => Sys2Proof.Machine.execPowercapWrite r w s
  | .powerSample power temp => Sys2Proof.Machine.execPowerSample power temp s
  | .create r => Sys2Proof.Machine.execCreate r s
  | .configure r => Sys2Proof.Machine.execConfigure r s
  | .start r => Sys2Proof.Machine.execStart r s
  | .stop r => Sys2Proof.Machine.execStop r s
  | .reset r => Sys2Proof.Machine.execReset r s
  | .destroy r => Sys2Proof.Machine.execDestroy r s
  | .profileRead r => Sys2Proof.Machine.execProfileRead r s
  | .meterRead r => Sys2Proof.Machine.execMeterRead r s
  | .ctxKill r => Sys2Proof.Machine.execCtxKill r s
  | .s2map r => Sys2Proof.Machine.execS2map r s
  | .s2unmap r => Sys2Proof.Machine.execS2unmap r s
  | .waymapSet r => Sys2Proof.Machine.execWaymapSet r s
  | .profileSet r => Sys2Proof.Machine.execProfileSet r s
  | .epBind r => Sys2Proof.Machine.execEpBind r s
  | .epUnbind r => Sys2Proof.Machine.execEpUnbind r s
  | .routeSet r => Sys2Proof.Machine.execRouteSet r s
  | .pkgidSet r => Sys2Proof.Machine.execPkgidSet r s
  | .portKey r => Sys2Proof.Machine.execPortKey r s
  | .backingGrant r => Sys2Proof.Machine.execBackingGrant r s
  | .retireCore r => Sys2Proof.Machine.execRetireCore r s
  | .retireRow r => Sys2Proof.Machine.execRetireRow r s
  | .rebuildMirror r => Sys2Proof.Machine.execRebuildMirror r s
  | .recoverBoundary r => Sys2Proof.Machine.execRecoverBoundary r s
  | .updateWrite r => Sys2Proof.Machine.execUpdateWrite r s
  | .updateActivate r => Sys2Proof.Machine.execUpdateActivate r s
  | .updateCommit r => Sys2Proof.Machine.execUpdateCommit r s
  | .errlogRead r => Sys2Proof.Machine.execErrlogRead r s
  | .undefinedCommand r => Sys2Proof.Machine.execUndefinedCommand r s
  | .boot => Sys2Proof.Machine.execBoot s
  | .thermalTrip => Sys2Proof.Machine.execThermalTrip s
  | .fabricFlitSend port => Sys2Proof.Machine.execFabricFlitSend port s
  | .fabricFlitReceive port crcOk tagOk => Sys2Proof.Machine.execFabricFlitReceive port crcOk tagOk s
  | .creditFlit port data nak => Sys2Proof.Machine.execCreditFlit port data nak s
  | .fabricRecal port => Sys2Proof.Machine.execFabricRecal port s
  | .fabricRouteTimeout vd ctx => Sys2Proof.Machine.execFabricRouteTimeout vd ctx s
  | .peerRequest ep kind addr size data => Sys2Proof.Machine.execPeerRequest ep kind addr size data s
  | .peerResponse id ok data => Sys2Proof.Machine.execPeerResponse id ok data s
  | .hostCompletion id status data => Sys2Proof.Machine.execHostCompletion id status data s
  | .hostCompletionTimeout id => Sys2Proof.Machine.execHostCompletionTimeout id s
  | .hostPoisonedRequest requester => Sys2Proof.Machine.execHostPoisonedRequest requester s
  | .hostMemoryWrite addr data => Sys2Proof.Machine.execHostMemoryWrite addr data s
  | .spdmRequest chan data => Sys2Proof.Machine.execSpdmRequest chan data s
  | .linkRetrainDone link => Sys2Proof.Machine.execLinkRetrainDone link s
  | .powerOff => Sys2Proof.Machine.execPowerOff s

end Sys2Proof.Machine
end

