-- ==== Sys2Proof/Machine/Place.lean ====
section
/-! DEFINITION. The loading of one instruction from outside the machine (DEDUCED: log 13). -/

namespace Sys2Proof.Machine

/-- A grid record for the group of `placeWords`: one team of one group, with twelve vector blocks, 64 KiB of SRAM and every
grant in full. -/
def placeRecord : List (BitVec 8) :=
  toBytes 8 0x1000 ++ toBytes 8 (1 + 2 ^ 32) ++
  toBytes 8 (1 + 1 * 2 ^ 42 + 12 * 2 ^ 47) ++ toBytes 8 65536 ++
  toBytes 8 (64 + 16 * 2 ^ 7 + 16 * 2 ^ 12 + 16 * 2 ^ 17 + 32 * 2 ^ 22 + 64 * 2 ^ 28) ++ List.replicate 152 0

/-- The lane of `placeWords`: it stands at address 0x1004, inside a clause of ENGINE 7 with fifteen words left. -/
def placeLane : Lane :=
  ⟨0x1004, 0, 0, [], [], false, false, 1, some (0xB0000E0F, 15), false, 0⟩

/-- A group whose only live lane is lane 0, at the words to be run. -/
def placeGroup : Group :=
  { team := 0, num := 0, base := 0, lanes := [(0, placeLane)], s := [], queues := [], wins := [], fpx := 0,
    streams := [], fifo := [], loads := [], hazards := [], seq := 0, runCount := 1, runStamp := 1, wait := none,
    trap := TrapState.none, pending := none, mkept := [], imprecise := [], replay := none, readFrom := [],
    preempted := false, stopped := false, replayTo := 0 }

/-- The state with an instruction's words in host memory, mapped for a context of virtual device 1, and with a run of
one group of that context in sub-core 0 of core 0, standing at them (DEDUCED: log 13). -/
def State.placeWords (s : State) (w : Nat) : State :=
  { s with
    agenda := [], turn := 0, waiting := false, powered := true,
    mem := writeCells s.mem (Place.host 0x1000).key (toBytes 4 0xB0000E0F ++ toBytes 60 w),
    groups := s.groups.put 0 placeGroup,
    teams := s.teams.put 0 { Team.gone with slots := [0], units := [0] },
    grids := s.grids.put 0 { Grid.gone with record := placeRecord, seq := 1, vdev := 1 },
    clusters := s.clusters.put 0 ⟨0, 0, 1, 1, [0], []⟩,
    vdevs := s.vdevs.put 1 { VDev.absent with
      state := .running, ctxs := [(0, { Ctx.zero with state := 1, enable := true })] },
    bufs := s.bufs.put 0 ⟨true, true, 1, 1, 0, 1, 0⟩,
    dies := s.dies.put 0 { s.die 0 with
      tlc := [⟨1, 0, 0, 0, 0x200000, 0, 7, 2, true, .leaf true true true false 0 0, false, false⟩] },
    cores := s.cores.put 0 { s.core 0 with runs := [(0, ⟨0, 1, 0⟩)] } }

end Sys2Proof.Machine
end

