-- ==== Sys2Proof/Machine/Step.lean ====
section
/-! DEFINITION. One step of the machine (DESIGN CHOICE: log 1), and the placing of an instruction where the next step issues it. -/

namespace Sys2Proof.Machine

open Sys2Proof

/-- The run of a sub-core goes on (R55): the clause header at its PC, or the next instruction of its clause; at that boundary an imprecise cause
of the group goes first (R170). -/
def runStep (s : State) (core sc : Nat) (r : Run) : Host.Outcome State Fault Refusal :=
  match s.groups.find r.slot with
  | none => .next (s.endRun core sc)
  | some g =>
    if !g.imprecise.isEmpty then exec (.impreciseStoreTrap r.slot) s
    else match (g.lane (lowest r.set)).clause with
    | none => headerStep s core sc r g
    | some _ => match s.nextInstr r g with
      | .ok i => exec i s
      | .error e => stopAt s r g e

/-- What a package without power takes in: BOOT, and what the host writes to its own memory. -/
def Instr.withoutPower : Instr → Bool
  | .boot => true
  | .hostMemoryWrite _ _ => true
  | _ => false

/-- Package time goes on by 1 ns (R92), and what waits is looked at again. -/
def State.ticked (s : State) : State := { s with waiting := false, tick := s.tick + 1, gtime := s.gtime + 1 }

/-- The next sub-core that can issue has its turn. -/
def State.rotated (s : State) : State := { s.ticked with turn := s.nextTurn.getD s.turn }

/-- What occurs when no event is due and no run goes on: the engines' work in rotation, and a sub-core that begins a run, in turn (DESIGN CHOICE: log 1). -/
def State.chooseWork (s : State) : Option Work :=
  let ws := s.background
  let engine := ws[s.tick / 2 % ws.length]?
  let run := match s.nextTurn with
    | none => none
    | some t => if ((s.core (t / 12)).runs.find (t % 12)).isSome then none else some (Work.event (.runBegin t))
  if s.tick % 2 = 0 then engine.or run else if s.nextTurn.isSome then run else engine

/-- The work is the beginning of a run: the turn goes to its sub-core. -/
def Work.isRun : Work → Bool
  | .event (.runBegin _) => true
  | _ => false

/-- One step: the next event that is due; else the run of the sub-core that has the turn, unless it waits; else the next work of an engine or
the next sub-core's run. A package without power stops. -/
def step (s : State) : Host.Outcome State Fault Refusal :=
  match s.agenda with
  | e :: es => if s.powered || Instr.withoutPower e then exec e { s with agenda := es } else .next { s with agenda := es }
  | [] =>
    if !s.powered then .fault .noPower
    else
      match (if s.waiting then none else (s.core (s.turn / 12)).runs.find (s.turn % 12)) with
      | some r => runStep s (s.turn / 12) (s.turn % 12) r
      | none => match s.chooseWork with
        | some w => w.run (if w.isRun then s.rotated else s.ticked) exec
        | none => .next s.rotated

/-- The state with an instruction's words where the next step issues it (DEDUCED: log 13). -/
def State.withFetchWord (s : State) (nbits w : Nat) : State := s.placeWords (w % 2 ^ nbits)

end Sys2Proof.Machine
end

