-- ==== Sys2Proof/WellFormed.lean ====
section
/-! DEFINITION. Which terms are instructions and events of the part: a tail that the encoding admits (R56, R57), selecting fields that the opcode
map lists (R67 to R69), and numbers of cores, slots, devices and the like in their ranges (R1, R2, R131, R318, R376, R410). -/

namespace Sys2Proof

/-- The modifier words of a tail chain as R57 gives: bit 0 of each says whether another follows. -/
def modsOk : List Word → Bool
  | [] => true
  | [w] => !hasMore w
  | w :: ws => hasMore w && modsOk ws

/-- A tail is as the encoding row has it: at least one modifier word where the row fixes bit M at 1. -/
def tailOk (need : Bool) (t : Tail) : Bool := modsOk t.mods && (!need || !t.mods.isEmpty)

/-- A victim of kill-and-drain is a virtual device or one of its sixteen contexts (R396). -/
def victimOk (v : Victim) : Bool := decide (v.vdev ≤ 1024) && (v.ctx.all fun c => decide (c < 16))

/-- The ranges of a Stack Port request's header (R318). -/
def hdrOk (h : PortHdr) : Bool :=
  decide (h.stack < 8) && decide (h.tag < 1024) && decide (h.spa < 2 ^ 40) && decide (h.domain < 4096) && decide (h.arg < 2 ^ 59)

/-- The ranges of an engine command's header (R327). -/
def engOk (h : EngHdr) : Bool :=
  decide (h.stack < 8) && decide (h.seq < 65536) && decide (h.tag < 1024) && decide (h.domain < 4096)

/-- The CMD values that R320 lists. -/
def portCmds : List Nat := [0x01, 0x02, 0x04, 0x05, 0x08, 0x09, 0x10, 0x11, 0x12, 0x18]

/-- A term is an instruction word with its modifier words, or an event, of the part. -/
def Instr.wf : Instr → Bool
  | .nop t => tailOk false t
  | .iadd _ _ _ t => tailOk false t
  | .iaddImm _ _ _ t => tailOk false t
  | .isub _ _ _ t => tailOk false t
  | .imul _ _ _ t => tailOk false t
  | .imulhiS32 _ _ _ t => tailOk false t
  | .imulhiN32 _ _ _ t => tailOk false t
  | .imad _ _ _ t => tailOk true t
  | .iminS32 _ _ _ t => tailOk false t
  | .iminN32 _ _ _ t => tailOk false t
  | .imaxS32 _ _ _ t => tailOk false t
  | .imaxN32 _ _ _ t => tailOk false t
  | .csub _ _ _ t => tailOk false t
  | .iadd64 _ _ _ t => tailOk false t
  | .lea _ _ _ t => tailOk false t
  | .iand _ _ _ t => tailOk false t
  | .ior _ _ _ t => tailOk false t
  | .ixor _ _ _ t => tailOk false t
  | .iandn _ _ _ t => tailOk false t
  | .shl _ _ _ t => tailOk false t
  | .shr _ _ _ t => tailOk false t
  | .sar _ _ _ t => tailOk false t
  | .rot _ _ _ t => tailOk false t
  | .shlImm _ _ _ t => tailOk false t
  | .shrImm _ _ _ t => tailOk false t
  | .sarImm _ _ _ t => tailOk false t
  | .rotImm _ _ _ t => tailOk false t
  | .bfx _ _ _ t => tailOk false t
  | .bfi _ _ _ t => tailOk true t
  | .iabs _ _ t => tailOk false t
  | .popc _ _ t => tailOk false t
  | .clz _ _ t => tailOk false t
  | .brev _ _ t => tailOk false t
  | .isetp _ _ _ _ t => tailOk false t
  | .pand _ _ _ _ _ t => tailOk false t
  | .por _ _ _ _ _ t => tailOk false t
  | .pxor _ _ _ _ _ t => tailOk false t
  | .pnot _ _ _ t => tailOk false t
  | .sel _ _ _ t => tailOk true t
  | .mov _ _ t => tailOk false t
  | .movi _ _ t => tailOk false t
  | .movhi _ _ t => tailOk false t
  | .rdsp _ _ t => tailOk false t
  | .wrsp _ _ t => tailOk false t
  | .ixset _ _ _ t => tailOk false t
  | .ixadd _ _ t => tailOk false t
  | .bra _ t => tailOk false t
  | .brx _ t => tailOk false t
  | .call _ t => tailOk false t
  | .meet _ t => tailOk false t
  | .meetx _ t => tailOk false t
  | .meetr _ t => tailOk false t
  | .refill _ _ _ _ t => tailOk false t
  | .ret _ t => tailOk false t
  | .exit t => tailOk false t
  | .yield t => tailOk false t
  | .trap _ t => tailOk false t
  | .brk _ t => tailOk false t
  | .faddF32 _ _ _ t => tailOk false t
  | .faddF16 _ _ _ t => tailOk false t
  | .faddBf16 _ _ _ t => tailOk false t
  | .fsubF32 _ _ _ t => tailOk false t
  | .fsubF16 _ _ _ t => tailOk false t
  | .fsubBf16 _ _ _ t => tailOk false t
  | .fmulF32 _ _ _ t => tailOk false t
  | .fmulF16 _ _ _ t => tailOk false t
  | .fmulBf16 _ _ _ t => tailOk false t
  | .ffmaF32 _ _ _ t => tailOk true t
  | .ffmaF16 _ _ _ t => tailOk true t
  | .ffmaBf16 _ _ _ t => tailOk true t
  | .fminF32 _ _ _ t => tailOk false t
  | .fminF16 _ _ _ t => tailOk false t
  | .fminBf16 _ _ _ t => tailOk false t
  | .fmaxF32 _ _ _ t => tailOk false t
  | .fmaxF16 _ _ _ t => tailOk false t
  | .fmaxBf16 _ _ _ t => tailOk false t
  | .fsetpF32 _ _ _ _ t => tailOk false t
  | .fsetpF16 _ _ _ _ t => tailOk false t
  | .fsetpBf16 _ _ _ _ t => tailOk false t
  | .fdivF32 _ _ _ t => tailOk false t
  | .fdivF16 _ _ _ t => tailOk false t
  | .fdivBf16 _ _ _ t => tailOk false t
  | .padd2F16 _ _ _ t => tailOk false t
  | .padd2Bf16 _ _ _ t => tailOk false t
  | .pmul2F16 _ _ _ t => tailOk false t
  | .pmul2Bf16 _ _ _ t => tailOk false t
  | .pfma2F16 _ _ _ t => tailOk true t
  | .pfma2Bf16 _ _ _ t => tailOk true t
  | .frcp _ _ _ t => tailOk false t
  | .frsq _ _ _ t => tailOk false t
  | .fsqrt _ _ _ t => tailOk false t
  | .fexp2 _ _ _ t => tailOk false t
  | .flog2 _ _ _ t => tailOk false t
  | .fsin _ _ _ t => tailOk false t
  | .fcos _ _ _ t => tailOk false t
  | .fcvt _ _ c _ t => tailOk false t && decide (c.toNat < 24)
  | .frndF32 _ _ _ t => tailOk false t
  | .frndF16 _ _ _ t => tailOk false t
  | .frndBf16 _ _ _ t => tailOk false t
  | .fclassF32 _ _ _ t => tailOk false t
  | .fclassF16 _ _ _ t => tailOk false t
  | .fclassBf16 _ _ _ t => tailOk false t
  | .xchIdx _ _ _ t => tailOk false t
  | .xchUp _ _ _ t => tailOk false t
  | .xchDown _ _ _ t => tailOk false t
  | .xchXor _ _ _ t => tailOk false t
  | .vote _ _ _ v t => tailOk false t && decide (v.toNat < 5)
  | .bcast _ _ _ t => tailOk false t
  | .bcastImm _ _ _ t => tailOk false t
  | .gred _ _ f t => tailOk false t && decide (f.toNat < 11)
  | .gscan _ _ f _ t => tailOk false t && decide (f.toNat < 11)
  | .dualget _ _ _ t => tailOk false t
  | .dualset _ _ _ t => tailOk false t
  | .dualzero _ t => tailOk false t
  | .ld _ _ _ _ t => tailOk false t
  | .st _ _ _ _ t => tailOk false t
  | .ldm _ _ _ _ _ t => tailOk false t
  | .stm _ _ _ _ _ t => tailOk false t
  | .atom _ _ _ t => tailOk true t
  | .cas _ _ _ t => tailOk true t
  | .cas128 _ _ _ t => tailOk true t
  | .fence t => tailOk true t
  | .pref _ _ t => tailOk false t
  | .bufdcl _ _ t => tailOk false t
  | .bufset _ _ t => tailOk false t
  | .bufq _ _ t => tailOk false t
  | .barinit _ _ t => tailOk false t
  | .barexp _ _ t => tailOk false t
  | .bararv _ _ t => tailOk false t
  | .barwait _ _ t => tailOk false t
  | .bartest _ _ t => tailOk false t
  | .tsync t => tailOk false t
  | .cbararv _ _ t => tailOk false t
  | .cbarwait _ _ t => tailOk false t
  | .aqload _ _ t => tailOk false t
  | .aqstart _ t => tailOk false t
  | .aqstop _ t => tailOk false t
  | .qflush _ t => tailOk false t
  | .itempush _ _ t => tailOk false t
  | .mma _ t => tailOk false t
  | .mmas _ t => tailOk false t
  | .mmz _ _ t => tailOk false t
  | .accld _ _ _ t => tailOk false t
  | .accst _ _ t => tailOk false t
  | .accmv _ _ t => tailOk false t
  | .accadd _ _ _ t => tailOk false t
  | .omset _ _ t => tailOk false t
  | .mstcfg _ _ t => tailOk false t
  | .msign _ _ t => tailOk false t
  | .mmwait t => tailOk false t
  | .mmstat _ _ t => tailOk false t
  | .cpy _ _ t => tailOk true t
  | .cpyt _ _ t => tailOk true t
  | .cpyo _ _ t => tailOk true t
  | .cpyg _ _ t => tailOk true t
  | .cpys _ _ t => tailOk true t
  | .cpyfill _ _ t => tailOk true t
  | .cmcast _ _ t => tailOk true t
  | .chwait _ _ t => tailOk false t
  | .chstat _ _ _ t => tailOk false t
  | .fmtset _ _ t => tailOk false t
  | .fmtget _ _ t => tailOk false t
  | .cpyp _ _ t => tailOk true t
  | .psig _ _ t => tailOk true t
  | .nbaxpy _ _ t => tailOk false t
  | .nbscal _ _ t => tailOk false t
  | .nbadd _ _ t => tailOk false t
  | .nbmul _ _ t => tailOk false t
  | .nbdot _ _ t => tailOk false t
  | .nbgemv _ _ t => tailOk false t
  | .nbcopy _ _ t => tailOk false t
  | .nbred _ _ t => tailOk false t
  | .nbfill _ _ t => tailOk false t
  | .nbld _ _ t => tailOk false t
  | .nbst _ _ t => tailOk false t
  | .nbfence _ _ t => tailOk true t
  | .rnginit _ _ t => tailOk false t
  | .grab _ _ t => tailOk false t
  | .launch _ _ t => tailOk false t
  | .join _ t => tailOk false t
  | .lstat _ _ t => tailOk false t
  | .sethdlr _ t => tailOk false t
  | .trapret _ t => tailOk false t
  | .rdcause _ _ t => tailOk false t
  | .probe _ _ t => tailOk false t
  | .seqnew _ t => tailOk false t
  | .seqend _ _ t => tailOk false t
  | .runBegin sc => decide (sc < 768)
  | .loadReturn slot _ => decide (slot < 12288)
  | .storeFifoPerform slot => decide (slot < 12288)
  | .impreciseStoreTrap slot => decide (slot < 12288)
  | .streamFill slot r => decide (slot < 12288) && decide (r < 8)
  | .coalescerClose core _ => decide (core < 64)
  | .preempt core vd ctx => decide (core < 64) && decide (vd ≤ 1024) && decide (ctx < 16)
  | .resume core vd ctx => decide (core < 64) && decide (vd ≤ 1024) && decide (ctx < 16)
  | .worldChange core _ => decide (core < 64)
  | .groupRetire slot => decide (slot < 12288)
  | .teamRetire _ => true
  | .itemQueueGrab core q => decide (core < 64) && decide (q < 192)
  | .matrixStep core _ => decide (core < 64)
  | .matrixComplete core _ => decide (core < 64)
  | .copyRow _ ch => decide (ch < 16)
  | .copyComplete _ ch => decide (ch < 16)
  | .nbColumn stack pair => decide (stack < 8) && decide (pair < 2048)
  | .nbCommandComplete _ => true
  | .nbcmd h data => hdrOk h && decide (data.length = 32)
  | .nbdrain h => hdrOk h
  | .walkStep die _ => decide (die < 2)
  | .pagerServe => true
  | .pagerFillComplete => true
  | .clusterPlace die => decide (die < 2)
  | .teamPlace _ => true
  | .gridComplete _ => true
  | .queueSlotGrant vd _ => decide (vd ≤ 1024)
  | .packetFetch vd _ => decide (vd ≤ 1024)
  | .dispatch vd _ => decide (vd ≤ 1024)
  | .write vd _ => decide (vd ≤ 1024)
  | .signal vd _ => decide (vd ≤ 1024)
  | .wait vd _ => decide (vd ≤ 1024)
  | .waitReevaluate vd _ => decide (vd ≤ 1024)
  | .writeSignal vd _ => decide (vd ≤ 1024)
  | .fencePacket vd _ => decide (vd ≤ 1024)
  | .indirect vd _ => decide (vd ≤ 1024)
  | .sequenceEnd vd _ => decide (vd ≤ 1024)
  | .sliceEnd _ => true
  | .coreKill core v => decide (core < 64) && victimOk v
  | .coreDrain core v => decide (core < 64) && victimOk v
  | .matrixKill core v => decide (core < 64) && victimOk v
  | .matrixDrain core v => decide (core < 64) && victimOk v
  | .casterKill core v => decide (core < 64) && victimOk v
  | .casterDrain core v => decide (core < 64) && victimOk v
  | .nearbankKill die v => decide (die < 2) && victimOk v
  | .nearbankDrain die v => decide (die < 2) && victimOk v
  | .walkerKill die v => decide (die < 2) && victimOk v
  | .walkerDrain die v => decide (die < 2) && victimOk v
  | .qslotKill v => victimOk v
  | .qslotDrain v => victimOk v
  | .endpointKill v => victimOk v
  | .endpointDrain v => victimOk v
  | .killAck _ v => victimOk v
  | .sequenceDrainDone slot => decide (slot < 12288)
  | .pointOfCoherenceArrival _ => true
  | .kick vd _ w => decide (vd ≤ 1024) && decide (w < 2 ^ 32)
  | .queueSlotRelease vd _ => decide (vd ≤ 1024)
  | .progressHang vd ctx => decide (vd ≤ 1024) && decide (ctx < 16)
  | .nbQueueFailure stack pair => decide (stack < 8) && decide (pair < 2048)
  | .rd64 h => hdrOk h
  | .rd256 h => hdrOk h
  | .wr64 h data _ => hdrOk h && decide (data.length = 64)
  | .wr256 h data => hdrOk h && decide (data.length = 256)
  | .cfgrd h => hdrOk h
  | .cfgwr h data => hdrOk h && decide (data.length = 8)
  | .patset h => hdrOk h.hdr && decide (h.data.length = 32)
  | .stackPortBadcmd h cmd => hdrOk h && decide (cmd < 64) && !portCmds.contains cmd
  | .rasread h => engOk h
  | .patrol h => engOk h
  | .patstat h => engOk h
  | .engstat h => engOk h
  | .imgchunk h data => engOk h && decide (data.length = 48)
  | .imgact h => engOk h
  | .qreset h => engOk h
  | .engcmdBadop h op => engOk h && decide (op < 256) && decide (op = 0 ∨ 7 < op)
  | .channelRecalibrate stack ch => decide (stack < 8) && decide (ch < 32)
  | .patrolRead stack => decide (stack < 8)
  | .baseDieEngineHang stack => decide (stack < 8)
  | .rowLinkFlit link _ => decide (link < 10)
  | .linkRetrainTimeout link => decide (link < 10)
  | .ioLinkCut die => decide (die < 2)
  | .rowLinkRecal link => decide (link < 10)
  | .walkTimeout die _ => decide (die < 2)
  | .remoteTimeout vd ctx => decide (vd ≤ 1024) && decide (ctx < 16)
  | .compactWaitExpiry core => decide (core < 64)
  | .qctlReset vd _ => decide (vd ≤ 1024)
  | .queueEnable vd _ _ => decide (vd ≤ 1024)
  | .contextEnable vd ctx => decide (vd ≤ 1024) && decide (ctx < 16)
  | .contextTeardown vd ctx => decide (vd ≤ 1024) && decide (ctx < 16)
  | .worldReportRequest vd => decide (vd ≤ 1024)
  | .registerWrite vd off size val => decide (vd < 4096) && decide (off < 65536) && [1, 2, 4, 8].contains size && decide (off % size = 0) && decide (val < 2 ^ (8 * size))
  | .functionLevelReset vd => decide (vd ≤ 1024)
  | .bucketEmpty vd => decide (vd ≤ 1024)
  | .bucketRecover vd => decide (vd ≤ 1024)
  | .killAckTimeout _ v => victimOk v
  | .watchdogExpiry _ => true
  | .acquire r => decide (r < 2)
  | .renew r => decide (r < 2)
  | .release r => decide (r < 2)
  | .leaseExpiry => true
  | .featlock => true
  | .powercapWrite r w => decide (r < 2) && decide (1200 ≤ w) && decide (w ≤ 2800)
  | .powerSample _ _ => true
  | .create r => decide (r < 2)
  | .configure r => decide (r < 2)
  | .start r => decide (r < 2)
  | .stop r => decide (r < 2)
  | .reset r => decide (r < 2)
  | .destroy r => decide (r < 2)
  | .profileRead r => decide (r < 2)
  | .meterRead r => decide (r < 2)
  | .ctxKill r => decide (r < 2)
  | .s2map r => decide (r < 2)
  | .s2unmap r => decide (r < 2)
  | .waymapSet r => decide (r < 2)
  | .profileSet r => decide (r < 2)
  | .epBind r => decide (r < 2)
  | .epUnbind r => decide (r < 2)
  | .routeSet r => decide (r < 2)
  | .pkgidSet r => decide (r < 2)
  | .portKey r => decide (r < 2)
  | .backingGrant r => decide (r < 2)
  | .retireCore r => decide (r < 2)
  | .retireRow r => decide (r < 2)
  | .rebuildMirror r => decide (r < 2)
  | .recoverBoundary r => decide (r < 2)
  | .updateWrite r => decide (r < 2)
  | .updateActivate r => decide (r < 2)
  | .updateCommit r => decide (r < 2)
  | .errlogRead r => decide (r < 2)
  | .undefinedCommand r => decide (r < 2)
  | .boot => true
  | .thermalTrip => true
  | .fabricFlitSend port => decide (port < 16)
  | .fabricFlitReceive port _ _ => decide (port < 16)
  | .creditFlit port _ _ => decide (port < 16)
  | .fabricRecal port => decide (port < 16)
  | .fabricRouteTimeout vd ctx => decide (vd ≤ 1024) && decide (ctx < 16)
  | .peerRequest _ kind _ _ _ => decide (kind < 16)
  | .peerResponse _ _ _ => true
  | .hostCompletion _ _ _ => true
  | .hostCompletionTimeout _ => true
  | .hostPoisonedRequest requester => decide (requester < 65536)
  | .hostMemoryWrite addr data => decide (addr + data.length ≤ 2 ^ 64)
  | .spdmRequest chan _ => decide (chan < 2)
  | .linkRetrainDone link => decide (link < 10)
  | .powerOff => true

end Sys2Proof
end

