-- ==== Sys2Proof/Safety.lean ====
section
/-! DEFINITION. The terms in which claims about the machine are stated: what an instruction word changes and what it leaves, when a word is
ready to issue, and the canonical form of a state. -/

namespace Sys2Proof.Machine

open Sys2Proof

/-! ## Registers and frames -/

/-- The value of a cell in a group, held in the shape of the cell given. -/
abbrev Group.valueAt (g : Group) (c : RCell) : RCell := g.before c

/-- Nothing but groups and cores differs: every byte of memory, every table, queue, register and meter of the package is as it was. -/
def SameOutside (s u : State) : Prop := u = { s with groups := u.groups, cores := u.cores }

/-- What a word of one sub-core leaves alone: everything outside groups and cores; every other group; every other core; and of its own core all
but the clock and the runs. -/
structure OneGroup (s u : State) (core slot : Nat) : Prop where
  outside : SameOutside s u
  groups : ∀ n, n ≠ slot → u.groups.find n = s.groups.find n
  cores : ∀ c, c ≠ core → u.core c = s.core c
  core : u.core core = { s.core core with clock := (u.core core).clock, runs := (u.core core).runs }

/-- The results of a group that are not yet available once cells have been written with a latency and `n` clocks have passed (R64 to R66). -/
def Group.pendingAfter (g : Group) (lat : Option Nat) (pc : BitVec 56) (cs : List RCell) (n : Nat) : List Hazard := ((g.commit lat pc cs).age n).hazards

/-- A lane after a word of `n` words: one that goes on stands at the next word, inside its clause or at its end (R54). -/
def Lane.wentOn (x : Lane) (goes : Bool) (n : Nat) : Lane :=
  if goes then { x with pc := x.pc + BitVec.ofNat 56 (4 * n), clause := x.clause.bind fun c => clauseOn c n } else x

/-- The group's registers are those of `g` after the cells have been written in order; the lanes `ls` stand `n` words on; and nothing of the group
has changed but these, their codes (R22), the stamps, the replayed access, the results not yet available, which are `hz` unless the run has ended, and FPX, which is
`fpx`. -/
structure GroupWrote (g g' : Group) (ls : List Nat) (n : Nat) (cs : List RCell) (fpx : Word) (hz : List Hazard) : Prop where
  written : ∀ c, g'.valueAt c = (g.writes cs).valueAt c
  kept : ∀ c, (∀ c' ∈ cs, c'.samePlace c = false) → g'.valueAt c = g.valueAt c
  fpx : g'.fpx = fpx
  pending : g'.hazards = [] ∨ g'.hazards = hz
  rest : g' = { g with lanes := g'.lanes, s := g'.s, wins := g'.wins, hazards := g'.hazards, replay := g'.replay, fpx := g'.fpx, codes := g'.codes }
  codes : g'.codes = (g.encoded (cs.map RCell.stored)).codes
  lanes : ∀ l, g'.lane l = { (g.lane l).wentOn (ls.contains l) n with
    stamp := (g'.lane l).stamp, preds := (g'.lane l).preds, ix := (g'.lane l).ix, v := (g'.lane l).v }

/-- The lanes `ls` stand `n` words on, and nothing else of the group has changed but the stamps, the results not yet available and the replayed
access. -/
structure GroupAdvanced (g g' : Group) (ls : List Nat) (n : Nat) : Prop where
  regs : ∀ c, g'.valueAt c = g.valueAt c
  rest : g' = { g with lanes := g'.lanes, hazards := g'.hazards, replay := g'.replay }
  lanes : ∀ l, g'.lane l = { (g.lane l).wentOn (ls.contains l) n with stamp := (g'.lane l).stamp }

/-- A register write by a word of one group: the frame, and the group's registers; the word's results have the latency `lat`, and its stall count
lets `n` clocks pass. -/
structure RegWrite (s u : State) (core : Nat) (w : Site) (n : Nat) (lat : Option Nat) (cs : List RCell) (fpx : Word → Word) : Prop where
  frame : OneGroup s u core w.slot
  group : ∀ g, s.groups.find w.slot = some g → ∃ g', u.groups.find w.slot = some g' ∧
    GroupWrote g g' (lanesOf w.set) w.len cs (fpx g.fpx) (g.pendingAfter lat w.pc cs n)

/-- THE ISSUE CHECKS PASS: the sub-core that has the turn issues a word of this form, every check of R52, R57 to R64 and R70 on its class, modifier
words, operands and pending registers is met, and its queue operands have entries. `g` is the group as it stands when the word issues (R64), `fr` the frame; `s₁` is `s` with the entries popped. -/
structure Ready (f : Form) (t : Tail) (s : State) (core sc : Nat) (r : Run) (g : Group) (fr : Issue) (s₁ : State) : Prop where
  turn : ∃ g₀, s.issuing = some (core, sc, r, g₀) ∧ g = f.arrive t s r g₀
  checks : prepare f t s r g = .ok (fr, s₁)

/-- Whenever its issue checks pass, the word completes by writing these cells with this latency (none: at once), and changes nothing else. -/
def Writes (i : Instr) (t : Tail) (f : Form) (lat : Option Nat) (cells : Issue → List RCell) : Prop :=
  ∀ s core sc r g fr s₁, Ready f t s core sc r g fr s₁ →
    ∃ u, exec i s = .next u ∧ RegWrite s₁ u core fr.site (1 + t.stall.toNat) lat (cells fr) id

/-- Whenever its issue checks pass and `cond` holds, the word completes: its group becomes as `eff` says, the lanes of the set that are not among
`moved` stand at the next word, and nothing else changes. -/
def Moves (i : Instr) (t : Tail) (f : Form) (cond : Issue → Prop) (eff : Issue → Group → Prop) (moved : Issue → BitVec 64) : Prop :=
  ∀ s core sc r g fr s₁, Ready f t s core sc r g fr s₁ → cond fr →
    ∃ u g₂ g', exec i s = .next u ∧ eff fr g₂ ∧ OneGroup s₁ u core fr.site.slot ∧ u.groups.find fr.site.slot = some g' ∧
      GroupAdvanced g₂ g' (lanesOf (fr.site.set &&& ~~~(moved fr))) fr.site.len

/-- The group is `g` with its lanes changed: the lanes `ls` by `f`, no other. -/
structure LanesBecome (g g₂ : Group) (ls : List Nat) (f : Nat → Lane → Lane) : Prop where
  changed : ∀ l, g₂.lane l = if ls.contains l then f l (g.lane l) else g.lane l
  rest : g₂ = { g with lanes := g₂.lanes }

/-- The operands of a lane as 32-bit words. -/
def Issue.opWords (fr : Issue) (l : Nat) (srcs : List Opnd) (n : Nat) : Word := opw (fr.readAll l srcs 0) n

/-- The cells of a 32-bit result: in each active lane, or once for an S destination, with tangents +0 (R52, R76, R77). -/
def Issue.wordCells (fr : Issue) (d : RegField) (val : Nat → Word) : List RCell :=
  (fr.doers { f := d }).flatMap fun l => fr.destCells l { f := d } (fr.plain ((val l).setWidth 64)).vals

/-- The form of a word with 32-bit register operands. -/
def wordForm (cls : OpClass) (acc : Accept) (d : RegField) (srcs : List RegField) : Form :=
  { cls := cls, acc := acc, dst := some { f := d }, srcs := srcs.map fun r => { f := r } }

/-- An instruction on 32-bit registers whose result in each lane is this function of its modifiers and its operands' words. -/
def Computes (i : Instr) (t : Tail) (lat : Nat) (acc : Accept) (d : RegField) (srcs : List RegField) (val : Arith → (Nat → Word) → Word) : Prop :=
  Writes i t (wordForm .lane acc d srcs) (some lat) fun fr =>
    fr.wordCells d fun l => val fr.mods.ar (fr.opWords l ((wordForm .lane acc d srcs).sources fr.mods))

/-- What a lane, or a step of a reduction, contributes: the cells written, the lanes that its exceptions are attributed to, the exceptions of the
primal and those of the tangents (R34). -/
structure FloatPart where
  cells : List RCell
  lanes : List Nat
  flags : BitVec 6
  tflags : BitVec 6

/-- The exceptions of all parts (R34). -/
def flagsOf (ps : List FloatPart) : BitVec 6 := ps.foldl (fun (x : BitVec 6) p => x ||| p.flags) 0

/-- The tangent exceptions of all parts (R34). -/
def tflagsOf (ps : List FloatPart) : BitVec 6 := ps.foldl (fun (x : BitVec 6) p => x ||| p.tflags) 0

/-- Where an instruction word stands, as the exception that it takes names it. -/
def trapSite (t : Tail) (r : Run) (g : Group) : Site := siteOf r g (1 + t.mods.length) (activeLanes g.seen r.set (predOf (r.hdr g) (Tail.modifiers t)))

/-- A FLOATING-POINT WORD whenever its issue checks pass: where no exception is raised whose ENABLE bit is set, it completes by writing the cells
of its parts, ORs the exceptions into FLAGS and TFLAGS, and changes nothing else; where one is, it takes FP_TRAP with nothing written, the
exceptions and the lanes that raised an enabled one being recorded (R34). -/
def FloatWrites (i : Instr) (t : Tail) (f : Form) (lat : Option Nat) (once : Bool) (parts : Issue → List FloatPart) : Prop :=
  ∀ s core sc r g fr s₁, Ready f t s core sc r g fr s₁ →
    let ps := parts fr
    let en := fpxEnable fr.g.fpx
    (flagsOf ps &&& en = 0 → ∃ u, exec i s = .next u ∧
      RegWrite s₁ u core fr.site (1 + t.stall.toNat) lat (ps.flatMap FloatPart.cells) (fun x => fpxRaise x (flagsOf ps) (tflagsOf ps))) ∧
    (flagsOf ps &&& en ≠ 0 → exec i s = .next (s.raise (trapSite t r g)
      { cause := .fpTrap, flags := flagsOf ps, excs := flagsOf ps &&& en,
        lanes := if once then none else some (laneSet (ps.flatMap fun p => if p.flags &&& en != 0 then p.lanes else [])) }))

/-- A floating-point instruction whose result in each lane is this function of its modifiers, the number of tangents and its operands' values with
their tangents. -/
def FloatComputes (i : Instr) (t : Tail) (f : Form) (lat : Option Nat) (d : Opnd)
    (val : Arith → Nat → List (List DWord) → LaneRes) : Prop :=
  FloatWrites i t { f with dst := some d } lat (isS d.f) fun fr => (fr.doers d).map fun l =>
    let x := val fr.mods.ar fr.tans.length (fr.readAll l (f.sources fr.mods) 0)
    ⟨fr.destCells l d x.vals, [l], x.flags, x.tflags⟩

/-- A word completes whenever its issue checks pass and the conditions `ok` on the state and operands hold (`x` being the values that they name):
the state becomes what `eff` says; then, in its own group, the lanes of the set that are not among `moved` stand at the next word, the core's clock
and run go on, and nothing else changes. -/
def Does {α : Type} (i : Instr) (t : Tail) (f : Form) (ok : α → Issue → State → Prop) (eff : α → Issue → State → State)
    (moved : α → Issue → BitVec 64 := fun _ _ => 0) : Prop :=
  ∀ s core sc r g fr s₁ x, Ready f t s core sc r g fr s₁ → ok x fr s₁ →
    ∃ u, exec i s = .next u ∧ OneGroup (eff x fr s₁) u core fr.site.slot ∧
      ∀ g₂, (eff x fr s₁).groups.find fr.site.slot = some g₂ →
        ∃ g', u.groups.find fr.site.slot = some g' ∧ GroupAdvanced g₂ g' (lanesOf (fr.site.set &&& ~~~(moved x fr))) fr.site.len

/-- A word takes this exception, with nothing else of its effect, whenever its issue checks pass and the condition holds. -/
def TrapsWhen (i : Instr) (t : Tail) (f : Form) (bad : Issue → State → Prop) (tr : Issue → State → Trap) : Prop :=
  ∀ s core sc r g fr s₁, Ready f t s core sc r g fr s₁ → bad fr s₁ → exec i s = .next (s.raise (trapSite t r g) (tr fr s₁))

/-- The group has no earlier acquiring read whose value is not fixed (R250). -/
def Issue.clear (fr : Issue) : Prop := ∀ l ∈ fr.g.loads, acquires l.flav = true → l.fixed = true

/-- The access of a group is aligned, and reaches this location: a window address by the team's cluster and its declared buffers, any other by the
group's translation (R158). -/
def Reaches (s : State) (fr : Issue) (k : Access) (u : BufUse) (a : Acc) (l : Loc) : Prop :=
  a.ea.toNat % a.size = 0 ∧
  if isWindow a.ea.toNat then s.windowLoc fr.g.team u a.ea.toNat a.size = .ok l
  else ∃ n, s.lookCore (slotCore fr.site.slot) (s.owner fr.g).1 (s.owner fr.g).2 k a.ea.toNat = .ok l n

/-- The issuing group after a change of the group alone. -/
def Issue.became (fr : Issue) (s : State) (f : Group → Group) : State := { s with groups := s.groups.modify fr.site.slot f }

end Sys2Proof.Machine
end

