-- ==== Sys2Proof/Certificates/Slice0/Obligations.lean ====
section
/-! DEFINITION. The statements about the machine: what each instruction and event does where it completes, what it leaves unchanged, what taking
an exception does, what the encoding says, and what every step keeps. -/

open Sys2Proof Sys2Proof.Machine

/-- Decoding the encoded words of a well-formed instruction gives the instruction with every operand, and the words after it untouched. Cites 03 R56, 03 R57, 03 R67, 03 R68, 03 R69. -/
def Obligations.EncodingRoundTrips : Prop := ∀ (i : Instr) (ws rest : List Word),
  i.wf = true → encode i = some ws → decodeWords (ws ++ rest) = .ok (i, rest)

/-- Whatever words decode to an instruction are its encoded words, so that two different words never mean one instruction. Cites 03 R56, 03 R57, 03 R67, 03 R68, 03 R69, 03 R70. -/
def Obligations.DecodedWordsHaveOneEncoding : Prop := ∀ (ws rest : List Word) (i : Instr),
  decodeWords ws = .ok (i, rest) → ∃ pre, encode i = some pre ∧ ws = pre ++ rest ∧ modsOk (pre.drop 1) = true

/-- Words written out from the formats and the opcode map decode to the instructions they stand for. Cites 03 R56, 03 R57, 03 R67, 03 R68. -/
def Obligations.SampleWordsDecode : Prop :=
  decodeWords [0b0000001_0000011_0000001_0000010_100_0] = .ok (.iadd 3 1 2 ⟨4, []⟩, []) ∧
  decodeWords [0b0000010_0000011_0000001_1111111_000_0] = .ok (.iaddImm 3 1 (-1) ⟨0, []⟩, []) ∧
  decodeWords [0b0100101_111111111111111111111_000_0] = .ok (.bra (-1) ⟨0, []⟩, []) ∧
  decodeWords [0b1001110_0000101_0000110_101_01_00_000_0] = .ok (.fsin 5 6 1 ⟨0, []⟩, []) ∧
  decodeWords [0b0000111_0000011_0000001_0000010_000_1, 0b000_0000000_00_0_000000_0_0_000_0001001_0_0] =
    .ok (.imad 3 1 2 ⟨0, [0b000_0000000_00_0_000000_0_0_000_0001001_0_0]⟩, []) ∧
  decodeWords [0b1111111_0000000_0000000_0000000_000_0] = .error .illegalOpcode

/-- Opcode 0x4E: FN7[6:4] is the function FRCP to FCOS, FN7[3:2] the type, FN7[1:0] reserved; 7, type 3 and reserved bits trap as R68 says. States 03 R68. -/
def Obligations.FunctionOpcodeDividesFN7 : Prop := ∀ (d a f : BitVec 7) (t : Tail),
  let fn := f.toNat / 16
  let ty : BitVec 2 := f.extractLsb' 2 2
  let word : Option Instr :=
    if fn = 0 then some (.frcp d a ty t) else if fn = 1 then some (.frsq d a ty t) else if fn = 2 then some (.fsqrt d a ty t)
    else if fn = 3 then some (.fexp2 d a ty t) else if fn = 4 then some (.flog2 d a ty t) else if fn = 5 then some (.fsin d a ty t)
    else if fn = 6 then some (.fcos d a ty t) else none
  (word = none → decodeOp 0x4E d a f t = .error .illegalOpcode) ∧
  (∀ i, word = some i →
    (f.toNat % 4 = 0 → decodeOp 0x4E d a f t = .ok i) ∧ (f.toNat % 4 ≠ 0 → decodeOp 0x4E d a f t = .error (.illegalField i))) ∧
  fmtOf 0 = ⟨8, 23⟩ ∧ fmtOf 1 = ⟨5, 10⟩ ∧ fmtOf 2 = ⟨8, 7⟩ ∧
  (∀ (s : State) core sc r g, s.issuing = some (core, sc, r, g) →
    (((r.hdr g).extractLsb' 9 3).toNat = 0 ∨ ((r.hdr g).extractLsb' 9 3).toNat = 7) →
    ∀ i ∈ ([.frcp d a 3 t, .frsq d a 3 t, .fsqrt d a 3 t, .fexp2 d a 3 t, .flog2 d a 3 t, .fsin d a 3 t, .fcos d a 3 t] : List Instr),
      ∃ n, exec i s = .next (s.raise (trapSite t r (g.age n)) { cause := .illegalField }))

/-- AND, OR, XOR and ANDN are opcodes 0x0F to 0x12 in format R, accept only POV from ARITH, have latency 4, and give A & B, A | B, A ^ B and A & ~B. States 04 R83. -/
def Obligations.LogicInstructions : Prop := ∀ (d a b : RegField) (t : Tail),
  (∀ op x y z, (decodeOp op x y z t = .ok (.iand d a b t) ↔ op = 0x0F ∧ x = d ∧ y = a ∧ z = b) ∧
    (decodeOp op x y z t = .ok (.ior d a b t) ↔ op = 0x10 ∧ x = d ∧ y = a ∧ z = b) ∧
    (decodeOp op x y z t = .ok (.ixor d a b t) ↔ op = 0x11 ∧ x = d ∧ y = a ∧ z = b) ∧
    (decodeOp op x y z t = .ok (.iandn d a b t) ↔ op = 0x12 ∧ x = d ∧ y = a ∧ z = b)) ∧
  (∀ x : Arith, accLogic.arithOk x = true ↔
    x = { Arith.none with pov := x.pov, poneg := x.poneg, poidx := x.poidx }) ∧
  Computes (.iand d a b t) t 4 accLogic d [a, b] (fun _ o => o 0 &&& o 1) ∧
  Computes (.ior d a b t) t 4 accLogic d [a, b] (fun _ o => o 0 ||| o 1) ∧
  Computes (.ixor d a b t) t 4 accLogic d [a, b] (fun _ o => o 0 ^^^ o 1) ∧
  Computes (.iandn d a b t) t 4 accLogic d [a, b] (fun _ o => o 0 &&& ~~~(o 1))

/-- Every step keeps the memory's canonical form: addresses strictly rising, and no byte listed that equals what an unlisted byte reads as. Cites 00 R1, 13 R247, 07 R142. -/
def Obligations.MemoryStaysCanonical : Prop := ∀ s s' : State, Memory.wf s.mem = true → step s = .next s' → Memory.wf s'.mem = true

/-- After reset nothing is listed in memory, no group is resident, every device but the physical function is ABSENT, key slots are FREE, rows FREE, ports DOWN. Cites 04 R92, 07 R131, 07 R152, 14 R278, 15 R293, 17 R331, 19 R352, 21 R379, 23 R410, 24 R424. -/
def Obligations.ResetState : Prop :=
  let s := State.reset
  Memory.wf s.mem = true ∧ (∀ k, readCell s.mem k = 0) ∧ s.groups = [] ∧ s.grids = [] ∧ s.flight = [] ∧ s.pager = [] ∧
  (∀ v, (s.vdev v).state = .absent ∧ ∀ c, (s.ctx v c).state = 0 ∧ (s.ctx v c).hdlr = 0) ∧
  (∀ k, (s.key k).state = .free ∧ (s.key k).kgen = 0) ∧
  (∀ n spa, (s.stack n).owner spa = none) ∧ (∀ p, (s.ports.getD p Port.down).st = .down) ∧
  (∀ l, (s.links.getD l Link.up).retired = false) ∧
  (∀ c, (s.core c).recSeq = 0 ∧ (s.core c).world = 0 ∧ (s.core c).lag = 0 ∧ (s.core c).blocks = [] ∧ (s.core c).units = []) ∧
  (∀ d, (s.die d).walks = [] ∧ (s.die d).tlc = [] ∧ (s.die d).faultSeq = 0)

/-- With no event due, a step fetches the words at the issuing set's PC through translation, decodes them, and is exec of the instruction they decode to. Cites 03 R50, 03 R54, 03 R55, 03 R57, 03 R70, 15 R282. -/
def Obligations.StepRunsTheDecodedInstruction : Prop :=
  (∀ (s : State) core sc r g h left ws i rest, s.agenda = [] → s.powered = true → s.waiting = false → s.issuing = some (core, sc, r, g) → g.imprecise = [] →
    g.checkControl (lanesOf r.set) = .ok () → (g.lane (lowest r.set)).clause = some (h, left) → r.issued < 24 →
    s.fetchChain r.slot g (g.lane (lowest r.set)).pc (min left 6) = .ok ws → decodeWords ws = .ok (i, rest) → step s = exec i s) ∧
  (∀ (s : State) slot g (pc : BitVec 56) l x bs, isWindow pc.toNat = false →
    s.lookCore (slotCore slot) (s.owner g).1 (s.owner g).2 .fetch pc.toNat = .ok l x → s.readLoc l 4 = .ok bs →
    s.fetch slot g pc = .ok (BitVec.ofNat 32 (ofBytes bs))) ∧
  (∀ (s : State) slot g (pc : BitVec 56) n w, s.fetch slot g pc = .ok w →
    s.fetchChain slot g pc (n + 1) = if hasMore w then (s.fetchChain slot g (pc + 4) n).map (w :: ·) else .ok [w]) ∧
  (∀ (s : State) (e : Instr) es, s.agenda = e :: es → s.powered = true → step s = exec e { s with agenda := es })

/-- A written register reads as written, no other changes; P0 reads true and ZERO 0, writes to them discarded; a result is seen once its latency has passed. Cites 01 R15, 01 R16, 01 R20, 01 R21, 03 R66, 03 R64. -/
def Obligations.RegistersHoldWhatIsWritten : Prop :=
  (∀ (g : Group) (c : RCell), (∀ l i b, c = .p l i b → 0 < i ∧ i < 8) → (g.write c).valueAt c = c) ∧
  (∀ (g : Group) l b b', (g.write (.p l 0 b)).valueAt (.p l 0 b') = .p l 0 true) ∧
  (∀ (g : Group) (c c' : RCell), c'.samePlace c = false → (g.write c').valueAt c = g.valueAt c) ∧
  (∀ (fr : Issue) lane w n, fr.read lane { f := 126, width := w } n = List.replicate (1 + fr.tans.length) 0) ∧
  (∀ (fr : Issue) lane w vals, fr.destCells lane { f := 126, width := w } vals = []) ∧
  (∀ (g : Group) pc cs n m, g.hazards = [] → 0 < n → ∀ c,
    (m < n → ((g.commit (some n) pc cs).age m).seen.valueAt c = g.valueAt c) ∧
    (n ≤ m → ((g.commit (some n) pc cs).age m).seen.valueAt c = (g.writes cs).valueAt c) ∧
    ((g.commit none pc cs).age m).seen.valueAt c = (g.writes cs).valueAt c)

/-- An instruction word traps CLASS_MISMATCH, then ILLEGAL_FIELD, STALL_UNDERSIZED, and the operand causes, in that order, and issues where none applies. Cites 03 R52, 03 R57, 03 R59, 03 R61, 03 R66, 03 R70, 01 R17, 01 R18, 01 R27, 03 R64. -/
def Obligations.IssueChecksTrapInOrder : Prop :=
  (∀ (f : Form) (t : Tail) (s : State) r g, f.cls ≠ .near →
    f.cls.accepts (((r.hdr g).extractLsb' 9 3).toNat) (f.scalarForm (Tail.modifiers t)) = false → prepare f t s r g = .error (.trap { cause := .classMismatch })) ∧
  (∀ (f : Form) (t : Tail) (s : State) r g, f.cls ≠ .near → f.cls.accepts (((r.hdr g).extractLsb' 9 3).toNat) (f.scalarForm (Tail.modifiers t)) = true →
    f.first s r.slot g = .ok () → (Mods.parse t.mods Mods.none = none ∨ f.acc.ok (Tail.modifiers t) = false ∨ f.bad (Tail.modifiers t) = true) →
    prepare f t s r g = .error (.trap { cause := .illegalField })) ∧
  (∀ (f : Form) (t : Tail) (s : State) r g h, f.cls ≠ .near → f.cls.accepts (((r.hdr g).extractLsb' 9 3).toNat) (f.scalarForm (Tail.modifiers t)) = true →
    f.first s r.slot g = .ok () → (Mods.parse t.mods Mods.none).isSome = true → f.acc.ok (Tail.modifiers t) = true → f.bad (Tail.modifiers t) = false → (Tail.modifiers t).dual = none →
    let fr := r.frame t s g ((List.range (s.gridOf g.team).tangents).map (· + 1), 0)
    g.pendingOn (f.allNames fr (r.hdr g)) = none → g.hazardOn (f.readNames fr (r.hdr g)) = some h →
    (s.ctx (s.owner g).1 (s.owner g).2).schk = true → prepare f t s r g = .error (.trap { cause := .stallUndersized, aux := h.pc.setWidth 64 })) ∧
  (∀ (d a b : RegField) stall (s : State) core sc r g, s.issuing = some (core, sc, r, g) → ((r.hdr g).extractLsb' 9 3).toNat = 7 → g.hazards = [] →
    isV d = true → isV a = true → isV b = true →
    let i : Instr := .iadd d a b ⟨stall, []⟩
    ((a.toNat ≥ 8 * (s.gridOf g.team).regb) → exec i s = .next (s.raise (trapSite ⟨stall, []⟩ r g) { cause := .regRange, aux := a.setWidth 64 })) ∧
    (∀ n, 96 ≤ n → n < 120 → exec (.iadd (BitVec.ofNat 7 n) a b ⟨stall, []⟩) s =
      .next (s.raise (trapSite ⟨stall, []⟩ r g) { cause := .illegalDest, aux := a.setWidth 64 })) ∧
    (a.toNat < 8 * (s.gridOf g.team).regb → b.toNat < 8 * (s.gridOf g.team).regb → d.toNat < 8 * (s.gridOf g.team).regb → g.loads = [] → g.codes = [] →
      ∃ fr s₁, Ready (wordForm .lane (accArith 2) d [a, b]) ⟨stall, []⟩ s core sc r g fr s₁ ∧ fr.g = { g with unit := some 0 } ∧ s₁ = s.setGroup r.slot fr.g ∧
        fr.act = activeLanes g r.set (predOf (r.hdr g) Mods.none)))

/-- A T cause is recorded, suspends the group before the instruction and ends its run; an F cause, or any cause in trap mode, contains the context. Cites 00 R9, 00 R10, 01 R27, 07 R151, 07 R152, 15 R302, 15 R303, 15 R309. -/
def Obligations.TakingAnException : Prop := ∀ (s : State) (w : Site) (t : Trap) (g : Group),
  s.groups.find w.slot = some g →
  (t.cause.kind = .T → g.trap.active = false → t.clears = none → t.leave = false →
    ((s.core (slotCore w.slot)).coal.length < 8 ∨ ∃ x ∈ (s.core (slotCore w.slot)).coal, x.deliver = true ∧ x.cause = t.cause ∧
      x.vdev = (s.owner g).1 ∧ x.ctx = (s.owner g).2 ∧ CoalRec.mergeKey x.addr x.pc = CoalRec.mergeKey t.addr w.pc) →
    let u := s.raise w t
    u.mem = s.mem ∧ (∀ n, n ≠ w.slot → (∀ r, (s.core (slotCore w.slot)).runs.find (slotSub w.slot) = some r → r.slot ≠ n) →
      u.groups.find n = s.groups.find n) ∧
    (u.core (slotCore w.slot)).runs.find (slotSub w.slot) = none ∧
    (∃ x ∈ (u.core (slotCore w.slot)).coal, x.deliver = true ∧ (x.kind = .T ∨ ∃ y ∈ (s.core (slotCore w.slot)).coal, y.seq = x.seq) ∧
      x.cause = t.cause ∧ slotIn w.slot ∈ x.groups ∧ x.vdev = (s.owner g).1 ∧
      x.ctx = (s.owner g).2 ∧ CoalRec.mergeKey x.addr x.pc = CoalRec.mergeKey t.addr w.pc) ∧
    ∃ g' p, u.groups.find w.slot = some g' ∧ (∀ c, g'.valueAt c = g.valueAt c) ∧ g'.lanes = g.lanes ∧ g'.wait = some .trap ∧ g'.pending = some p ∧
      p.cause = t.cause ∧ p.addr = t.addr ∧ p.pc = w.pc ∧ p.tpc = (if t.after then w.pc + BitVec.ofNat 56 (4 * w.len) else w.pc) ∧
      p.set = w.set ∧ p.lanes = t.lanes.getD w.act ∧ p.aux = t.aux ∧ p.excs = t.excs ∧ g'.trap = g.trap ∧ g'.fpx = g.fpx ||| t.flags.setWidth 32) ∧
  (t.cause.kind = .F ∨ g.trap.active = true → t.clears = none →
    let u := s.raise w t
    let own := s.owner g
    (u.ctx own.1 own.2).state = 2 ∧ ((s.ctx own.1 own.2).state ≠ 2 → (u.ctx own.1 own.2).cause = t.cause) ∧
    ((s.ctx own.1 own.2).state = 2 → (u.ctx own.1 own.2).cause = (s.ctx own.1 own.2).cause) ∧ u.mem = s.mem ∧
    (∃ met, Report.context t.cause own.1 own.2 t.eng (t.addr.getD 0).toNat met ∈ u.errors) ∧
    (∀ n g', u.groups.find n = some g' → s.owner g' = own → g'.stopped = true) ∧
    (∃ x ∈ (u.core (slotCore w.slot)).coal, x.deliver = false ∧ x.cause = t.cause ∧ slotIn w.slot ∈ x.groups))

/-- The memory port checks the entry and its bounds, then its rights, then its owner: BUFFER_TABLE for the first two, OWNER_MISMATCH for the third. States 17 R329. -/
def Obligations.MemoryPortChecksThePlace : Prop :=
  (Cause.bufferTable.code = 0x28 ∧ Cause.bufferTable.kind = .F ∧ Cause.ownerMismatch.code = 0x29 ∧ Cause.ownerMismatch.kind = .F) ∧
  (∀ (s : State) (vd world ea buf off : Nat) (k : Access) (x : Xlation) rd wr pin, x.s2 = .leaf true rd wr pin buf off →
    s.leafCause vd world k x.attr = none → attrKeyed x.attr = false → (k.reads = true → rd = true) → (k.writes = true → wr = true) →
    (attrPin x.attr = true ∨ attrCC x.attr = true → pin = true) →
    let o := off + (ea - x.vlo)
    let gpa := x.gpa + (ea - x.vlo)
    (s.bufs.find buf = none → s.resolve vd world k x ea = .fault .bufferTable gpa) ∧
    ∀ b, s.bufs.find buf = some b →
      (2 ^ 21 * b.size ≤ o ∨ (k.reads = true ∧ b.rd = false) ∨ (k.writes = true ∧ b.wr = false) → s.resolve vd world k x ea = .fault .bufferTable gpa) ∧
      (o < 2 ^ 21 * b.size → (k.reads = true → b.rd = true) → (k.writes = true → b.wr = true) →
        (b.owner ≠ vd → s.resolve vd world k x ea = .fault .ownerMismatch gpa) ∧
        (b.owner = vd → b.kind ≠ 1 → s.resolve vd world k x ea = .ok ⟨s.bufPlace buf b o, none, x.attr, vd, gpa⟩ x))) ∧
  (∀ (s : State) slot g e k ea c gpa, c = Cause.bufferTable ∨ c = Cause.ownerMismatch →
    s.lookCore (slotCore slot) (s.owner g).1 (s.owner g).2 k ea = .fault c gpa →
    s.groupLoc slot g e k ea = .error (.trap { cause := c, addr := some (BitVec.ofNat 64 ea), eng := e })) ∧
  (∀ (s : State) (w : Site) (t : Trap) g, t.cause = .bufferTable ∨ t.cause = .ownerMismatch → s.groups.find w.slot = some g → t.clears = none →
    ((s.raise w t).ctx (s.owner g).1 (s.owner g).2).state = 2 ∧
    ∀ v c, (v, c) ≠ s.owner g → ((s.raise w t).ctx v c).state = (s.ctx v c).state)

/-- Performing an atomic in a slice reads the old value, stores f(old, x) of R165 and returns the old one; a compare-and-swap stores C exactly when old = B. Cites 08 R165, 08 R166, 08 R167, 08 R168, 07 R142. -/
def Obligations.AtomicsApplyTheirFunction : Prop := ∀ (s : State) (n : Nat) (a : Acc) (l : Loc) (c o : Nat), l.place = .sram c o → (s.core c).sramBad = [] →
  let key := l.place.key
  let bytes := readCells s.mem key a.size
  (∀ op ty, ty < 6 → op < 10 → atomValid op ty = true → a.size = atomSize ty → a.data.length = a.size →
    let w := 8 * a.size
    let old := ofBytes bytes
    let x := ofBytes a.data
    let less (p q : Nat) : Prop := if ty = 1 then p < q else (BitVec.ofNat w p).toInt < (BitVec.ofNat w q).toInt
    ∃ u v, s.performPart (.atom op ty) (n, a, l) = .ok (u, [(n, bytes)]) ∧ ofBytes (readCells u.mem key a.size) = v ∧
      (∀ k, k < key ∨ key + a.size ≤ k → readCell u.mem k = readCell s.mem k) ∧ u = { s with mem := u.mem } ∧
      (op = 0 → v = (old + x) % 2 ^ w) ∧ (op = 1 → (v = old ∨ v = x) ∧ ¬ less old v ∧ ¬ less x v) ∧
      (op = 2 → (v = old ∨ v = x) ∧ ¬ less v old ∧ ¬ less v x) ∧
      (op = 3 → ∀ i, v.testBit i = (old.testBit i && x.testBit i)) ∧ (op = 4 → ∀ i, v.testBit i = (old.testBit i || x.testBit i)) ∧
      (op = 5 → ∀ i, v.testBit i = (old.testBit i != x.testBit i)) ∧ (op = 6 → v = x) ∧
      (op = 7 → v = if old ≥ x then 0 else old + 1) ∧ (op = 8 → v = if old = 0 ∨ old > x then x else old - 1) ∧
      (op = 9 → v = ((atomFmt ty).sumProd false 0 [[old], [x]]).1)) ∧
  (a.data.length = a.size →
    (bytes = a.cmp → ∃ u, s.performPart .cas (n, a, l) = .ok (u, [(n, bytes)]) ∧ u = { s with mem := u.mem } ∧ readCells u.mem key a.size = a.data ∧
      ∀ k, k < key ∨ key + a.size ≤ k → readCell u.mem k = readCell s.mem k) ∧
    (bytes ≠ a.cmp → s.performPart .cas (n, a, l) = .ok (s, [(n, bytes)])))

/-- IADD to CSUB, IADD64 and LEA, the shifts and rotations complete with the result, tangents and latency the rules give, and change nothing else. Cites 04 R76, 04 R77, 04 R78, 04 R79, 04 R80, 04 R81, 04 R82, 04 R84, 03 R64, 03 R65. -/
def Obligations.IntegerArithmeticCompletes : Prop := ∀ (d a b : RegField) (n : BitVec 5) (t : Tail),
  Computes (.iadd d a b t) t 4 (accArith 2) d [a, b] (fun x o => storeInt 32 x.res (rdInt x.res x.nega (o 0) + rdInt x.res x.negb (o 1))) ∧
  Computes (.iaddImm d a b t) t 4 (accArith 2) d [a] (fun x o => storeInt 32 x.res (rdInt x.res x.nega (o 0) + (if x.negb then -b.toInt else b.toInt))) ∧
  Computes (.isub d a b t) t 4 (accArith 2) d [a, b] (fun x o => storeInt 32 x.res (rdInt x.res x.nega (o 0) - rdInt x.res x.negb (o 1))) ∧
  Computes (.imul d a b t) t 6 (accArith 2) d [a, b] (fun x o => storeInt 32 x.res (rdInt x.res x.nega (o 0) * rdInt x.res x.negb (o 1))) ∧
  Computes (.imad d a b t) t 6 { accArith 3 with useC := true } d [a, b]
    (fun x o => storeInt 32 x.res (rdInt x.res x.nega (o 0) * rdInt x.res x.negb (o 1) + rdInt x.res x.negc (o 2))) ∧
  Computes (.imulhiS32 d a b t) t 6 accLogic d [a, b] (fun _ o => BitVec.ofInt 32 (((o 0).toInt * (o 1).toInt) / 2 ^ 32)) ∧
  Computes (.imulhiN32 d a b t) t 6 accLogic d [a, b] (fun _ o => BitVec.ofNat 32 (((o 0).toNat * (o 1).toNat) / 2 ^ 32)) ∧
  Computes (.iminS32 d a b t) t 4 (accNeg 2) d [a, b] (fun x o => let p := negWord x.nega (o 0); let q := negWord x.negb (o 1); if q.toInt < p.toInt then q else p) ∧
  Computes (.iminN32 d a b t) t 4 (accNeg 2) d [a, b] (fun x o => let p := negWord x.nega (o 0); let q := negWord x.negb (o 1); if q.toNat < p.toNat then q else p) ∧
  Computes (.imaxS32 d a b t) t 4 (accNeg 2) d [a, b] (fun x o => let p := negWord x.nega (o 0); let q := negWord x.negb (o 1); if p.toInt < q.toInt then q else p) ∧
  Computes (.imaxN32 d a b t) t 4 (accNeg 2) d [a, b] (fun x o => let p := negWord x.nega (o 0); let q := negWord x.negb (o 1); if p.toNat < q.toNat then q else p) ∧
  Computes (.iabs d a t) t 4 (accNeg 1) d [a] (fun x o => BitVec.ofInt 32 |(negWord x.nega (o 0)).toInt|) ∧
  Computes (.csub d a b t) t 4 (accNeg 2) d [a, b] (fun x o =>
    let p := negWord x.nega (o 0); let q := negWord x.negb (o 1); if q.toNat ≤ p.toNat then p - q else p) ∧
  Computes (.shl d a b t) t 4 accLogic d [a, b] (fun _ o => if 32 ≤ (o 1).toNat then 0 else BitVec.ofNat 32 ((o 0).toNat * 2 ^ (o 1).toNat)) ∧
  Computes (.shr d a b t) t 4 accLogic d [a, b] (fun _ o => if 32 ≤ (o 1).toNat then 0 else BitVec.ofNat 32 ((o 0).toNat / 2 ^ (o 1).toNat)) ∧
  Computes (.sar d a b t) t 4 accLogic d [a, b] (fun _ o => BitVec.ofInt 32 ((o 0).toInt / 2 ^ (min (o 1).toNat 31))) ∧
  Computes (.rot d a b t) t 4 accLogic d [a, b] (fun _ o => (o 0).rotateLeft ((o 1).toNat % 32)) ∧
  Computes (.shlImm d a n t) t 4 accLogic d [a] (fun _ o => BitVec.ofNat 32 ((o 0).toNat * 2 ^ n.toNat)) ∧
  Computes (.shrImm d a n t) t 4 accLogic d [a] (fun _ o => BitVec.ofNat 32 ((o 0).toNat / 2 ^ n.toNat)) ∧
  Computes (.sarImm d a n t) t 4 accLogic d [a] (fun _ o => BitVec.ofInt 32 ((o 0).toInt / 2 ^ n.toNat)) ∧
  Computes (.rotImm d a n t) t 4 accLogic d [a] (fun _ o => (o 0).rotateLeft n.toNat) ∧
  (let f : Form := { cls := .lane, acc := accArith 2, dst := some { f := d, width := 2 }, srcs := [{ f := a, width := 2 }, { f := b, width := 2 }] }
   Writes (.iadd64 d a b t) t f (some 4) fun fr => (fr.doers { f := d, width := 2 }).flatMap fun l =>
    let o := fr.readAll l f.srcs 0
    let x := fr.mods.ar
    fr.destCells l { f := d, width := 2 } (fr.plain (storeInt 64 x.res (rdInt x.res x.nega (opd o 0) + rdInt x.res x.negb (opd o 1)))).vals) ∧
  (let f : Form := { cls := .lane, acc := { index := true, dual := true, scale := .lea }, dst := some { f := d, width := 2 },
                     srcs := [{ f := a, width := 2 }, { f := b }] }
   Writes (.lea d a b t) t f (some 4) fun fr => (fr.doers { f := d, width := 2 }).flatMap fun l =>
    let o := fr.readAll l f.srcs 0
    fr.destCells l { f := d, width := 2 } (fr.plain (opd o 0 + ((opw o 1).signExtend 64 <<< fr.mods.ar.scale.toNat))).vals)

/-- BFX, BFI, POPC, CLZ and BREV complete with the field, count or reversal the rules give, and change nothing else. Cites 04 R85, 04 R86, 04 R76, 04 R77, 03 R65. -/
def Obligations.BitFieldsComplete : Prop := ∀ (d a b : RegField) (t : Tail),
  ∃ bfx bfi popc clz brev : (Nat → Word) → Word,
    Computes (.bfx d a b t) t 4 accLogic d [a, b] (fun _ o => bfx o) ∧
    Computes (.bfi d a b t) t 4 { accLogic with useC := true } d [a, b] (fun _ o => bfi o) ∧
    Computes (.popc d a t) t 4 accLogic d [a] (fun _ o => popc o) ∧
    Computes (.clz d a t) t 4 accLogic d [a] (fun _ o => clz o) ∧
    Computes (.brev d a t) t 4 accLogic d [a] (fun _ o => brev o) ∧
    ∀ o : Nat → Word,
      let pos := (o 1).toNat % 32
      let len := min ((o 1).toNat / 256 % 64) (32 - pos)
      (∀ i, i < 32 → (bfx o).getLsbD i =
        if i < len then (o 0).getLsbD (pos + i) else (decide (0 < len) && (o 1).getLsbD 16 && (o 0).getLsbD (pos + len - 1))) ∧
      (∀ i, i < 32 → (bfi o).getLsbD i = if pos ≤ i ∧ i < pos + len then (o 0).getLsbD (i - pos) else (o 2).getLsbD i) ∧
      (popc o).toNat = ((List.range 32).filter fun i => (o 0).getLsbD i).length ∧
      (∀ i, (clz o).toNat = i ↔ i ≤ 32 ∧ (∀ j, j < i → (o 0).getLsbD (31 - j) = false) ∧ (i < 32 → (o 0).getLsbD (31 - i) = true)) ∧
      (∀ i, i < 32 → (brev o).getLsbD i = (o 0).getLsbD (31 - i))

/-- rd and store of R78 read and narrow exactly as RES says, and an integer reduction or scan combines every lane's value exactly once. Cites 04 R78, 04 R82, 05 R122, 05 R123. -/
def Obligations.IntegerResultsAreExact : Prop :=
  (∀ n, n = 32 ∨ n = 64 → ∀ (x : BitVec n) (v : Int),
    (∀ res, res ≠ 2 → rdInt res false x = x.toInt ∧ rdInt res true x = -x.toInt) ∧
    rdInt 2 false x = x.toNat ∧ rdInt 2 true x = -(x.toNat : Int) ∧
    ((storeInt n 0 v).toNat : Int) = v % 2 ^ n ∧
    (storeInt n 1 v).toInt = max (-(2 ^ (n - 1))) (min v (2 ^ (n - 1) - 1)) ∧
    ((storeInt n 2 v).toNat : Int) = max 0 (min v (2 ^ n - 1))) ∧
  ∀ (f : Nat) (op : Word → Word → Word),
    (f, op) ∈ ([(0, fun x y => BitVec.ofNat 32 (x.toNat + y.toNat)), (1, fun x y => if y.toInt < x.toInt then y else x),
      (2, fun x y => if y.toNat < x.toNat then y else x), (3, fun x y => if x.toInt < y.toInt then y else x),
      (4, fun x y => if x.toNat < y.toNat then y else x), (5, fun x y => x &&& y), (6, fun x y => x ||| y), (7, fun x y => x ^^^ y)] :
      List (Nat × (Word → Word → Word))) →
    (∀ xs : List RedVal, xs.length = 64 → ∃ z, redTree f 6 xs = ([z], []) ∧ z.v = (xs.map RedVal.v).foldl op (redIdentity f)) ∧
    ∀ (excl : Bool) (x₀ : RedVal) (xs : List RedVal), x₀.v = redIdentity f →
      (scanFrom f excl x₀ xs).2 = [] ∧ (scanFrom f excl x₀ xs).1.length = xs.length ∧
      ∀ n, n < xs.length → ∃ p, (scanFrom f excl x₀ xs).1[n]? = some p ∧ p.1 = ((xs.map RedVal.lanes).getD n []).headD 0 ∧
        p.2.v = ((xs.map RedVal.v).take (if excl then n else n + 1)).foldl op (redIdentity f)

/-- ISETP, PAND, POR, PXOR, PNOT, SEL, MOV, MOVI and MOVHI complete with the predicate, value, tangents and latency the rules give, and change nothing else. Cites 04 R87, 04 R88, 04 R89, 04 R90, 04 R91, 01 R20, 04 R77, 03 R65. -/
def Obligations.PredicatesAndSelectionComplete : Prop := ∀ (d a b : RegField) (p pa pb : BitVec 3) (n m : BitVec 1) (l : BitVec 14) (t : Tail),
  (∀ (c : BitVec 4) (rel : Word → Word → Bool),
    (c, rel) ∈ ([(0, fun x y => decide (x = y)), (1, fun x y => decide (x ≠ y)),
      (2, fun x y => decide (x.toInt < y.toInt)), (3, fun x y => decide (x.toInt ≤ y.toInt)),
      (4, fun x y => decide (y.toInt < x.toInt)), (5, fun x y => decide (y.toInt ≤ x.toInt)),
      (6, fun x y => decide (x.toNat < y.toNat)), (7, fun x y => decide (x.toNat ≤ y.toNat)),
      (8, fun x y => decide (y.toNat < x.toNat)), (9, fun x y => decide (y.toNat ≤ x.toNat))] : List (BitVec 4 × (Word → Word → Bool))) →
    let f : Form := { cls := .lane, acc := { index := true }, srcs := [{ f := a }, { f := b }], writes := [.p p.toNat], bad := fun _ => decide (10 ≤ c.toNat) }
    Writes (.isetp c p a b t) t f (some 4) fun fr =>
      predCells p fr.act fun l => rel (fr.opWords l f.srcs 0) (fr.opWords l f.srcs 1)) ∧
  (∀ (i : Instr) (g : Bool → Bool → Bool),
    (i, g) ∈ ([(.pand p n pa m pb t, and), (.por p n pa m pb t, or), (.pxor p n pa m pb t, xor)] : List (Instr × (Bool → Bool → Bool))) →
    Writes i t { cls := .vector, reads := [.p pa.toNat, .p pb.toNat], writes := [.p p.toNat] } (some 4) fun fr => predCells p fr.act fun l =>
      g ((fr.seen.lane l).pred pa.toNat != (n == 1)) ((fr.seen.lane l).pred pb.toNat != (m == 1))) ∧
  Writes (.pnot p n pa t) t { cls := .vector, reads := [.p pa.toNat, .p 0], writes := [.p p.toNat] } (some 4) (fun fr => predCells p fr.act fun l =>
    !((fr.seen.lane l).pred pa.toNat != (n == 1))) ∧
  (let f : Form := { cls := .lane, acc := { accLogic with useC := true, moves := true }, dst := some { f := d }, srcs := [{ f := a }, { f := b }],
                     reads := [.p ((Tail.modifiers t).ar.c.toNat % 8)], regC := false, bad := fun m => m.ar.c >>> 4 != 0 }
   Writes (.sel d a b t) t f (some 4) fun fr => (fr.doers { f := d }).flatMap fun l =>
    let c := fr.mods.ar.c
    let lane := fr.seen.lane (if isS d then fr.act.headD l else l)
    fr.destCells l { f := d } ((fr.readAll l f.srcs 0).getD (if lane.pred (c.toNat % 8) != c.getLsbD 3 then 0 else 1) [])) ∧
  (let f := wordForm .lane { accLogic with moves := true } d [a]
   Writes (.mov d a t) t f (some 4) fun fr => (fr.doers { f := d }).flatMap fun l => fr.destCells l { f := d } ((fr.readAll l f.srcs 0).getD 0 [])) ∧
  (let value (fr : Issue) : Word := match fr.mods.ext with
     | none => l.signExtend 32
     | some e => e.extractLsb' 0 18 ++ l
   Writes (.movi d l t) t { cls := .lane, acc := { accLogic with ext := true }, dst := some { f := d }, bad := badConst } (some 4)
     (fun fr => fr.wordCells d fun _ => value fr) ∧
   Writes (.movhi d l t) t { cls := .lane, acc := { accLogic with ext := true }, dst := some { f := d, width := 2 }, bad := badConst } (some 4)
     (fun fr => (fr.doers { f := d, width := 2 }).flatMap fun x => match fr.vreg x d with
       | some r => RCell.v x (8 * (r + 1)) (value fr) :: fr.tans.map fun j => RCell.v x (fr.tanKey (r + 1) j) 0
       | none => if isS d then [RCell.s (d.toNat - 96 + 1) (value fr)] else []))

/-- RDSP reads each special register, WRSP writes FPX without its reserved bits, IXSET installs a window and an index, IXADD adds to an index. Cites 04 R92, 04 R93, 04 R94, 04 R95, 02 R34. -/
def Obligations.SpecialAndIndexRegistersComplete : Prop := ∀ (d a b : RegField) (k : BitVec 2) (t : Tail),
  (∀ n : RegField, n.toNat ≤ 22 →
    let w := if n = 13 ∨ n = 14 then 2 else 1
    let f : Form := { cls := .lane, acc := { index := true }, dst := some { f := d, width := w }, rule := if n = 0 then .vOnly else .std,
                      bad := fun _ => decide (22 < n.toNat) }
    ∀ s core sc r g fr s₁, Ready f t s core sc r g fr s₁ →
      let gr := s₁.gridOf fr.g.team
      let tm := s₁.team fr.g.team
      let slot := fr.site.slot
      let x := gr.field 0x08 31 0
      let y := gr.field 0x08 63 32
      let contents (l : Nat) : List Nat :=
        [l, fr.g.num, slot % 192 / 16, slot / 192, if slot / 192 % 8 < 4 then 0 else 1, tm.index % x, tm.index / x % y, tm.index / x / y,
          x, y, gr.field 0x10 31 0, tm.rank, s₁.clusterShape fr.g.team, (s₁.core (slot / 192)).clock, s₁.gtime, fr.g.fpx.toNat,
          (s₁.core (slot / 192)).world, gr.vdev, gr.ctx, gr.field 0x10 53 51, gr.field 0x18 63 32, gr.field 0x18 31 0, gr.field 0x10 50 47]
      ∃ u, exec (.rdsp d n t) s = .next u ∧ RegWrite s₁ u core fr.site (1 + t.stall.toNat) none
        ((fr.doers { f := d, width := w }).flatMap fun l =>
          fr.destCells l { f := d, width := w } (fr.plain (BitVec.ofNat 64 ((contents l).getD n.toNat 0))).vals) id) ∧
  (let f : Form := { cls := .lane, acc := { index := true }, srcs := [{ f := a }], rule := .scalarSrc, bad := fun _ => decide ((15 : RegField) ≠ 15) }
   Moves (.wrsp a 15 t) t f (fun _ => True)
     (fun fr g₂ => g₂ = { fr.g with fpx := fr.opWords (lowest fr.site.set) f.srcs 0 &&& 0x001F3F3F }) (fun _ => 0)) ∧
  (let f : Form := { cls := .vector, acc := { index := true }, srcs := [{ f := a }, { f := b }], bad := fun _ => !isSZ a }
   let window (fr : Issue) : BitVec 7 × BitVec 7 :=
     let w := fr.opWords (lowest fr.site.set) f.srcs 0
     (w.extractLsb' 0 7, w.extractLsb' 8 7)
   let beyond (fr : Issue) : Prop := (window fr).1.toNat ≤ (window fr).2.toNat ∧ fr.alloc ≤ (window fr).2.toNat
   ∀ s core sc r g fr s₁, Ready f t s core sc r g fr s₁ → fr.alloc = 8 * (s₁.gridOf fr.g.team).regb ∧
     (beyond fr → exec (.ixset k a b t) s = .next (s.raise (trapSite t r g) { cause := .indexBounds, aux := a.setWidth 64 })) ∧
     (¬ beyond fr → ∃ u, exec (.ixset k a b t) s = .next u ∧ RegWrite s₁ u core fr.site (1 + t.stall.toNat) (some 4)
       (.win k.toNat (window fr).1 (window fr).2 :: fr.act.map fun l => RCell.ix l k.toNat ((fr.opWords l f.srcs 1).setWidth 8)) id)) ∧
  (let f : Form := { cls := .vector, acc := { index := true }, srcs := [{ f := b }], reads := [.ix k.toNat] }
   Writes (.ixadd k b t) t f (some 4) fun fr => fr.act.map fun l =>
     RCell.ix l k.toNat (BitVec.ofInt 8 (((fr.seen.lane l).ix.get k.toNat).toNat + (fr.opWords l f.srcs 0).toInt)))

/-- NOP, BRA, BRX, CALL and RET complete: active lanes stand at the target, the other lanes of the set at the next word, and CALL leaves its return address. Cites 04 R96, 04 R97, 04 R102, 03 R54, 03 R56. -/
def Obligations.ControlTransfersComplete : Prop := ∀ (o : BitVec 21) (a : RegField) (t : Tail),
  let away (target : Issue → Nat → BitVec 56) (fr : Issue) (g g₂ : Group) : Prop :=
    LanesBecome g g₂ fr.act fun l x => { x with pc := target fr l, clause := none }
  let label (fr : Issue) (_ : Nat) : BitVec 56 := BitVec.ofInt 56 (fr.site.pc.toNat + 4 * o.toInt)
  let fb : Form := { cls := .scalar, acc := { index := true }, srcs := [{ f := a, width := 2 }] }
  let reg (fr : Issue) (l : Nat) : DWord := opd (fr.readAll l fb.srcs 0) 0
  let aligned (fr : Issue) : Prop := ∀ l ∈ fr.act, (reg fr l).toNat % 4 = 0
  Moves (.nop t) t { cls := .any } (fun _ => True) (fun fr g₂ => g₂ = fr.g) (fun _ => 0) ∧
  Moves (.bra o t) t { cls := .scalar } (fun _ => True) (fun fr => away label fr fr.g) (fun fr => laneSet fr.act) ∧
  Moves (.brx a t) t fb aligned (fun fr => away (fun fr l => (reg fr l).setWidth 56) fr fr.g) (fun fr => laneSet fr.act) ∧
  Moves (.ret a t) t fb aligned (fun fr => away (fun fr l => (reg fr l).setWidth 56) fr fr.g) (fun fr => laneSet fr.act) ∧
  Moves (.call o t) t { cls := .scalar, dst := some { f := 0, width := 2 } } (fun _ => True)
    (fun fr => let back := fr.act.flatMap fun l => fr.destCells l { f := 0, width := 2 } (fr.plain ((fr.site.pc + BitVec.ofNat 56 (4 * fr.site.len)).setWidth 64)).vals
      away label fr (((fr.g.encoded (back.map RCell.stored)).writes back).landed (back.map RCell.name))) (fun fr => laneSet fr.act) ∧
  (∀ i : Instr, i = .brx a t ∨ i = .ret a t → ∀ s core sc r g fr s₁, Ready fb t s core sc r g fr s₁ → ¬ aligned fr →
    exec i s = .next (s.raise (trapSite t r g) { cause := .align }))

/-- MEET, MEETX, MEETR, EXIT and YIELD complete: MEET is set, read or restored in the active lanes, they exit, and meetings that have become complete are released. Cites 04 R98, 04 R100, 01 R24, 01 R25, 03 R55, 15 R306. -/
def Obligations.MeetingExitAndYieldComplete : Prop := (∀ g : Group,
  (g.trap.active = true → g.release = g) ∧
  (∀ l, (g.lane l).held = true → (g.release.lane l).held = false →
    (∀ m ∈ g.alive, (g.lane m).meet = (g.lane l).meet → (g.lane m).held = true) ∧ (g.release.lane l).meet = 0) ∧
  (∀ l ∈ g.alive, g.trap.active = false → (g.lane l).held = true → (g.lane l).meet ≠ 0 →
    (∀ m ∈ g.alive, (g.lane m).meet = (g.lane l).meet → (g.lane m).held = true) → (g.release.lane l).held = false) ∧
  (∀ l, (g.lane l).held = false → (g.release.lane l).held = false) ∧
  (∀ l, (g.release.lane l).pc = (g.lane l).pc ∧ (g.release.lane l).exited = (g.lane l).exited ∧ (g.release.lane l).clause = (g.lane l).clause) ∧
  (∀ c, g.release.valueAt c = g.valueAt c)) ∧
  ∀ (o : BitVec 21) (a d : RegField) (t : Tail),
  let fb : Form := { cls := .scalar, acc := { index := true }, srcs := [{ f := a, width := 2 }] }
  let reg (fr : Issue) (l : Nat) : DWord := opd (fr.readAll l fb.srcs 0) 0
  let good (fr : Issue) : Prop := ∀ l ∈ fr.act, (reg fr l).toNat % 4 = 0 ∧ (reg fr l).toNat < 2 ^ 56
  Moves (.meet o t) t { cls := .scalar } (fun _ => True)
    (fun fr g₂ => ∃ g₁, LanesBecome (fr.g.encoded (fr.act.map Stored.meet)) g₁ fr.act (fun _ x => { x with meet := BitVec.ofInt 56 (fr.site.pc.toNat + 4 * o.toInt) }) ∧ g₂ = g₁.release)
    (fun _ => 0) ∧
  Writes (.meetx d t) t { cls := .scalar, acc := { index := true }, dst := some { f := d, width := 2 }, rule := .vOnly,
                          pre := fun i => if i.act.any fun l => i.g.mismatch (.meet l) then trapR .residue 0 else .ok () } none
    (fun fr => fr.act.flatMap fun l => fr.destCells l { f := d, width := 2 } (fr.plain ((fr.seen.lane l).meet.setWidth 64)).vals) ∧
  Moves (.meetr a t) t fb good
    (fun fr g₂ => ∃ g₁, LanesBecome (fr.g.encoded (fr.act.map Stored.meet)) g₁ fr.act (fun l x => { x with meet := (reg fr l).setWidth 56 }) ∧ g₂ = g₁.release) (fun _ => 0) ∧
  (∀ s core sc r g fr s₁, Ready fb t s core sc r g fr s₁ → ¬ good fr →
    exec (.meetr a t) s = .next (s.raise (trapSite t r g) { cause := .meetInvalid, aux := a.setWidth 64 })) ∧
  Moves (.exit t) t { cls := .scalar } (fun _ => True)
    (fun fr g₂ => ∃ g₁, LanesBecome fr.g g₁ fr.act (fun _ x => { x with exited := true }) ∧ g₂ = g₁.release) (fun fr => laneSet fr.act) ∧
  (∀ s core sc r g fr s₁, Ready { cls := .scalar } t s core sc r g fr s₁ →
    ∃ u, exec (.yield t) s = .next u ∧ SameOutside s₁ u ∧
      (slotCore r.slot = core → slotSub r.slot = sc → (u.core core).runs.find sc = none ∧
        ∃ g', u.groups.find r.slot = some g' ∧ GroupAdvanced fr.g g' (lanesOf fr.site.set) fr.site.len))

/-- TRAP and BRK with an active lane take SOFTWARE_TRAP and BREAKPOINT, which resume after the word and at the word; with none they only go on. Cites 04 R101, 07 R151, 15 R302, 15 R303. -/
def Obligations.TrapAndBreakTakeTheirException : Prop := ∀ (c : BitVec 14) (t : Tail),
  (∀ s core sc r g fr s₁, Ready { cls := .scalar } t s core sc r g fr s₁ → fr.act ≠ [] →
    exec (.trap c t) s = .next (s.raise (trapSite t r g) { cause := .softwareTrap, aux := c.setWidth 64, after := true, leave := true }) ∧
    exec (.brk c t) s = .next (s.raise (trapSite t r g) { cause := .breakpoint, aux := c.setWidth 64, after := false, leave := true })) ∧
  Moves (.trap c t) t { cls := .scalar } (fun fr => fr.act = []) (fun fr g₂ => g₂ = fr.g) (fun _ => 0) ∧
  Moves (.brk c t) t { cls := .scalar } (fun fr => fr.act = []) (fun fr g₂ => g₂ = fr.g) (fun _ => 0)

/-- FADD, FSUB, FMUL, FFMA, FDIV, FMIN, FMAX and the packed forms complete with the rounded result, its tangents and its exceptions, or take FP_TRAP. Cites 05 R104, 05 R105, 05 R107, 05 R108, 05 R110, 02 R34, 02 R48, 02 R49, 03 R58, 03 R65. -/
def Obligations.FloatArithmeticCompletes : Prop := ∀ (d a b : RegField) (t : Tail),
  let form (op : FOp) (cls : OpClass) : Form :=
    { cls := cls, acc := if op = .fma then { accFloat 3 with useC := true } else accFloat 2, srcs := regs [a, b] }
  (∀ x ∈ ([(.faddF32 d a b t, .add, f32, some 6), (.faddF16 d a b t, .add, f16, some 6), (.faddBf16 d a b t, .add, bf16, some 6),
      (.fsubF32 d a b t, .sub, f32, some 6), (.fsubF16 d a b t, .sub, f16, some 6), (.fsubBf16 d a b t, .sub, bf16, some 6),
      (.fmulF32 d a b t, .mul, f32, some 6), (.fmulF16 d a b t, .mul, f16, some 6), (.fmulBf16 d a b t, .mul, bf16, some 6),
      (.ffmaF32 d a b t, .fma, f32, some 6), (.ffmaF16 d a b t, .fma, f16, some 6), (.ffmaBf16 d a b t, .fma, bf16, some 6),
      (.fdivF32 d a b t, .div, f32, none), (.fdivF16 d a b t, .div, f16, none), (.fdivBf16 d a b t, .div, bf16, none)] :
      List (Instr × FOp × Fmt × Option Nat)),
    FloatComputes x.1 t (form x.2.1 .lane) x.2.2.2 { f := d } fun ar n o => x.2.1.lane x.2.2.1 ar n (x.2.2.1.sources ar 0 o)) ∧
  (∀ x ∈ ([(.fminF32 d a b t, false, f32), (.fminF16 d a b t, false, f16), (.fminBf16 d a b t, false, bf16),
      (.fmaxF32 d a b t, true, f32), (.fmaxF16 d a b t, true, f16), (.fmaxBf16 d a b t, true, bf16)] : List (Instr × Bool × Fmt)),
    FloatComputes x.1 t { cls := .lane, acc := accFloat 2, srcs := regs [a, b] } (some 6) { f := d } fun ar n o =>
      pickLane x.2.1 x.2.2 ar n (x.2.2.sources ar 0 o)) ∧
  (∀ x ∈ ([(.padd2F16 d a b t, .add, f16), (.padd2Bf16 d a b t, .add, bf16), (.pmul2F16 d a b t, .mul, f16), (.pmul2Bf16 d a b t, .mul, bf16),
      (.pfma2F16 d a b t, .fma, f16), (.pfma2Bf16 d a b t, .fma, bf16)] : List (Instr × FOp × Fmt)),
    FloatComputes x.1 t (form x.2.1 .vector) (some 6) { f := d } fun ar n o =>
      packRes (x.2.1.lane x.2.2 ar n (x.2.2.sources ar 0 o)) (x.2.1.lane x.2.2 ar n (x.2.2.sources ar 16 o)))

/-- FRCP, FRSQ, FSQRT, FEXP2, FLOG2, FSIN, FCOS, FCVT and FRND complete with their result, tangents and exceptions, or take FP_TRAP. Cites 05 R111, 05 R112, 05 R113, 05 R114, 05 R115, 05 R116, 02 R34, 02 R48, 02 R49. -/
def Obligations.FloatFunctionsAndConversionsComplete : Prop := ∀ (d a : RegField) (ty r : BitVec 2) (t : Tail),
  (∀ x ∈ ([(.frcp d a ty t, .rcp), (.frsq d a ty t, .rsq), (.fsqrt d a ty t, .sqrt), (.fexp2 d a ty t, .exp2), (.flog2 d a ty t, .log2),
      (.fsin d a ty t, .sin), (.fcos d a ty t, .cos)] : List (Instr × Fn)),
    let f := fmtOf ty.toNat
    FloatComputes x.1 t { cls := .vector, acc := accFloat 1, srcs := regs [a], bad := fun _ => ty == 3 } none { f := d } fun ar n o =>
      let xs := f.sources ar 0 o
      let v := (xs.getD 0 ⟨0, [], 0, 0⟩).v
      floatLane f ar xs n (fun sc => x.2.apply f ar.ftz sc (modKey ar + 1, ((o.getD 0 []).headD 0).setWidth 32) v)
        fun y ds => x.2.tangent f ar.ftz v y (ds.getD 0 0)) ∧
  (∀ (c : BitVec 5), c.toNat < 6 →
    FloatComputes (.fcvt d a c r t) t { cls := .vector, acc := accFloat 1, srcs := regs [a] } none { f := d } fun ar n o =>
      cvtFloatLane (cvtFloats c.toNat).1 (cvtFloats c.toNat).2 (Dir.of r.toNat) ar n (((cvtFloats c.toNat).1.sources ar 0 o).getD 0 ⟨0, [], 0, 0⟩)) ∧
  (∀ (c : BitVec 5), 6 ≤ c.toNat → c.toNat < 15 →
    let k := (c.toNat - 6) % 3
    let f := fmtOf ((c.toNat - 6) / 3)
    FloatComputes (.fcvt d a c r t) t { cls := .vector, acc := { accFloat 1 with res := 0, moves := false }, srcs := regs [a] } none
      { f := d, width := if k = 2 then 2 else 1 } fun ar n o =>
        let x := (f.sources ar 0 o).getD 0 ⟨0, [], 0, 0⟩
        let v := cvtToInt k (Dir.of r.toNat) ar.scale.toInt (f.value x.v)
        { vals := BitVec.ofInt 64 v.1 :: List.replicate n 0, flags := x.fl ||| v.2 }) ∧
  (∀ (c : BitVec 5), 15 ≤ c.toNat → c.toNat < 24 →
    let k := (c.toNat - 15) / 3
    let f := fmtOf ((c.toNat - 15) % 3)
    FloatComputes (.fcvt d a c r t) t { cls := .vector, acc := { accFloat 0 with res := 3, moves := false }, srcs := [{ f := a, width := if k = 2 then 2 else 1 }] }
      none { f := d } fun ar n o =>
        let x : Int := if k = 0 then (opw o 0).toInt else if k = 1 then (opw o 0).toNat else (opd o 0).toInt
        let v := f.round (Dir.of r.toNat) false (decide (x < 0)) x.natAbs ar.scale.toInt
        { vals := BitVec.ofNat 64 (f.range ar.res v.1) :: List.replicate n 0, flags := v.2 }) ∧
  (∀ x ∈ ([(.frndF32 d a r t, f32), (.frndF16 d a r t, f16), (.frndBf16 d a r t, bf16)] : List (Instr × Fmt)),
    FloatComputes x.1 t { cls := .vector, acc := { accFloat 1 with moves := false }, srcs := regs [a] } none { f := d } fun ar n o =>
      let y := (x.2.sources ar 0 o).getD 0 ⟨0, [], 0, 0⟩
      let v := ((x.2.value y.v).integral (Dir.of r.toNat)).toFmt x.2 (Dir.of r.toNat) ar.ftz ar.scale.toInt
      { vals := BitVec.ofNat 64 (x.2.range ar.res v.1) :: List.replicate n 0, flags := y.fl ||| v.2 })

/-- FSETP and FCLASS complete by writing the predicate of every active lane; FSETP raises NV as the rule gives, or takes FP_TRAP, FCLASS raises nothing. Cites 05 R109, 05 R117, 02 R34, 01 R20. -/
def Obligations.FloatPredicatesComplete : Prop := ∀ (a b : RegField) (p : BitVec 3) (c : BitVec 4) (t : Tail),
  (∀ x ∈ ([(.fsetpF32 c p a b t, f32), (.fsetpF16 c p a b t, f16), (.fsetpBf16 c p a b t, bf16)] : List (Instr × Fmt)),
    let f := x.2
    let fm : Form := { cls := .lane, acc := { neg := 2, abs := 2, ftz := true, index := true }, srcs := regs [a, b], writes := [.p p.toNat],
                       bad := fun _ => decide (10 ≤ c.toNat) }
    FloatWrites x.1 t fm (some 6) false fun fr => fr.act.map fun l =>
      let xs := f.sources fr.mods.ar 0 (fr.readAll l fm.srcs 0)
      let u := xs.getD 0 ⟨0, [], 0, 0⟩
      let v := xs.getD 1 ⟨0, [], 0, 0⟩
      let un := f.isNaN u.v || f.isNaN v.v
      let nv := if c.toNat < 2 then f.isSNaN u.v || f.isSNaN v.v else un
      ⟨predCells p [l] fun _ => f.cond c u.v v.v, [l], u.fl ||| v.fl ||| (if nv then flagNV else 0), 0⟩) ∧
  (∀ x ∈ ([(.fclassF32 c p a t, f32), (.fclassF16 c p a t, f16), (.fclassBf16 c p a t, bf16)] : List (Instr × Fmt)),
    let f := x.2
    let fm : Form := { cls := .vector, acc := { neg := 1, abs := 1, ftz := true, index := true }, srcs := regs [a], writes := [.p p.toNat],
                       bad := fun _ => c == 15 }
    Writes x.1 t fm none fun fr => predCells p fr.act fun l =>
      f.classOf c.toNat ((f.sources fr.mods.ar 0 (fr.readAll l fm.srcs 0)).getD 0 ⟨0, [], 0, 0⟩).v) ∧
  (∀ f ∈ [f32, f16, bf16], ∀ x y : Nat, (f.isNaN x = true ∨ f.isNaN y = true) →
    f.cond 0 x y = false ∧ f.cond 1 x y = true ∧ (∀ k : BitVec 4, 2 ≤ k.toNat → k.toNat ≤ 5 → f.cond k x y = false) ∧
    (∀ k : BitVec 4, 6 ≤ k.toNat → k.toNat ≤ 9 → f.cond k x y = true))

/-- A sum of products or a quotient that is a NaN is the canonical quiet NaN of its format, and a finite or infinite result is a number of that format. Cites 02 R29, 02 R32, 02 R33, 05 R107. -/
def Obligations.NaNResultsAreCanonical : Prop := ∀ f ∈ [f32, f16, bf16], ∀ (ftz : Bool) (scale : Int),
  (∀ terms : List (List Nat), let r := (f.sumProd ftz scale terms).1
    (r = f.nan ∨ f.isNaN r = false) ∧ r < 2 ^ (1 + f.ew + f.mw)) ∧
  (∀ x y : Nat, let r := (f.div ftz scale x y).1; (r = f.nan ∨ f.isNaN r = false) ∧ r < 2 ^ (1 + f.ew + f.mw)) ∧
  (∀ terms : List (List Nat), (∃ p ∈ terms, ∃ x ∈ p, f.isNaN x = true) → (f.sumProd ftz scale terms).1 = f.nan) ∧
  (∀ terms : List (List Nat), (∃ p ∈ terms, ∃ x ∈ p, f.isSNaN x = true) → (f.sumProd ftz scale terms).2 &&& flagNV = flagNV)

/-- Rounding to nearest gives a representable value at the least distance, the even one on a tie, and raises NX exactly when the result differs. Cites 02 R29, 02 R30, 02 R34. -/
def Obligations.RoundingIsNearestEven : Prop := ∀ (neg : Bool) (m k : Nat) (e : Int),
  let r := toUnit .nearest neg m e (e + k)
  2 * ((r.1 : Int) * 2 ^ k - m).natAbs ≤ 2 ^ k ∧
  (2 * ((r.1 : Int) * 2 ^ k - m).natAbs = 2 ^ k → r.1 % 2 = 0) ∧
  (r.2 = true ↔ (r.1 : Int) * 2 ^ k ≠ m)

/-- XCH, BCAST, VOTE, GRED, GSCAN, DUALGET, DUALSET and DUALZERO complete with the value of the lane, vote, reduction or shadow the rules give. Cites 05 R118, 05 R119, 05 R120, 05 R121, 05 R122, 05 R123, 05 R124, 02 R34. -/
def Obligations.CrossLaneInstructionsComplete : Prop := ∀ (d a b : RegField) (n : BitVec 6) (t : Tail),
  let xch (more : List RegField) : Form := { cls := .vector, acc := { dual := true, moves := true }, dst := some { f := d }, srcs := regs (a :: more), rule := .vOnly }
  let fetch (d a : RegField) (src : Issue → Nat → Int) (fr : Issue) : List RCell := (fr.doers { f := d }).flatMap fun l =>
    fr.destCells l { f := d } (fr.read (if 0 ≤ src fr l ∧ src fr l < 64 then (src fr l).toNat else l) { f := a } 0)
  Writes (.xchIdx d a b t) t (xch [b]) none (fetch d a fun fr l => (fr.opWords l (regs [a, b]) 1).toNat) ∧
  Writes (.xchUp d a n t) t (xch []) none (fetch d a fun _ l => (l : Int) - n.toNat) ∧
  Writes (.xchDown d a n t) t (xch []) none (fetch d a fun _ l => (l : Int) + n.toNat) ∧
  Writes (.xchXor d a n t) t (xch []) none (fetch d a fun _ l => ((l ^^^ n.toNat : Nat) : Int)) ∧
  Writes (.bcast d a b t) t { cls := .vector, acc := { dual := true, moves := true }, dst := some { f := d }, srcs := regs [a, b], rule := .anyS,
                              bad := fun _ => !isSZ b } none
    (fun fr => (fr.doers { f := d }).flatMap fun l => fr.destCells l { f := d } (fr.read ((fr.opWords l (regs [a, b]) 1).toNat % 64) { f := a } 0)) ∧
  Writes (.bcastImm d a n t) t { cls := .vector, acc := { dual := true, moves := true }, dst := some { f := d }, srcs := regs [a], rule := .anyS } none
    (fun fr => (fr.doers { f := d }).flatMap fun l => fr.destCells l { f := d } (fr.read n.toNat { f := a } 0)) ∧
  (∀ (neg : BitVec 1) (p v : BitVec 3), v.toNat < 5 →
    let o : Opnd := { f := d, width := if v = 2 then 2 else 1 }
    Writes (.vote d neg p v t) t { cls := .vector, dst := some o, reads := [.p p.toNat], rule := .anyS } none fun fr =>
      let yes (l : Nat) : Bool := (fr.seen.lane l).pred p.toNat != (neg == 1)
      let all := fr.act.all yes
      let x : Nat := match v.toNat with
        | 0 => if fr.act.any yes then 1 else 0
        | 1 => if all then 1 else 0
        | 2 => (laneSet (fr.act.filter yes)).toNat
        | 3 => (fr.act.filter yes).length
        | _ => if all || fr.act.all (fun l => !yes l) then 1 else 0
      (fr.doers o).flatMap fun l => fr.destCells l o (fr.plain (BitVec.ofNat 64 x)).vals) ∧
  (∀ (f : BitVec 4), f.toNat ≤ 10 →
    FloatWrites (.gred d a f t) t { cls := .vector, acc := { dual := true, moves := decide (8 ≤ f.toNat) }, dst := some { f := d }, srcs := regs [a], rule := .anyS } none false fun frame =>
      let fr : Issue := if isS d then { frame with tans := [] } else frame
      let r := redTree f.toNat 6 ((List.range 64).map (fr.redIn f.toNat a))
      ⟨(fr.doers { f := d }).flatMap fun l => fr.destCells l { f := d } ((r.1.map fun x => x.res.vals).headD []), [], 0, 0⟩ ::
        r.2.map fun x => ⟨[], x.1, x.2.1, x.2.2⟩) ∧
  (∀ (f : BitVec 4) (e : BitVec 1), f.toNat ≤ 10 →
    FloatWrites (.gscan d a f e t) t { cls := .vector, acc := { dual := true, moves := decide (8 ≤ f.toNat) }, dst := some { f := d }, srcs := regs [a], rule := .vOnly } none false fun fr =>
      let r := scanFrom f.toNat (e == 1) ⟨redIdentity f.toNat, fr.tans.map fun _ => 0, []⟩ (fr.act.map (fr.redIn f.toNat a))
      ⟨r.1.flatMap fun x => fr.destCells x.1 { f := d } x.2.res.vals, [], 0, 0⟩ :: r.2.map fun x => ⟨[], x.1, x.2.1, x.2.2⟩) ∧
  (∀ m : RegField, 1 ≤ m.toNat → m.toNat ≤ 4 →
    let f : Form := { cls := .vector, acc := { index := true }, dst := some { f := d }, srcs := regs [a], rule := .vOnly, bad := fun _ => false }
    Writes (.dualget d a m t) t f none (fun fr => (fr.doers { f := d }).flatMap fun l =>
      fr.destCells l { f := d } (fr.plain (((fr.readAll l (regs [a]) 0).getD 0 []).getD m.toNat 0)).vals) ∧
    Writes (.dualset d a m t) t f none (fun fr => fr.act.flatMap fun l => match fr.vreg l d with
      | some r => if m.toNat ≤ fr.k then [RCell.v l (8 * r + m.toNat) (fr.opWords l (regs [a]) 0)] else []
      | none => [])) ∧
  Writes (.dualzero d t) t { cls := .vector, acc := { index := true }, dst := some { f := d }, rule := .vOnly } none (fun fr => fr.act.flatMap fun l =>
    match fr.vreg l d with
    | some r => (List.range fr.k).map fun j => RCell.v l (8 * r + j + 1) 0
    | none => [])

/-- LD and LDM complete by entering an outstanding load of every active lane's accesses, each located as R158 says, and change nothing else. Cites 08 R157, 08 R158, 08 R159, 08 R160, 08 R161, 08 R163, 08 R164, 03 R62, 07 R142, 13 R250, 23 R416. -/
def Obligations.LoadsComplete : Prop := ∀ (d a : RegField) (h : BitVec 2) (ty : BitVec 4) (fl : BitVec 1) (c : BitVec 3) (t : Tail),
  let enters (i : Instr) (f : Form) (ty words n size : Nat) (floats : Bool) (more : Issue → Prop) : Prop :=
    let moves (fr : Issue) : List Nat := if floats = true ∧ isS d = false then fr.tans else []
    let lanes (fr : Issue) : List Nat := if isS d then [lowest fr.site.set] else fr.act
    let accs (fr : Issue) (s : State) : List Acc := (lanes fr).flatMap fun l =>
      laneAccs l (fr.ea l a fr.mods.offset) size n (s.gridOf fr.g.team).tstride (moves fr) (fun _ _ => []) fun _ _ => []
    let dests (fr : Issue) : List Dest := (lanes fr).flatMap fun l => (0 :: moves fr).flatMap fun j => (List.range n).map fun m =>
      let whole := fr.destOf l d (words * n) j (if j = 0 ∧ moves fr = [] then fr.tans else [])
      { whole with keys := (whole.keys.drop (m * words)).take words, zeros := if m = 0 then whole.zeros else [] }
    Does i t f
      (fun (x : List Loc × State × Table (List (BitVec 8))) fr s => more fr ∧ fr.clear ∧ (moves fr = [] ∨ (s.gridOf fr.g.team).tstride ≠ 0) ∧
        List.Forall₂ (Reaches s fr .load .groupLoad) (accs fr s) x.1 ∧
        (((∀ l ∈ x.1, l.isPeer = false) ∧ x.2 = (s, [])) ∨ s.peerValues fr (partsOf (accs fr s) x.1) = .ok x.2))
      fun x fr s =>
        if accs fr s = [] ∧ fr.mods.flavour.1 = 0 then x.2.1
        else fr.became { x.2.1 with nextId := x.2.1.nextId + 1 } fun g => { g with seq := g.seq + 1, loads := g.loads ++
          [{ id := x.2.1.nextId, seq := g.seq, gen := (x.2.1.core (slotCore fr.site.slot)).slotGen.get (slotIn fr.site.slot), pc := fr.site.pc, ty := ty,
             accs := (accs fr s).zip (dests fr), flav := fr.mods.flavour.1, scope := fr.mods.flavour.2, pp := 0, locs := x.1, got := x.2.2,
             deferred := false, ord := x.1.any fun l => attrOrd l.attr }] }
  enters (.ld d a h ty t)
    { cls := .memory, acc := accMem (ty != 6) 1, dst := some { f := d, width := typeWords ty.toNat }, srcs := [baseOpnd a],
      bad := fun _ => badBase a || decide (9 < ty.toNat) || h.toNat == 3 } ty.toNat (typeWords ty.toNat) 1 (typeSize ty.toNat) (typeFloat ty.toNat)
    (fun _ => True) ∧
  enters (.ldm d a h fl c t)
    { cls := .memory, acc := accMem false 1, dst := some { f := d, count := c.toNat + 1 }, srcs := [baseOpnd a],
      bad := fun _ => badBase a || h == 3 || badRun d (c.toNat + 1), pre := fun i => i.runOk d (c.toNat + 1) true } (if fl = 1 then 7 else 4) 1 (c.toNat + 1) 4 (decide (fl = 1))
    (fun _ => True)

/-- ST and STM complete by entering the store FIFO with the bytes of every active lane; memory changes only when the entry is performed. Cites 08 R157, 08 R158, 08 R159, 08 R161, 08 R163, 08 R164, 08 R169, 07 R134, 07 R142. -/
def Obligations.StoresComplete : Prop := ∀ (d a : RegField) (h : BitVec 2) (ty : BitVec 4) (fl : BitVec 1) (c : BitVec 3) (t : Tail),
  let enters (i : Instr) (f : Form) (words n size : Nat) (floats : Bool) (more : Issue → Prop) : Prop :=
    let moves (fr : Issue) : List Nat := if floats then fr.tans else []
    let accs (fr : Issue) (s : State) : List Acc := fr.act.flatMap fun l =>
      laneAccs l (fr.ea l a fr.mods.offset) size n (s.gridOf fr.g.team).tstride (moves fr)
        (fun j m => ((bytesOf (fr.wordsAt l d words j)).drop (m * size)).take size) fun _ _ => []
    Does i t f
      (fun (_ : Unit) fr s => more fr ∧ fr.clear ∧ (moves fr = [] ∨ (s.gridOf fr.g.team).tstride ≠ 0) ∧
        (∀ x ∈ accs fr s, x.ea.toNat % x.size = 0 ∧
          (isWindow x.ea.toNat = true → ∃ l, s.windowLoc fr.g.team .groupStore x.ea.toNat x.size = .ok l)) ∧ fr.g.fifo.length < 16)
      fun _ fr s =>
        if accs fr s = [] ∧ fr.mods.flavour.1 = 0 then s
        else fr.became s fun g => { g with seq := g.seq + 1, fifo := g.fifo ++
          [{ seq := fr.g.seq, pc := fr.site.pc, gen := (s.core (slotCore fr.site.slot)).slotGen.get (slotIn fr.site.slot), kind := .store,
             accs := accs fr s, locs := [], flav := fr.mods.flavour.1, scope := fr.mods.flavour.2, load := none, parked := none }] }
  enters (.st d a h ty t)
    { cls := .memory, acc := accMem (ty != 6) 2, srcs := [baseOpnd a, { f := d, width := typeWords ty.toNat, tan := typeFloat ty.toNat }],
      bad := fun _ => badBase a || decide (9 < ty.toNat) || h == 3 } (typeWords ty.toNat) 1 (typeSize ty.toNat) (typeFloat ty.toNat) (fun _ => True) ∧
  enters (.stm d a h fl c t)
    { cls := .memory, acc := accMem false 2, srcs := [baseOpnd a, { f := d, count := c.toNat + 1, tan := fl == 1 }],
      bad := fun _ => badBase a || h == 3 || badRun d (c.toNat + 1), pre := fun i => i.runOk d (c.toNat + 1) true }
    (c.toNat + 1) (c.toNat + 1) 4 (fl == 1) (fun _ => True)

/-- ATOM, CAS and CAS128 complete by entering the store FIFO and an outstanding load that takes the old values, or with a peer's answer. Cites 08 R165, 08 R166, 08 R167, 08 R168, 08 R158, 07 R142, 23 R416, 23 R417, 13 R251. -/
def Obligations.AtomicsComplete : Prop := ∀ (d a b : RegField) (t : Tail),
  let m := Tail.modifiers t
  let off : Int := ((m.ext.getD 0).extractLsb' 0 20).toInt
  let enters (i : Instr) (f : Form) (kind : FifoKind) (ty : Nat) (hostOk : Bool) (pp : Nat) (more : Issue → State → Prop)
      (accs : Issue → State → List Acc) (dests : Issue → List Dest) : Prop :=
    let peers (fr : Issue) (s : State) (ls : List Loc) := (partsOf (accs fr s) ls).filter fun p => p.2.2.isPeer
    Does i t f
      (fun (x : List Loc × State × Table (List (BitVec 8))) fr s => more fr s ∧ fr.clear ∧
        List.Forall₂ (Reaches s fr .rmw .groupStore) (accs fr s) x.1 ∧
        (∀ l ∈ x.1, attrHostCache l.attr = false ∧ atomRefused hostOk l = false) ∧ fr.g.fifo.length < 16 ∧
        if peers fr s x.1 = [] then x.2 = (s, []) else s.beforePeer fr = .ok () ∧ s.askPeer fr (peers fr s x.1) = .ok x.2)
      fun x fr s =>
        let s' := x.2.1.peerTouched (slotCore fr.site.slot) kind (peers fr s x.1) x.2.2
        let gen := (s'.core (slotCore fr.site.slot)).slotGen.get (slotIn fr.site.slot)
        if accs fr s = [] ∧ fr.mods.flavour.1 = 0 then s'
        else fr.became { s' with nextId := s'.nextId + 1 } fun g => { g with
          seq := g.seq + 1,
          fifo := if accs fr s ≠ [] ∧ (∀ l ∈ x.1, l.isPeer = true) then g.fifo else g.fifo ++
            [{ seq := fr.g.seq, pc := fr.site.pc, gen := gen, kind := kind, accs := accs fr s, locs := x.1, flav := fr.mods.flavour.1,
               scope := fr.mods.flavour.2, load := some s'.nextId, parked := none }],
          loads := g.loads ++ [{ id := s'.nextId, seq := g.seq, gen := gen, pc := fr.site.pc, ty := ty, accs := (accs fr s).zip (dests fr),
                                 flav := fr.mods.flavour.1, scope := fr.mods.flavour.2, pp := pp, locs := x.1, got := x.2.2, deferred := true,
                                 ord := x.1.any fun l => attrOrd l.attr }] }
  (∀ op ty : Nat, op = ((m.ext.getD 0).extractLsb' 24 4).toNat → ty = ((m.ext.getD 0).extractLsb' 20 4).toNat → atomValid op ty = true →
    let w := if ty = 2 then 2 else 1
    let moves (fr : Issue) : List Nat := if op = 9 then fr.tans else []
    enters (.atom d a b t)
      { cls := .memory, acc := accAtomic true false, dst := some { f := d, width := w }, srcs := [baseOpnd a, { f := b, width := w }],
        bad := fun _ => badBase a || decide (5 < ty) || decide (11 < op) }
      (.atom op ty) (atomLoadType ty) ((op == 0 || op == 6) && decide (ty < 3)) 0
      (fun fr s => (fr.tans = [] ∨ (op ≠ 10 ∧ op ≠ 11)) ∧ (moves fr = [] ∨ (s.gridOf fr.g.team).tstride ≠ 0))
      (fun fr s => fr.act.flatMap fun l => laneAccs l (fr.ea l a off) (atomSize ty) 1 (s.gridOf fr.g.team).tstride (moves fr)
        (fun j _ => (bytesOf (fr.wordsAt l b w j)).take (atomSize ty)) fun _ _ => [])
      (fun fr => fr.act.flatMap fun l => (0 :: moves fr).map fun j => fr.destOf l d w j (if j = 0 ∧ moves fr = [] then fr.tans else []))) ∧
  (let cas (i : Instr) (index : Bool) (ty size w : Nat) (badTy : Bool) : Prop :=
     enters i
       { cls := .memory, acc := accAtomic index true, dst := some { f := d, width := w }, srcs := [baseOpnd a, { f := b, width := w, tan := false }],
         writes := [.p (m.extField 24 3)], bad := fun m => badBase a || badTy || m.extField 27 1 == 1 }
       .cas ty true (m.extField 24 3) (fun _ _ => True)
       (fun fr _ => fr.act.flatMap fun l => laneAccs l (fr.ea l a off) size 1 0 []
         (fun _ _ => (bytesOf ({ fr with pops := if isQ b then fr.pops.drop 1 else fr.pops }.wordsAt l m.ar.c w 0)).take size)
         fun _ _ => (bytesOf (fr.wordsAt l b w 0)).take size)
       (fun fr => fr.act.map fun l => fr.destOf l d w 0 fr.tans)
   let ty := ((m.ext.getD 0).extractLsb' 20 4).toNat
   (ty ≤ 2 → cas (.cas d a b t) true (atomLoadType ty) (atomSize ty) (if ty = 2 then 2 else 1) (decide (5 < ty))) ∧
   cas (.cas128 d a b t) false 6 16 4 (ty != 0))

/-- FENCE completes once the earlier reads and, if it releases, writes are done, and discards copies if it acquires; PREF changes no register and no memory. Cites 08 R171, 08 R172, 13 R250, 13 R251, 13 R247. -/
def Obligations.FencesAndPrefetchComplete : Prop := ∀ (l : BitVec 2) (a : RegField) (t : Tail),
  Does (.fence t) t { cls := .memory, acc := { needOrder := true, flavs := [1, 2, 3, 4] } }
    (fun (_ : Unit) fr s => fr.g.loads = [] ∧ (releases fr.mods.flavour.1 = true → fr.g.fifo = [] ∧
      s.unreleased fr.site.slot fr.g fr.mods.flavour.2 (fr.mods.flavour.1 == 4) = [] ∧
      s.nbStores fr.site.slot fr.g.team fr.g.seq fr.mods.flavour.2 (fr.mods.flavour.1 == 4) = []))
    (fun _ fr s => if acquires fr.mods.flavour.1 then s.discard (slotCore fr.site.slot) fr.mods.flavour.2 else s) ∧
  (let f : Form := { cls := .memory, acc := { ext := true }, srcs := [baseOpnd a], bad := fun _ => badBase a || l == 3 }
   ∀ s core sc r g fr s₁, Ready f t s core sc r g fr s₁ → fr.clear →
     let seen (ea : Nat) := s₁.lookCore (slotCore fr.site.slot) (s₁.owner fr.g).1 (s₁.owner fr.g).2 .load ea
     let ea (n : Nat) : Nat := (fr.ea n a fr.mods.offset).toNat
     (∀ n ∈ fr.act, if isWindow (ea n) then ∃ x, s₁.windowLoc fr.g.team .groupLoad (ea n) 1 = .ok x
       else (∃ x k, seen (ea n) = .ok x k) ∨ (fr.act = [n] ∧ ∃ c p, seen (ea n) = .fault c p)) →
     ∃ u s₂, exec (.pref l a t) s = .next u ∧ OneGroup s₂ u core fr.site.slot ∧
       s₂.groups = s₁.groups ∧ s₂.teams = s₁.teams ∧ s₂.mem = s₁.mem ∧
       ((∀ n ∈ fr.act, isWindow (ea n) = true ∨ ∃ x k, seen (ea n) = .ok x k) →
         (l ≠ 0 → s₂ = s₁) ∧ s₂ = { s₁ with cores := s₂.cores } ∧
         ∀ c, s₂.core c = if c = slotCore fr.site.slot then { s₁.core c with l1 := (s₂.core c).l1, l1Bad := (s₂.core c).l1Bad } else s₁.core c))

/-- BUFDCL, BUFSET and BUFQ complete on buffers inside the grant that no engine is using, or trap as R173 and R174 say. Cites 08 R173, 08 R174, 08 R175, 07 R138, 07 R139, 07 R140, 07 R141. -/
def Obligations.BufferInstructionsComplete : Prop := ∀ (n : BitVec 6) (e : BitVec 2) (a d : RegField) (t : Tail),
  let granted (fr : Issue) (s : State) (n : Nat) : Prop := n < (s.gridOf fr.g.team).bufn
  let bufs (fr : Issue) (s : State) := (s.team fr.g.team).bufs
  let setTo (fr : Issue) (s : State) (b : Option Buffer) : State :=
    s.setTeam fr.g.team { s.team fr.g.team with bufs := match b with | some b => (bufs fr s).put n.toNat b | none => (bufs fr s).del n.toNat }
  let inUse (fr : Issue) (s : State) : Prop := ∃ b, (bufs fr s).find n.toNat = some b ∧ (b.state = .filling ∨ b.state = .draining)
  let fd : Form := { cls := .memory, srcs := [baseOpnd a], bad := fun _ => !isS a }
  let base (fr : Issue) : Nat := ((fr.read 0 (baseOpnd a) 0).headD 0).toNat % 2 ^ 32
  let size (fr : Issue) : Nat := ((fr.read 0 (baseOpnd a) 0).headD 0).toNat / 2 ^ 32
  let even (fr : Issue) : Prop := base fr % 256 = 0 ∧ size fr % 256 = 0
  let inside (fr : Issue) (s : State) : Prop := base fr + size fr ≤ (s.gridOf fr.g.team).sramsz
  let apart (fr : Issue) (s : State) : Prop := size fr = 0 ∨ ∀ x ∈ bufs fr s, x.1 = n.toNat ∨ x.2.base + x.2.size ≤ base fr ∨ base fr + size fr ≤ x.2.base
  let fs : Form := { cls := .memory, bad := fun _ => e == 1 || e == 3 }
  let fq : Form := { cls := .memory, dst := some { f := d, width := 2 }, rule := .anyS, bad := fun _ => a.getLsbD 6 }
  Does (.bufdcl n a t) t fd
    (fun (_ : Unit) fr s => fr.clear ∧ inside fr s ∧ granted fr s n.toNat ∧ even fr ∧ apart fr s ∧ ¬ inUse fr s)
    (fun _ fr s => setTo fr s (if size fr = 0 then none else some { base := base fr, size := size fr, state := .empty, ch := 0, wp := base fr })) ∧
  TrapsWhen (.bufdcl n a t) t fd (fun fr s => fr.clear ∧ inside fr s ∧ (¬ granted fr s n.toNat ∨ ¬ even fr ∨ ¬ apart fr s)) (fun _ _ => { cause := .bufBounds }) ∧
  TrapsWhen (.bufdcl n a t) t fd (fun fr s => fr.clear ∧ ¬ inside fr s) (fun _ _ => { cause := .sramRange }) ∧
  TrapsWhen (.bufdcl n a t) t fd (fun fr s => fr.clear ∧ inside fr s ∧ granted fr s n.toNat ∧ even fr ∧ apart fr s ∧ inUse fr s)
    (fun _ _ => { cause := .bufState }) ∧
  Does (.bufset n e t) t fs
    (fun (b : Buffer) fr s => fr.clear ∧ granted fr s n.toNat ∧ (bufs fr s).find n.toNat = some b ∧ ¬ inUse fr s)
    (fun b fr s => setTo fr s (some { b with state := if e = 0 then .empty else .full })) ∧
  TrapsWhen (.bufset n e t) t fs (fun fr s => fr.clear ∧ (¬ granted fr s n.toNat ∨ (bufs fr s).find n.toNat = none)) (fun _ _ => { cause := .bufBounds }) ∧
  TrapsWhen (.bufset n e t) t fs (fun fr s => fr.clear ∧ granted fr s n.toNat ∧ inUse fr s) (fun _ _ => { cause := .bufState }) ∧
  Does (.bufq d a t) t fq (fun (_ : Unit) fr s => fr.clear ∧ granted fr s a.toNat)
    (fun _ fr s => fr.commit s none ((if isS d then [lowest fr.site.set] else fr.act).flatMap fun l => (fr.destOf l d 2 0 fr.tans).cells l
      (match (bufs fr s).find a.toNat with
        | none => [0, 0]
        | some b =>
          let st : Nat := match b.state with | .empty => 0 | .filling => 1 | .full => 2 | .draining => 3
          [BitVec.ofNat 32 (st + (if b.state = .filling ∨ b.state = .draining then 4 * b.ch else 0) + 64),
           BitVec.ofNat 32 (if b.state = .filling then b.wp else b.base)]))) ∧
  TrapsWhen (.bufq d a t) t fq (fun fr s => fr.clear ∧ ¬ granted fr s a.toNat) (fun _ _ => { cause := .bufBounds })

/-- BARINIT, BAREXP, BARARV, BARWAIT, BARTEST, CBARARV and CBARWAIT complete on an aligned object in the window as R176, R178 and R243 say. Cites 08 R176, 08 R178, 08 R179, 13 R242, 13 R243, 13 R250, 13 R251, 07 R139. -/
def Obligations.BarrierInstructionsComplete : Prop := ∀ (d a : RegField) (t : Tail),
  let ea (fr : Issue) : DWord := fr.ea 0 a fr.mods.offset
  let ready (u : BufUse) (l : Loc) (fr : Issue) (s : State) : Prop :=
    fr.g.loads = [] ∧ (ea fr).toNat % 16 = 0 ∧ isWindow (ea fr).toNat = true ∧ s.windowLoc fr.g.team u (ea fr).toNat 16 = .ok l ∧
    s.barrierBad l.place = false ∧
    if releases fr.mods.flavour.1 then fr.g.fifo = [] ∧ s.unreleased fr.site.slot fr.g fr.mods.flavour.2 false = [] ∧
      s.nbStores fr.site.slot fr.g.team fr.g.seq fr.mods.flavour.2 false = []
    else s.ownWritesDone fr l.place = .ok ()
  let after (fr : Issue) (s : State) : State := if acquires fr.mods.flavour.1 then s.discard (slotCore fr.site.slot) fr.mods.flavour.2 else s
  let flip (b : Barrier) : Barrier := if b.pending = 0 ∧ b.tx = 0 then { b with phase := (b.phase + 1) % 2 ^ 32, pending := b.expect } else b
  let src (flavs : List Nat) : Form := { cls := .memory, acc := accBar flavs, srcs := [baseOpnd a, { f := d }], bad := fun _ => !isS a || !isSZ d }
  let dst (flavs : List Nat) : Form := { cls := .memory, acc := accBar flavs, dst := some { f := d }, srcs := [baseOpnd a], bad := fun _ => !isS a }
  let value (fr : Issue) : Nat := (((fr.read 0 { f := d } 0).headD 0).setWidth 32 : Word).toNat
  let phase (fr : Issue) (s : State) (p : Place) (s' : State) : State := 
    fr.commit (after fr s') none ((if isS d then [lowest fr.site.set] else fr.act).flatMap fun l =>
      (fr.destOf l d 1 0 fr.tans).cells l [BitVec.ofNat 32 (s.barrierAt p).phase])
  let overflows : Issue → State → Trap := fun fr _ => { cause := .barrierOverflow, addr := some (ea fr) }
  Does (.barinit d a t) t (src [0, 2]) (fun l fr s => ready .groupStore l fr s ∧ 1 ≤ value fr ∧ value fr ≤ 65535)
    (fun l fr s => after fr (s.setBarrier l.place { s.barrierAt l.place with phase := 0, pending := value fr, expect := value fr, tx := 0, ovf := false })) ∧
  TrapsWhen (.barinit d a t) t (src [0, 2]) (fun fr s => (∃ l, ready .groupStore l fr s) ∧ (value fr = 0 ∨ 65535 < value fr)) overflows ∧
  Does (.barexp d a t) t (src [0, 2])
    (fun l fr s => ready .groupStore l fr s ∧ value fr < 2 ^ 31 ∧ -(2 ^ 31) ≤ (s.barrierAt l.place).tx - value fr ∧ (s.barrierAt l.place).tx - value fr < 2 ^ 31)
    (fun l fr s => after fr (s.setBarrier l.place (flip { s.barrierAt l.place with tx := (s.barrierAt l.place).tx - value fr }))) ∧
  TrapsWhen (.barexp d a t) t (src [0, 2])
    (fun fr s => ∃ l, ready .groupStore l fr s ∧ (2 ^ 31 ≤ value fr ∨ (s.barrierAt l.place).tx - value fr < -(2 ^ 31))) overflows ∧
  Does (.bararv d a t) t (dst [0, 2, 3]) (fun l fr s => ready .groupStore l fr s ∧ (s.barrierAt l.place).pending ≠ 0)
    (fun l fr s => phase fr s l.place (s.setBarrier l.place (flip { s.barrierAt l.place with pending := (s.barrierAt l.place).pending - 1 }))) ∧
  TrapsWhen (.bararv d a t) t (dst [0, 2, 3]) (fun fr s => ∃ l, ready .groupStore l fr s ∧ (s.barrierAt l.place).pending = 0) overflows ∧
  (∀ i : Instr, i = .barwait d a t ∨ i = .cbarwait d a t →
    Does i t (src [0, 1]) (fun l fr s => ready .groupLoad l fr s ∧ (s.barrierAt l.place).phase ≠ value fr) (fun _ fr s => after fr s)) ∧
  Does (.bartest d a t) t (dst [0, 1]) (fun l fr s => ready .groupLoad l fr s) (fun l fr s => phase fr s l.place s) ∧
  (let key (fr : Issue) : Nat := (ea fr).toNat - sramBase
   let marks (fr : Issue) (s : State) : List Nat := (s.team fr.g.team).marks.getD (key fr) [] ++ [fr.g.num]
   let all (fr : Issue) (s : State) : Prop := ∀ kg ∈ s.groups, kg.2.team = fr.g.team → kg.2.num ∈ marks fr s
   let setMarks (fr : Issue) (s : State) (m : Table (List Nat)) : State := s.setTeam fr.g.team { s.team fr.g.team with marks := m }
   Does (.cbararv d a t) t (dst [0, 2, 3]) (fun l fr s => ready .groupStore l fr s ∧ ¬ all fr s)
     (fun l fr s => phase fr s l.place (setMarks fr s ((s.team fr.g.team).marks.put (key fr)
       (fr.g.num :: (s.team fr.g.team).marks.getD (key fr) []).dedup))) ∧
   Does (.cbararv d a t) t (dst [0, 2, 3]) (fun l fr s => ready .groupStore l fr s ∧ all fr s ∧ (s.barrierAt l.place).pending ≠ 0)
     (fun l fr s => phase fr s l.place (((setMarks fr s ((s.team fr.g.team).marks.del (key fr))).lagArrive fr.g.team l.place.key).setBarrier l.place
       (flip { s.barrierAt l.place with pending := (s.barrierAt l.place).pending - 1 }))) ∧
   TrapsWhen (.cbararv d a t) t (dst [0, 2, 3]) (fun fr s => ∃ l, ready .groupStore l fr s ∧ all fr s ∧ (s.barrierAt l.place).pending = 0) overflows)

/-- AQLOAD, AQSTART, AQSTOP and QFLUSH complete: records are read and checked, named streams start at entry 0 or stop, named queues are emptied. Cites 08 R181, 08 R183, 07 R135, 01 R16. -/
def Obligations.StreamInstructionsComplete : Prop := ∀ (n : BitVec 4) (a : RegField) (t : Tail),
  let fl : Form := { cls := .memory, acc := { ext := true }, srcs := [baseOpnd a], bad := fun _ => !isS a || n == 0 || decide (8 < n.toNat) }
  let ea (fr : Issue) : DWord := fr.ea 0 a fr.mods.offset
  let reads (fr : Issue) (s : State) := s.loadNow fr ((List.range n.toNat).map fun k => ea fr + BitVec.ofNat 64 (64 * k)) 64
  let wrong (recs : List (List (BitVec 8))) (k : Nat) : Prop := ∃ bs, recs[k]? = some bs ∧
    (recordOf64 bs = .bad ∨ ∃ r, recordOf64 bs = .good r ∧ ∃ j bs' r', j ≠ k ∧ recs[j]? = some bs' ∧ recordOf64 bs' = .good r' ∧ r'.queue = r.queue)
  let fm : Form := { cls := .memory, srcs := [{ f := a }], bad := fun _ => !isSZ a }
  let mask (fr : Issue) (j : Nat) : Bool := (((fr.read 0 { f := a } 0).headD 0).setWidth 32 : Word).getLsbD j
  let tables (recs : List (List (BitVec 8))) : Table Stream := (List.range recs.length).foldl (fun (tb : Table Stream) k =>
    match recordOf64 (recs.getD k []) with | .good r => tb.put k r | _ => tb) []
  Does (.aqload n a t) t fl
    (fun (x : State × List (List (BitVec 8))) fr s => fr.clear ∧ (ea fr).toNat % 64 = 0 ∧ reads fr s = .ok (x.1, x.2) ∧ ∀ k, ¬ wrong x.2 k)
    (fun x fr _ => fr.became (x.1.forgetStreams fr.site.slot fun _ => true) fun g => { g with queues := [], streams := tables x.2 }) ∧
  TrapsWhen (.aqload n a t) t fl (fun fr _ => fr.clear ∧ (ea fr).toNat % 64 ≠ 0) (fun fr _ => { cause := .align, addr := some (ea fr) }) ∧
  (∀ k, TrapsWhen (.aqload n a t) t fl
    (fun fr s => fr.clear ∧ (ea fr).toNat % 64 = 0 ∧ ∃ s' recs, reads fr s = .ok (s', recs) ∧ wrong recs k ∧ ∀ j, j < k → ¬ wrong recs j)
    (fun fr _ => { cause := .illegalField, addr := some (ea fr + BitVec.ofNat 64 (64 * k)) })) ∧
  Does (.aqstart a t) t fm
    (fun (_ : Unit) fr s => fr.clear ∧ ∀ j, j < 8 → mask fr j = true → ∃ r, fr.g.streams.find j = some r ∧ fr.g.fifo = [] ∧
      s.unreleased fr.site.slot fr.g r.scope false = [] ∧ s.nbStores fr.site.slot fr.g.team fr.g.seq r.scope false = [])
    (fun _ fr s => fr.became (s.forgetStreams fr.site.slot ((List.range 8).filter fun j => mask fr j).contains) fun g => ((List.range 8).filter fun j => mask fr j).foldl (fun g j => match g.streams.find j with
      | none => g
      | some r => { g with queues := g.queues.del r.queue,
                           streams := g.streams.put j { r with running := true, pos := 0, kept := none, parked := none } }) g) ∧
  TrapsWhen (.aqstart a t) t fm (fun fr _ => fr.clear ∧ ∃ j, j < 8 ∧ mask fr j = true ∧ fr.g.streams.find j = none)
    (fun _ _ => { cause := .illegalField }) ∧
  Does (.aqstop a t) t fm (fun (_ : Unit) _ _ => True) (fun _ fr s => fr.became (s.forgetStreams fr.site.slot fun j => decide (j < 8) && mask fr j) fun g => { g with
    streams := g.streams.mapVals fun j r => if j < 8 ∧ mask fr j = true then { r with running := false, parked := none } else r }) ∧
  Does (.qflush a t) t fm (fun (_ : Unit) _ _ => True) (fun _ fr s => fr.became s fun g => { g with
    queues := g.queues.keep fun q _ => !(decide (q < 6) && mask fr q) })

/-- ITEMPUSH appends the lanes' items in lane order as far as there is room; REFILL gives each finished lane the next item or sends it to the exit label. Cites 08 R184, 04 R99, 07 R143, 07 R144, 01 R26. -/
def Obligations.ItemQueueInstructionsComplete : Prop := ∀ (q : BitVec 2) (a d : RegField) (p : BitVec 3) (x : BitVec 9) (t : Tail),
  let fp : Form := { cls := .memory, acc := { index := true }, srcs := [{ f := a, tan := false }] }
  let items (fr : Issue) : List (Nat × Nat) := (if isSZ a then [lowest fr.site.set] else fr.act).map fun l =>
    (((fr.read l { f := a, tan := false } 0).headD 0).toNat % 2 ^ 32, 1)
  let enter (iq : ItemQueue) : ItemQueue :=
    let r := pullRuns (2 ^ iq.logCap - iq.items.length) iq.tail
    { iq with items := iq.items ++ r.1, tail := r.2 }
  let fr' : Form := { cls := .scalar, acc := { index := true }, dst := some { f := d }, reads := [.p p.toNat], writes := [.p p.toNat], rule := .vOnly,
                      bad := fun _ => p == 0 }
  let done (fr : Issue) : List Nat := (lanesOf fr.site.set).filter fun l => (fr.seen.lane l).pred p.toNat
  Does (.itempush q a t) t fp
    (fun (iq : ItemQueue) fr s => s.itemQueue fr.g.team q.toNat = some iq ∧ iq.range = false ∧ iq.tail = [] ∧
      (enter { iq with tail := items fr }).tail = [])
    (fun iq fr s => s.setItemQueue fr.g.team q.toNat (enter { iq with tail := items fr })) ∧
  TrapsWhen (.itempush q a t) t fp
    (fun fr s => s.itemQueue fr.g.team q.toNat = none ∨ ∃ iq, s.itemQueue fr.g.team q.toNat = some iq ∧ iq.range = true) (fun _ _ => { cause := .itemQueue }) ∧
  Does (.refill d p q x t) t fr' (fun (iq : ItemQueue) fr s => s.itemQueue fr.g.team q.toNat = some iq)
    (fun iq fr s =>
      let taken := (done fr).zip iq.items
      let gone := (done fr).drop taken.length
      fr.became (fr.commit (s.setItemQueue fr.g.team q.toNat (enter { iq with items := iq.items.drop taken.length })) none
        (taken.flatMap fun y => (fr.destOf y.1 d 1 0 fr.tans).cells y.1 [y.2] ++ [RCell.p y.1 p.toNat false]))
        fun g => g.onLanes gone fun y => { y with pc := fr.site.pc + (x.signExtend 56 <<< 2), clause := none })
    (fun iq fr => laneSet ((done fr).drop ((done fr).zip iq.items).length)) ∧
  TrapsWhen (.refill d p q x t) t fr' (fun fr s => s.itemQueue fr.g.team q.toNat = none) (fun _ _ => { cause := .itemQueue, aux := d.setWidth 64 })

/-- TSYNC makes the set wait at the next word; the team is released once all have arrived, nobody before; a barrier object reads as it was written. Cites 08 R176, 08 R180, 13 R249. -/
def Obligations.TeamSynchronizationAndBarrierObjects : Prop :=
(∀ t : Tail, Does (.tsync t) t { cls := .memory }
    (fun (_ : Unit) fr s => fr.g.loads = [] ∧ fr.g.fifo = [] ∧ s.unreleased fr.site.slot fr.g 1 false = [])
    (fun _ fr s => State.tsyncRelease (State.endRun (fr.became s fun g =>
      (g.advance (lanesOf fr.site.set) fr.site.len).onLanes (lanesOf fr.site.set) fun x => { x with tsync := true })
      (slotCore fr.site.slot) (slotSub fr.site.slot)) fr.g.team) (fun _ fr => fr.site.set)) ∧
  (∀ (s : State) (team : Nat),
    ((∃ kg ∈ s.groups, kg.2.team = team ∧ (kg.2.alive = [] ∨ (∃ l ∈ kg.2.alive, (kg.2.lane l).tsync = false) ∨ kg.2.loads ≠ [] ∨ kg.2.fifo ≠ [] ∨
        ∃ f ∈ s.flight, f.slot = kg.1 ∧ f.inSram = true)) → s.tsyncRelease team = s) ∧
    ((∃ kg ∈ s.groups, kg.2.team = team ∧ ∃ x ∈ kg.2.lanes, x.2.tsync = true) →
      (∀ kg ∈ s.groups, kg.2.team = team → kg.2.alive ≠ [] ∧ (∀ l ∈ kg.2.alive, (kg.2.lane l).tsync = true) ∧ kg.2.loads = [] ∧ kg.2.fifo = [] ∧
        ∀ f ∈ s.flight, f.slot = kg.1 → f.inSram = false) →
      ∀ kg ∈ (s.tsyncRelease team).groups, kg.2.team = team → ∀ l ∈ kg.2.alive, (kg.2.lane l).tsync = false)) ∧
  ∀ (s : State) (p : Place) (b : Barrier),
  b.phase < 2 ^ 32 → b.pending < 2 ^ 16 → b.expect < 2 ^ 16 → -(2 ^ 31) ≤ b.tx → b.tx < 2 ^ 31 → b.rest < 2 ^ 31 →
    (s.setBarrier p b).barrierAt p = b ∧
    (∀ a, (a < p.key ∨ p.key + 16 ≤ a) → readCell (s.setBarrier p b).mem a = readCell s.mem a) ∧
    (s.setBarrier p b) = { s with mem := (s.setBarrier p b).mem, clusters := (s.setBarrier p b).clusters, cores := (s.setBarrier p b).cores } ∧
    ∀ c, (s.setBarrier p b).core c = { s.core c with lag := ((s.setBarrier p b).core c).lag, sramBad := ((s.setBarrier p b).core c).sramBad }

/-- MMA, MMAS, MSIGN, MMZ, ACCLD, ACCST, ACCMV and ACCADD complete by putting their operation into the matrix queue, or into the muster. Cites 09 R191, 09 R192, 09 R194, 09 R199, 09 R202, 09 R203, 09 R196, 09 R201. -/
def Obligations.MatrixInstructionsComplete : Prop := ∀ (d : RegField) (x : BitVec 1) (n u : BitVec 6) (m : BitVec 4) (t : Tail),
  let fq (r : RegField) : Form := { cls := .matrix, srcs := [runOpnd r 4], bad := fun _ => badRunAt 4 r }
  let q (fr : Issue) : BitVec 128 := BitVec.ofNat 128 (ofWords ((List.range 4).map fun w => fr.seen.s.get (d.toNat - 96 + w)))
  let team (fr : Issue) (s : State) : Team := s.team fr.g.team
  let room (fr : Issue) (s : State) : Prop := (s.core (slotCore fr.site.slot)).mq.length < 32
  let tile (fr : Issue) (s : State) (k : Nat) : Prop := k < (s.gridOf fr.g.team).accn
  let victim (fr : Issue) (s : State) : Prop := ∃ v ∈ (s.core (slotCore fr.site.slot)).mrefused,
    victimHits v (s.gridOf fr.g.team).vdev (s.gridOf fr.g.team).ctx = true
  let enq (fr : Issue) (s : State) (o : MatrixOp) : State := if victim fr s then s else match (s.team fr.g.team).mfailed with
    | some k => s.keepFor fr.g.team o.signers k
    | none => State.setCore { s with nextId := s.nextId + 1 } (slotCore fr.site.slot) { s.core (slotCore fr.site.slot) with
        mq := (s.core (slotCore fr.site.slot)).mq ++ [{ o with id := s.nextId }] }
  let op (fr : Issue) (kind : MatKind) (quad : BitVec 128) (maps : List (BitVec 128)) : MatrixOp :=
    { id := 0, team := fr.g.team, signers := [fr.g.num], after := [⟨fr.site.slot, fr.g.seq, fr.g.readFrom⟩], kind := kind, pc := fr.site.pc,
      quad := quad, maps := maps, begun := false, pass := 0, step := 0, row := 0, bytes := 0, work := 0, parked := none }
  let bar (fr : Issue) (s : State) (off : Nat) : Prop := off = noBarrier ∨ (off % 16 = 0 ∧ (s.window fr.g.team (barAddr off) 16).isSome)
  let fits (sp : Option Bool) (maps : List (BitVec 128)) (fr : Issue) (s : State) : Prop :=
    let q := q fr
    let a := maps.getD 0 0
    let b := maps.getD 1 0
    let wide (mp : BitVec 128) (isB : Bool) : Prop := mapRstride mp = 0 ∨ (opSparse q = false ∧ denseRow isB (mapType mp) ≤ mapRstride mp)
    quadField q 25 7 = 0 ∧ quadField q 48 16 = 0 ∧ quadField q 96 32 = 0 ∧ (opSparse q = true ∨ quadField q 14 8 = 0) ∧
    (∀ v, sp = some v → opSparse q = v) ∧ 1 ≤ opSteps q ∧ opSteps q ≤ 1024 ∧ tile fr s (opAcc q) ∧
    (∀ k ∈ opMaps q, k < (s.gridOf fr.g.team).omn ∧ ((team fr s).maps.find k).isSome) ∧ maps = (opMaps q).map (fun k => (team fr s).maps.getD k 0) ∧
    mapType a = mapType b ∧ mapType a ≠ 3 ∧ mapRole a = false ∧ mapRole b = true ∧ wide a false ∧ wide b true ∧
    (∀ mp ∈ maps.drop 2, mapType mp = 3) ∧ (opSat q = true → mapType a = 2) ∧
    (opInit q = true ∨ (opAcc q ∈ s.tagsMet fr.g.team ↔ mapType a = 2)) ∧ bar fr s (opBar q) ∧ s.operandsOk fr.g.team q maps = .ok () ∧
    (mapType a = 2 ∨ (s.gridOf fr.g.team).tangents = 0 ∨ (s.gridOf fr.g.team).tstride ≠ 0)
  let address (floats : Bool) (fr : Issue) (s : State) : Prop :=
    let q := q fr
    let g := s.gridOf fr.g.team
    (quadField q 64 32 = 0 ∨ 256 ≤ quadField q 64 32) ∧ quadField q 0 64 % 16 = 0 ∧ quadField q 64 32 % 16 = 0 ∧ bar fr s (quadField q 96 32) ∧
    (∀ j, j < (if floats then g.tangents + 1 else 1) → ∀ r, r < 64 → s.spanOk fr.g.team (tileRow q g.tstride r j) 256 = true) ∧
    (floats = false ∨ g.tangents = 0 ∨ g.tstride ≠ 0)
  Does (.mma d t) t (fq d) (fun maps fr s => fits (some false) maps fr s ∧ room fr s) (fun maps fr s => enq fr s (op fr .mm (q fr) maps)) ∧
  Does (.mmas d t) t (fq d) (fun maps fr s => fits (some true) maps fr s ∧ room fr s) (fun maps fr s => enq fr s (op fr .mm (q fr) maps)) ∧
  Does (.mmz x n t) t { cls := .matrix } (fun (_ : Unit) fr s => tile fr s n.toNat ∧ room fr s) (fun _ fr s => enq fr s (op fr (.mmz n.toNat (x == 1)) 0 [])) ∧
  Does (.accld x n d t) t (fq d) (fun (_ : Unit) fr s => tile fr s n.toNat ∧ address (x == 0) fr s ∧ room fr s)
    (fun _ fr s => enq fr s (op fr (.accld n.toNat (x == 1)) (q fr) [])) ∧
  Does (.accst n d t) t (fq d) (fun (_ : Unit) fr s => tile fr s n.toNat ∧ address (!(s.tagsMet fr.g.team).contains n.toNat) fr s ∧ room fr s)
    (fun _ fr s => enq fr s (op fr (.accst n.toNat) (q fr) [])) ∧
  Does (.accmv n u t) t { cls := .matrix } (fun (_ : Unit) fr s => tile fr s n.toNat ∧ tile fr s u.toNat ∧ room fr s)
    (fun _ fr s => enq fr s (op fr (.accmv n.toNat u.toNat) 0 [])) ∧
  Does (.accadd x n u t) t { cls := .matrix } (fun (_ : Unit) fr s => tile fr s n.toNat ∧ tile fr s u.toNat ∧
      (n.toNat ∈ s.tagsMet fr.g.team ↔ u.toNat ∈ s.tagsMet fr.g.team) ∧ (x = 1 → n.toNat ∈ s.tagsMet fr.g.team) ∧ room fr s)
    (fun _ fr s => enq fr s (op fr (.accadd n.toNat u.toNat (x == 1)) 0 [])) ∧
  (let now (fr : Issue) (s : State) : Muster := (team fr s).musters.getD m.toNat Muster.none
   let signed (maps : List (BitVec 128)) (fr : Issue) (s : State) : Muster := { now fr s with
     signed := (now fr s).signed + 2 ^ fr.g.num, desc := q fr, maps := if (now fr s).signed = 0 then maps else (now fr s).maps, pc := fr.site.pc,
     after := ⟨fr.site.slot, fr.g.seq, fr.g.readFrom⟩ :: (now fr s).after }
   let setMuster (fr : Issue) (s : State) (y : Muster) : State := s.setTeam fr.g.team { team fr s with musters := (team fr s).musters.put m.toNat y }
   Does (.msign m d t) t (fq d)
     (fun maps fr s => fits none maps fr s ∧ m.toNat < (s.gridOf fr.g.team).musn ∧ bit (now fr s).mask fr.g.num = true ∧
       bit (now fr s).signed fr.g.num = false ∧ ((now fr s).signed = 0 ∨ (now fr s).desc = q fr) ∧
       ((signed maps fr s).signed = (signed maps fr s).mask → room fr s))
     (fun maps fr s => let y := signed maps fr s
       if y.signed = y.mask then enq fr (setMuster fr s { Muster.none with mask := y.mask })
         { op fr .mm y.desc y.maps with signers := (List.range 16).filter (bit y.signed), after := y.after, pc := y.pc }
       else setMuster fr s y))

/-- OMSET and MSTCFG complete by setting the map or muster, MMWAIT once the group's operations are done, MMSTAT with the flags, counts and kept cause. Cites 09 R187, 09 R188, 09 R200, 09 R201, 09 R204, 09 R205, 09 R194, 13 R250. -/
def Obligations.MatrixStateInstructionsComplete : Prop := ∀ (n m : BitVec 4) (a d : RegField) (c : BitVec 1) (t : Tail),
  let fq : Form := { cls := .matrix, srcs := [runOpnd a 4], bad := fun _ => badRunAt 4 a }
  let q (fr : Issue) : BitVec 128 := BitVec.ofNat 128 (ofWords ((List.range 4).map fun w => fr.seen.s.get (a.toNat - 96 + w)))
  let good (fr : Issue) (s : State) : Prop := n.toNat < (s.gridOf fr.g.team).omn ∧ quadField (q fr) 56 8 = 0 ∧ quadField (q fr) 115 13 = 0 ∧
    mapBase (q fr) % 16 = 0 ∧ quadField (q fr) 64 32 % 16 = 0 ∧ mapRstride (q fr) % 16 = 0 ∧ (mapType (q fr) = 3 → mapRstride (q fr) = 0)
  let fm : Form := { cls := .matrix, srcs := [{ f := a, tan := false }], bad := fun _ => !isSZ a }
  let v (fr : Issue) : Nat := ((fr.read 0 { f := a, tan := false } 0).headD 0).toNat % 2 ^ 32
  let free (fr : Issue) (s : State) : Prop := m.toNat < (s.gridOf fr.g.team).musn ∧ v fr < 65536 ∧ v fr < 2 ^ s.teamGroups fr.g.team ∧
    ((s.team fr.g.team).musters.getD m.toNat Muster.none).signed = 0
  let fd : Form := { cls := .matrix, dst := some { f := d, width := 2 }, rule := .anyS, bad := fun _ => !isS d && !isV d }
  Does (.omset n a t) t fq (fun (_ : Unit) fr s => good fr s)
    (fun _ fr s => s.setTeam fr.g.team { s.team fr.g.team with maps := (s.team fr.g.team).maps.put n.toNat (q fr) }) ∧
  TrapsWhen (.omset n a t) t fq (fun fr s => ¬ good fr s) (fun _ _ => { cause := .matrixShape }) ∧
  Does (.mstcfg m a t) t fm (fun (_ : Unit) fr s => free fr s)
    (fun _ fr s => s.setTeam fr.g.team { s.team fr.g.team with musters := (s.team fr.g.team).musters.put m.toNat ⟨v fr, 0, 0, [], 0, []⟩ }) ∧
  TrapsWhen (.mstcfg m a t) t fm (fun fr s => ¬ free fr s) (fun _ _ => { cause := .musterMismatch }) ∧
  Does (.mmwait t) t { cls := .matrix } (fun (_ : Unit) fr s => s.matrixCount fr.g = 0 ∧ fr.g.mkept = [])
    (fun _ fr s => s.discard (slotCore fr.site.slot) 3) ∧
  (∀ k ks, TrapsWhen (.mmwait t) t { cls := .matrix } (fun fr s => s.matrixCount fr.g = 0 ∧ fr.g.mkept = k :: ks)
    (fun _ _ => { cause := k.cause, addr := k.addr, aux := k.pc.setWidth 64, after := true, clears := some 0, replayed := k.replayed })) ∧
  Does (.mmstat d c t) t fd (fun (_ : Unit) _ _ => True) (fun _ fr s =>
    let tm := s.team fr.g.team
    let kept : Nat := match fr.g.mkept with | k :: _ => k.cause.code | [] => 0
    let lo := tm.mflags.toNat % 32 + 256 * min 255 (s.matrixCount fr.g) + 2 ^ 16 * kept + (if tm.mfailed = none then 0 else 2 ^ 24)
    let hi := min (2 ^ 32 - 1) (s.ctx (s.owner fr.g).1 (s.owner fr.g).2).reruns
    fr.commit (if c = 1 then s.setTeam fr.g.team { tm with mflags := 0 } else s) none
      ((if isS d then [lowest fr.site.set] else fr.act).flatMap fun l => (fr.destOf l d 2 0 fr.tans).cells l [BitVec.ofNat 32 lo, BitVec.ofNat 32 hi]))

/-- CPY, CPYT, CPYO, CPYG, CPYS, CPYFILL, CMCAST and CPYP complete by entering their channel's queue, their buffers becoming FILLING and DRAINING. Cites 10 R208, 10 R209, 10 R210, 10 R211, 10 R213, 10 R214, 10 R221, 13 R244, 23 R419, 07 R140. -/
def Obligations.CopyInstructionsComplete : Prop := ∀ (c : BitVec 4) (a : RegField) (t : Tail),
  let desc (fr : Issue) : List Word := (List.range 8).map fun n => fr.seen.s.get (a.toNat - 96 + n)
  let ctl (fr : Issue) : BitVec 28 := fr.mods.ext.getD 0
  let chan (fr : Issue) (s : State) : Channel := (s.team fr.g.team).chan c.toNat
  let fmt (fr : Issue) (s : State) : BitVec 64 := (s.team fr.g.team).fmts.get (ctlField (ctl fr) 0 5)
  let accepts (i : Instr) (form : CopyKind) (kind : Issue → CopyKind) (queued : Issue → State → CopyKind) : Prop :=
    let geo (fr : Issue) (s : State) : CopyGeo := geoOf (kind fr) (desc fr) (ctl fr) (fmt fr s)
    Does i t (copyForm form c.toNat a)
      (fun (x : Option Nat × List Nat) fr s =>
        let k := kind fr
        let g := geo fr s
        let gr := s.gridOf fr.g.team
        let typed : Prop := k = .cpyt ∨ k = .cpyo
        c.toNat < gr.chn ∧ (chan fr s).queue.length < 8 ∧ (chan fr s).failed = false ∧
        ((desc fr).getD 1 0).extractLsb' 24 8 = 0 ∧ ((desc fr).getD 3 0).extractLsb' 24 8 = 0 ∧ (k = .fill → (desc fr).getD 5 0 = 0) ∧
        (typed → (ctlField (ctl fr) 5 3 = 0 ∨ ctlField (ctl fr) 0 5 = 0) ∧ pairOk (k == .cpyo) g.st g.ct = true ∧
          (g.st = 0 → ctlField (ctl fr) 0 5 < gr.fmtn ∧ fmt fr s ≠ 0 ∧
            ((Narrow.of (fmt fr s)).bsm = true → (if k = .cpyt then g.cols else g.dcols) % 16 = 0))) ∧
        checkShape k (ctl fr) g = .ok () ∧ s.checkEndpoint fr k = .ok () ∧ s.checkCopy fr k (ctl fr) g = .ok () ∧ s.copyBufs fr k g = .ok x ∧
        (g.tan = true → gr.tangents = 0 ∨ gr.tstride ≠ 0))
      fun x fr s =>
        let cmd : CopyCmd := { kind := queued fr s, desc := desc fr, ctl := ctl fr, fmt := fmt fr s, pc := fr.site.pc,
                               after := [⟨fr.site.slot, fr.g.seq, fr.g.readFrom⟩], pass := 0, row := 0, dst := x.1, src := x.2, bitmap := [],
                               sent := false, parked := none }
        let y : Channel := { chan fr s with queue := (chan fr s).queue ++ [cmd] }
        let s := s.setTeam fr.g.team { s.team fr.g.team with chans := (s.team fr.g.team).chans.put c.toNat (if (chan fr s).queue = [] then y.begin else y) }
        let s := match x.1 with | some k => s.modBuf k fun b => { b with state := .filling, ch := c.toNat, wp := b.base } | none => s
        x.2.foldl (fun s k => s.modBuf k fun b => { b with state := .draining, ch := c.toNat }) s
  (∀ x ∈ ([(.cpy c a t, .cpy), (.cpyt c a t, .cpyt), (.cpyo c a t, .cpyo), (.cpyg c a t, .cpyg), (.cpys c a t, .cpys), (.cpyfill c a t, .fill),
      (.cmcast c a t, .mcast)] : List (Instr × CopyKind)), accepts x.1 x.2 (fun _ => x.2) (fun _ _ => x.2)) ∧
  (let k (fr : Issue) : CopyKind := .peer ((ctl fr).getLsbD 16) (ctlField (ctl fr) 17 4)
   accepts (.cpyp c a t) (.peer false 0) k (fun fr s =>
     .peer ((ctl fr).getLsbD 16) ((s.endpointOf (s.owner fr.g).1 (s.owner fr.g).2 (ctlField (ctl fr) 17 4)).getD 0)))

/-- PSIG, CHWAIT, CHSTAT, FMTSET and FMTGET complete, or raise the channel's kept cause, COPY_CHANNEL_STATE or COPY_FORMAT. Cites 10 R208, 10 R209, 10 R215, 10 R222, 10 R223, 10 R224, 23 R420, 02 R38, 13 R250. -/
def Obligations.ChannelInstructionsComplete : Prop := ∀ (c : BitVec 4) (n : BitVec 5) (l : BitVec 1) (a d : RegField) (t : Tail),
  let chan (fr : Issue) (s : State) : Channel := (s.team fr.g.team).chan c.toNat
  let granted (fr : Issue) (s : State) : Prop := c.toNat < (s.gridOf fr.g.team).chn
  let set (fr : Issue) (s : State) (y : Channel) : State := s.setTeam fr.g.team { s.team fr.g.team with chans := (s.team fr.g.team).chans.put c.toNat y }
  let fs : Form := { cls := .copy, first := fun s slot g => s.chanFree slot g c.toNat, acc := { needExt := true }, srcs := [runOpnd a 4],
                     bad := fun m => badRunAt 4 a || (m.ext.getD 0 &&& ~~~(0x3F : BitVec 28)) != 0 || (m.ext.getD 0).getLsbD 1 }
  let regs (fr : Issue) (k : Nat) : List Word := (List.range k).map fun w => fr.seen.s.get (a.toNat - 96 + w)
  let fw : Form := { cls := .copy, srcs := [{ f := a, tan := false }], bad := fun _ => !isSZ a }
  let wp (fr : Issue) : Option Nat := if isZero a then none else some (((fr.read 0 { f := a, tan := false } 0).headD 0).toNat % 2 ^ 32)
  let fd : Form := { cls := .copy, dst := some { f := d, width := 2 }, rule := .anyS, bad := fun _ => !isS d && !isV d }
  let out (fr : Issue) (s : State) (ws : List Word) : State :=
    fr.commit s none ((if isS d then [lowest fr.site.set] else fr.act).flatMap fun x => (fr.destOf x d 2 0 fr.tans).cells x ws)
  let ff : Form := { cls := .copy, srcs := [runOpnd a 2], bad := fun _ => badRunAt 2 a }
  let fmtOk (fr : Issue) (s : State) : Prop := n.toNat < (s.gridOf fr.g.team).fmtn
  Does (.psig c a t) t fs
    (fun (ep : Nat) fr s => granted fr s ∧ (chan fr s).queue.length < 8 ∧ (chan fr s).failed = false ∧ s.feature 5 = true ∧
      s.endpointOf (s.owner fr.g).1 (s.owner fr.g).2 (ctlField (fr.mods.ext.getD 0) 2 4) = some ep ∧ ofWords ((regs fr 4).take 2) % 8 = 0)
    (fun ep fr s =>
      let cmd : CopyCmd := { kind := .sig (ctlField (fr.mods.ext.getD 0) 0 2) ep, desc := regs fr 4, ctl := fr.mods.ext.getD 0, fmt := 0,
                             pc := fr.site.pc, after := [⟨fr.site.slot, fr.g.seq, fr.g.readFrom⟩], pass := 0, row := 0, dst := none, src := [],
                             bitmap := [], sent := false, parked := none }
      let y : Channel := { chan fr s with queue := (chan fr s).queue ++ [cmd] }
      set fr s (if (chan fr s).queue = [] then y.begin else y)) ∧
  Does (.chwait c a t) t fw (fun (_ : Unit) fr s => granted fr s ∧ (chan fr s).kept = none ∧ s.channelMet fr.g.team c.toNat (wp fr) = true)
    (fun _ fr s => s.discard (slotCore fr.site.slot) 3) ∧
  (∀ k, TrapsWhen (.chwait c a t) t fw (fun fr s => granted fr s ∧ (chan fr s).kept = some k)
    (fun _ _ => { cause := k.cause, addr := k.addr, aux := k.pc.setWidth 64, after := true, clears := some (c.toNat + 1), replayed := k.replayed })) ∧
  Does (.chstat d l c t) t fd (fun (_ : Unit) fr s => granted fr s) (fun _ fr s =>
    let x := chan fr s
    let kept : Nat := match x.kept with | some k => k.cause.code | none => 0
    out fr (if l = 1 then set fr s { x with flags := 0 } else s)
      [BitVec.ofNat 32 (s.chanState fr.g.team x + 4 * x.queue.length + 64 * (x.flags.toNat % 32) + 2 ^ 16 * kept), BitVec.ofNat 32 x.wp]) ∧
  TrapsWhen (.chwait c a t) t fw (fun fr s => ¬ granted fr s) (fun _ _ => { cause := .copyChannelState }) ∧
  TrapsWhen (.chstat d l c t) t fd (fun fr s => ¬ granted fr s) (fun _ _ => { cause := .copyChannelState }) ∧
  Does (.fmtset n a t) t ff (fun (_ : Unit) fr s => fmtOk fr s ∧ Narrow.valid (BitVec.ofNat 64 (ofWords (regs fr 2))) = true)
    (fun _ fr s => s.setTeam fr.g.team { s.team fr.g.team with fmts := (s.team fr.g.team).fmts.set n.toNat (BitVec.ofNat 64 (ofWords (regs fr 2))) }) ∧
  TrapsWhen (.fmtset n a t) t ff (fun fr s => ¬ fmtOk fr s ∨ Narrow.valid (BitVec.ofNat 64 (ofWords (regs fr 2))) = false) (fun _ _ => { cause := .copyFormat }) ∧
  Does (.fmtget d n t) t fd (fun (_ : Unit) fr s => fmtOk fr s) (fun _ fr s =>
    let v := (s.team fr.g.team).fmts.get n.toNat
    out fr s [v.extractLsb' 0 32, v.extractLsb' 32 32]) ∧
  TrapsWhen (.fmtget d n t) t fd (fun fr s => ¬ fmtOk fr s) (fun _ _ => { cause := .copyFormat })

/-- NBAXPY to NBFILL, NBLD, NBST and NBFENCE complete by handing their command or lane accesses to the dispatch, or once the fence is met. Cites 18 R335, 18 R337, 18 R341, 18 R342, 18 R343, 18 R344, 18 R345, 18 R346, 07 R142. -/
def Obligations.NearBankInstructionsComplete : Prop := ∀ (d a : RegField) (t : Tail),
  let gen (fr : Issue) (s : State) : BitVec 8 := (s.core (slotCore fr.site.slot)).slotGen.get (slotIn fr.site.slot)
  let bare (fr : Issue) (s : State) (fn : Nat) (octet : List Word) (bar : Nat) : NbCmd :=
    { id := 0, slot := fr.site.slot, num := fr.g.num, gen := gen fr s, pc := fr.site.pc, team := fr.g.team, core := slotCore fr.site.slot,
      vdev := (s.owner fr.g).1, ctx := (s.owner fr.g).2, fn := fn, octet := octet, bar := bar, stack := 0, x := 0, y := 0, z := 0,
      after := ⟨fr.site.slot, fr.g.seq, fr.g.readFrom⟩, accs := [], load := none, entered := 0, finished := 0, partials := [], vec := none, failed := false }
  let fo : Form := { cls := .near, srcs := [{ f := d, tan := false }, runOpnd a 8], bad := fun _ => badRunAt 8 a || !isSZ d }
  let bar (fr : Issue) : Nat := if isZero d then noBarrier else ((fr.read 0 { f := d, tan := false } 0).headD 0).toNat % 2 ^ 32
  let cmd (fn : Nat) (fr : Issue) (s : State) : NbCmd := bare fr s fn ((List.range 8).map fun n => fr.seen.s.get (a.toNat - 96 + n)) (bar fr)
  let well (c : NbCmd) (fr : Issue) (s : State) : Prop :=
    c.badOctet = false ∧ (c.bar = noBarrier ∨ (c.bar % 16 = 0 ∧ (s.window fr.g.team (barAddr c.bar) 16).isSome)) ∧ (c.single = true → c.addr 2 % c.os = 0)
  let room (fr : Issue) (s : State) : Prop := s.nbHeld fr.site.slot fr.g < 8
  let located (fr : Issue) (s : State) (k : Access) (x : Acc) (l : Loc) : Prop :=
    x.ea.toNat % x.size = 0 ∧ s.ccLoc fr.site.slot fr.g k x.ea = .ok l
  let enter (fr : Issue) (s : State) (fn : Nat) (xs : List (Acc × Loc)) (load : Option Nat) : State :=
    ((xs.map fun x => x.2.dram.1).dedup).foldl (fun s st => { s with
      nextId := s.nextId + 1,
      nb := s.nb ++ [{ bare fr s fn [] noBarrier with id := s.nextId, stack := st, load := load, accs := xs.map fun x =>
        if x.2.dram.1 = st then (x.2.dram.2, x.1.data) else (2 ^ 40, []) }] }) s
  let fl : Form := { cls := .near, acc := { ext := true }, dst := some { f := d }, srcs := [baseOpnd a], bad := fun _ => badBase a }
  let fs : Form := { cls := .near, acc := { ext := true }, srcs := [baseOpnd a, { f := d }], bad := fun _ => badBase a }
  let lanes (fr : Issue) : List Nat := if isS d then [lowest fr.site.set] else fr.act
  let loads (fr : Issue) : List Acc := (lanes fr).map fun l => ⟨l, 0, fr.ea l a fr.mods.offset, 4, [], []⟩
  let stores (fr : Issue) : List Acc := fr.act.map fun l => ⟨l, 0, fr.ea l a fr.mods.offset, 4, bytesOf (fr.wordsAt l d 1 0), []⟩
  let ff : Form := { cls := .near, acc := { needOrder := true, flavs := [1, 2, 3], bank := true }, srcs := [{ f := d, tan := false }, baseOpnd a],
                     bad := fun _ => !isS a || !isSZ d }
  let p0 (fr : Issue) : Nat := if isZero d then 0 else pairOf (fr.ea 0 a 0).toNat
  let n (fr : Issue) : Nat := if isZero d then 2048 else ((fr.read 0 { f := d, tan := false } 0).headD 0).toNat % 2 ^ 32
  (∀ x ∈ ([(.nbaxpy d a t, 0), (.nbscal d a t, 1), (.nbadd d a t, 2), (.nbmul d a t, 3), (.nbdot d a t, 4), (.nbgemv d a t, 5), (.nbcopy d a t, 6),
      (.nbred d a t, 7), (.nbfill d a t, 8)] : List (Instr × Nat)),
    Does x.1 t fo
      (fun (locs : Nat → Loc) fr s => let c := cmd x.2 fr s
        well c fr s ∧ c.crosses = false ∧ c.badLayout = false ∧ room fr s ∧
        (∀ k ∈ c.uses, s.ccLoc fr.site.slot fr.g (if k = 2 then .store else .load) (BitVec.ofNat 64 (c.addr k)) = .ok (locs k)) ∧
        (∀ k ∈ c.uses, ∀ j ∈ c.uses, (locs k).dram.1 = (locs j).dram.1))
      (fun locs fr s => let c := cmd x.2 fr s
        let spa (k : Nat) : Nat := if k ∈ c.uses then (locs k).dram.2 else 0
        { s with nextId := s.nextId + 1,
                 nb := s.nb ++ [{ c with id := s.nextId, stack := (locs (c.uses.headD 0)).dram.1, x := spa 0, y := spa 1, z := spa 2 }] }) ∧
    TrapsWhen x.1 t fo (fun fr s => (cmd x.2 fr s).badOctet = true) (fun _ _ => { cause := .illegalField }) ∧
    TrapsWhen x.1 t fo (fun fr s => well (cmd x.2 fr s) fr s ∧ (cmd x.2 fr s).crosses = true) (fun _ _ => { cause := .nbCross })) ∧
  Does (.nbld d a t) t fl (fun (locs : List Loc) fr s => fr.clear ∧ List.Forall₂ (located fr s .load) (loads fr) locs)
    (fun locs fr s => if loads fr = [] then s else
      enter fr (fr.became { s with nextId := s.nextId + 1 } fun g => { g with seq := g.seq + 1, loads := g.loads ++
        [{ id := s.nextId, seq := g.seq, gen := gen fr s, pc := fr.site.pc, ty := 4,
           accs := (loads fr).zip ((lanes fr).map fun l => fr.destOf l d 1 0 fr.tans), flav := fr.mods.flavour.1, scope := fr.mods.flavour.2, pp := 0,
           locs := locs, got := [], deferred := true, ord := locs.any fun l => attrOrd l.attr }] }) 9 ((loads fr).zip locs) (some s.nextId)) ∧
  Does (.nbst d a t) t fs (fun (locs : List Loc) fr s => fr.clear ∧ List.Forall₂ (located fr s .store) (stores fr) locs ∧ room fr s)
    (fun locs fr s => if stores fr = [] then s else enter fr s 10 ((stores fr).zip locs) none) ∧
  Does (.nbfence d a t) t ff
    (fun (l : Loc) fr s => fr.clear ∧ n fr ≠ 0 ∧ p0 fr + n fr ≤ 2048 ∧ s.ccLoc fr.site.slot fr.g .load (fr.ea 0 a 0) = .ok l ∧
      (releases fr.mods.flavour.1 = true → fr.g.fifo = [] ∧ ∀ f ∈ s.flight, f.slot = fr.site.slot → f.toPairs l.dram.1 (p0 fr) (n fr) = false) ∧
      (acquires fr.mods.flavour.1 = true → ∃ x, (s.drains.find? fun x => x.slot == fr.site.slot && x.team == fr.g.team) = some x ∧ s.drained x = true))
    (fun _ fr s => if acquires fr.mods.flavour.1 then
      match s.drains.find? fun x => x.slot == fr.site.slot && x.team == fr.g.team with
        | some x => { (if x.answered then s else s.respond x.stack x.header.tag 0 []) with drains := s.drains.filter (· != x) }
        | none => s
      else s) ∧
  TrapsWhen (.nbfence d a t) t ff (fun fr _ => fr.clear ∧ (n fr = 0 ∨ 2048 < p0 fr + n fr)) (fun _ _ => { cause := .nbCross })

/-- RNGINIT, GRAB, LAUNCH, JOIN and LSTAT complete on granted slots, valid records and finished children, or raise the cause the rules name. Cites 14 R268, 14 R269, 14 R270, 14 R272, 14 R273, 14 R274, 14 R275, 14 R276, 14 R277, 14 R261. -/
def Obligations.DieInstructionsComplete : Prop := ∀ (d a : RegField) (t : Tail),
  let vd (fr : Issue) (s : State) : Nat := (s.owner fr.g).1
  let num (fr : Issue) (r : RegField) : Nat := ((fr.read 0 { f := r, tan := false } 0).headD 0).toNat % 256
  let w (fr : Issue) (m : Nat) : Nat := (fr.seen.s.get (a.toNat - 96 + m)).toNat
  let out (n : Nat) (fr : Issue) (s : State) (ws : List Word) : State :=
    fr.commit s none ((if isS d then [lowest fr.site.set] else fr.act).flatMap fun x => (fr.destOf x d n 0 fr.tans).cells x ws)
  let fr' : Form := { cls := .system, acc := accSys false, srcs := [{ f := d, tan := false }, runOpnd a 4], bad := fun _ => !isSZ d || badRunAt 4 a }
  let fg : Form := { cls := .system, acc := accSys false, dst := some { f := d, width := 2 }, srcs := [{ f := a, tan := false }], rule := .anyS,
                     bad := fun _ => notPair d || !isSZ a }
  let fl : Form := { cls := .system, acc := accSys true, dst := some { f := d }, srcs := [baseOpnd a], rule := .anyS, bad := fun _ => !isSZ d || !isS a }
  let fj : Form := { cls := .system, acc := accSys false, srcs := [{ f := a, tan := false }], bad := fun _ => !isSZ a }
  let fine (fr : Issue) : Prop := 1 ≤ w fr 2 ∧ w fr 2 ≤ 65535 ∧ 1 ≤ w fr 3 ∧ w fr 3 ≤ 65535 ∧ w fr 0 + w fr 1 ≤ 2 ^ 32
  let setSlot (s : State) (die key : Nat) (x : Nat × Nat × Nat × Nat) : State := s.setDie die { s.die die with ranges := (s.die die).ranges.put key x }
  let ea (fr : Issue) : DWord := fr.ea 0 a fr.mods.offset
  let die (fr : Issue) : Nat := coreDie (slotCore fr.site.slot)
  let roomy (fr : Issue) (s : State) : Prop := s.poolRoom (vd fr s) (die fr) = true ∧ (s.team fr.g.team).jcnt < 65535
  let threshold (fr : Issue) : Nat := ((fr.read 0 { f := a, tan := false } 0).headD 0).toNat % 2 ^ 32
  let met (fr : Issue) (s : State) : Prop := (s.team fr.g.team).jcnt ≤ threshold fr ∨ fr.g.joinMet = some (threshold fr)
  let sel (fr : Issue) : Nat := ((fr.read 0 { f := a, tan := false } 0).headD 0).toNat
  let give (k : Nat) (ok : Issue → State → Prop) (lo hi : Issue → State → Nat) : Prop :=
    Does (.lstat d a t) t fg (fun (_ : Unit) fr s => sel fr % 16 = k ∧ ok fr s)
      (fun _ fr s => out 2 fr s [BitVec.ofNat 32 (lo fr s), BitVec.ofNat 32 (hi fr s)])
  Does (.rnginit d a t) t fr' (fun (k : Nat) fr s => s.rangeDie (vd fr s) (num fr d) = some k ∧ fine fr)
    (fun k fr s => setSlot s k (256 * vd fr s + num fr d) (w fr 0, w fr 1, w fr 2, w fr 3)) ∧
  TrapsWhen (.rnginit d a t) t fr' (fun fr s => s.rangeDie (vd fr s) (num fr d) = none ∨ ¬ fine fr) (fun _ _ => { cause := .rangeSlot }) ∧
  Does (.grab d a t) t fg (fun (k : Nat) fr s => s.rangeDie (vd fr s) (num fr a) = some k)
    (fun k fr s =>
      let x := (s.die k).ranges.getD (256 * vd fr s + num fr a) (0, 0, 0, 0)
      let n := min x.2.1 (max x.2.2.2 ((x.2.1 + x.2.2.1 - 1) / x.2.2.1))
      out 2 fr (setSlot s k (256 * vd fr s + num fr a) ((x.1 + n) % 2 ^ 32, x.2.1 - n, x.2.2.1, x.2.2.2)) [BitVec.ofNat 32 x.1, BitVec.ofNat 32 n]) ∧
  TrapsWhen (.grab d a t) t fg (fun fr s => s.rangeDie (vd fr s) (num fr a) = none) (fun _ _ => { cause := .rangeSlot }) ∧
  Does (.launch d a t) t fl
    (fun (x : State × List (BitVec 8)) fr s => fr.clear ∧ (ea fr).toNat % 64 = 0 ∧ s.loadRecord fr (ea fr) = .ok (x.1, x.2) ∧
      x.1.recordCause (vd fr x.1) { Grid.gone with record := x.2 } = none ∧ roomy fr x.1)
    (fun x fr _ =>
      let y := x.1.enterGrid (vd fr x.1) (x.1.owner fr.g).2 (die fr) x.2 (some fr.g.team) none (some (fr.g.team, ⟨fr.site.slot, fr.g.seq, fr.g.readFrom⟩))
      out 1 fr (y.2.2.setTeam fr.g.team { y.2.2.team fr.g.team with jcnt := (x.1.team fr.g.team).jcnt + 1 }) [BitVec.ofNat 32 y.2.1]) ∧
  TrapsWhen (.launch d a t) t fl (fun fr _ => fr.clear ∧ (ea fr).toNat % 64 ≠ 0) (fun fr _ => { cause := .align, addr := some (ea fr) }) ∧
  (∀ c, TrapsWhen (.launch d a t) t fl (fun fr s => fr.clear ∧ (ea fr).toNat % 64 = 0 ∧ ∃ s' rec, s.loadRecord fr (ea fr) = .ok (s', rec) ∧
      s'.recordCause (vd fr s') { Grid.gone with record := rec } = some c) (fun fr _ => { cause := c, addr := some (ea fr) })) ∧
  TrapsWhen (.launch d a t) t fl (fun fr s => fr.clear ∧ (ea fr).toNat % 64 = 0 ∧ ∃ s' rec, s.loadRecord fr (ea fr) = .ok (s', rec) ∧
      s'.recordCause (vd fr s') { Grid.gone with record := rec } = none ∧ ¬ roomy fr s') (fun _ _ => { cause := .launchPoolFull }) ∧
  Does (.join a t) t fj (fun (_ : Unit) fr s => threshold fr ≤ 65535 ∧ met fr s ∧ (s.team fr.g.team).childBad = [])
    (fun _ fr s => fr.became (s.discard (slotCore fr.site.slot) 5) fun g => { g with joinMet := none }) ∧
  TrapsWhen (.join a t) t fj (fun fr _ => 65535 < threshold fr) (fun _ _ => { cause := .joinInvalid }) ∧
  (∀ x xs, TrapsWhen (.join a t) t fj
    (fun fr s => threshold fr ≤ 65535 ∧ met fr s ∧ (s.team fr.g.team).childBad = x :: xs)
    (fun _ _ => { cause := .joinInvalid, addr := some x, after := true, clears := some 17 })) ∧
  give 0 (fun _ _ => True) (fun fr s => (s.team fr.g.team).jcnt) (fun _ _ => 0) ∧
  give 1 (fun _ _ => True) (fun fr s => s.poolHeld (vd fr s) (die fr)) (fun fr s => (s.vdev (vd fr s)).poolQuota (die fr)) ∧
  (∀ k, give 2 (fun fr s => s.rangeDie (vd fr s) (sel fr / 256 % 256) = some k)
    (fun fr s => ((s.die k).ranges.getD (256 * vd fr s + sel fr / 256 % 256) (0, 0, 0, 0)).2.1)
    (fun fr s => ((s.die k).ranges.getD (256 * vd fr s + sel fr / 256 % 256) (0, 0, 0, 0)).1)) ∧
  (∀ q, give 3 (fun fr s => s.itemQueue fr.g.team (sel fr / 256 % 4) = some q) (fun _ _ => q.items.length)
    (fun _ _ => q.logCap + (if q.range then 16 else 0) + (if q.dry then 32 else 0))) ∧
  give 4 (fun _ _ => True) (fun fr s => (s.clockMhz (slotCore fr.site.slot)).toNat) (fun fr s => (BitVec.ofInt 32 (s.core (slotCore fr.site.slot)).lag).toNat) ∧
  TrapsWhen (.lstat d a t) t fg (fun fr _ => 4 < sel fr % 16) (fun _ _ => { cause := .illegalField })

/-- SETHDLR, TRAPRET, RDCAUSE and PROBE complete: the handler is set, the trapping set resumes at TPC or the target, the trap state and a translation are read. Cites 15 R303, 15 R304, 15 R305, 15 R306, 15 R307, 15 R308, 03 R54, 01 R25. -/
def Obligations.TrapInstructionsComplete : Prop := ∀ (d a : RegField) (t : Tail),
  let fh : Form := { cls := .system, srcs := [{ f := a, width := 2, tan := false }], bad := fun _ => !isSZ a }
  let v (fr : Issue) : DWord := (fr.read 0 { f := a, width := 2, tan := false } 0).headD 0
  let code (x : DWord) : Prop := x.toNat % 4 = 0 ∧ x.toNat < 2 ^ 56
  let target (fr : Issue) : DWord := if isZero a then fr.g.trap.tpc else v fr
  let out (fr : Issue) (s : State) (ws : List Word) : State :=
    fr.commit s none ((if isS d then [lowest fr.site.set] else fr.act).flatMap fun x => (fr.destOf x d 2 0 fr.tans).cells x ws)
  let fp : Form := { cls := .system, acc := accSys true, dst := some { f := d, width := 2 }, srcs := [baseOpnd a], bad := fun _ => notPair d || notPair a }
  Does (.sethdlr a t) t fh (fun (_ : Unit) fr _ => code (v fr))
    (fun _ fr s => s.setCtx (s.owner fr.g).1 (s.owner fr.g).2 { s.ctx (s.owner fr.g).1 (s.owner fr.g).2 with hdlr := (v fr).setWidth 56 }) ∧
  TrapsWhen (.sethdlr a t) t fh (fun fr _ => ¬ code (v fr)) (fun _ _ => { cause := .align }) ∧
  Does (.trapret a t) t fh (fun (_ : Unit) fr _ => fr.g.trap.active = true ∧ code (target fr))
    (fun _ fr s => State.endRun (fr.became s fun g =>
      let g := g.onLanes ((lanesOf fr.g.trap.set).filter fun l => !(g.lane l).exited) fun x =>
        { x with pc := (target fr).setWidth 56, clause := if isZero a then fr.g.trap.hdr else none, stamp := g.runCount, entry := g.runCount }
      Group.release { g with trap := { g.trap with active := false } }) (slotCore fr.site.slot) (slotSub fr.site.slot)) (fun _ fr => fr.site.set) ∧
  TrapsWhen (.trapret a t) t fh (fun fr _ => fr.g.trap.active = false) (fun _ _ => { cause := .illegalOpcode }) ∧
  TrapsWhen (.trapret a t) t fh (fun fr _ => fr.g.trap.active = true ∧ ¬ code (target fr)) (fun _ _ => { cause := .align }) ∧
  (∀ n : RegField, n.toNat ≤ 4 →
    Does (.rdcause d n t) t { cls := .system, dst := some { f := d, width := 2 }, rule := .anyS, bad := fun _ => notPair d || decide (4 < n.toNat) }
      (fun (_ : Unit) _ _ => True) (fun _ fr s =>
        let x := fr.g.trap
        let b (c : Bool) (k : Nat) : Nat := if c then 2 ^ k else 0
        let y : DWord := match n.toNat with
          | 0 => x.seq ++ BitVec.ofNat 32 (x.cause.code + x.kind.toNat * 2 ^ 8 + b x.addrv 10 + b x.replayed 11 + b x.exited 12 + b x.active 13)
          | 1 => x.addr
          | 2 => x.tpc
          | 3 => x.lanes
          | _ => x.aux
        out fr s [y.extractLsb' 0 32, y.extractLsb' 32 32])) ∧
  Does (.probe d a t) t fp (fun (_ : Unit) _ _ => isS a = true) (fun _ fr s =>
    let y := s.probePair fr.site.slot fr.g (fr.ea 0 a fr.mods.offset)
    out fr s [y.extractLsb' 0 32, y.extractLsb' 32 32]) ∧
  Does (.probe d a t) t fp (fun (_ : Unit) _ _ => isS a = false) (fun _ fr s => fr.commit s none (fr.act.flatMap fun l =>
    fr.destCells l { f := d, width := 2 } (fr.plain (s.probePair fr.site.slot fr.g (fr.ea l a fr.mods.offset))).vals))

/-- SEQNEW makes the lowest free slot of the pool LIVE with a new key, SEQEND ends the sequence it names, waits for its end and answers 1, or answers 0. Cites 19 R352, 19 R353, 19 R355, 19 R356, 19 R357. -/
def Obligations.SequenceInstructionsComplete : Prop := ∀ (d a : RegField) (t : Tail),
  let out (n : Nat) (fr : Issue) (s : State) (ws : List Word) : State :=
    fr.commit s none ((if isS d then [lowest fr.site.set] else fr.act).flatMap fun x => (fr.destOf x d n 0 fr.tans).cells x ws)
  let fn : Form := { cls := .system, acc := accSys false, dst := some { f := d, width := 2 }, rule := .anyS, bad := fun _ => notPair d }
  let fe : Form := { cls := .system, acc := accSys false, dst := some { f := d }, srcs := [baseOpnd a], rule := .anyS, bad := fun _ => !isSZ d || !isS a }
  let v (fr : Issue) : Nat := ((fr.read 0 (baseOpnd a) 0).headD 0).toNat
  let n (fr : Issue) : Nat := v fr % 2 ^ 14
  let gen (fr : Issue) : Nat := v fr / 2 ^ 32 % 2 ^ 20
  let even (fr : Issue) : Prop := v fr / 2 ^ 14 % 2 ^ 18 = 0 ∧ v fr / 2 ^ 52 = 0
  let me (fr : Issue) : Nat × Nat := (fr.site.slot, fr.g.team)
  let foreign (fr : Issue) (s : State) : Prop := s.foreignKey (s.owner fr.g).1 (s.core (slotCore fr.site.slot)).world (n fr) = true
  let setKey (s : State) (k : Nat) (y : KeySlot) : State := { s with keys := s.keys.put k y }
  Does (.seqnew d t) t fn
    (fun (k : Nat) fr s => k ∈ (s.vdev (s.owner fr.g).1).pool ∧ (s.key k).state = .free ∧ (s.key k).draining = none ∧
      ∀ j ∈ (s.vdev (s.owner fr.g).1).pool, (s.key j).state = .free → k ≤ j)
    (fun k fr s => out 2 fr (setKey { s with free := s.free + 1 } k
      { s.key k with state := .live, world := (s.core (slotCore fr.site.slot)).world, key := Config.randomKey s.free })
      [BitVec.ofNat 32 k, BitVec.ofNat 32 (s.key k).kgen]) ∧
  Does (.seqnew d t) t fn (fun (_ : Unit) fr s => ∀ j ∈ (s.vdev (s.owner fr.g).1).pool, (s.key j).state ≠ .free)
    (fun _ fr s => out 2 fr s [0xFFFFFFFF, 0]) ∧
  Does (.seqend d a t) t fe (fun (_ : Unit) fr s => even fr ∧ me fr ∈ (s.key (n fr)).enders ∧ (s.key (n fr)).draining = none)
    (fun _ fr s => out 1 fr (setKey s (n fr) { s.key (n fr) with enders := (s.key (n fr)).enders.filter (· != me fr) }) [1]) ∧
  Does (.seqend d a t) t fe (fun (_ : Unit) fr s => even fr ∧ me fr ∉ (s.key (n fr)).enders ∧ ¬ foreign fr s ∧
      ((s.key (n fr)).state ≠ .live ∨ (s.key (n fr)).kgen ≠ gen fr)) (fun _ fr s => out 1 fr s [0]) ∧
  (∀ s core sc r g fr s₁, Ready fe t s core sc r g fr s₁ → even fr → me fr ∉ (s₁.key (n fr)).enders → ¬ foreign fr s₁ →
    (s₁.key (n fr)).state = .live → (s₁.key (n fr)).kgen = gen fr → fr.g.loads = [] → fr.g.fifo = [] →
    s₁.unreleased fr.site.slot fr.g 5 false = [] → s₁.nbStores fr.site.slot fr.g.team fr.g.seq 5 false = [] →
    ∃ u, exec (.seqend d a t) s = .next u ∧ u.mem = s₁.mem ∧
      u.key (n fr) = { s₁.key (n fr) with state := if gen fr + 1 < 2 ^ 20 then .free else .retired,
                                          kgen := if gen fr + 1 < 2 ^ 20 then gen fr + 1 else gen fr, draining := some (gen fr),
                                          enders := (s₁.key (n fr)).enders ++ [me fr] } ∧
      ((u.groups.find r.slot).map Group.wait = some (some (.seqEnd (n fr)))) ∧ ∀ k, k ≠ n fr → u.key k = s₁.key k) ∧
  TrapsWhen (.seqend d a t) t fe (fun fr _ => ¬ even fr) (fun _ _ => { cause := .illegalField }) ∧
  TrapsWhen (.seqend d a t) t fe (fun fr s => even fr ∧ me fr ∉ (s.key (n fr)).enders ∧ foreign fr s) (fun _ _ => { cause := .keyWorld })

/-- RUN_BEGIN, LOAD_RETURN, STORE_FIFO_PERFORM, POINT_OF_COHERENCE_ARRIVAL and ITEM_QUEUE_GRAB complete with the effect the rules give. Cites 01 R24, 03 R55, 07 R133, 07 R134, 07 R142, 08 R163, 08 R169, 13 R247, 13 R248, 13 R249, 13 R250, 07 R144. -/
def Obligations.GroupEventsComplete : Prop := ∀ (s : State) (slot id : Nat),
  (∀ sc slot g, (s.core (sc / 12)).runs.find (sc % 12) = none → s.winner (sc / 12) (sc % 12) = some slot → s.groups.find slot = some g →
    exec (.runBegin sc) s = .next ((s.setGroup slot { (g.settled.onLanes g.settled.nextSet fun x => { x with stamp := g.settled.runCount + 1 }) with
        runCount := g.settled.runCount + 1, runStamp := (s.core (sc / 12)).runsBegun.getD (sc % 12) 0 + 1, wait := none, hazards := [] }).setCore (sc / 12)
      { s.core (sc / 12) with runs := (s.core (sc / 12)).runs.put (sc % 12) { slot := slot, set := laneSet g.settled.nextSet, issued := 0 },
                              runsBegun := (s.core (sc / 12)).runsBegun.put (sc % 12) ((s.core (sc / 12)).runsBegun.getD (sc % 12) 0 + 1) })) ∧
  (∀ core sc slot, s.winner core sc = some slot → ∃ g, (slot, g) ∈ s.groups ∧ s.isReady slot g = true ∧ slotCore slot = core ∧ slotSub slot = sc ∧
    ∀ kg ∈ s.groups, slotCore kg.1 = core → slotSub kg.1 = sc → s.isReady kg.1 kg.2 = true → g.runStamp ≤ kg.2.runStamp) ∧
  (∀ g ld s₂ cs ids, s.groups.find slot = some g → (g.loads.find? fun l => l.id == id) = some ld →
    ld.gen = (s.core (slotCore slot)).slotGen.get (slotIn slot) → g.preempted = false → g.stopped = false → ld.accs.length ≤ ld.locs.length →
    (ld.deferred = true → ld.fixed = true) → (∀ m ∈ g.loads, ld.waitsFor (slotCore slot) m = false) → s.ordBefore slot g ld = none →
    s.draw.2.readHalf slot g ld = none → s.draw.2.readAccs slot g ld s.draw.1 0 ld.accs = .ok (s₂, cs, ids) →
    ∃ u g', exec (.loadReturn slot id) s = .next u ∧ u.mem = s₂.mem ∧ u.groups.find slot = some g' ∧
      g'.loads = g.loads.filter (fun l => l.id != id) ∧ g'.fifo = g.fifo ∧ ∀ c, g'.valueAt c = (g.writes cs).valueAt c) ∧
  (∀ g e es parts, s.groups.find slot = some g → g.fifo = e :: es → g.preempted = false → g.stopped = false →
    (∀ q, e.parked = some q → s.isParked (coreDie (slotCore slot)) q = false) → (∀ l ∈ g.loads, l.seq < e.seq → l.fixed = true) →
    (releases e.flav = true → s.unreleased slot g e.scope false = [] ∧ s.nbStores slot g.team e.seq e.scope false = []) →
    s.entryParts slot g e = .ok parts →
    exec (.storeFifoPerform slot) s = .next (s.leaveFifo slot g e parts) ∧
    (∀ x l, e.kind = .store → parts = [(0, x, l)] → l.own (slotCore slot) = true → x.data.length = x.size →
      (s.leaveFifo slot g e parts).mem = writeCells s.mem l.place.key x.data ∧ (s.leaveFifo slot g e parts).flight = s.flight ∧
      ((s.leaveFifo slot g e parts).groups.find slot).map Group.fifo = some es) ∧
    ((∀ p ∈ parts, p.2.2.own (slotCore slot) = false ∧ p.2.2.isPeer = false ∧ p.2.1.size ≠ 16) → parts ≠ [] →
      (s.leaveFifo slot g e parts).mem = s.mem ∧ ((s.leaveFifo slot g e parts).groups.find slot).map Group.fifo = some es ∧
      ∃ f, (s.leaveFifo slot g e parts).flight = s.flight ++ [f] ∧ f.parts = parts ∧ f.slot = slot ∧ f.seq = e.seq ∧ f.kind = e.kind ∧ f.load = e.load)) ∧
  (∀ f s₂ olds, (s.flight.find? fun f => f.id == id) = some f → s.flightBefore f = none → f.inPeer = false →
    (s.landFlight id).performParts f.kind f.parts = .ok (s₂, olds) →
    ∃ u, exec (.pointOfCoherenceArrival id) s = .next u ∧ u.mem = s₂.mem ∧ u.flight = s.flight.filter (fun x => x.id != id)) ∧
  (∀ core q x die, (s.core core).iq.find q = some x → x.range = true → x.dry = false → x.items.length < 64 → x.tail = [] →
    s.rangeDie (s.grid x.grid).vdev x.slot = some die →
    let r := s.rangeSlot die (s.grid x.grid).vdev x.slot
    let n := min r.2.1 (max r.2.2.2 ((r.2.1 + r.2.2.1 - 1) / r.2.2.1))
    ∃ u y, exec (.itemQueueGrab core q) s = .next u ∧ (u.core core).iq.find q = some y ∧ u.mem = s.mem ∧ u.groups = s.groups ∧
      u.rangeSlot die (s.grid x.grid).vdev x.slot = ((r.1 + n) % 2 ^ 32, r.2.1 - n, r.2.2.1, r.2.2.2) ∧ y.dry = decide (n = 0) ∧
      (n = 0 → y.items = x.items) ∧
      (0 < n → x.items.length + n ≤ 2 ^ x.logCap → y.items = x.items ++ (List.range n).map fun k => BitVec.ofNat 32 (r.1 + k))) ∧
  (∀ g ld v x l c o, ld.accs = [x] → ld.locs = [l] → ld.got = [] → l.place = .sram c o → (s.core c).badWords o x.1.size = [] →
    s.flight = [] → g.fifo = [] →
    s.readAccs slot g ld v 0 ld.accs = .ok (s.used l, ld.cellsOf g x (readCells s.mem l.place.key x.1.size), []))

/-- STREAM_FILL fills its queue in order, IMPRECISE_STORE_TRAP records a store's cause, COALESCER_CLOSE writes the record and enters the handler. Cites 07 R135, 08 R181, 08 R182, 08 R170, 07 R151, 07 R152, 15 R302, 15 R303, 21 R382. -/
def Obligations.StreamAndTrapEventsComplete : Prop := ∀ (s : State) (slot core : Nat),
  (∀ g r x locs s₂ vals ids, s.groups.find slot = some g → g.streams.find r = some x → x.running = true → g.preempted = false →
    (g.queues.getD x.queue []).length < 4 → (∀ q, x.parked = some q → s.isParked (coreDie (slotCore slot)) q = false) →
    (typeFloat x.ty = true → (s.gridOf g.team).tangents = 0 ∨ (s.gridOf g.team).tstride ≠ 0) →
    let accs := x.accs (s.gridOf g.team).tangents (s.gridOf g.team).tstride
    let s₁ := s.setCore (slotCore slot) { s.core (slotCore slot) with sturn := 8 * slot + r }
    collect (s₁.elementLoc slot g) accs = .ok locs → peerParts (partsOf accs locs) = [] →
    s₁.draw.2.readEntry slot g s₁.draw.1 [] (partsOf accs locs) = .ok (s₂, vals, ids) →
    ∃ u g', exec (.streamFill slot r) s = .next u ∧ u.mem = s₂.mem ∧ u.groups.find slot = some g' ∧
      g'.queues.getD x.queue [] = g.queues.getD x.queue [] ++ [entryOf x.ty accs vals] ∧ (∀ q, q ≠ x.queue → g'.queues.getD q [] = g.queues.getD q []) ∧
      g'.streams.find r = some { x with pos := x.pos + 1, running := decide (x.pos + 1 < x.total), parked := none } ∧ ∀ c, g'.valueAt c = g.valueAt c) ∧
  (∀ g p ps, s.groups.find slot = some g → g.imprecise = p :: ps → g.preempted = false → g.stopped = false → g.done = false → g.pending = none →
    g.trap.active = false → (s.core (slotCore slot)).coal.length < 8 → s.boundarySet slot g ≠ 0 →
    ∃ u g', exec (.impreciseStoreTrap slot) s = .next u ∧ u.mem = s.mem ∧ u.groups.find slot = some g' ∧ g'.imprecise = ps ∧ g'.wait = some .trap ∧
      g'.pending = some { p with tpc := (g.lane (lowest (s.boundarySet slot g))).pc, hdr := (g.lane (lowest (s.boundarySet slot g))).clause,
                                 set := s.boundarySet slot g } ∧
      (∀ c, g'.valueAt c = g.valueAt c) ∧
      ∃ r ∈ (u.core (slotCore slot)).coal, r.deliver = true ∧ r.cause = p.cause ∧ slotIn slot ∈ r.groups ∧ r.vdev = (s.owner g).1 ∧ r.ctx = (s.owner g).2) ∧
  (∀ r s₂, ((s.core core).coal.find? fun x => x.seq == r.seq) = some r → (∀ q, r.parked = some q → s.isParked q.1 q.2 = false) →
    s.writeRecord core r = (s₂, .ok ()) →
    (r.deliver = false ∨ s₂.awaited core r = false → exec (.coalescerClose core r.seq) s = .next (s₂.dropRecord core r.seq)) ∧
    (r.deliver = true → s₂.awaited core r = true → (s₂.ctx r.vdev r.ctx).hdlr ≠ 0 →
      ∃ u, exec (.coalescerClose core r.seq) s = .next u ∧ u.mem = s₂.mem ∧ (∀ x ∈ (u.core core).coal, x.seq ≠ r.seq) ∧
        ∀ n g p, s₂.groups.find n = some g → slotCore n = core → slotIn n ∈ r.groups → g.pending = some p → g.wait = some .trap →
          ∃ g', u.groups.find n = some g' ∧ g'.pending = none ∧ g'.wait = none ∧ g'.trap.active = true ∧ g'.trap.cause = r.cause ∧
            g'.trap.addr = (r.addr.getD 0) &&& 0x00FFFFFFFFFFFFFF ∧ g'.trap.tpc = p.tpc.setWidth 64 ∧ g'.trap.lanes = p.lanes ∧ g'.trap.aux = p.aux ∧
            g'.trap.seq = BitVec.ofNat 32 r.seq ∧ g'.trap.hdr = p.hdr ∧ g'.trap.set = p.set ∧ g'.trap.excs = p.excs ∧ (∀ c, g'.valueAt c = g.valueAt c) ∧
            ∀ l, l < 64 → (g'.lane l).pc = if p.set.getLsbD l = true ∧ (g.lane l).exited = false then (s₂.ctx r.vdev r.ctx).hdlr else (g.lane l).pc) ∧
    (r.deliver = true → s₂.awaited core r = true → (s₂.ctx r.vdev r.ctx).hdlr = 0 →
      ∃ u, exec (.coalescerClose core r.seq) s = .next u ∧ (u.ctx r.vdev r.ctx).state = 2 ∧ ∀ x ∈ (u.core core).coal, x.seq ≠ r.seq))

/-- PREEMPT, RESUME, WORLD_CHANGE, COMPACT_WAIT_EXPIRY, GROUP_RETIRE and TEAM_RETIRE complete: state is HELD exactly, returned, zeroed, or freed. Cites 01 R14, 07 R145, 07 R146, 07 R147, 07 R148, 07 R149, 07 R150, 14 R267, 04 R100, 14 R269, 14 R270, 09 R187. -/
def Obligations.ResidenceEventsComplete : Prop := ∀ (s : State) (core vd ctx world slot team : Nat),
  (let teams := s.residentOf (s.clustersOn core vd ctx)
   (∀ f ∈ s.flight, (teams.flatMap fun t => (s.team t).slots).contains f.slot = true → f.inPeer = true) → s.nbPending teams = none →
   (∀ r ∈ s.peers, r.rmw = true → (teams.flatMap fun t => (s.team t).slots).contains r.slot = false) →
    ∃ u, exec (.preempt core vd ctx) s = .next u ∧ u.mem = s.mem ∧ ∀ t ∈ teams, (u.team t).held = true ∧
      (∀ b o, ((u.core (s.team t).core).blocks.find b = some o ∨ (u.core (s.team t).core).units.find b = some o) → o.team = t → o.state = .held) ∧
      ∀ n ∈ (s.team t).slots, ∀ g, s.groups.find n = some g → ∃ g', u.groups.find n = some g' ∧
        g' = { g with preempted := true, heldGen := g'.heldGen, replayTo := g.seq, hazards := [], wait := g'.wait, loads := g'.loads, fifo := g'.fifo } ∧
        g'.loads.map Load.id = g.loads.map Load.id ∧ g'.fifo.map FifoEntry.seq = g.fifo.map FifoEntry.seq) ∧
  (∀ c t s₂, s.clustersOn core vd ctx = [c] → (s.teams.filter fun t => t.2.cluster == c && t.2.held).map Prod.fst = [t] → s.isActive vd ctx = true →
    (s.core (s.team t).core).world = (s.vdev vd).world → (s.team t).joining = false → (s.core (s.team t).core).sramBad = [] →
    (s.returnRecords (s.team t).core vd ctx).returnTeam t = some s₂ →
    exec (.resume core vd ctx) s = .next s₂ ∧ (s₂.team t).held = false ∧
    ∀ n ∈ (s.team t).slots, ∀ g, s.groups.find n = some g → g.team = t → ∃ g', s₂.groups.find n = some g' ∧
      g' = { g with preempted := false, base := g'.base, runStamp := g'.runStamp }) ∧
  ((s.core core).world ≠ world → s.activeTeams core = [] → (∀ r ∈ (s.core core).coal, r.deliver = true ∨ r.parked.isSome = true) →
    (∀ t x, (t, x) ∈ s.teams → x.core = core → x.placed = true → ∀ r ∈ s.peers, (s.team t).slots.contains r.slot = false) →
    (∀ n ∈ (s.core core).units.keys, n < 320) →
    ∃ u, exec (.worldChange core world) s = .next u ∧ (u.core core).world = world ∧ (u.core core).blocks = [] ∧ (u.core core).units = [] ∧
      (u.core core).l1 = [] ∧ (u.core core).tlb = [] ∧ (u.core core).iq = [] ∧ (u.core core).coal = [] ∧ (∀ n, n < 320 * 65536 → readCell u.mem ((Place.sram core 0).key + n) = 0) ∧
      ∀ k, k < (Place.sram core 0).key ∨ (Place.sram core 0).key + 320 * 65536 ≤ k → readCell u.mem k = readCell s.mem k) ∧
  (∀ n, (s.core core).compacting = [] → s.compactAt core = some n →
    exec (.compactWaitExpiry core) s = .next ({ s with gtime := max s.gtime n }.setCore core { s.core core with compact := true })) ∧
  (∀ g, s.groups.find slot = some g → g.done = true → s.quiet slot g = true → g.preempted = false → g.stopped = false →
    ∃ u, exec (.groupRetire slot) s = .next u ∧ u.groups.find slot = none ∧ (u.team g.team).slots = (s.team g.team).slots.filter (· != slot) ∧
      ∀ n o, n < (s.gridOf g.team).groupBlocks → (u.core (slotCore slot)).blocks.find (256 * slotSub slot + g.base + n) = some o → o.team ≠ g.team) ∧
  (∀ t g, s.teams.find team = some t → s.teamIdle team = true → s.grids.find t.grid = some g →
    ∃ u g', exec (.teamRetire team) s = .next u ∧ u.teams.find team = none ∧ u.grids.find t.grid = some g' ∧
      g'.ret0 = g.ret0 + (if coreDie t.core = 0 then 1 else 0) ∧ g'.ret1 = g.ret1 + (if coreDie t.core = 1 then 1 else 0) ∧
      (∀ b o, (u.core t.core).blocks.find b = some o ∨ (u.core t.core).units.find b = some o → o.team ≠ team) ∧
      ∀ n o, (s.core t.core).units.find n = some o → o.team = team → ∀ k, k < 65536 → readCell u.mem (unitCell t.core n + k) = 0)

/-- CLUSTER_PLACE and TEAM_PLACE place a cluster's teams by rank and give each what it needs; GRID_COMPLETE writes the status block and ends the grid. Cites 01 R13, 14 R261, 14 R263, 14 R264, 14 R265, 14 R266, 14 R270, 14 R276, 13 R240. -/
def Obligations.PlacementEventsComplete : Prop := ∀ (s : State) (die team grid : Nat),
  (∀ vd gr cores, ((s.die die).pool.map fun g => (s.grid g).vdev).dedup = [vd] → s.nextGrid die vd = some gr → s.placeFor gr = some cores →
    (∀ c ∈ cores, s.canTake c gr = true ∧ bit (s.placeOf (s.grid gr).vdev) c = true) ∧
    ∃ u, exec (.clusterPlace die) s = .next u ∧ u.mem = s.mem ∧ (u.grid gr).nextCluster = (s.grid gr).nextCluster + 1 ∧
      u.clusters.find s.nextId = some
        { grid := gr, core0 := cores.headD 0, cw := max 1 (s.grid gr).cw, ch := max 1 (s.grid gr).ch,
          teams := (List.range cores.length).map fun r => s.nextId + 1 + r, arrivals := [] } ∧
      u.agenda = ((List.range cores.length).map fun r => Instr.teamPlace (s.nextId + 1 + r)) ++ s.agenda ∧
      ∀ r, r < cores.length → u.teams.find (s.nextId + 1 + r) = some { Team.gone with
        grid := gr, index := (s.grid gr).nextCluster * cores.length + r, rank := r, cluster := s.nextId, core := cores.getD r 0, placed := false,
        since := (s.grid gr).since }) ∧
  (∀ t s₁ vs ps s₂, s.teams.find team = some t → t.placed = false → s.isActive (s.grid t.grid).vdev (s.grid t.grid).ctx = true →
    s.holdsSlice (s.grid t.grid).vdev = true → s.stillParked (coreDie t.core) t.fpark = false → (s.core t.core).world = (s.vdev (s.grid t.grid).vdev).world →
    s.readFormats ⟨2 ^ 59 + team, .core, t.core, (s.grid t.grid).vdev, (s.grid t.grid).ctx, (s.core t.core).world⟩
      ((List.range (s.grid t.grid).fmtn).map fun n => (s.grid t.grid).field 0x30 55 0 + 8 * n) = (s₁, .values vs ps) →
    s₁.takeResources t.core team t.grid = some s₂ → s₁.beginSpills s₂ t.core team = none → (∀ x, (team, x) ∈ s₁.teams → x.placed = false) →
    ∃ u, exec (.teamPlace team) s = .next u ∧ (u.team team).placed = true ∧ (u.team team).fmts = formatRegs vs ∧
      (u.team team).slots.length = (s₁.grid t.grid).field 0x10 46 42 ∧ (u.team team).units.length = (s₁.grid t.grid).unitCount ∧
      ∀ n, n < (u.team team).slots.length → ∃ g, u.groups.find ((u.team team).slots.getD n 0) = some g ∧ g.team = team ∧ g.num = n ∧
        g.s = (s₁.grid t.grid).sinit ∧ g.fifo = [] ∧ g.loads = [] ∧
        ∀ l, l < 64 → (g.lane l).pc = BitVec.ofNat 56 ((s₁.grid t.grid).field 0 55 0) ∧ (g.lane l).exited = false ∧ (g.lane l).v = []) ∧
  (∀ g s₁, s.grids.find grid = some g → g.cause = .none → s.gridOver grid g = true → g.statDone = false → s.isActive g.vdev g.ctx = true → s.stillParked g.die g.parked = false →
    (let w : Agent := ⟨2 ^ 61 + 2 ^ 20 + grid, .packet, if g.die = 0 then 0 else 4, g.vdev, g.ctx, (s.vdev g.vdev).world⟩
     (g.statAddr = 0 ∧ s₁ = s) ∨ (g.statAddr ≠ 0 ∧ s.agentWaits w = false ∧ s.agentWrite w g.statAddr (s.gridBlock g) = (s₁, .ok ()))) →
    ∃ u, exec (.gridComplete grid) s = .next u ∧ u.mem = s₁.mem ∧ u.grids.find grid = none ∧
      (u.die (s₁.grid grid).die).pool = (s₁.die (s₁.grid grid).die).pool.filter (· != grid) ∧
      ∀ t, (s₁.grid grid).parent = some t → (s₁.teams.find t).isSome = true →
        (u.team t).jcnt = (s₁.team t).jcnt - 1 ∧
        (u.team t).childBad = (s₁.team t).childBad ++ if (s₁.grid grid).imprecise = 0 then [] else [BitVec.ofNat 64 (s₁.grid grid).statAddr])

/-- MATRIX_STEP runs one k-step, tile row or whole plane operation of a queued operation as R43 to R46 and R203 say; MATRIX_COMPLETE counts and removes it. Cites 02 R43, 02 R44, 02 R45, 02 R46, 09 R189, 09 R192, 09 R193, 09 R194, 09 R195, 09 R196, 09 R199, 09 R203. -/
def Obligations.MatrixEventsComplete : Prop := ∀ (s : State) (core op : Nat) (o : MatrixOp),
  ((s.core core).mq.find? fun o => o.id == op) = some o → s.opReady core o = true →
  let k := (s.gridOf o.team).tangents
  let w := s.agentOf (opTag o.team op) .matrix o.team
  let turn : Prop := s.opTurn core = some o.team ∧ (o.readsPlanes k).any (s.team o.team).accMismatch = false ∧ (s.core core).assayBad = 0
  let s0 := s.setCore core { s.core core with mturn := o.team }
  let went (u : State) (o' : MatrixOp) : Prop := (u.core core).mq = (s.core core).mq.map (fun x => if x.id = o'.id then o' else x)
  let plane (t : State) (n j : Nat) : List Word := (t.team o.team).plane n j
  let others (u : State) (n : Nat) : Prop := ∀ n' j, n' ≠ n → j < 8 → plane u n' j = plane s n' j
  (∀ n s32, turn → o.kind = .mmz n s32 → o.begun = false → ∃ u, exec (.matrixStep core op) s = .next u ∧ u.mem = s.mem ∧ others u n ∧
    (∀ j, j ≤ k → plane u n j = zeroPlane) ∧ ((u.team o.team).s32.contains n = s32) ∧ went u { o with begun := true, pass := 1 }) ∧
  (∀ d n, turn → o.kind = .accmv d n → o.begun = false → ∃ u, exec (.matrixStep core op) s = .next u ∧ u.mem = s.mem ∧ others u d ∧
    (∀ j i, j ≤ k → (plane u d j).getD i 0 = (plane s n j).getD i 0) ∧ (u.team o.team).s32.contains d = (s.team o.team).s32.contains n ∧
    went u { o with begun := true, pass := 1 }) ∧
  (∀ d n satu, turn → o.kind = .accadd d n satu → o.begun = false → ∃ u, exec (.matrixStep core op) s = .next u ∧ u.mem = s.mem ∧ others u d ∧
    (∀ i, i < 4096 → (plane s d 0).length = 4096 → (plane s n 0).length = 4096 →
      let a := (plane s d 0).getD i 0
      let b := (plane s n 0).getD i 0
      (plane u d 0).getD i 0 = if (s.team o.team).s32.contains d then BitVec.ofInt 32 (if satu then max (-(2 ^ 31)) (min (2 ^ 31 - 1) (a.toInt + b.toInt)) else a.toInt + b.toInt)
        else BitVec.ofNat 32 (f32.sumProd false 0 [[a.toNat], [b.toNat]]).1) ∧ went u { o with begun := true, pass := 1 }) ∧
  (∀ n s32 s₂ got, turn → o.kind = .accld n s32 → o.begun = true → o.pass = 0 → o.step + 1 < 64 →
    s0.unitRead w o.team (some .engineRead) [(tileRow o.quad (s.gridOf o.team).tstride o.step 0, 256)] = (s₂, .ok got) → got.flatten.length = 256 →
    (plane s₂ n 0).length = 4096 →
    ∃ u, exec (.matrixStep core op) s = .next u ∧ u.mem = s₂.mem ∧ ∀ i, i < 4096 → (plane u n 0).getD i 0 =
      if 64 * o.step ≤ i ∧ i < 64 * o.step + 64 then (wordsOf got.flatten).getD (i - 64 * o.step) 0 else (plane s₂ n 0).getD i 0) ∧
  (∀ n s₂, turn → o.kind = .accst n → o.begun = true → o.pass = 0 → o.step < 64 →
    s0.unitWrite w o.team (some .groupStore) (tileRow o.quad (s.gridOf o.team).tstride o.step 0)
      (bytesOf (((plane s n 0).drop (64 * o.step)).take 64)) = (s₂, .ok ()) →
    ∃ u, exec (.matrixStep core op) s = .next u ∧ u.mem = s₂.mem) ∧
  (∀ s₁ s₂ s₃ brows arows got, turn → o.kind = .mm → o.begun = true → o.finished (s.team o.team) k = false → opSparse o.quad = false → o.row = 0 →
    let sab := passOf o.pass
    let ts := (s.gridOf o.team).tstride
    let ty := mapType (o.maps.getD 0 0)
    let tile := opAcc o.quad
    let elems (bs : List (BitVec 8)) : List (Option Nat) := (elements (elemSize ty) bs).map some
    s0.rowsLocs w o.team (some .engineRead) .load (panelRows (o.maps.getD 1 0) true o.step ((sab.2.1 * ts : Nat) : Int)) = (s₁, brows, none) →
    s₁.rowsLocs w o.team (some .engineRead) .load (panelRows (o.maps.getD 0 0) false o.step ((sab.1 * ts : Nat) : Int)) = (s₂, arows, none) →
    s₂.readRows w (brows ++ arows) = (s₃, .ok got) → (got.drop 32).length ≤ 64 → (plane s₃ tile sab.2.2).length = 4096 →
    ∃ u, exec (.matrixStep core op) s = .next u ∧ u.mem = s₃.mem ∧
      ∀ i n, i < (got.drop 32).length → n < 64 → (plane u tile sab.2.2).getD (64 * i + n) 0 =
        (accumulate ty (opSat o.quad) (formed (elems ((got.drop 32).getD i [])) ((columnsOf ((got.take 32).map elems)).getD n []))
          ((plane s₃ tile sab.2.2).getD (64 * i + n) 0)).1) ∧
  (∀ satu ps c, let p : Int := (ps.map fun y : Nat × Nat => (BitVec.ofNat 8 y.1).toInt * (BitVec.ofNat 8 y.2).toInt).sum
    accumulate 2 satu ps c = (BitVec.ofInt 32 (if satu then max (-(2 ^ 31)) (min (2 ^ 31 - 1) (c.toInt + p)) else c.toInt + p), 0)) ∧
  (∀ s₂, o.finished (s.team o.team) k = true → s.agentWaits w = false →
    let g := s.gridOf o.team
    let s₁ := (s.setCore core { s.core core with mq := (s.core core).mq.filter fun x => x.id != op }).setVdev g.vdev
      { s.vdev g.vdev with meters := (s.vdev g.vdev).meters.set 1 ((s.vdev g.vdev).meters.get 1 + BitVec.ofNat 64 (o.clocks k)) }
    s₁.countFor o.team o.bar o.bytes = (s₂, false) →
    exec (.matrixComplete core op) s = .next s₂ ∧ (o.bar = noBarrier → s₂ = s₁))

/-- COPY_ROW reads, converts and writes one row and advances its channel, or sends a signal; COPY_COMPLETE removes the command and counts its bytes. Cites 10 R209, 10 R214, 10 R215, 10 R216, 10 R218, 10 R219, 23 R420, 13 R244, 07 R140. -/
def Obligations.CopyRowsComplete : Prop := ∀ (s : State) (team ch : Nat) (c : CopyCmd), s.chanReady team ch = some c →
  let gr := s.gridOf team
  let w := s.agentOf (chanTag team ch) .caster team
  let s0 := s.setCore (s.team team).core { s.core (s.team team).core with cturn := 16 * team + ch }
  let chan (t : State) : Channel := (t.team team).chan ch
  let turn : Prop := s.chanTurn (s.team team).core = some (16 * team + ch)
  (∀ op ep, turn → c.kind = .sig op ep → c.sent = false → ∃ u f, exec (.copyRow team ch) s = .next u ∧ u.mem = s.mem ∧ u.flight = s.flight ++ [f] ∧
    f.kind = .atom (if op = 0 then 6 else 0) 2 ∧
    f.parts.map (fun p => (p.2.1.data, p.2.2.place)) = [(bytesOf (c.desc.drop 2), endpointPlace ep (ofWords (c.desc.take 2)))] ∧
    (chan u).queue = { c with sent := true } :: (chan s).queue.drop 1) ∧
  (∀ s₁ s₂ got n parts map idx fl, turn → (∀ op ep, c.kind ≠ .sig op ep) → c.pass < c.geo.passes gr.tangents →
    s0.rowParts w team c c.geo gr.tstride = (s₁, got, .ok (parts, map, idx, fl)) → s₁.rowRefused team c c.geo parts = none →
    s₁.copyWrite w team c parts = (s₂, n, none) →
    let last := c.geo.sparse || decide (c.geo.drows ≤ c.row + 1)
    ∃ u, exec (.copyRow team ch) s = .next u ∧ u.mem = s₂.mem ∧ (chan u).flags = (chan s₂).flags ||| (fl &&& 0x1F) ∧
      (chan u).queue = { c with bitmap := if c.pass = 0 then map else c.bitmap, row := if last then 0 else c.row + 1,
                                pass := if last then c.pass + 1 else c.pass, parked := none, got := [], pos := 0 } :: (chan s₂).queue.drop 1) ∧
  (∀ s₁ got parts map idx fl cc ea, turn → (∀ op ep, c.kind ≠ .sig op ep) → c.pass < c.geo.passes gr.tangents →
    s0.rowParts w team c c.geo gr.tstride = (s₁, got, .ok (parts, map, idx, fl)) → s₁.rowRefused team c c.geo parts = some (cc, ea) → cc.kind = .T →
    ∃ u, exec (.copyRow team ch) s = .next u ∧ u.mem = s₁.mem ∧ (chan u).queue = [] ∧ (chan u).failed = true ∧
      (chan u).kept = some { cause := cc, addr := some (BitVec.ofNat 64 ea), pc := c.pc, replayed := c.parked.isSome }) ∧
  (∀ op ep, c.kind = .sig op ep → c.sent = true → s.agentWaits w = false →
    ∃ u, exec (.copyComplete team ch) s = .next u ∧ u.mem = s.mem ∧ (chan u).queue = (chan s).queue.drop 1) ∧
  (∀ s₂, (∀ op ep, c.kind ≠ .sig op ep) → c.geo.passes gr.tangents ≤ c.pass → s.agentWaits w = false →
    let n := c.geo.passes gr.tangents * c.geo.counts
    (c.bars c.geo = [] → ∃ u, exec (.copyComplete team ch) s = .next u ∧ u.mem = s.mem ∧ (chan u).queue = (chan s).queue.drop 1 ∧
      (u.vdev gr.vdev).meters.get 3 = (s.vdev gr.vdev).meters.get 3 + BitVec.ofNat 64 n) ∧
    ∀ b, c.bars c.geo = [b] → (let x := s.putChan team ch (Channel.begin { chan s with queue := (chan s).queue.drop 1 })
        (x.setVdev gr.vdev { x.vdev gr.vdev with meters := (x.vdev gr.vdev).meters.set 3 ((x.vdev gr.vdev).meters.get 3 + BitVec.ofNat 64 n) }).countFor team b n) =
        (s₂, false) → exec (.copyComplete team ch) s = .next s₂)

/-- NBCMD enters a command when every queue has room, NBDRAIN notes what it waits for, the units carry it out and complete it; drained keys are zeroised. Cites 18 R338, 18 R339, 18 R340, 18 R342, 18 R343, 18 R344, 18 R345, 17 R320, 19 R357. -/
def Obligations.NearBankEventsComplete : Prop := ∀ (s : State),
  (∀ h data c, (s.nb.find? fun c => c.stack == h.stack && c.id % 1024 == h.tag && c.vdev == h.domain && decide (c.entered < c.parts.length) &&
      (c.octet.flatMap fun w => toBytes 4 w.toNat) == data) = some c → s.nbGoes c = true → s.nbAfterMet c = true → s.nbBefore c = false → c.fn < 9 →
    (∀ p ∈ c.parts, ((s.stack c.stack).queues.getD p.1 []).length < 16) →
    ∃ u, exec (.nbcmd h data) s = .next u ∧ u.mem = s.mem ∧
      u.nb = s.nb.map (fun x => if x.id = c.id then { c with entered := c.parts.length } else x) ∧
      (∀ q, (u.stack c.stack).queues.getD q [] = (s.stack c.stack).queues.getD q [] ++
        ((c.parts.filter fun p => p.1 == q).map fun p => { cmd := c.id, kind := p.2, col := 0 })) ∧
      (u.stack c.stack).responses = (s.stack c.stack).responses ++ [{ tag := h.tag, status := 0, data := [] }]) ∧
  (∀ h, let p0 := h.arg % 2 ^ 11
    let n := h.arg / 2 ^ 11 % 2 ^ 12
    (n = 0 ∨ 2048 < p0 + n → exec (.nbdrain h) s = .next (s.respond h.stack h.tag 4 [])) ∧
    (∀ d, n ≠ 0 → p0 + n ≤ 2048 → s.drains = [d] → d.carriedBy h = true → d.cmds = none → s.drainBehind d = false →
      let d' := s.drainArrives d
      (∃ cs, d' = { d with cmds := some cs } ∧
        ∀ i, i ∈ cs ↔ ∃ q x, (q, x) ∈ (s.stack h.stack).queues ∧ p0 ≤ q ∧ q < p0 + n ∧ ∃ y ∈ x, y.cmd = i) ∧
      ∃ u, exec (.nbdrain h) s = .next u ∧ u.mem = s.mem ∧ (d.slot < 2 ^ 20 → u.drains = [{ d' with answered := s.drained d' }]) ∧
        (u.stack h.stack).responses = (s.stack h.stack).responses ++ if s.drained d' then [{ tag := h.tag, status := 0, data := [] }] else [])) ∧
  (∀ stack pair p q c, (s.stack stack).queues.find pair = some (p :: q) → (s.nb.find? fun c => c.id == p.cmd) = some c →
    (s.stack stack).hung = false → s.nbRunnable p = true →
    (∀ bs, p.kind = .vector → s.nbVector c = .ok bs →
      ∃ u, exec (.nbColumn stack pair) s = .next u ∧ u.mem = s.mem ∧ (u.stack stack).queues.getD pair [] = q ∧
        u.nb = s.nb.map (fun x => if x.id = c.id then { c with vec := some bs, finished := c.finished + 1 } else x)) ∧
    (∀ n s₁ bs, p.kind = .lane n → s.nbLane c n = .ok (s₁, bs) →
      ∃ u, exec (.nbColumn stack pair) s = .next u ∧ u.mem = s₁.mem ∧ (u.stack stack).queues.getD pair [] = ((s₁.stack stack).queues.getD pair []).drop 1) ∧
    (∀ n s₁ c₁, p.kind = .cols n → s.nbStep c n p.col = .ok (s₁, c₁) →
      ∃ u, exec (.nbColumn stack pair) s = .next u ∧ u.mem = s₁.mem ∧ (u.stack stack).queues.getD pair [] =
        if c₁.columns n ≤ p.col + 1 then ((s₁.stack stack).queues.getD pair []).drop 1
        else { p with col := p.col + 1 } :: ((s₁.stack stack).queues.getD pair []).drop 1)) ∧
  (∀ id c s₁ s₂, (s.nb.find? fun c => c.id == id) = some c → c.parts.length ≤ c.finished → (s.stack c.stack).hung = false → c.failed = false → c.fn < 9 →
    let s0 := State.setStack { s with nb := s.nb.filter fun x => x.id != id } c.stack { s.stack c.stack with served := (s.stack c.stack).served + 1 }
    let total := (List.range c.pairs).foldl (fun (x : Nat) n => (f32.sumProd false 0 [[x], [(c.partials.getD n 0).toNat]]).1) 0
    (c.single = false ∧ s₁ = s0 ∨ c.single = true ∧ s0.writeDram c.stack c.z (toBytes c.os (c.out total)) c.vdev none = .ok s₁) →
    (s₁.setVdev c.vdev { s₁.vdev c.vdev with meters := (s₁.vdev c.vdev).meters.set 2 ((s₁.vdev c.vdev).meters.get 2 + 1) }).countFor c.team c.bar c.counts =
      (s₂, false) → exec (.nbCommandComplete id) s = .next s₂) ∧
  (∀ slot gen, (s.key slot).draining = some gen → s.keyUsed slot gen = false →
    ∃ u, exec (.sequenceDrainDone slot) s = .next u ∧ (u.key slot).key = 0 ∧ (u.key slot).draining = none ∧ (u.key slot).kgen = (s.key slot).kgen ∧
      (u.key slot).state = (s.key slot).state ∧ (∀ n, n ≠ slot → u.key n = s.key n) ∧ u.mem = s.mem ∧
      (∀ c x, u.cores.find c = some x → ∀ k ∈ x.l1.keys, k / 2 ^ 90 ≠ 1 + slot + 2 ^ 14 * gen) ∧ u = { s with keys := u.keys, cores := u.cores })

/-- WALK_STEP advances, ends, parks or fails a walk; PAGER_SERVE and PAGER_FILL_COMPLETE make a granule resident and replay; the two timeouts contain. Cites 15 R285, 15 R287, 15 R292, 15 R293, 15 R296, 15 R297, 15 R298, 15 R299, 13 R241, 15 R310. -/
def Obligations.TranslationEventsComplete : Prop := ∀ (s : State) (die id : Nat),
  (∀ w, (s.die die).walks.find id = some w → (∀ q, w.parked = some q → s.isParked die q = false) →
    let v := (s.scrubTags die).draw.1
    let s' := (s.scrubTags die).draw.2
    (∀ p bs, s'.walkRead die w v = .ok (p, bs) → (∀ x, p ≠ .done x) → ∃ u, exec (.walkStep die id) s = .next u ∧ u.mem = s.mem ∧ u.groups = s.groups ∧
      (u.die die).walks.find id = some { w with phase := p, parked := none } ∧ (u.die die).tlc = (s'.die die).tlc ∧
      (w.phase.holds p bs = false → (u.die die).wcache = (s'.die die).wcache) ∧
      (w.phase.holds p bs = true → ∃ more, (u.die die).wcache =
        { vdev := w.vdev, ctx := w.ctx, epoch := (s.ctx w.vdev w.ctx).epoch, gpa := w.phase.table, bytes := bs } :: more)) ∧
    (∀ x bs, s'.walkRead die w v = .ok (.done x, bs) → x.cacheable = true → ∃ u more, exec (.walkStep die id) s = .next u ∧
      (u.die die).tlc = x :: more ∧ (∀ y ∈ more, y ∈ (s.die die).tlc) ∧ (u.die die).walks.find id = none ∧ u.mem = s.mem ∧ u.groups = s.groups) ∧
    (∀ gpa, s'.walkRead die w v = .error (.xlateNotPresent, gpa) → (s.die die).faults.length < 2048 →
      let q := w.parked.getD (s.die die).faultSeq
      ∃ u, exec (.walkStep die id) s = .next u ∧ (u.die die).walks.find id = some { w with parked := some q } ∧ u.isParked die q = true ∧
        (u.die die).faultSeq = (if w.parked.isSome then (s.die die).faultSeq else ((s.die die).faultSeq + 1) % 2 ^ 32) ∧
        ∃ r ∈ u.pager, r.vdev = w.vdev ∧ r.granule = gpa / 65536 ∧ (die, q) ∈ r.waiters) ∧
    (∀ c gpa, s'.walkRead die w v = .error (c, gpa) → c ≠ .xlateNotPresent → ∃ u, exec (.walkStep die id) s = .next u ∧
      (u.die die).walks.find id = some { w with phase := .failed c gpa, parked := none })) ∧
  (∀ r, s.nextReq = some r →
    (∀ f x, r.victim = none → (s.vdev r.vdev).s2.find r.granule = some f → f.res = false → s.freeFrame r.vdev f.buf = some x →
      exec .pagerServe s = .next { s with pager := s.pager.map fun y =>
        if y.vdev == r.vdev && y.granule == r.granule then { r with filling := true, frame := some x, victim := none } else y }) ∧
    (∀ f, r.victim = none → (s.vdev r.vdev).s2.find r.granule = some f → f.res = true → ∃ u, exec .pagerServe s = .next u ∧ u.mem = s.mem ∧
      (∀ y ∈ u.pager, ¬ (y.vdev = r.vdev ∧ y.granule = r.granule)) ∧ ∀ w ∈ r.waiters, (u.die w.1).faults.find w.2 = none) ∧
    (∀ f d n x, r.victim = none → (s.vdev r.vdev).s2.find r.granule = some f → f.res = false → s.freeFrame r.vdev f.buf = none →
      (∀ g y, (s.vdev r.vdev).s2.find g = some y → y.res = true → y.pin = true) → r.waiters = [(d, n)] → (s.die d).faults.find n = some x →
      ∃ u, exec .pagerServe s = .next u ∧ (u.ctx x.vdev x.ctx).state = 2 ∧ (u.die d).faults.find n = none ∧
        ((s.ctx x.vdev x.ctx).state ≠ 2 → (u.ctx x.vdev x.ctx).cause = .pagerOvercommit))) ∧
  (∀ r f buf o, (s.pager.find? fun r => r.filling) = some r → (s.vdev r.vdev).s2.find r.granule = some f → r.frame = some (buf, o) →
    let after (u : State) : Prop :=
      (u.vdev r.vdev).s2.find r.granule = some { f with res := true, buf := buf, boff := o, runl := 0 } ∧
      (u.vdev r.vdev).meters.get 4 = (s.vdev r.vdev).meters.get 4 + 1 ∧ (∀ y ∈ u.pager, ¬ (y.vdev = r.vdev ∧ y.granule = r.granule)) ∧
      ∀ w ∈ r.waiters, (u.die w.1).faults.find w.2 = none
    ((s.vdev r.vdev).back.find r.granule = none → ∃ u, exec .pagerFillComplete s = .next u ∧ after u ∧
      ∀ p ∈ s.frameLines buf o, ∀ n, n < 64 → readCell u.mem (p.key + n) = 0) ∧
    (∀ b s₁, (s.vdev r.vdev).back.find r.granule = some b → s.copyIn r.vdev r.granule buf o b = .ok s₁ →
      ∃ u, exec .pagerFillComplete s = .next u ∧ after u ∧ u.mem = s₁.mem)) ∧
  (∀ w, (s.die die).walks.find id = some w → w.phase.ended = false → (∀ q, w.parked = some q → s.isParked die q = false) →
    ∃ u, exec (.walkTimeout die id) s = .next u ∧ (u.die die).walks.find id = none ∧ (u.ctx w.vdev w.ctx).state = 2 ∧
      ((s.ctx w.vdev w.ctx).state ≠ 2 → (u.ctx w.vdev w.ctx).cause = .walkTimeout)) ∧
  (∀ vd ctx f p c o, f ∈ s.flight → f.vdev = vd → f.ctx = ctx → p ∈ f.parts → p.2.2.place = .sram c o → c ≠ f.core → (s.ctx vd ctx).state = 1 →
    ∃ u, exec (.remoteTimeout vd ctx) s = .next u ∧ (u.ctx vd ctx).state = 2 ∧ (u.ctx vd ctx).cause = .remoteUnreachable)

/-- Queues: KICK, QUEUE_ENABLE, QCTL_RESET, the hardware slots, PROGRESS_HANG and NB_QUEUE_FAILURE do what their rules say. Cites 21 R383, 21 R384, 21 R385, 21 R386, 21 R376, 07 R154, 18 R347. -/
def Obligations.QueueEventsComplete : Prop := ∀ (s : State) (vd q : Nat),
  let k := s.queue vd q
  let takes : Prop := (s.vdev vd).state = .running ∨ (s.vdev vd).state = .stopped
  let empty (u : State) : Prop := (u.queue vd q).state = .disabled ∧ (u.queue vd q).enable = false ∧ (u.queue vd q).packets = [] ∧
    (u.queue vd q).rdidx = 0 ∧ (u.queue vd q).w = 0 ∧ (u.queue vd q).mapped = false
  (∀ w, takes → q < (s.vdev vd).nq → k.enable = true → k.state = .idle ∨ k.state = .active →
    (s.ringOk vd k = true → (BitVec.ofNat 32 w - k.rdidx).toNat ≤ 2 ^ (k.rlog - 6) → ∃ u, exec (.kick vd q w) s = .next u ∧
      (u.queue vd q).w = BitVec.ofNat 32 w ∧ (u.queue vd q).packets = k.packets ∧ (u.queue vd q).rdidx = k.rdidx ∧ u.mem = s.mem ∧
      (u.queue vd q).state = if BitVec.ofNat 32 w = k.rdidx then k.state else .active) ∧
    (2 ^ (k.rlog - 6) < (BitVec.ofNat 32 w - k.rdidx).toNat → ∃ u, exec (.kick vd q w) s = .next u ∧ (u.queue vd q).state = .error ∧
      (u.queue vd q).cause = .queueRing ∧ (u.queue vd q).failIdx = k.rdidx ∧ (u.queue vd q).failTag = 0)) ∧
  (∀ w on, (s.vdev vd).state = .configured ∨ (s.vdev vd).state = .resetting ∨ (s.vdev vd).state = .error →
    ∀ i ∈ ([.kick vd q w, .queueEnable vd q on, .qctlReset vd q] : List Instr),
      exec i s = .next (s.setVdev vd { s.vdev vd with ignored := (s.vdev vd).ignored + 1 })) ∧
  (takes → k.enable = false →
    (q < (s.vdev vd).nq → (s.ctx vd k.ctx).state = 1 → k.cvec < (s.vdev vd).prof 0x20 57 45 → k.evec < (s.vdev vd).prof 0x20 57 45 →
      ∃ u, exec (.queueEnable vd q true) s = .next u ∧ (u.queue vd q).enable = true ∧ (u.queue vd q).state = .idle ∧ (u.queue vd q).rdidx = 0 ∧
        (u.queue vd q).w = 0 ∧ (u.queue vd q).packets = [] ∧ (u.queue vd q).cause = .none) ∧
    ((s.vdev vd).nq ≤ q ∨ (s.ctx vd k.ctx).state ≠ 1 ∨ (s.vdev vd).prof 0x20 57 45 ≤ k.cvec ∨ (s.vdev vd).prof 0x20 57 45 ≤ k.evec →
      ∃ u, exec (.queueEnable vd q true) s = .next u ∧ (u.queue vd q).enable = false ∧ (u.queue vd q).cause = .illegalField)) ∧
  (takes → k.state ≠ .disabled → (∃ u, exec (.queueEnable vd q false) s = .next u ∧ empty u) ∧ ∃ u, exec (.qctlReset vd q) s = .next u ∧ empty u) ∧
  (s.wantsSlot vd q = true → (s.allQueues.filter fun x => x.2.2.mapped).length < 512 →
    (∀ x ∈ s.allQueues, s.wantsSlot x.1 x.2.1 = true → k.kicked.getD s.nextId ≤ x.2.2.kicked.getD s.nextId) →
    exec (.queueSlotGrant vd q) s = .next (s.setQueue vd q { k with mapped := true })) ∧
  (k.mapped = true → k.pending = false ∨ (s.vdev vd).state ≠ .running → ∃ u, exec (.queueSlotRelease vd q) s = .next u ∧
    (u.queue vd q).mapped = false ∧ (u.queue vd q).packets.map Packet.idx = k.packets.map Packet.idx ∧
    (u.queue vd q).packets.map Packet.step = k.packets.map Packet.step) ∧
  (∀ slot g, s.groups.find slot = some g → g.preempted = false → s.owner g = (vd, q) → (s.ctx vd q).state = 1 → (s.ctx vd q).hangt ≠ 0xFFFFFF →
    ∃ u, exec (.progressHang vd q) s = .next u ∧ (u.ctx vd q).state = 2 ∧ (u.ctx vd q).cause = .hang) ∧
  (∀ stack pair, ∃ u, exec (.nbQueueFailure stack pair) s = .next u ∧ u.mem = s.mem ∧ (u.stack stack).queues.getD pair [] = [] ∧
    (u.stack stack).parity = (s.stack stack).parity + (1 - s.draw.1 % 2) ∧ Report.die 3 stack pair ∈ u.errors ∧
    ∀ p c, p ∈ (s.stack stack).queues.getD pair [] → c ∈ s.nb → c.id = p.cmd → (u.ctx c.vdev c.ctx).state = 2)

/-- PACKET_FETCH, DISPATCH, WRITE, SIGNAL, WAIT, WRITE_SIGNAL, FENCE, INDIRECT and SEQUENCE_END perform their packet's step on a queue that is served. Cites 21 R387, 21 R388, 21 R389, 21 R390, 21 R391, 21 R384, 14 R262, 14 R270, 15 R295, 19 R356, 21 R382. -/
def Obligations.PacketEventsComplete : Prop := ∀ (s : State) (vd q : Nat),
  let k := s.queue vd q
  let w := s.packetAgent vd q
  k.statDue = false → s.serving vd q = true →
  let pk (u : State) : List Packet := (u.queue vd q).packets
  let wordsAt (bs : List (BitVec 8)) (n : Nat) : DWord := if n < 8 then BitVec.ofNat 64 (ofBytes ((bs.drop (8 * n)).take 8)) else 0
  (∀ s₁ bs, k.leaving = false → (∀ p f, k.current = some (p, f) → packetCause p.words false = none) → k.w ≠ k.rdidx →
    (k.packets.filter fun p => !p.begun).length < 16 → (∀ p ∈ k.packets, pType p.words ≠ 6) →
    s.packetRead w (k.rbase + 64 * (k.rdidx.toNat % 2 ^ (k.rlog - 6))) 64 = (s₁, .ok bs) →
    ∃ u p, exec (.packetFetch vd q) s = .next u ∧ u.mem = s₁.mem ∧ pk u = pk s₁ ++ [p] ∧ p.idx = k.rdidx.toNat ∧ p.begun = false ∧ p.done = false ∧
      (∀ n, p.words.get n = wordsAt bs n) ∧ (u.queue vd q).rdidx = k.rdidx + 1 ∧ (u.queue vd q).state = .active ∧ (u.queue vd q).statDue = true) ∧
  ∀ p first, k.current = some (p, first) → packetCause p.words false = none → (pOrdered p.words = true → p.step = 0 → first = true) →
  let ends (u : State) : Prop := ∀ x ∈ pk u, x.idx = p.idx → x.done = true
  let stays (u : State) : Prop := ∃ x ∈ pk u, x.idx = p.idx ∧ x.begun = true ∧ x.done = p.done
  let a (n : Nat) : Nat := (p.words.get n).toNat
  let plain (l : Loc) : Prop := attrCC l.attr = false ∧ attrHostCache l.attr = false ∧ l.isPeer = false ∧ ∀ h, l.place = .host h → Config.hostAtomics = true
  let val (op old v : Nat) : Nat := if op = 0 then v % 2 ^ 64 else if op = 1 then (old + v) % 2 ^ 64 else (old + 2 ^ 64 - v % 2 ^ 64) % 2 ^ 64
  let signals (i : Instr) (ea op v : Nat) : Prop := ∀ s₁ l old s₂, s.packetLoc w .rmw ea = (s₁, .ok l) → plain l → s₁.readLoc l 8 = .ok old →
    s₁.writeLoc l (toBytes 8 (val op (ofBytes old) v)) = .ok s₂ → ∃ u, exec i s = .next u ∧ u.mem = s₂.mem ∧ ends u
  let holds (bs : List (BitVec 8)) : Prop := if a 2 = 0 then ofBytes bs = a 3 else if a 2 = 1 then ofBytes bs ≠ a 3
    else if a 2 = 2 then ofBytes bs < a 3 else a 3 ≤ ofBytes bs
  let waits (i : Instr) : Prop := ∀ s₁ bs, s.packetRead w (a 1) 8 = (s₁, .ok bs) → (∃ u, exec i s = .next u) ∧
    (holds bs → ∃ u, exec i s = .next u ∧ ends u) ∧ (¬ holds bs → p.done = false → ∃ u, exec i s = .next u ∧ stays u)
  (pType p.words = 1 → (∀ x ∈ k.packets, ∀ g ∈ x.grids, (s.grids.find g.1).isSome = true) → ∀ s₁ rec, s.packetRead w (a 1) 192 = (s₁, .ok rec) →
    s₁.recordCause vd { Grid.gone with record := rec } = none → s₁.poolRoom vd (s.homeDie vd) = true →
    ∃ u g x, exec (.dispatch vd q) s = .next u ∧ u.mem = s₁.mem ∧ u.grids.find s₁.nextId = some g ∧ g.record = rec ∧ g.vdev = vd ∧ g.ctx = k.ctx ∧
      g.queue = some (q, p.idx) ∧ (u.die (s.homeDie vd)).pool = (s₁.die (s.homeDie vd)).pool ++ [s₁.nextId] ∧
      x ∈ pk u ∧ x.idx = p.idx ∧ (s₁.nextId, a 2, false) ∈ x.grids) ∧
  (∀ x id, k.packets = [x] → x.grids = [(id, 0, false)] → s.grids.find id = none → ∃ u, exec (.dispatch vd q) s = .next u ∧ u.mem = s.mem ∧
    ∀ y ∈ pk u, y.idx = x.idx → y.grids = []) ∧
  (pType p.words = 2 → ∀ s₁, s.packetWrite w (a 1) (toBytes 8 (a 2)) = (s₁, .ok ()) → ∃ u, exec (.write vd q) s = .next u ∧ u.mem = s₁.mem ∧ ends u) ∧
  (pType p.words = 3 → signals (.signal vd q) (a 1) (a 2) (a 3)) ∧
  (pType p.words = 4 → waits (.wait vd q) ∧ (p.begun = true → waits (.waitReevaluate vd q))) ∧
  (pType p.words = 5 → (∀ s₁, p.step = 0 → s.packetWrite w (a 1) (toBytes 8 (a 2)) = (s₁, .ok ()) →
      ∃ u, exec (.writeSignal vd q) s = .next u ∧ u.mem = s₁.mem ∧ ∃ x ∈ pk u, x.idx = p.idx ∧ x.step = 1 ∧ x.done = false) ∧
    (p.step ≠ 0 → signals (.writeSignal vd q) (a 3) (a 4) (a 5))) ∧
  (pType p.words = 6 → first = true → (a 1 = 0 → ∃ u, exec (.fencePacket vd q) s = .next u ∧ ends u) ∧
    (a 1 = 1 → s.outside vd k.ctx = .ready → ∃ u, exec (.fencePacket vd q) s = .next u ∧ ends u ∧
      (u.ctx vd k.ctx).epoch = (s.ctx vd k.ctx).epoch + 1 ∧ (u.ctx vd k.ctx).rtlive = (s.ctx vd k.ctx).rtroot ∧
      (u.ctx vd k.ctx).ptlive = (s.ctx vd k.ctx).ptroot ∧ (∀ c x, x ∈ (u.core c).tlb → ¬ (x.vdev = vd ∧ x.ctx = k.ctx)) ∧
      ∀ d, (∀ x ∈ (u.die d).tlc, ¬ (x.vdev = vd ∧ x.ctx = k.ctx)) ∧ ∀ x ∈ (u.die d).wcache, ¬ (x.vdev = vd ∧ x.ctx = k.ctx))) ∧
  (pType p.words = 7 → (∀ s₁ bs, p.subWords = none → s.packetRead w (a 1 + 64 * p.sub) 64 = (s₁, .ok bs) →
      ∃ u x ws, exec (.indirect vd q) s = .next u ∧ u.mem = s₁.mem ∧ x ∈ pk u ∧ x.idx = p.idx ∧ x.subWords = some ws ∧ ∀ n, ws.get n = wordsAt bs n) ∧
    (∀ ws s₁, p.subWords = some ws → packetCause ws true = none → pType ws = 2 → pOrdered ws = false →
      s.packetWrite w (ws.get 1).toNat (toBytes 8 (ws.get 2).toNat) = (s₁, .ok ()) →
      ∃ u, exec (.indirect vd q) s = .next u ∧ u.mem = s₁.mem ∧ ∀ x ∈ pk u, x.idx = p.idx → x.sub = p.sub + 1 ∧ x.subWords = none ∧
        (x.done = true ↔ a 2 ≤ p.sub + 1))) ∧
  (pType p.words = 8 → k.ending ≠ some (a 1) → s.foreignKey vd (s.vdev vd).world (a 1) = false →
    ((s.key (a 1)).state = .live → (s.key (a 1)).kgen = a 2 → ∃ u, exec (.sequenceEnd vd q) s = .next u ∧ u.key (a 1) = (s.key (a 1)).ended ∧
      (u.queue vd q).ending = some (a 1)) ∧
    ((s.key (a 1)).state ≠ .live ∨ (s.key (a 1)).kgen ≠ a 2 → a 3 = 0 → ∃ u, exec (.sequenceEnd vd q) s = .next u ∧ u.keys = s.keys ∧ ends u))

/-- KILL and DRAIN of the seven kinds of participant, KILL_ACK and its timeout, SLICE_END and the token buckets do what their rules say. Cites 07 R155, 09 R206, 10 R217, 18 R347, 15 R301, 21 R396, 23 R421, 21 R397, 21 R392, 21 R393, 21 R384. -/
def Obligations.KillAndSliceEventsComplete : Prop := ∀ (s : State) (v : Victim) (core die : Nat),
  (∃ u, exec (.coreKill core v) s = .next u ∧ u.mem = s.mem ∧ v ∈ (u.core core).refused ∧
    (∀ slot ∈ s.victimOn v core, ∀ g, u.groups.find slot = some g → g.stopped = true) ∧
    ∀ slot, slot ∉ s.victimOn v core → u.groups.find slot = s.groups.find slot) ∧
  (∃ u, exec (.coreDrain core v) s = .next u ∧ u.mem = s.mem ∧
    (∀ slot ∈ s.victimOn v core, ∀ g, u.groups.find slot = some g → g.fifo = [] ∧ g.imprecise = [] ∧ g.pending = none ∧ g.stopped = true) ∧
    (∀ slot, slot ∉ s.victimOn v core → u.groups.find slot = s.groups.find slot) ∧
    ∀ r ∈ (u.core core).coal, victimHits v r.vdev r.ctx = true → r.deliver = false ∧ r.parked = none) ∧
  (∀ slot, s.victimOn v core = [slot] → ∃ u, exec (.coreDrain core v) s = .next u ∧
    (u.core core).slotGen.get (slotIn slot) = (s.core core).slotGen.get (slotIn slot) + 1) ∧
  (∃ u, exec (.matrixKill core v) s = .next u ∧ u = s.setCore core { s.core core with mrefused := (u.core core).mrefused } ∧ v ∈ (u.core core).mrefused) ∧
  (∃ u, exec (.casterKill core v) s = .next u ∧ u = s.setCore core { s.core core with crefused := (u.core core).crefused } ∧ v ∈ (u.core core).crefused) ∧
  (∃ u, exec (.nearbankKill die v) s = .next u ∧ u = s.setDie die { s.die die with nbRefused := (u.die die).nbRefused } ∧ v ∈ (u.die die).nbRefused) ∧
  (∃ u, exec (.walkerKill die v) s = .next u ∧ u = s.setDie die { s.die die with refused := (u.die die).refused } ∧ v ∈ (u.die die).refused) ∧
  (∃ u, exec (.qslotKill v) s = .next u ∧ u = { s with qrefused := u.qrefused } ∧ v ∈ u.qrefused) ∧
  (∃ u, exec (.endpointKill v) s = .next u ∧ u = { s with erefused := u.erefused } ∧ v ∈ u.erefused) ∧
  (∃ u, exec (.matrixDrain core v) s = .next u ∧ u.mem = s.mem ∧ u.teams = s.teams ∧
    (u.core core).mq = (s.core core).mq.filter fun o => !(s.victimTeams v).contains o.team) ∧
  (∃ u, exec (.casterDrain core v) s = .next u ∧ u.mem = s.mem ∧ u.groups = s.groups ∧
    ∀ t ∈ s.victimTeams v, (s.team t).core = core → (u.team t).jcnt = (s.team t).jcnt ∧ ∀ c ∈ (u.team t).chans, c.2.queue = []) ∧
  (∃ u, exec (.nearbankDrain die v) s = .next u ∧ u.mem = s.mem ∧ u.teams = s.teams ∧
    u.nb = s.nb.filter fun c => !(stackDie c.stack == die && victimHits v c.vdev c.ctx)) ∧
  (∃ u, exec (.walkerDrain die v) s = .next u ∧ u.mem = s.mem ∧ u.groups = s.groups ∧
    (∀ n w, (u.die die).walks.find n = some w → victimHits v w.vdev w.ctx = false) ∧
    ∀ n f, (u.die die).faults.find n = some f → victimHits v f.vdev f.ctx = false) ∧
  (∀ q, s.victimQueues v = [q] → (s.queue v.vdev q).state = .idle ∨ (s.queue v.vdev q).state = .active → (s.queue v.vdev q).noStat = true →
    ∃ u, exec (.qslotDrain v) s = .next u ∧ u.mem = s.mem ∧ (u.queue v.vdev q).state = .error ∧ (u.queue v.vdev q).cause = .killed ∧
      (u.queue v.vdev q).mapped = false) ∧
  (∃ u, exec (.endpointDrain v) s = .next u ∧ u.mem = s.mem ∧ (u.incoming = s.incoming.filter fun r => !(s.victimEndpoints v).contains r.ep) ∧
    u.replies.length = s.replies.length + (s.incoming.filter fun r => (s.victimEndpoints v).contains r.ep).length ∧
    ∀ r ∈ u.replies, r ∈ s.replies ∨ r.ok = false ∧ r.ep ∈ s.victimEndpoints v) ∧
  (∀ part k, (s.kills.find? fun k => k.victim == v && (k.waiting.contains part || k.waiting.isEmpty)) = some k → s.acks part v = true →
    (∀ p, p ∈ k.waiting → p ≠ part → ∃ u, exec (.killAck part v) s = .next u ∧ { k with waiting := k.waiting.filter (· != part) } ∈ u.kills ∧ u.mem = s.mem) ∧
    (k.waiting = [part] → k.then_ = 0 → k.reply = none → ∃ u, exec (.killAck part v) s = .next u ∧ k ∉ u.kills ∧ u.mem = s.mem ∧
      v ∉ u.qrefused ∧ v ∉ u.erefused ∧
      ∀ c x, (s.vdev v.vdev).ctxs.find c = some x → x.state = 1 → victimHits v v.vdev c = true →
        (u.ctx v.vdev c).state = 2 ∧ (u.ctx v.vdev c).cause = .killed)) ∧
  (∀ k, die < 2 → (s.kills.find? fun k => k.victim == v && k.waiting.contains (400 + die)) = some k → (∃ p ∈ k.waiting, p ≠ 400 + die) →
    ∃ u, exec (.killAckTimeout (400 + die) v) s = .next u ∧ { k with waiting := k.waiting.filter (· != 400 + die) } ∈ u.kills ∧
      (∀ slot g, u.groups.find slot = some g → coreDie (slotCore slot) ≠ die) ∧ (∀ t x, u.teams.find t = some x → coreDie x.core ≠ die) ∧
      (u.die die).walks = [] ∧ ∃ l, Report.devices 16 l ∈ u.errors) ∧
  (∀ set vd, s.devicesOf set = [vd] → (s.vdev vd).prof 0x18 31 0 = 0 → s.eligibleNow vd = true →
    ((s.set set).running = none → ∃ u, exec (.sliceEnd set) s = .next u ∧ (u.set set).running = some vd ∧ (u.set set).began = s.gtime ∧ u.mem = s.mem) ∧
    ((s.set set).running = some vd → (s.vdev vd).configured = none → ∃ u, exec (.sliceEnd set) s = .next u ∧ u.gtime = max s.gtime ((s.set set).began + 1000 * (s.vdev vd).slice) ∧
      (u.vdev vd).meters.get 0 = (s.vdev vd).meters.get 0 + BitVec.ofNat 64 ((s.vdev vd).coreCount * (s.vdev vd).slice))) ∧
  (∀ vd, (s.vdev vd).prof 0x18 31 0 ≠ 0 → (s.vdev vd).state ≠ .absent →
    (∃ u, exec (.bucketEmpty vd) s = .next u ∧ u.mem = s.mem ∧ (u.vdev vd).bucket = 0 ∧ (∀ q k, (u.vdev vd).queues.find q = some k → k.mapped = false) ∧
      (s.holdsSlice vd = true → .sliceEnd (s.vdev vd).setKey ∈ u.agenda)) ∧
    ∃ u, exec (.bucketRecover vd) s = .next u ∧ u.mem = s.mem ∧
      (u.vdev vd).bucket = max (s.vdev vd).bucket (min ((s.vdev vd).prof 0x18 63 32) ((s.vdev vd).coreCount * (s.vdev vd).slice)))

/-- Every Stack Port request and every engine command is answered as its rule says; the patrol reads on, and a hung engine serves nothing. Cites 17 R319, 17 R320, 17 R321, 17 R324, 17 R325, 17 R326, 17 R327, 17 R331, 17 R318, 24 R423, 21 R397. -/
def Obligations.StackPortAndEngineCommandsComplete : Prop := ∀ (s : State) (h : PortHdr) (e : EngHdr),
  let k := s.stack h.stack
  let answers (i : Instr) (st : Nat) (data : List (BitVec 8)) : Prop := exec i s = .next (s.respond h.stack h.tag st data)
  let inRange : Prop := spaRow h.spa < k.rows
  (∀ n i, (n, i) ∈ ([(1, .rd64 h), (4, .rd256 h)] : List (Nat × Instr)) → h.spa % (64 * n) = 0 →
    ((∀ j < n, spaRow (h.spa + 64 * j) < k.rows ∧ (h.domain = crucible ∨ k.owner (h.spa + 64 * j) = some h.domain) ∧
        spaChan (h.spa + 64 * j) ∉ k.deadChans ∧ (h.spa + 64 * j) / 64 ∉ k.bad) →
      answers i 0 (readCells s.mem (Place.dram h.stack h.spa).key (64 * n))) ∧
    (k.rows ≤ spaRow h.spa → answers i 4 []) ∧
    (inRange → h.domain ≠ crucible → k.owner h.spa ≠ some h.domain → answers i 2 []) ∧
    (inRange → h.domain = crucible ∨ k.owner h.spa = some h.domain → h.spa / 64 ∈ k.bad → ∃ u, exec i s = .next u ∧ u.mem = s.mem ∧
      ⟨h.tag, 1, []⟩ ∈ (u.stack h.stack).responses ∧ ⟨h.spa, 0, (k.owner h.spa).getD crucible, s.gtime⟩ ∈ (u.stack h.stack).ras)) ∧
  (∀ (data : List (BitVec 8)) (mask : BitVec 64) n i, (n, i) ∈ ([(1, .wr64 h data mask), (4, .wr256 h data)] : List (Nat × Instr)) →
    h.spa % (64 * n) = 0 → data.length = 64 * n →
    ((∀ j < n, spaRow (h.spa + 64 * j) < k.rows ∧ (h.domain = crucible ∨ k.owner (h.spa + 64 * j) = some h.domain) ∧
        spaChan (h.spa + 64 * j) ∉ k.deadChans) → ∃ u, exec i s = .next u ∧ (u.stack h.stack).responses = k.responses ++ [⟨h.tag, 0, []⟩] ∧
      ∀ a, readCell u.mem a = (if (Place.dram h.stack h.spa).key ≤ a ∧ a < (Place.dram h.stack h.spa).key + 64 * n ∧
        (n = 4 ∨ mask.getLsbD (a - (Place.dram h.stack h.spa).key) = true) then data.getD (a - (Place.dram h.stack h.spa).key) 0 else readCell s.mem a)) ∧
    (inRange → h.domain ≠ crucible → k.owner h.spa ≠ some h.domain → answers i 2 [])) ∧
  answers (.cfgrd h) 0 (toBytes 8 (k.config h.spa)) ∧
  (∀ data, ∃ u, exec (.cfgwr h data) s = .next u ∧ u.mem = s.mem ∧ (u.stack h.stack).config h.spa =
      (if configMask h.spa = 0 then k.config h.spa else (BitVec.ofNat 64 (ofBytes data) &&& BitVec.ofNat 64 (configMask h.spa)).toNat) ∧
    (u.stack h.stack).responses = k.responses ++ [⟨h.tag, 0, []⟩]) ∧
  (∀ data, let dom := ofBytes (data.take 2) % 2 ^ 12
    (h.domain ≠ crucible → answers (.patset ⟨h, data⟩) 2 []) ∧
    (h.domain = crucible → inRange → dom = 0xFFF → ∃ u, exec (.patset ⟨h, data⟩) s = .next u ∧ u.mem = s.mem ∧ (u.stack h.stack).owner h.spa = none) ∧
    (h.domain = crucible → inRange → dom ≠ 0xFFF → k.guardOk (patKey h.spa) dom = true → ∃ u, exec (.patset ⟨h, data⟩) s = .next u ∧ u.mem = s.mem ∧
      (u.stack h.stack).owner h.spa = some dom) ∧
    (h.domain = crucible → inRange → dom ≠ 0xFFF → k.guardOk (patKey h.spa) dom = false → ∃ u, exec (.patset ⟨h, data⟩) s = .next u ∧ u.mem = s.mem ∧
      (u.stack h.stack).responses = k.responses ++ [⟨h.tag, 5, []⟩] ∧ (u.stack h.stack).pat = k.pat ∧ Report.die 14 dom 0 ∈ u.errors ∧
      ((s.vdevs.find dom).isSome = true → (u.vdev dom).state = .error))) ∧
  (∀ cmd, ∃ u, exec (.stackPortBadcmd h cmd) s = .next u ∧ u.mem = s.mem ∧ ⟨h.tag, 3, []⟩ ∈ (u.stack h.stack).responses ∧ Report.die 1 h.stack cmd ∈ u.errors) ∧
  (let b := s.stack e.stack
    let tells (i : Instr) (st n : Nat) (data : List (BitVec 8)) : Prop := exec i s = .next (s.respond e.stack e.tag 0 (engRsp e st n data))
    (b.hung = true → ∀ data op, ∀ i ∈ ([.rasread e, .patrol e, .patstat e, .engstat e, .imgchunk e data, .imgact e, .qreset e, .engcmdBadop e op,
      .patrolRead e.stack] : List Instr), exec i s = .next s) ∧
    (b.hung = false → e.domain ≠ crucible → ∀ data op, ∀ i ∈ ([.rasread e, .patrol e, .patstat e, .engstat e, .imgchunk e data, .imgact e, .qreset e,
      .engcmdBadop e op] : List Instr), exec i s = .next (s.respond e.stack e.tag 2 [])) ∧
    (b.hung = false → e.domain = crucible →
      (e.arg0 < 2 ^ 32 → e.arg0 ≤ b.ras.length → tells (.rasread e) 0 ((b.ras.drop e.arg0).take 3).length
        (toBytes 8 (e.arg0 + ((b.ras.drop e.arg0).take 3).length + 2 ^ 32 * b.ras.length) ++ ((b.ras.drop e.arg0).take 3).flatMap RasEntry.bytes)) ∧
      (1 ≤ e.arg0 % 256 → e.arg0 % 256 ≤ 168 → ∃ u, exec (.patrol e) s = .next u ∧ u.mem = s.mem ∧ (u.stack e.stack).patrolHours = e.arg0 % 256 ∧
        (u.stack e.stack).patrolPaused = bit e.arg0 8) ∧
      (e.arg0 % 256 = 0 ∨ 168 < e.arg0 % 256 → tells (.patrol e) 2 0 []) ∧
      tells (.patstat e) 0 0 (toBytes 8 b.patrolNext ++ toBytes 8 b.patrolPasses) ∧
      tells (.engstat e) 0 0 (toBytes 8 (b.engver % 2 ^ 32 + 2 ^ 32 * (s.gtime / 10 ^ 6 % 2 ^ 32)) ++ toBytes 8 b.parity ++ toBytes 8 b.served) ∧
      (∀ data, data.length = 48 → e.arg0 % 2 ^ 32 % 48 = 0 → ∃ u, exec (.imgchunk e data) s = .next u ∧ u.mem = s.mem ∧
        ∀ j < 48, (u.stack e.stack).image.get (e.arg0 % 2 ^ 32 + j) = data.getD j 0) ∧
      (let img := (List.range (e.arg0 % 2 ^ 32)).map b.image.get;
        (s.imageValid 3 img = true → ∃ u, exec (.imgact e) s = .next u ∧ u.mem = s.mem ∧ u.runs (16 + e.stack) = img ∧
          (u.stack e.stack).engver = imageField img 8 4) ∧ (s.imageValid 3 img = false → tells (.imgact e) 2 0 [])) ∧
      (bits e.arg0 22 11 ≠ 0 → bits e.arg0 10 0 + bits e.arg0 22 11 ≤ 2048 → ∃ u, exec (.qreset e) s = .next u ∧ u.mem = s.mem ∧
        ∀ q, bits e.arg0 10 0 ≤ q → q < bits e.arg0 10 0 + bits e.arg0 22 11 → (u.stack e.stack).queues.find q = none) ∧
      (∀ op, tells (.engcmdBadop e op) 1 0 []) ∧
      (b.patrolPaused = false → b.patrolNext + 64 < b.rows * 2 ^ 22 → b.patrolNext / 64 ∉ b.bad → spaChan b.patrolNext ∉ b.deadChans →
        exec (.patrolRead e.stack) s = .next (s.setStack e.stack { b with patrolNext := b.patrolNext + 64 }))) ∧
    (∀ ch, ∃ u, exec (.channelRecalibrate e.stack ch) s = .next u ∧ u.mem = s.mem ∧ u.free = s.free + 1 ∧
      (u.errors = s.errors ∧ (u.stack e.stack).deadChans = b.deadChans ∨ Report.die 8 e.stack ch ∈ u.errors ∧ ch ∈ (u.stack e.stack).deadChans)) ∧
    ∃ u, exec (.baseDieEngineHang e.stack) s = .next u ∧ u.mem = s.mem ∧ (u.stack e.stack).hung = true ∧ Report.die 4 e.stack 0 ∈ u.errors)

/-- Row and die links resend, retrain, retire and come back; a cut die contains its contexts; BOOT, POWER_OFF and THERMAL_TRIP do what their rules say. Cites 17 R316, 17 R333, 17 R315, 24 R433, 24 R435, 24 R424, 21 R398, 19 R358, 17 R332, 24 R434, 24 R423. -/
def Obligations.LinkAndPowerEventsComplete : Prop := ∀ (s : State) (n : Nat),
  let l := s.link n
  (l.retraining = false → l.retired = false →
    exec (.rowLinkFlit n true) s = .next (s.setLink n { l with fails := 0 }) ∧
    (l.fails < 16 → l.resends ≠ s.mgmt.linkLimit →
      exec (.rowLinkFlit n false) s = .next (s.setLink n { l with fails := l.fails + 1, resends := l.resends + 1 })) ∧
    (l.fails < 16 → l.resends = s.mgmt.linkLimit → ∃ u, exec (.rowLinkFlit n false) s = .next u ∧
      u.link n = ⟨l.fails + 1, l.resends + 1, false, false⟩ ∧ u.mem = s.mem ∧ Report.die 6 n (l.resends + 1) ∈ u.errors) ∧
    (16 ≤ l.fails → ∃ u, exec (.rowLinkFlit n false) s = .next u ∧ u.link n = ⟨0, l.resends, true, false⟩ ∧ u.mem = s.mem ∧
      Report.die 6 n l.resends ∈ u.errors)) ∧
  (l.retraining = true → n < 8 → ∃ u, exec (.linkRetrainTimeout n) s = .next u ∧ u.mem = s.mem ∧ (u.link n).retired = true ∧ (u.link n).retraining = false ∧
    Report.die 7 n l.resends ∈ u.errors ∧
    ((∀ m < 8, m ≠ n → (s.link m).retired = true) → u.boundaryDown = true ∧ u.boundaryHeld = true) ∧
    ((∃ m < 8, m ≠ n ∧ (s.link m).retired = false) → u.boundaryDown = s.boundaryDown ∧ u.teams = s.teams ∧ u.groups = s.groups)) ∧
  (∀ die i, die < 2 → (i = .ioLinkCut die ∧ (s.die die).ioDown = false) ∨ (i = .linkRetrainTimeout (8 + die) ∧ (s.link (8 + die)).retraining = true) →
    ∃ u, exec i s = .next u ∧ u.mem = s.mem ∧ (u.die die).ioDown = true ∧ (u.link (8 + die)).retired = true ∧
      Report.die 7 (8 + die) (s.link (8 + die)).resends ∈ u.errors ∧
      ∀ t x, s.teams.find t = some x → x.placed = true → coreDie x.core = die → (u.ctx (s.gridOf t).vdev (s.gridOf t).ctx).state = 2) ∧
  (l.retraining = true ∨ l.retired = true →
    (n < 8 → ∃ u, exec (.linkRetrainDone n) s = .next u ∧ u.mem = s.mem ∧ u.link n = ⟨0, l.resends, false, false⟩ ∧ u.boundaryDown = false ∧
      u.boundaryHeld = s.boundaryHeld) ∧
    (8 ≤ n → ∃ u, exec (.linkRetrainDone n) s = .next u ∧ u.mem = s.mem ∧ u.link n = ⟨0, l.resends, false, false⟩ ∧ (u.die (n - 8)).ioDown = false)) ∧
  exec (.rowLinkRecal n) s = .next s ∧
  (∀ i tripped, (i, tripped) ∈ ([(.powerOff, s.mgmt.tripped), (.thermalTrip, true)] : List (Instr × Bool)) → ∃ u, exec i s = .next u ∧ u.powered = false ∧
    u.mgmt.tripped = tripped ∧ u.mgmt.booted = false ∧ u.mgmt.images = s.mgmt.images ∧ u.mgmt.active = s.mgmt.active ∧
    u.mgmt.svnMin = s.mgmt.svnMin ∧ u.mgmt.retired = s.mgmt.retired ∧ u.groups = [] ∧ u.vdevs = [] ∧ u.keys = [] ∧
    ∀ a < 2 ^ 64, readCell u.mem ((Place.host 0).key + a) = readCell s.mem ((Place.host 0).key + a)) ∧
  (s.mgmt.booted = false →
    ((∀ kind, 1 ≤ kind → kind ≤ 3 → s.imageValid kind (s.image kind (s.activeSlot kind)) = true) → ∃ u, exec .boot s = .next u ∧ u.mem = s.mem ∧
      u.powered = true ∧ u.mgmt.booted = true ∧ u.mgmt.recovery = s.mgmt.recovery ∧ (∀ kind, 1 ≤ kind → kind ≤ 3 → u.runs kind = s.image kind (s.activeSlot kind)) ∧
      (∀ st < 8, (u.stack st).keyedRow = min (Config.keyedRows st) (s.stack st).rows ∧
        ∀ key, key ∈ (u.stack st).retired ↔ (1, st, key) ∈ s.mgmt.retired) ∧
      (∀ c, (0, c, 0) ∈ s.mgmt.retired → (u.core c).offline = true) ∧ (∀ p < 16, (u.port p).st = .keying) ∧ (s.mgmt.tripped = true → Report.die 18 0 0 ∈ u.errors)) ∧
    (s.imageValid 1 (s.image 1 0) = false → s.imageValid 1 (s.image 1 1) = false → s.activeSlot 1 < 2 → ∃ u, exec .boot s = .next u ∧ u.mem = s.mem ∧
      u.mgmt.booted = true ∧ u.mgmt.recovery = true ∧ Report.die 13 1 0 ∈ u.errors))

/-- Contexts, world reports, register writes, the management lock, features and power: each event completes with the effect of its rule. Cites 21 R376, 21 R381, 21 R382, 21 R379, 19 R368, 24 R425, 24 R426, 24 R427, 24 R431, 24 R435, 24 R428, 24 R424. -/
def Obligations.RegisterAndLockEventsComplete : Prop := ∀ (s : State) (vd n : Nat),
  let takes : Prop := (s.vdev vd).state = .running ∨ (s.vdev vd).state = .stopped
  let x := s.ctx vd n
  (takes → x.state = 0 → n < (s.vdev vd).prof 0 20 16 → ∃ u, exec (.contextEnable vd n) s = .next u ∧ u.mem = s.mem ∧
    u.ctx vd n = { x with enable := true, state := 1, cause := .none, written := 0, hdlr := 0, reruns := 0, epoch := x.epoch + 1, rtlive := x.rtroot, ptlive := x.ptroot }) ∧
  (takes → x.state = 1 ∨ x.state = 2 → ∃ u k, exec (.contextTeardown vd n) s = .next u ∧ u.mem = s.mem ∧ (u.ctx vd n).state = 3 ∧
    (u.ctx vd n).enable = false ∧ u.kills = s.kills ++ [k] ∧ k.victim = ⟨vd, some n⟩ ∧ k.then_ = 1 ∧ k.reply = none ∧
    ∀ p ∈ k.waiting, killOf k.victim p ∈ u.agenda ∧ drainOf k.victim p ∈ u.agenda) ∧
  (takes → exec (.worldReportRequest vd) s = .next (s.setVdev vd { s.vdev vd with repPending := true, repReady := false })) ∧
  (1 ≤ vd → vd ≤ 1024 → (s.vdev vd).state ≠ .absent → ∃ u k, exec (.functionLevelReset vd) s = .next u ∧ u.mem = s.mem ∧
    (u.vdev vd).state = .resetting ∧ u.kills = s.kills ++ [k] ∧ k.victim = ⟨vd, none⟩ ∧ k.then_ = 2 ∧ k.reply = none) ∧
  (vd ≤ 1024 → takes → n < 16 →
    (∀ val < 2 ^ 64, exec (.registerWrite vd (0x2000 + 64 * n) 8 val) s = .next (s.setCtx vd n { x with rtroot := bits val 47 9 * 2 ^ 9 })) ∧
    (∀ tvec < 2 ^ 12, ∀ hangt < 2 ^ 24, exec (.registerWrite vd (0x2020 + 64 * n) 8
      ((if x.enable then 1 else 0) + (if x.schk then 2 else 0) + 2 ^ 8 * hangt + 2 ^ 32 * tvec)) s = .next (s.setCtx vd n { x with hangt := hangt, tvec := tvec })) ∧
    (∀ val < 2 ^ 12, exec (.registerWrite vd 0x3010 8 val) s = .next (s.setVdev vd { s.vdev vd with verrvec := val })) ∧
    (∀ val < 2 ^ 64, ∃ u, exec (.registerWrite vd 0x3100 8 val) s = .next u ∧ (u.vdev vd).nonce =
      ((s.vdev vd).nonce >>> 64 <<< 64) ||| BitVec.ofNat 256 val ∧ u = s.setVdev vd { s.vdev vd with nonce := (u.vdev vd).nonce }) ∧
    (∀ val < 2 ^ 32, exec (.registerWrite vd (64 * n) 4 val) s = exec (.kick vd n val) s)) ∧
  (∀ off size val, vd ≤ 1024 → sizeOk off size = true → (s.vdev vd).state = .configured ∨ (s.vdev vd).state = .resetting ∨ (s.vdev vd).state = .error →
    exec (.registerWrite vd off size val) s = .next (s.setVdev vd { s.vdev vd with ignored := (s.vdev vd).ignored + 1 })) ∧
  (∀ r < 2,
    let last (u : State) : Nat := if r = 0 then u.mgmt.last0 else u.mgmt.last1
    (s.mgmt.held = false → ∃ u, exec (.acquire r) s = .next u ∧ u.holdsLock r = true ∧ u.mgmt.lease = 2000 ∧ last u = 1 ∧ u = { s with mgmt := u.mgmt }) ∧
    (s.mgmt.held = true → ∃ u, exec (.acquire r) s = .next u ∧ u.mgmt.held = true ∧ u.mgmt.owner = s.mgmt.owner ∧ u.mgmt.lease = s.mgmt.lease ∧ last u = 2) ∧
    (s.holdsLock r = true →
      (∃ u, exec (.renew r) s = .next u ∧ u.holdsLock r = true ∧ u.mgmt.lease = 2000 ∧ last u = 1 ∧ u = { s with mgmt := u.mgmt }) ∧
      (∃ u, exec (.release r) s = .next u ∧ u.mgmt.held = false ∧ last u = 1 ∧ u = { s with mgmt := u.mgmt }) ∧
      (∀ w, 1200 ≤ w → w ≤ 2800 → exec (.powercapWrite r w) s = .next { s with mgmt := { s.mgmt with cap := w } })) ∧
    (s.holdsLock r = false →
      (∃ u, exec (.renew r) s = .next u ∧ u.mgmt.held = s.mgmt.held ∧ u.mgmt.owner = s.mgmt.owner ∧ u.mgmt.lease = s.mgmt.lease ∧ last u = 2) ∧
      (∃ u, exec (.release r) s = .next u ∧ u.mgmt.held = s.mgmt.held ∧ u.mgmt.owner = s.mgmt.owner ∧ last u = 2)) ∧
    (∀ w, s.holdsLock r = false ∨ w < 1200 ∨ 2800 < w → exec (.powercapWrite r w) s = .next s)) ∧
  (∃ u, exec .leaseExpiry s = .next u ∧ u.mgmt.held = false ∧ u.mgmt.lease = 0 ∧ u = { s with mgmt := u.mgmt }) ∧
  (s.mgmt.held = true → s.mgmt.featLocked = false → ∃ u, exec .featlock s = .next u ∧ u.mgmt.featLocked = true ∧
    u.mgmt.featEn = 0x7F &&& s.mgmt.featReq ∧ u.mem = s.mem ∧
    (u.feature 5 = false → ∀ p, (u.port p).st = .down) ∧ (u.feature 5 = true → u.ports = s.ports) ∧
    (s.mgmt.grantClosed = true → (u.vdev 0).state = .running)) ∧
  (s.mgmt.featLocked = true → exec .featlock s = .next s) ∧
  (∀ w temp, w < 4096 → temp < 4096 → ∃ u, exec (.powerSample w temp) s = .next u ∧ u.mgmt.power = w ∧ u.mgmt.temp = temp ∧ u.mem = s.mem ∧
    ∀ d < 2, 1200 ≤ (u.die d).mhz ∧ (u.die d).mhz ≤ 2100 ∧ (u.die d).mhz % 25 = 0)

/-- Every management command that the lock holder submits with operands in range completes as its rule says; without the lock it is answered BUSY. Cites 24 R429, 24 R430, 21 R379, 21 R380, 21 R378, 21 R393, 21 R396, 21 R398, 24 R432, 24 R434, 24 R427, 23 R415. -/
def Obligations.ManagementCommandsComplete : Prop := ∀ (s : State) (r vd : Nat), r < 2 → s.mgmt.booted = true → s.mgmt.recovery = false →
  let m := s.mbox r
  let answered (u : State) (result : Nat) : Prop := (u.mbox r).st = 2 ∧ (u.mbox r).result = result ∧ (u.mbox r).tagOut = m.tag
  let asks (cmd : Nat) : Prop := m.st ≠ 1 ∧ m.cmd = cmd ∧ (r, cmd) ∉ s.mgmt.pending
  let held : Prop := s.holdsLock r = true
  let goesOn (u : State) (cmd : Nat) : Prop := (u.mbox r).st = 1 ∧ (r, cmd) ∈ u.mgmt.pending
  let d := s.vdev vd
  let named : Prop := m.arg 0 = vd ∧ 1 ≤ vd ∧ vd ≤ 1024
  (∀ i cmd, (i, cmd) ∈ ([(.create r, 1), (.configure r, 2), (.start r, 3), (.stop r, 4), (.reset r, 5), (.destroy r, 6), (.profileRead r, 7),
      (.meterRead r, 8), (.ctxKill r, 9), (.s2map r, 0x10), (.s2unmap r, 0x11), (.waymapSet r, 0x18), (.profileSet r, 0x19), (.epBind r, 0x20),
      (.epUnbind r, 0x21), (.routeSet r, 0x22), (.pkgidSet r, 0x23), (.portKey r, 0x24), (.backingGrant r, 0x28), (.retireCore r, 0x30),
      (.retireRow r, 0x31), (.rebuildMirror r, 0x32), (.recoverBoundary r, 0x33), (.updateWrite r, 0x38), (.updateActivate r, 0x39),
      (.updateCommit r, 0x3A), (.errlogRead r, 0x40)] : List (Instr × Nat)) → asks cmd → s.holdsLock r = false → ∃ u, exec i s = .next u ∧
      answered u 2 ∧ u = { s with mgmt := { s.mgmt with mbox := u.mgmt.mbox, mctp := u.mgmt.mctp }, msix := u.msix }) ∧
  (held → named →
    (let d' : VDev := { VDev.absent with profile := m.profile, bucketAt := s.gtime };
      asks 1 → s.mgmt.featLocked = true → s.mgmt.grantClosed = true → (s.mgmt.running.find 3).isSome = true → d.state = .absent →
      s.profileOk vd d' = true → s.allotFits vd d' = true →
      ∃ u, exec (.create r) s = .next u ∧ answered u 0 ∧ (u.vdev vd).state = .configured ∧ (u.vdev vd).profile = m.profile ∧
        (u.vdev vd).world = s.worldFor vd d' ∧ u.mem = s.mem) ∧
    (let d' := { d with profile := m.profile };
      asks 2 → d.state = .configured → s.profileOk vd d' = true → s.mappedUnits vd ≤ d'.prof 0x30 31 0 → s.allotFits vd d' = true → sameLayout d' d = true →
      ∃ u, exec (.configure r) s = .next u ∧ answered u 0 ∧ (u.vdev vd).state = .configured ∧ (u.vdev vd).profile = m.profile ∧ u.mem = s.mem) ∧
    (asks 3 → d.state = .configured ∨ d.state = .stopped → ∃ u, exec (.start r) s = .next u ∧ answered u 0 ∧ (u.vdev vd).state = .running ∧ u.mem = s.mem) ∧
    (asks 4 → d.state = .running → ∃ u, exec (.stop r) s = .next u ∧ goesOn u 4 ∧ (u.vdev vd).state = .stopped ∧
      (∀ q k, (u.vdev vd).queues.find q = some k → k.mapped = false) ∧ ∀ e ∈ s.preemptDevice vd, e ∈ u.agenda) ∧
    (m.cmd = 4 → (r, 4) ∈ s.mgmt.pending → d.state = .stopped → s.preemptDevice vd = [] → ∃ u, exec (.stop r) s = .next u ∧ answered u 0 ∧
      (r, 4) ∉ u.mgmt.pending ∧ u.vdevs = s.vdevs ∧ u.mem = s.mem) ∧
    (∀ i cmd then_, (i, cmd, then_) ∈ ([(.reset r, 5, 2), (.destroy r, 6, 3)] : List (Instr × Nat × Nat)) → asks cmd →
      d.state = .configured ∨ d.state = .stopped ∨ d.state = .error → ∃ u k, exec i s = .next u ∧ (u.mbox r).st = 1 ∧
        (u.vdev vd).state = .resetting ∧ u.kills = s.kills ++ [k] ∧ k.victim = ⟨vd, none⟩ ∧ k.then_ = then_ ∧ k.reply = some r ∧ u.mem = s.mem) ∧
    (asks 7 → ∃ u, exec (.profileRead r) s = .next u ∧ answered u 0 ∧ (u.mbox r).bytes 0 128 = toBytes 128 d.profile.toNat ∧ u.vdevs = s.vdevs ∧ u.mem = s.mem) ∧
    (asks 8 → ∃ u, exec (.meterRead r) s = .next u ∧ answered u 0 ∧ (∀ n < 5, (u.mbox r).res.get n = d.meters.get n) ∧ u.vdevs = s.vdevs ∧ u.mem = s.mem) ∧
    (asks 9 → m.arg 1 < 16 → ∃ u k, exec (.ctxKill r) s = .next u ∧ (u.mbox r).st = 1 ∧ u.kills = s.kills ++ [k] ∧ k.victim = ⟨vd, some (m.arg 1)⟩ ∧
      k.then_ = 0 ∧ k.reply = some r ∧ u.mem = s.mem) ∧
    (∀ buf, asks 0x10 → d.state ≠ .absent → m.arg 1 % 65536 = 0 → 1 ≤ m.arg 2 → m.arg 2 ≤ 2 ^ 23 → m.arg 1 + m.arg 2 * 2 ^ 21 ≤ 2 ^ 48 →
      (∀ e ∈ d.s2, e.1 < m.arg 1 / 65536 ∨ m.arg 1 / 65536 + 32 * m.arg 2 ≤ e.1) → buf < 65536 → s.bufs.find buf = none →
      (∀ b < buf, (s.bufs.find b).isSome = true) → m.arg 3 = 11 → m.arg 4 % 2 ^ 21 = 0 → ∃ u, exec (.s2map r) s = .next u ∧ answered u 0 ∧
        (u.mbox r).res.get 0 = BitVec.ofNat 64 buf ∧ u.bufs.find buf = some ⟨true, true, 1, vd, 0, m.arg 2, m.arg 4⟩ ∧ u.mem = s.mem ∧
        ∀ n < 32 * m.arg 2, (u.vdev vd).s2.find (m.arg 1 / 65536 + n) = some ⟨true, true, true, false, buf, n, 0⟩) ∧
    (∀ buf, asks 0x11 → d.maps.find (m.arg 1) = some (m.arg 2, buf) → s.guestOf vd buf (m.arg 1 / 65536) (32 * m.arg 2) = none →
      (∀ e ∈ d.s2, m.arg 1 / 65536 ≤ e.1 → e.1 < m.arg 1 / 65536 + 32 * m.arg 2 → s.framed vd e.1 e.2 = false) → ∃ u, exec (.s2unmap r) s = .next u ∧ answered u 0 ∧
        u.bufs.find buf = none ∧ (u.vdev vd).maps.find (m.arg 1) = none ∧
        ∀ n < 32 * m.arg 2, (u.vdev vd).s2.find (m.arg 1 / 65536 + n) = none)) ∧
  (held →
    (∀ i cmd c, (i, cmd) ∈ ([(.waymapSet r, 0x18), (.profileSet r, 0x19)] : List (Instr × Nat)) → m.cmd = cmd → (r, cmd) ∈ s.mgmt.pending →
      s.mgmt.change = some (c, r) →
      (s.mgmt.gen ≤ s.mgmt.done → s.mgmt.inactive = s.mgmt.gen + 1 → ∃ u, exec i s = .next u ∧ goesOn u cmd ∧ u.mgmt.gen = s.mgmt.gen + 1 ∧
        u.dies = s.dies ∧ u.profs = s.profs) ∧
      (s.mgmt.done < s.mgmt.gen → ∃ u, exec i s = .next u ∧ answered u 0 ∧ u.mgmt.done = s.mgmt.gen ∧ u.mgmt.change = none ∧
        match c with
        | .wayMap die es => (u.die die).ways = es
        | .profile p v => ∃ x, u.profs.find p = some { v with mscWays := x } ∧ x &&& ~~~v.mscWays = 0)) ∧
    (s.mgmt.change = none → s.mgmt.gen = s.mgmt.done → s.mgmt.inactive ≤ s.mgmt.gen → (∀ e ∈ s.vdevs, e.2.state ≠ .running ∧ e.2.state ≠ .stopped) →
      (asks 0x18 → m.arg 0 < 2 → (∀ n < 16, ofBytes (m.bytes (2 * n) 2) = if n = 15 then 2 else 0) → ∃ u es, exec (.waymapSet r) s = .next u ∧
        goesOn u 0x18 ∧ u.mgmt.change = some (.wayMap (m.arg 0) es, r) ∧ (∀ n < 16, es.get n = if n = 15 then 2 else 0) ∧
        u.mgmt.inactive = s.mgmt.gen + 1 ∧ u.dies = s.dies) ∧
      (asks 0x19 → m.arg 0 < 16 → bits (m.arg 1) 15 12 = 0 → bits (m.arg 1) 11 4 ≠ 0 → bits (m.arg 1) 47 16 ≠ 0 → bits (m.arg 1) 3 0 ≤ 13 →
        (∀ st < 8, (s.stack st).absent = false) → ∃ u, exec (.profileSet r) s = .next u ∧ goesOn u 0x19 ∧ u.mgmt.change =
          some (.profile (m.arg 0) ⟨bits (m.arg 1) 3 0, BitVec.ofNat 8 (bits (m.arg 1) 11 4), BitVec.ofNat 32 (bits (m.arg 1) 47 16),
            BitVec.ofNat 16 (bits (m.arg 1) 63 48)⟩, r) ∧ u.profs = s.profs)) ∧
    (s.feature 5 = true →
      (∀ e0 e1, asks 0x20 → m.arg 0 < 4096 → m.endpoint false = some e0 → m.endpoint true = some e1 → bit (ofBytes (m.bytes 0 8)) 0 = true →
        ∃ u e, exec (.epBind r) s = .next u ∧ answered u 0 ∧ u.endpoints = s.endpoints.put (m.arg 0) e ∧ (e = e0 ∨ e = e1) ∧ u.mem = s.mem) ∧
      (asks 0x21 → m.arg 0 < 4096 → s.incoming = [] → s.epBusy (m.arg 0) = false → ∃ u, exec (.epUnbind r) s = .next u ∧ answered u 0 ∧
        u.endpoints.find (m.arg 0) = none ∧ u.mem = s.mem) ∧
      (asks 0x22 → m.arg 0 < 2 ^ 16 → m.arg 1 < 2 ^ 16 → ∃ u, exec (.routeSet r) s = .next u ∧ answered u 0 ∧ u.routes = s.routes.put (m.arg 0) (m.arg 1)) ∧
      (asks 0x23 → m.arg 0 < 2 ^ 16 → (∀ p ∈ s.ports, p.2.st ≠ .up ∧ p.2.st ≠ .failed) → ∃ u, exec (.pkgidSet r) s = .next u ∧ answered u 0 ∧ u.pkgId = m.arg 0) ∧
      (asks 0x24 → m.arg 0 < 16 → (s.port (m.arg 0)).st = .keying → Config.portPeer (m.arg 0) ≠ s.pkgId → ∃ u, exec (.portKey r) s = .next u ∧ u.mem = s.mem ∧
        (answered u 3 ∧ u.port (m.arg 0) = s.port (m.arg 0) ∨ answered u 0 ∧ (u.port (m.arg 0)).st = .up ∧ (u.port (m.arg 0)).tx.fseq = 0 ∧
          (u.port (m.arg 0)).rx.fseq = 0 ∧ (u.port (m.arg 0)).credits.get 0 = 64 ∧ (u.port (m.arg 0)).credits.get 1 = 64))) ∧
    (asks 0x28 → s.feature 4 = true → s.mgmt.grantClosed = false → m.arg 0 = 2 ^ 16 + 2 ^ 8 + s.mgmt.ranges.length → s.mgmt.ranges.length < 256 →
      (m.range 0).1 % 2 ^ 21 = 0 → (m.range 0).2.1 ≠ 0 → (m.range 0).2.2 = 0 → (s.mgmt.ranges.map Prod.snd).sum + (m.range 0).2.1 ≤ 2 ^ 23 →
      ∃ u, exec (.backingGrant r) s = .next u ∧ answered u 0 ∧ u.mgmt.ranges = s.mgmt.ranges ++ [((m.range 0).1, (m.range 0).2.1)] ∧
        u.mgmt.grantClosed = true ∧ (s.mgmt.featLocked = true → (u.vdev 0).state = .running)) ∧
    (asks 0x30 → m.arg 0 < 64 → (2, coreDie (m.arg 0), 0) ∈ s.mgmt.retired → ∃ u, exec (.retireCore r) s = .next u ∧ answered u 0 ∧
      (u.core (m.arg 0)).offline = true ∧ (0, m.arg 0, 0) ∈ u.mgmt.retired ∧ u.mem = s.mem ∧ u.teams = s.teams) ∧
    (∀ st ch row, st < 8 → ch < 32 → row < (s.stack st).rows → row < 2 ^ 16 → asks 0x31 → m.arg 0 = st + 8 * ch + 256 * row → s.vdevs = [] →
      ∃ u, exec (.retireRow r) s = .next u ∧ answered u 0 ∧ 65536 * ch + row ∈ (u.stack st).retired ∧ (u.stack st).pat.find (65536 * ch + row) = none ∧
        (1, st, 65536 * ch + row) ∈ u.mgmt.retired ∧ u.mem = s.mem) ∧
    (∀ st ch level, st < 8 → ch < 32 → level ≤ 8 → asks 0x32 → m.arg 0 = st + 8 * ch + 256 * level → m.arg 1 < 2 ^ 32 → ∃ u, exec (.rebuildMirror r) s = .next u ∧ answered u 0 ∧
      u.mem = s.mem ∧ ∀ x, x ∈ (u.stack st).treeBad ↔ x ∈ (s.stack st).treeBad ∧ ¬ (x.1 = level ∧ (nodeSpan level x.2.1).1 = ch * 2 ^ 14 + m.arg 1)) ∧
    (asks 0x33 → (s.boundaryDown = false → ∃ u, exec (.recoverBoundary r) s = .next u ∧ answered u 0 ∧ u.boundaryHeld = false) ∧
      (s.boundaryDown = true → ∃ u, exec (.recoverBoundary r) s = .next u ∧ answered u 2 ∧ u.boundaryHeld = s.boundaryHeld)) ∧
    (∀ kind, 1 ≤ kind → kind ≤ 3 → m.arg 0 = kind → s.activeSlot kind < 2 →
      let other := 1 - s.activeSlot kind
      (asks 0x38 → m.arg 1 % 1024 = 0 → 1 ≤ m.arg 2 → m.arg 2 ≤ 1024 → m.arg 1 + m.arg 2 ≤ (s.image kind other).length →
        ∃ u, exec (.updateWrite r) s = .next u ∧ answered u 0 ∧ u.image kind (s.activeSlot kind) = s.image kind (s.activeSlot kind) ∧
          ∀ n, (u.image kind other)[n]? = if m.arg 1 ≤ n ∧ n < m.arg 1 + m.arg 2 then some (m.bulk.get (n - m.arg 1)) else (s.image kind other)[n]?) ∧
      (asks 0x39 → s.imageValid kind (s.image kind other) = true → kind ≠ 1 → ∃ u, exec (.updateActivate r) s = .next u ∧ answered u 0 ∧
        u.activeSlot kind = other ∧ u.runs kind = s.image kind other ∧ u.mem = s.mem) ∧
      (asks 0x39 → s.imageValid kind (s.image kind other) = true → kind = 1 → s.kills = [] → s.mgmt.change = none → ∃ u,
        exec (.updateActivate r) s = .next u ∧ answered u 0 ∧ u.activeSlot kind = other ∧ u.runs kind = s.image kind other ∧ u.mgmt.fresh = true ∧ u.mem = s.mem) ∧
      (asks 0x39 → s.imageValid kind (s.image kind other) = false → ∃ u, exec (.updateActivate r) s = .next u ∧ answered u 1 ∧
        u.activeSlot kind = s.activeSlot kind) ∧
      (asks 0x3A → ∃ u, exec (.updateCommit r) s = .next u ∧ answered u 0 ∧ u.mgmt.svnMin.find kind =
        some (max (imageField (s.image kind (s.activeSlot kind)) 5 3) (s.mgmt.svnMin.getD kind 0)))) ∧
    (asks 0x40 → m.arg 0 < 2 ^ 32 → ∃ u, exec (.errlogRead r) s = .next u ∧ answered u 0 ∧ u.errors = s.errors ∧ u.mem = s.mem ∧
      (s.errors.length ≤ m.arg 0 → (u.mbox r).res.get 0 = 0 ∧ (u.mbox r).res.get 1 = BitVec.ofNat 64 (m.arg 0))) ∧
    (∀ cmd, asks cmd → cmd ∉ definedCommands → ∃ u, exec (.undefinedCommand r) s = .next u ∧ answered u 1 ∧ u.mem = s.mem)) ∧
  (∀ kind, kind < 8 → s.mgmt.fresh = false → s.kills = [] → s.mgmt.change = none → ∃ u n, exec (.watchdogExpiry kind) s = .next u ∧
    Report.die 17 kind n ∈ u.errors ∧ u.mgmt.watchdogs.length = n ∧ s.gtime ∈ u.mgmt.watchdogs ∧ u.mem = s.mem ∧ u.mgmt.active = s.mgmt.active)

/-- Flits, credits, routes, peers' requests and responses, the host port and SPDM: each event completes with the effect of its rule. Cites 23 R411, 23 R412, 23 R413, 23 R414, 23 R416, 23 R417, 23 R408, 13 R254, 19 R367, 24 R433, 23 R421. -/
def Obligations.FabricAndHostEventsComplete : Prop := ∀ (s : State) (n : Nat),
  let p := s.port n
  (p.st = .up →
    (∀ f fs, p.again = f :: fs → ∃ u, exec (.fabricFlitSend n) s = .next u ∧ u.mem = s.mem ∧ (u.port n).again = fs ∧ (u.port n).tx = p.tx ∧
      (u.port n).retry = p.retry ∧ (u.port n).last.take 8 = toBytes 8 (f.load.kind.1 + 16 * f.load.kind.2 + 2 ^ 8 * f.fseq)) ∧
    (p.again = [] → p.tx.fseq + 1 < 2 ^ 32 → p.retry.length < 512 →
      let sent (load : FlitLoad) (u : State) : Prop := (u.port n).tx = { p.tx with fseq := p.tx.fseq + 1 } ∧
        (u.port n).last.take 8 = toBytes 8 (load.kind.1 + 16 * load.kind.2 + 2 ^ 8 * p.tx.fseq) ∧
        (u.port n).retry = p.retry ++ (if load = .idle then [] else [⟨load, p.tx.fseq, p.tx.keyStep⟩])
      (p.owesCredit = true → ∃ u, exec (.fabricFlitSend n) s = .next u ∧ sent (.credit p.creditPayload) u ∧ (u.port n).owesCredit = false ∧ u.mem = s.mem) ∧
      (∀ id ep, p.owesCredit = false → s.replies = [] → p.credits.get 0 ≠ 0 → s.requests = [(id, some ep)] → s.isCarried id = false →
        s.portFor ep = some n → ∃ u, exec (.fabricFlitSend n) s = .next u ∧ sent (.request id) u ∧ (u.port n).carried = p.carried ++ [id] ∧
          (u.port n).credits.get 0 = p.credits.get 0 - 1 ∧ u.mem = s.mem) ∧
      (p.owesCredit = false → s.replies = [] → s.requests = [] → ∃ u, exec (.fabricFlitSend n) s = .next u ∧ sent .idle u ∧ u.mem = s.mem)) ∧
    (∃ u, exec (.fabricFlitReceive n true true) s = .next u ∧ (u.port n).received = p.received + 1 ∧ (u.port n).dropping = false ∧ u.mem = s.mem ∧
      (p.rx.fseq + 1 < 2 ^ 32 → (u.port n).rx = { p.rx with fseq := p.rx.fseq + 1 }) ∧
      (2 ^ 32 ≤ p.rx.fseq + 1 → (u.port n).rx = ⟨nextKey p.rx.key (1 - s.txDir n), p.rx.keyStep + 1, 0⟩)) ∧
    (∀ tagOk, ∃ u, exec (.fabricFlitReceive n false tagOk) s = .next u ∧ u.mem = s.mem ∧
      u.port n = { p with nak := true, dropping := true, resends := p.resends + 1 } ∧
      (p.resends = s.mgmt.linkLimit → Report.die 19 n (p.resends + 1) ∈ u.errors)) ∧
    (∃ u, exec (.fabricFlitReceive n true false) s = .next u ∧ (u.port n).st = .failed ∧ Report.die 9 n 0 ∈ u.errors ∧ u.mem = s.mem) ∧
    (∀ a b ack nak, a < 2 ^ 16 → b < 2 ^ 16 → ack < 2 ^ 32 → p.tx.keyStep = 0 → (∀ f ∈ p.retry, f.keyStep = 0) →
      ∃ u, exec (.creditFlit n (toBytes 228 (a + 2 ^ 16 * b + 2 ^ 32 * ack)) nak) s = .next u ∧ u.mem = s.mem ∧
        (u.port n).credits.get 0 = BitVec.ofNat 16 (min 64 ((p.credits.get 0).toNat + a)) ∧
        (u.port n).credits.get 1 = BitVec.ofNat 16 (min 64 ((p.credits.get 1).toNat + b)) ∧
        ((u.port n).retry = p.retry.filter fun f => decide (ack < f.fseq)) ∧ (nak = true → (u.port n).again = (u.port n).retry))) ∧
  exec (.fabricRecal n) s = .next s ∧
  (∀ vd ctx f x ep, f ∈ s.flight → f.sent = true → f.vdev = vd → f.ctx = ctx → s.isCarried f.id = false → x ∈ f.parts →
    s.locEndpoint (vd, ctx) x.2.2 = some ep → s.portFor ep = none → (s.ctx vd ctx).state = 1 → ∃ u, exec (.fabricRouteTimeout vd ctx) s = .next u ∧
      (u.ctx vd ctx).state = 2 ∧ (u.ctx vd ctx).cause = .remoteUnreachable ∧ u.mem = s.mem) ∧
  (∀ ep kind addr size data e, s.portFor ep = none → (∀ x ∈ s.incoming, x.ep ≠ ep) →
    (s.endpoints.find ep = none → exec (.peerRequest ep kind addr size data) s = .next (s.answerPeer ep false [])) ∧
    (s.endpoints.find ep = some e →
      (e.up = false ∨ e.exports kind = false ∨ e.exsize * 2 ^ 21 < addr + size ∨ (s.ctx e.vdev e.ctx).state ≠ 1 →
        exec (.peerRequest ep kind addr size data) s = .next (s.answerPeer ep false [])) ∧
      (e.up = true → e.exports kind = true → addr + size ≤ e.exsize * 2 ^ 21 → (s.ctx e.vdev e.ctx).state = 1 → s.erefused = [] →
        let w : Agent := ⟨2 ^ 62 + ep, .endpoint, 0, e.vdev, e.ctx, (s.vdev e.vdev).world⟩
        (∀ s₁ bs, kind = 0 → (eitherDie w fun w => s.agentRead w (e.exbase + addr) size) = (s₁, .ok bs) →
          exec (.peerRequest ep kind addr size data) s = .next (s₁.answerPeer ep true bs)) ∧
        (∀ s₁, kind = 1 ∨ kind = 2 → (eitherDie w fun w => s.agentWrite w (e.exbase + addr) (data.take size)) = (s₁, .ok ()) →
          exec (.peerRequest ep kind addr size data) s = .next (s₁.answerPeer ep true [])) ∧
        (∀ s₁ s₂ l olds, kind = 4 → size = 8 → data.length = 8 → (e.exbase + addr) % 8 = 0 →
          (eitherDie w fun w => s.agentLoc w .rmw (e.exbase + addr)) = (s₁, .ok l) → attrCC l.attr = false → attrHostCache l.attr = false → l.isPeer = false →
          s₁.performPart (peerOp 4) (0, ⟨0, 0, BitVec.ofNat 64 (e.exbase + addr), 8, data, data⟩, l) = .ok (s₂, olds) →
          ∃ u, exec (.peerRequest ep kind addr size data) s = .next u ∧ u.mem = s₂.mem ∧
            u.replies = s₂.replies ++ [⟨s₂.nextId, ep, true, olds.getD 0 [], false⟩])))) ∧
  (∀ id ok data, (ok = true ∨ ∀ f ∈ s.flight, f.id = id → f.slot < 2 ^ 40) → ∃ u, exec (.peerResponse id ok data) s = .next u ∧ u.mem = s.mem ∧ (u.flight.filter fun f => f.id == id && f.sent) = [] ∧
    (∀ r ∈ s.peers, r.id = id → r.answer = none → { r with answer := some (if ok then some data else none) } ∈ u.peers) ∧
    (∀ f g, (s.flight.find? fun f => f.id == id && f.sent) = some f → ok = false → s.groups.find f.slot = some g →
      ∃ g' x, u.groups.find f.slot = some g' ∧ x ∈ g'.imprecise ∧ x.cause = .peerXlate)) ∧
  (∀ line data, line < 2 ^ 58 → data.length = 64 → ∃ u, exec (.hostCompletion line 0 data) s = .next u ∧ u.hostBad.find line = none ∧
    ∀ a, readCell u.mem a = if (Place.host (64 * line)).key ≤ a ∧ a < (Place.host (64 * line)).key + 64 then data.getD (a - (Place.host (64 * line)).key) 0
      else readCell s.mem a) ∧
  (∀ line st data, 1 ≤ st → st ≤ 3 → exec (.hostCompletion line st data) s = .next { s with hostBad := s.hostBad.put line st }) ∧
  (∀ line, exec (.hostCompletionTimeout line) s = .next { s with hostBad := s.hostBad.put line 4 }) ∧
  (∀ requester, exec (.hostPoisonedRequest requester) s = .next (s.report (.die 11 requester 0))) ∧
  (∀ addr data, addr + data.length ≤ 2 ^ 64 → ∃ u, exec (.hostMemoryWrite addr data) s = .next u ∧ u.cores = s.cores ∧ u.groups = s.groups ∧
    ∀ a, readCell u.mem a = if (Place.host addr).key ≤ a ∧ a < (Place.host addr).key + data.length then data.getD (a - (Place.host addr).key) 0
      else readCell s.mem a) ∧
  (∀ chan data, ∃ u m, exec (.spdmRequest chan data) s = .next u ∧ u.mem = s.mem ∧ u.mgmt = { s.mgmt with spdm := s.mgmt.spdm ++ [(chan, m)] } ∧
    (data.getD 1 0 = 0xE0 → ∃ body, m = body ++ signature body ∧ digest Config.bootRom ++ digest (s.runs 1) ++ digest (s.runs 2) <+: body) ∧
    (data.getD 1 0 ≠ 0xE0 → m.length = 64 ∧ u.free = s.free + 64))
end

