-- ==== Sys2Proof/Laws/Encoding.lean ====
section
/-! SUPPORT. Joining and cutting a word's common fields, and what the decoder makes of encoded words (R56, R57). -/

namespace Sys2Proof

/-- A well-formed chain of modifier words is taken whole, and nothing after it. -/
theorem takeMods_modsOk (ms rest : List Word) (h : modsOk ms = true) :
    takeMods (!ms.isEmpty) (ms ++ rest) = some (ms, rest) := by
  induction ms with
  | nil => simp [takeMods]
  | cons w ws ih =>
    cases ws with
    | nil => simp_all [modsOk, takeMods]
    | cons x xs =>
      simp only [modsOk, Bool.and_eq_true] at h
      have := ih (by simpa [modsOk] using h.2)
      simp_all [takeMods]

/-- No bit of a word's fields is lost or moved between joining and cutting (R56). -/
theorem splitWord_joinWord (f : WordFields) : splitWord (joinWord f) = f := by
  cases f
  simp only [splitWord, joinWord, WordFields.mk.injEq]
  refine ⟨?_, ?_, ?_, ?_, ?_, ?_⟩ <;>
    (ext i hi; rw [BitVec.getElem_extractLsb']; simp only [BitVec.getLsbD_append]; interval_cases i <;> simp)

/-- Bit M of a joined word (R57). -/
theorem hasMore_joinWord (f : WordFields) : hasMore (joinWord f) = f.m.getLsbD 0 := by
  unfold hasMore joinWord; rw [BitVec.getLsbD_append]; simp

/-- What the decoder makes of an encoded instruction: the opcode map's answer on the fields that were joined, and the words after it. -/
theorem decodeWords_fieldsOf (op d a b : BitVec 7) (t : Tail) (rest : List Word) (h : modsOk t.mods = true) :
    decodeWords (joinWord ⟨op, d, a, b, t.stall, if t.mods.isEmpty then 0 else 1⟩ :: (t.mods ++ rest)) =
      (decodeOp op.toNat d a b t).map fun i => (i, rest) := by
  have hm : hasMore (joinWord ⟨op, d, a, b, t.stall, if t.mods.isEmpty then 0 else 1⟩) = !t.mods.isEmpty := by
    rw [hasMore_joinWord]; cases t.mods.isEmpty <;> simp
  rw [decodeWords, hm, takeMods_modsOk _ _ h]
  simp [decodeWord, splitWord_joinWord]

end Sys2Proof
end

