-- ==== Sys2Proof/Laws/Table.lean ====
section
/-! SUPPORT. What the operations on sparse tables do to each entry, and that they keep the canonical form. -/

namespace Sys2Proof.Machine

namespace Table

variable {α : Type}

@[simp] theorem find_nil (i : Nat) : find ([] : Table α) i = none := rfl

theorem find_cons (k : Nat) (v : α) (t : Table α) (i : Nat) : find ((k, v) :: t) i = if i = k then some v else find t i := rfl

/-- What a table holds at a key after `put`. -/
theorem find_put (t : Table α) (i j : Nat) (x : α) : find (put t i x) j = if j = i then some x else find t j := by
  induction t with
  | nil => simp [put, find_cons]
  | cons kv t ih =>
    obtain ⟨k, v⟩ := kv
    by_cases h1 : i < k
    · simp [put, h1, find_cons]
    · by_cases h2 : i = k
      · subst h2; by_cases h3 : j = i <;> simp [put, find_cons, h3]
      · by_cases h3 : j = k
        · subst h3; simp [put, h1, h2, find_cons, Ne.symm h2]
        · simp [put, h1, h2, find_cons, h3, ih]

@[simp] theorem find_put_self (t : Table α) (i : Nat) (x : α) : find (put t i x) i = some x := by simp [find_put]

theorem find_put_ne (t : Table α) {i j : Nat} (x : α) (h : j ≠ i) : find (put t i x) j = find t j := by simp [find_put, h]

/-- What a table holds at a key after `del`. -/
theorem find_del (t : Table α) (i j : Nat) : find (del t i) j = if j = i then none else find t j := by
  induction t with
  | nil => simp [del]
  | cons kv t ih =>
    obtain ⟨k, v⟩ := kv
    by_cases h : k = i
    · subst h
      have h' : del ((k, v) :: t) k = del t k := by simp [del]
      rw [h', ih, find_cons]
      by_cases h3 : j = k <;> simp [h3]
    · have h' : del ((k, v) :: t) i = (k, v) :: del t i := by simp [del, h]
      rw [h', find_cons, find_cons, ih]
      by_cases h3 : j = k
      · subst h3; simp [h]
      · simp [h3]

@[simp] theorem find_del_self (t : Table α) (i : Nat) : find (del t i) i = none := by simp [find_del]

/-- What a table holds at a key after `modify`. -/
theorem find_modify (t : Table α) (i j : Nat) (f : α → α) : find (modify t i f) j = if j = i then (find t j).map f else find t j := by
  induction t with
  | nil => simp [modify]
  | cons kv t ih =>
    obtain ⟨k, v⟩ := kv
    have h' : modify ((k, v) :: t) i f = (k, if k = i then f v else v) :: modify t i f := by
      by_cases h : k = i <;> simp [modify, h]
    rw [h', find_cons, find_cons, ih]
    by_cases h3 : j = k
    · subst h3; by_cases h : j = i <;> simp [h]
    · simp [h3]

/-- What a table holds at a key after `setD`. -/
theorem getD_setD [DecidableEq α] (t : Table α) (i j : Nat) (d x : α) : getD (setD t i d x) j d = if j = i then x else getD t j d := by
  unfold setD getD
  by_cases hx : x = d
  · simp only [hx, if_true, find_del]; by_cases h : j = i <;> simp [h]
  · simp only [hx, if_false, find_put]; by_cases h : j = i <;> simp [h]

theorem getD_put (t : Table α) (i j : Nat) (d x : α) : getD (put t i x) j d = if j = i then x else getD t j d := by
  unfold getD; rw [find_put]; by_cases h : j = i <;> simp [h]

/-- Every key of a table is greater than `n`. -/
def Above (n : Nat) (t : Table α) : Prop := ∀ kv ∈ t, n < kv.1

theorem wf_cons (k : Nat) (v : α) (t : Table α) : wf ((k, v) :: t) = true ↔ Above k t ∧ wf t = true := by
  induction t generalizing k v with
  | nil => simp [wf, Above]
  | cons kv t ih =>
    obtain ⟨b, y⟩ := kv
    simp only [wf, Bool.and_eq_true, decide_eq_true_eq]
    constructor
    · rintro ⟨h1, h2⟩
      refine ⟨fun x hx => ?_, h2⟩
      rcases List.mem_cons.1 hx with rfl | hx
      · exact h1
      · exact lt_trans h1 (((ih b y).1 h2).1 x hx)
    · rintro ⟨h1, h2⟩; exact ⟨h1 _ (List.mem_cons_self ..), h2⟩

theorem Above.put {n : Nat} {t : Table α} {i : Nat} (x : α) (h : Above n t) (hi : n < i) : Above n (put t i x) := by
  induction t with
  | nil => intro kv hk; simp only [Table.put, List.mem_singleton] at hk; subst hk; exact hi
  | cons kv t ih =>
    obtain ⟨k, v⟩ := kv
    have ht : Above n t := fun z hz => h z (List.mem_cons_of_mem _ hz)
    have hk : n < k := h (k, v) (List.mem_cons_self ..)
    intro z hz
    simp only [Table.put] at hz
    split at hz
    · rcases List.mem_cons.1 hz with rfl | hz
      · exact hi
      · exact h z hz
    · split at hz
      · rcases List.mem_cons.1 hz with rfl | hz
        · exact hi
        · exact ht z hz
      · rcases List.mem_cons.1 hz with rfl | hz
        · exact hk
        · exact ih ht z hz

/-- `put` keeps the keys strictly rising. -/
theorem wf_put (t : Table α) (i : Nat) (x : α) (h : wf t = true) : wf (put t i x) = true := by
  induction t with
  | nil => rfl
  | cons kv t ih =>
    obtain ⟨k, v⟩ := kv
    obtain ⟨ha, ht⟩ := (wf_cons k v t).1 h
    simp only [put]
    split
    · next hi =>
      refine (wf_cons i x _).2 ⟨fun z hz => ?_, h⟩
      rcases List.mem_cons.1 hz with rfl | hz
      · exact hi
      · exact lt_trans hi (ha z hz)
    · split
      · next hi => subst hi; exact (wf_cons _ _ _).2 ⟨ha, ht⟩
      · exact (wf_cons _ _ _).2 ⟨ha.put x (by omega), ih ht⟩

/-- Dropping entries keeps the keys strictly rising. -/
theorem wf_filter (t : Table α) (p : Nat × α → Bool) (h : wf t = true) : wf (t.filter p) = true := by
  induction t with
  | nil => rfl
  | cons kv t ih =>
    obtain ⟨k, v⟩ := kv
    obtain ⟨ha, ht⟩ := (wf_cons k v t).1 h
    by_cases hp : p (k, v) = true
    · rw [List.filter_cons_of_pos hp]
      exact (wf_cons _ _ _).2 ⟨fun z hz => ha z (List.mem_of_mem_filter hz), ih ht⟩
    · rw [List.filter_cons_of_neg hp]; exact ih ht

theorem wf_del (t : Table α) (i : Nat) (h : wf t = true) : wf (del t i) = true := wf_filter t _ h

end Table

@[simp] theorem Regs.get_nil {w : Nat} (i : Nat) : Regs.get ([] : Regs w) i = 0 := rfl

/-- What a register file holds after a write. -/
theorem Regs.get_set {w : Nat} (r : Regs w) (i j : Nat) (x : BitVec w) : (r.set i x).get j = if j = i then x else r.get j :=
  Table.getD_setD r i j 0 x

@[simp] theorem Regs.get_set_self {w : Nat} (r : Regs w) (i : Nat) (x : BitVec w) : (r.set i x).get i = x := by simp [Regs.get_set]

theorem Regs.get_set_ne {w : Nat} (r : Regs w) {i j : Nat} (x : BitVec w) (h : j ≠ i) : (r.set i x).get j = r.get j := by
  simp [Regs.get_set, h]

end Sys2Proof.Machine
end

