-- ==== Sys2Proof/Laws/Registers.lean ====
section
/-! SUPPORT. Register cells of a group: what a reader obtains after writes, and what the operations on lanes leave alone. -/

namespace Sys2Proof.Machine

open Sys2Proof

/-! ## Lanes -/

theorem Group.lane_setLane (g : Group) (l m : Nat) (x : Lane) : (g.setLane l x).lane m = if m = l then x else g.lane m :=
  Table.getD_put g.lanes l m Lane.gone x

@[simp] theorem Group.lane_setLane_self (g : Group) (l : Nat) (x : Lane) : (g.setLane l x).lane l = x := by simp [Group.lane_setLane]

@[simp] theorem Group.setLane_s (g : Group) (l : Nat) (x : Lane) : (g.setLane l x).s = g.s := rfl
@[simp] theorem Group.setLane_wins (g : Group) (l : Nat) (x : Lane) : (g.setLane l x).wins = g.wins := rfl
@[simp] theorem Group.setLane_fpx (g : Group) (l : Nat) (x : Lane) : (g.setLane l x).fpx = g.fpx := rfl

/-- Changing lanes changes nothing of a group but its lanes. -/
theorem Group.onLanes_rest (g : Group) (ls : List Nat) (f : Lane → Lane) : g.onLanes ls f = { g with lanes := (g.onLanes ls f).lanes } := by
  unfold Group.onLanes
  induction ls generalizing g with
  | nil => rfl
  | cons l ls ih => rw [List.foldl_cons, ih]; rfl

/-- What a change of lanes leaves of each lane stays. -/
theorem Group.onLanes_keeps {α : Type} (p : Lane → α) (f : Lane → Lane) (hf : ∀ x, p (f x) = p x) (g : Group) (ls : List Nat) (l : Nat) :
    p ((g.onLanes ls f).lane l) = p (g.lane l) := by
  unfold Group.onLanes
  induction ls generalizing g with
  | nil => rfl
  | cons m ls ih =>
    rw [List.foldl_cons, ih, Group.lane_setLane]
    split
    · next h => subst h; exact hf _
    · rfl

/-! ## Values of cells -/

/-- The registers of two groups agree. -/
structure SameRegs (g g' : Group) : Prop where
  s : g'.s = g.s
  wins : g'.wins = g.wins
  lane : ∀ l, (g'.lane l).v = (g.lane l).v ∧ (g'.lane l).preds = (g.lane l).preds ∧ (g'.lane l).ix = (g.lane l).ix

theorem SameRegs.refl (g : Group) : SameRegs g g := ⟨rfl, rfl, fun _ => ⟨rfl, rfl, rfl⟩⟩

theorem SameRegs.trans {g g' g'' : Group} (h : SameRegs g g') (h' : SameRegs g' g'') : SameRegs g g'' :=
  ⟨h'.s.trans h.s, h'.wins.trans h.wins, fun l =>
    ⟨(h'.lane l).1.trans (h.lane l).1, (h'.lane l).2.1.trans (h.lane l).2.1, (h'.lane l).2.2.trans (h.lane l).2.2⟩⟩

theorem SameRegs.value {g g' : Group} (h : SameRegs g g') (c : RCell) : g'.valueAt c = g.valueAt c := by
  cases c with
  | v l k x => simp [Group.valueAt, Group.before, (h.lane l).1]
  | s n x => simp [Group.valueAt, Group.before, h.s]
  | p l i x => simp [Group.valueAt, Group.before, Lane.pred, (h.lane l).2.1]
  | ix l k x => simp [Group.valueAt, Group.before, (h.lane l).2.2]
  | win k a b => simp [Group.valueAt, Group.before, Group.win, h.wins]

/-- A change of lanes that leaves their registers leaves the group's. -/
theorem SameRegs.onLanes (g : Group) (ls : List Nat) (f : Lane → Lane) (hv : ∀ x, (f x).v = x.v) (hp : ∀ x, (f x).preds = x.preds)
    (hi : ∀ x, (f x).ix = x.ix) : SameRegs g (g.onLanes ls f) :=
  ⟨by rw [Group.onLanes_rest], by rw [Group.onLanes_rest], fun l =>
    ⟨Group.onLanes_keeps Lane.v f hv g ls l, Group.onLanes_keeps Lane.preds f hp g ls l, Group.onLanes_keeps Lane.ix f hi g ls l⟩⟩

/-- Writes depend on a group's registers only. -/
theorem SameRegs.write {g g' : Group} (h : SameRegs g g') (c : RCell) : SameRegs (g.write c) (g'.write c) := by
  cases c with
  | v l k x =>
    refine ⟨h.s, h.wins, fun m => ?_⟩
    simp only [Group.write, Group.lane_setLane]
    split
    · next hm => subst hm; exact ⟨by rw [(h.lane m).1], (h.lane m).2⟩
    · exact h.lane m
  | s n x => exact ⟨by simp [Group.write, h.s], h.wins, h.lane⟩
  | p l i x =>
    refine ⟨h.s, h.wins, fun m => ?_⟩
    simp only [Group.write, Group.lane_setLane]
    split
    · next hm =>
      subst hm
      unfold Lane.setPred
      split
      · exact h.lane m
      · exact ⟨(h.lane m).1, by simp [(h.lane m).2.1], (h.lane m).2.2⟩
    · exact h.lane m
  | ix l k x =>
    refine ⟨h.s, h.wins, fun m => ?_⟩
    simp only [Group.write, Group.lane_setLane]
    split
    · next hm => subst hm; exact ⟨(h.lane m).1, (h.lane m).2.1, by rw [(h.lane m).2.2]⟩
    · exact h.lane m
  | win k a b => exact ⟨h.s, by simp [Group.write, h.wins], h.lane⟩

theorem SameRegs.writes {g g' : Group} (h : SameRegs g g') (cs : List RCell) : SameRegs (g.writes cs) (g'.writes cs) := by
  unfold Group.writes
  induction cs generalizing g g' with
  | nil => exact h
  | cons c cs ih => exact ih (h.write c)

theorem Lane.setPred_keeps {α : Type} (p : Lane → α) (hp : ∀ x y, p { x with preds := y } = p x) (x : Lane) (i : Nat) (b : Bool) :
    p (x.setPred i b) = p x := by
  unfold Lane.setPred; split
  · rfl
  · exact hp _ _

/-- A write changes no cell of another place. -/
theorem Group.write_other (g : Group) (c c' : RCell) (h : c'.samePlace c = false) : (g.write c').valueAt c = g.valueAt c := by
  cases c' with
  | v l k x =>
    cases c with
    | v m j y =>
      simp only [RCell.samePlace, Bool.and_eq_false_iff, beq_eq_false_iff_ne] at h
      simp only [Group.valueAt, Group.before, Group.write, Group.lane_setLane]
      by_cases hm : m = l
      · subst hm
        rw [if_pos rfl]
        simp [Regs.get_set_ne _ _ (Ne.symm (h.resolve_left (by simp)))]
      · rw [if_neg hm]
    | s n y => rfl
    | p m i y => simp only [Group.valueAt, Group.before, Group.write, Group.lane_setLane]; split <;> simp_all [Lane.pred]
    | ix m j y => simp only [Group.valueAt, Group.before, Group.write, Group.lane_setLane]; split <;> simp_all
    | win => rfl
  | s n x =>
    cases c with
    | s m y =>
      simp only [RCell.samePlace, beq_eq_false_iff_ne] at h
      simp [Group.valueAt, Group.before, Group.write, Regs.get_set_ne _ _ (Ne.symm h)]
    | _ => rfl
  | p l i x =>
    cases c with
    | p m j y =>
      simp only [RCell.samePlace, Bool.and_eq_false_iff, beq_eq_false_iff_ne] at h
      simp only [Group.valueAt, Group.before, Group.write, Group.lane_setLane]
      by_cases hm : m = l
      · subst hm
        have hj : i ≠ j := h.resolve_left (by simp)
        rw [if_pos rfl]
        unfold Lane.setPred
        by_cases hi : i = 0
        · simp [hi]
        · simp only [hi, if_false, Lane.pred]
          by_cases hj8 : j < 8
          · cases x <;> simp [hj8] <;> grind
          · rw [BitVec.getLsbD_of_ge _ _ (by omega), BitVec.getLsbD_of_ge _ _ (by omega)]
      · rw [if_neg hm]
    | v m j y =>
      simp only [Group.valueAt, Group.before, Group.write, Group.lane_setLane]
      split
      · next hm => subst hm; rw [Lane.setPred_keeps Lane.v (fun _ _ => rfl)]
      · rfl
    | ix m j y =>
      simp only [Group.valueAt, Group.before, Group.write, Group.lane_setLane]
      split
      · next hm => subst hm; rw [Lane.setPred_keeps Lane.ix (fun _ _ => rfl)]
      · rfl
    | _ => rfl
  | ix l k x =>
    cases c with
    | ix m j y =>
      simp only [RCell.samePlace, Bool.and_eq_false_iff, beq_eq_false_iff_ne] at h
      simp only [Group.valueAt, Group.before, Group.write, Group.lane_setLane]
      by_cases hm : m = l
      · subst hm
        rw [if_pos rfl]
        simp [Regs.get_set_ne _ _ (Ne.symm (h.resolve_left (by simp)))]
      · rw [if_neg hm]
    | v m j y => simp only [Group.valueAt, Group.before, Group.write, Group.lane_setLane]; split <;> simp_all
    | p m i y => simp only [Group.valueAt, Group.before, Group.write, Group.lane_setLane]; split <;> simp_all [Lane.pred]
    | _ => rfl
  | win k a b =>
    cases c with
    | win j a' b' =>
      simp only [RCell.samePlace, beq_eq_false_iff_ne] at h
      simp [Group.valueAt, Group.before, Group.write, Group.win, Table.getD_put, Ne.symm h]
    | _ => rfl

/-- Writes change no cell that none of them names. -/
theorem Group.writes_other (g : Group) (cs : List RCell) (c : RCell) (h : ∀ c' ∈ cs, c'.samePlace c = false) :
    (g.writes cs).valueAt c = g.valueAt c := by
  unfold Group.writes
  induction cs generalizing g with
  | nil => rfl
  | cons x cs ih =>
    rw [List.foldl_cons, ih _ (fun c' hc => h c' (List.mem_cons_of_mem _ hc)), Group.write_other _ _ _ (h x (List.mem_cons_self ..))]

/-- What a write leaves of a group. -/
theorem Group.write_rest (g : Group) (c : RCell) :
    g.write c = { g with lanes := (g.write c).lanes, s := (g.write c).s, wins := (g.write c).wins } := by cases c <;> rfl

/-- What writes leave of a group. -/
theorem Group.writes_rest (g : Group) (cs : List RCell) :
    g.writes cs = { g with lanes := (g.writes cs).lanes, s := (g.writes cs).s, wins := (g.writes cs).wins } := by
  unfold Group.writes
  induction cs generalizing g with
  | nil => rfl
  | cons c cs ih => rw [List.foldl_cons, ih, Group.write_rest]

/-- What writes leave of a lane. -/
theorem Group.writes_lane {α : Type} (p : Lane → α) (hp : ∀ (x : Lane) a b c, p { x with preds := a, ix := b, v := c } = p x) (g : Group)
    (cs : List RCell) (l : Nat) : p ((g.writes cs).lane l) = p (g.lane l) := by
  unfold Group.writes
  induction cs generalizing g with
  | nil => rfl
  | cons c cs ih =>
    rw [List.foldl_cons, ih]
    cases c with
    | v m k x =>
      simp only [Group.write, Group.lane_setLane]; split
      · next h => subst h; exact hp (g.lane l) _ _ _
      · rfl
    | p m i b =>
      simp only [Group.write, Group.lane_setLane]; split
      · next h => subst h; exact Lane.setPred_keeps p (fun x y => hp x y _ _) _ _ _
      · rfl
    | ix m k x =>
      simp only [Group.write, Group.lane_setLane]; split
      · next h => subst h; exact hp (g.lane l) _ _ _
      · rfl
    | s n x => rfl
    | win k a b => rfl

end Sys2Proof.Machine
end

