-- ==== Sys2Proof/Laws/State.lean ====
section
/-! SUPPORT. What each named update of the state leaves of its fields, one lemma for each. -/

namespace Sys2Proof.Machine

open Sys2Proof

variable (s : State)

@[simp] theorem State.setCore_agenda (c : Nat) (x : Core) : (s.setCore c x).agenda = s.agenda := rfl
@[simp] theorem State.setCore_turn (c : Nat) (x : Core) : (s.setCore c x).turn = s.turn := rfl
@[simp] theorem State.setCore_waiting (c : Nat) (x : Core) : (s.setCore c x).waiting = s.waiting := rfl
@[simp] theorem State.setCore_tick (c : Nat) (x : Core) : (s.setCore c x).tick = s.tick := rfl
@[simp] theorem State.setCore_free (c : Nat) (x : Core) : (s.setCore c x).free = s.free := rfl
@[simp] theorem State.setCore_nextId (c : Nat) (x : Core) : (s.setCore c x).nextId = s.nextId := rfl
@[simp] theorem State.setCore_powered (c : Nat) (x : Core) : (s.setCore c x).powered = s.powered := rfl
@[simp] theorem State.setCore_mem (c : Nat) (x : Core) : (s.setCore c x).mem = s.mem := rfl
@[simp] theorem State.setCore_groups (c : Nat) (x : Core) : (s.setCore c x).groups = s.groups := rfl
@[simp] theorem State.setCore_teams (c : Nat) (x : Core) : (s.setCore c x).teams = s.teams := rfl
@[simp] theorem State.setCore_grids (c : Nat) (x : Core) : (s.setCore c x).grids = s.grids := rfl
@[simp] theorem State.setCore_clusters (c : Nat) (x : Core) : (s.setCore c x).clusters = s.clusters := rfl
@[simp] theorem State.setCore_dies (c : Nat) (x : Core) : (s.setCore c x).dies = s.dies := rfl
@[simp] theorem State.setCore_flight (c : Nat) (x : Core) : (s.setCore c x).flight = s.flight := rfl
@[simp] theorem State.setCore_peers (c : Nat) (x : Core) : (s.setCore c x).peers = s.peers := rfl
@[simp] theorem State.setCore_vdevs (c : Nat) (x : Core) : (s.setCore c x).vdevs = s.vdevs := rfl
@[simp] theorem State.setCore_bufs (c : Nat) (x : Core) : (s.setCore c x).bufs = s.bufs := rfl
@[simp] theorem State.setCore_profs (c : Nat) (x : Core) : (s.setCore c x).profs = s.profs := rfl
@[simp] theorem State.setCore_endpoints (c : Nat) (x : Core) : (s.setCore c x).endpoints = s.endpoints := rfl
@[simp] theorem State.setCore_keys (c : Nat) (x : Core) : (s.setCore c x).keys = s.keys := rfl
@[simp] theorem State.setCore_stackDies (c : Nat) (x : Core) : (s.setCore c x).stackDies = s.stackDies := rfl
@[simp] theorem State.setCore_boundaryDown (c : Nat) (x : Core) : (s.setCore c x).boundaryDown = s.boundaryDown := rfl
@[simp] theorem State.setCore_boundaryHeld (c : Nat) (x : Core) : (s.setCore c x).boundaryHeld = s.boundaryHeld := rfl
@[simp] theorem State.setCore_pager (c : Nat) (x : Core) : (s.setCore c x).pager = s.pager := rfl
@[simp] theorem State.setCore_nb (c : Nat) (x : Core) : (s.setCore c x).nb = s.nb := rfl
@[simp] theorem State.setCore_drains (c : Nat) (x : Core) : (s.setCore c x).drains = s.drains := rfl
@[simp] theorem State.setCore_sets (c : Nat) (x : Core) : (s.setCore c x).sets = s.sets := rfl
@[simp] theorem State.setCore_kills (c : Nat) (x : Core) : (s.setCore c x).kills = s.kills := rfl
@[simp] theorem State.setCore_remap (c : Nat) (x : Core) : (s.setCore c x).remap = s.remap := rfl
@[simp] theorem State.setCore_msix (c : Nat) (x : Core) : (s.setCore c x).msix = s.msix := rfl
@[simp] theorem State.setCore_msixDropped (c : Nat) (x : Core) : (s.setCore c x).msixDropped = s.msixDropped := rfl
@[simp] theorem State.setCore_errors (c : Nat) (x : Core) : (s.setCore c x).errors = s.errors := rfl
@[simp] theorem State.setCore_links (c : Nat) (x : Core) : (s.setCore c x).links = s.links := rfl
@[simp] theorem State.setCore_ports (c : Nat) (x : Core) : (s.setCore c x).ports = s.ports := rfl
@[simp] theorem State.setCore_pkgId (c : Nat) (x : Core) : (s.setCore c x).pkgId = s.pkgId := rfl
@[simp] theorem State.setCore_routes (c : Nat) (x : Core) : (s.setCore c x).routes = s.routes := rfl
@[simp] theorem State.setCore_replies (c : Nat) (x : Core) : (s.setCore c x).replies = s.replies := rfl
@[simp] theorem State.setCore_incoming (c : Nat) (x : Core) : (s.setCore c x).incoming = s.incoming := rfl
@[simp] theorem State.setCore_hostBad (c : Nat) (x : Core) : (s.setCore c x).hostBad = s.hostBad := rfl
@[simp] theorem State.setCore_qrefused (c : Nat) (x : Core) : (s.setCore c x).qrefused = s.qrefused := rfl
@[simp] theorem State.setCore_erefused (c : Nat) (x : Core) : (s.setCore c x).erefused = s.erefused := rfl
@[simp] theorem State.setCore_mgmt (c : Nat) (x : Core) : (s.setCore c x).mgmt = s.mgmt := rfl
@[simp] theorem State.setCore_gtime (c : Nat) (x : Core) : (s.setCore c x).gtime = s.gtime := rfl

@[simp] theorem State.setDie_agenda (d : Nat) (x : Die) : (s.setDie d x).agenda = s.agenda := rfl
@[simp] theorem State.setDie_turn (d : Nat) (x : Die) : (s.setDie d x).turn = s.turn := rfl
@[simp] theorem State.setDie_waiting (d : Nat) (x : Die) : (s.setDie d x).waiting = s.waiting := rfl
@[simp] theorem State.setDie_tick (d : Nat) (x : Die) : (s.setDie d x).tick = s.tick := rfl
@[simp] theorem State.setDie_free (d : Nat) (x : Die) : (s.setDie d x).free = s.free := rfl
@[simp] theorem State.setDie_nextId (d : Nat) (x : Die) : (s.setDie d x).nextId = s.nextId := rfl
@[simp] theorem State.setDie_powered (d : Nat) (x : Die) : (s.setDie d x).powered = s.powered := rfl
@[simp] theorem State.setDie_mem (d : Nat) (x : Die) : (s.setDie d x).mem = s.mem := rfl
@[simp] theorem State.setDie_groups (d : Nat) (x : Die) : (s.setDie d x).groups = s.groups := rfl
@[simp] theorem State.setDie_cores (d : Nat) (x : Die) : (s.setDie d x).cores = s.cores := rfl
@[simp] theorem State.setDie_teams (d : Nat) (x : Die) : (s.setDie d x).teams = s.teams := rfl
@[simp] theorem State.setDie_grids (d : Nat) (x : Die) : (s.setDie d x).grids = s.grids := rfl
@[simp] theorem State.setDie_clusters (d : Nat) (x : Die) : (s.setDie d x).clusters = s.clusters := rfl
@[simp] theorem State.setDie_flight (d : Nat) (x : Die) : (s.setDie d x).flight = s.flight := rfl
@[simp] theorem State.setDie_peers (d : Nat) (x : Die) : (s.setDie d x).peers = s.peers := rfl
@[simp] theorem State.setDie_vdevs (d : Nat) (x : Die) : (s.setDie d x).vdevs = s.vdevs := rfl
@[simp] theorem State.setDie_bufs (d : Nat) (x : Die) : (s.setDie d x).bufs = s.bufs := rfl
@[simp] theorem State.setDie_profs (d : Nat) (x : Die) : (s.setDie d x).profs = s.profs := rfl
@[simp] theorem State.setDie_endpoints (d : Nat) (x : Die) : (s.setDie d x).endpoints = s.endpoints := rfl
@[simp] theorem State.setDie_keys (d : Nat) (x : Die) : (s.setDie d x).keys = s.keys := rfl
@[simp] theorem State.setDie_stackDies (d : Nat) (x : Die) : (s.setDie d x).stackDies = s.stackDies := rfl
@[simp] theorem State.setDie_boundaryDown (d : Nat) (x : Die) : (s.setDie d x).boundaryDown = s.boundaryDown := rfl
@[simp] theorem State.setDie_boundaryHeld (d : Nat) (x : Die) : (s.setDie d x).boundaryHeld = s.boundaryHeld := rfl
@[simp] theorem State.setDie_pager (d : Nat) (x : Die) : (s.setDie d x).pager = s.pager := rfl
@[simp] theorem State.setDie_nb (d : Nat) (x : Die) : (s.setDie d x).nb = s.nb := rfl
@[simp] theorem State.setDie_drains (d : Nat) (x : Die) : (s.setDie d x).drains = s.drains := rfl
@[simp] theorem State.setDie_sets (d : Nat) (x : Die) : (s.setDie d x).sets = s.sets := rfl
@[simp] theorem State.setDie_kills (d : Nat) (x : Die) : (s.setDie d x).kills = s.kills := rfl
@[simp] theorem State.setDie_remap (d : Nat) (x : Die) : (s.setDie d x).remap = s.remap := rfl
@[simp] theorem State.setDie_msix (d : Nat) (x : Die) : (s.setDie d x).msix = s.msix := rfl
@[simp] theorem State.setDie_msixDropped (d : Nat) (x : Die) : (s.setDie d x).msixDropped = s.msixDropped := rfl
@[simp] theorem State.setDie_errors (d : Nat) (x : Die) : (s.setDie d x).errors = s.errors := rfl
@[simp] theorem State.setDie_links (d : Nat) (x : Die) : (s.setDie d x).links = s.links := rfl
@[simp] theorem State.setDie_ports (d : Nat) (x : Die) : (s.setDie d x).ports = s.ports := rfl
@[simp] theorem State.setDie_pkgId (d : Nat) (x : Die) : (s.setDie d x).pkgId = s.pkgId := rfl
@[simp] theorem State.setDie_routes (d : Nat) (x : Die) : (s.setDie d x).routes = s.routes := rfl
@[simp] theorem State.setDie_replies (d : Nat) (x : Die) : (s.setDie d x).replies = s.replies := rfl
@[simp] theorem State.setDie_incoming (d : Nat) (x : Die) : (s.setDie d x).incoming = s.incoming := rfl
@[simp] theorem State.setDie_hostBad (d : Nat) (x : Die) : (s.setDie d x).hostBad = s.hostBad := rfl
@[simp] theorem State.setDie_qrefused (d : Nat) (x : Die) : (s.setDie d x).qrefused = s.qrefused := rfl
@[simp] theorem State.setDie_erefused (d : Nat) (x : Die) : (s.setDie d x).erefused = s.erefused := rfl
@[simp] theorem State.setDie_mgmt (d : Nat) (x : Die) : (s.setDie d x).mgmt = s.mgmt := rfl
@[simp] theorem State.setDie_gtime (d : Nat) (x : Die) : (s.setDie d x).gtime = s.gtime := rfl

@[simp] theorem State.setGroup_agenda (n : Nat) (x : Group) : (s.setGroup n x).agenda = s.agenda := rfl
@[simp] theorem State.setGroup_turn (n : Nat) (x : Group) : (s.setGroup n x).turn = s.turn := rfl
@[simp] theorem State.setGroup_waiting (n : Nat) (x : Group) : (s.setGroup n x).waiting = s.waiting := rfl
@[simp] theorem State.setGroup_tick (n : Nat) (x : Group) : (s.setGroup n x).tick = s.tick := rfl
@[simp] theorem State.setGroup_free (n : Nat) (x : Group) : (s.setGroup n x).free = s.free := rfl
@[simp] theorem State.setGroup_nextId (n : Nat) (x : Group) : (s.setGroup n x).nextId = s.nextId := rfl
@[simp] theorem State.setGroup_powered (n : Nat) (x : Group) : (s.setGroup n x).powered = s.powered := rfl
@[simp] theorem State.setGroup_mem (n : Nat) (x : Group) : (s.setGroup n x).mem = s.mem := rfl
@[simp] theorem State.setGroup_cores (n : Nat) (x : Group) : (s.setGroup n x).cores = s.cores := rfl
@[simp] theorem State.setGroup_teams (n : Nat) (x : Group) : (s.setGroup n x).teams = s.teams := rfl
@[simp] theorem State.setGroup_grids (n : Nat) (x : Group) : (s.setGroup n x).grids = s.grids := rfl
@[simp] theorem State.setGroup_clusters (n : Nat) (x : Group) : (s.setGroup n x).clusters = s.clusters := rfl
@[simp] theorem State.setGroup_dies (n : Nat) (x : Group) : (s.setGroup n x).dies = s.dies := rfl
@[simp] theorem State.setGroup_flight (n : Nat) (x : Group) : (s.setGroup n x).flight = s.flight := rfl
@[simp] theorem State.setGroup_peers (n : Nat) (x : Group) : (s.setGroup n x).peers = s.peers := rfl
@[simp] theorem State.setGroup_vdevs (n : Nat) (x : Group) : (s.setGroup n x).vdevs = s.vdevs := rfl
@[simp] theorem State.setGroup_bufs (n : Nat) (x : Group) : (s.setGroup n x).bufs = s.bufs := rfl
@[simp] theorem State.setGroup_profs (n : Nat) (x : Group) : (s.setGroup n x).profs = s.profs := rfl
@[simp] theorem State.setGroup_endpoints (n : Nat) (x : Group) : (s.setGroup n x).endpoints = s.endpoints := rfl
@[simp] theorem State.setGroup_keys (n : Nat) (x : Group) : (s.setGroup n x).keys = s.keys := rfl
@[simp] theorem State.setGroup_stackDies (n : Nat) (x : Group) : (s.setGroup n x).stackDies = s.stackDies := rfl
@[simp] theorem State.setGroup_boundaryDown (n : Nat) (x : Group) : (s.setGroup n x).boundaryDown = s.boundaryDown := rfl
@[simp] theorem State.setGroup_boundaryHeld (n : Nat) (x : Group) : (s.setGroup n x).boundaryHeld = s.boundaryHeld := rfl
@[simp] theorem State.setGroup_pager (n : Nat) (x : Group) : (s.setGroup n x).pager = s.pager := rfl
@[simp] theorem State.setGroup_nb (n : Nat) (x : Group) : (s.setGroup n x).nb = s.nb := rfl
@[simp] theorem State.setGroup_drains (n : Nat) (x : Group) : (s.setGroup n x).drains = s.drains := rfl
@[simp] theorem State.setGroup_sets (n : Nat) (x : Group) : (s.setGroup n x).sets = s.sets := rfl
@[simp] theorem State.setGroup_kills (n : Nat) (x : Group) : (s.setGroup n x).kills = s.kills := rfl
@[simp] theorem State.setGroup_remap (n : Nat) (x : Group) : (s.setGroup n x).remap = s.remap := rfl
@[simp] theorem State.setGroup_msix (n : Nat) (x : Group) : (s.setGroup n x).msix = s.msix := rfl
@[simp] theorem State.setGroup_msixDropped (n : Nat) (x : Group) : (s.setGroup n x).msixDropped = s.msixDropped := rfl
@[simp] theorem State.setGroup_errors (n : Nat) (x : Group) : (s.setGroup n x).errors = s.errors := rfl
@[simp] theorem State.setGroup_links (n : Nat) (x : Group) : (s.setGroup n x).links = s.links := rfl
@[simp] theorem State.setGroup_ports (n : Nat) (x : Group) : (s.setGroup n x).ports = s.ports := rfl
@[simp] theorem State.setGroup_pkgId (n : Nat) (x : Group) : (s.setGroup n x).pkgId = s.pkgId := rfl
@[simp] theorem State.setGroup_routes (n : Nat) (x : Group) : (s.setGroup n x).routes = s.routes := rfl
@[simp] theorem State.setGroup_replies (n : Nat) (x : Group) : (s.setGroup n x).replies = s.replies := rfl
@[simp] theorem State.setGroup_incoming (n : Nat) (x : Group) : (s.setGroup n x).incoming = s.incoming := rfl
@[simp] theorem State.setGroup_hostBad (n : Nat) (x : Group) : (s.setGroup n x).hostBad = s.hostBad := rfl
@[simp] theorem State.setGroup_qrefused (n : Nat) (x : Group) : (s.setGroup n x).qrefused = s.qrefused := rfl
@[simp] theorem State.setGroup_erefused (n : Nat) (x : Group) : (s.setGroup n x).erefused = s.erefused := rfl
@[simp] theorem State.setGroup_mgmt (n : Nat) (x : Group) : (s.setGroup n x).mgmt = s.mgmt := rfl
@[simp] theorem State.setGroup_gtime (n : Nat) (x : Group) : (s.setGroup n x).gtime = s.gtime := rfl

@[simp] theorem State.setTeam_agenda (n : Nat) (x : Team) : (s.setTeam n x).agenda = s.agenda := rfl
@[simp] theorem State.setTeam_turn (n : Nat) (x : Team) : (s.setTeam n x).turn = s.turn := rfl
@[simp] theorem State.setTeam_waiting (n : Nat) (x : Team) : (s.setTeam n x).waiting = s.waiting := rfl
@[simp] theorem State.setTeam_tick (n : Nat) (x : Team) : (s.setTeam n x).tick = s.tick := rfl
@[simp] theorem State.setTeam_free (n : Nat) (x : Team) : (s.setTeam n x).free = s.free := rfl
@[simp] theorem State.setTeam_nextId (n : Nat) (x : Team) : (s.setTeam n x).nextId = s.nextId := rfl
@[simp] theorem State.setTeam_powered (n : Nat) (x : Team) : (s.setTeam n x).powered = s.powered := rfl
@[simp] theorem State.setTeam_mem (n : Nat) (x : Team) : (s.setTeam n x).mem = s.mem := rfl
@[simp] theorem State.setTeam_groups (n : Nat) (x : Team) : (s.setTeam n x).groups = s.groups := rfl
@[simp] theorem State.setTeam_cores (n : Nat) (x : Team) : (s.setTeam n x).cores = s.cores := rfl
@[simp] theorem State.setTeam_grids (n : Nat) (x : Team) : (s.setTeam n x).grids = s.grids := rfl
@[simp] theorem State.setTeam_clusters (n : Nat) (x : Team) : (s.setTeam n x).clusters = s.clusters := rfl
@[simp] theorem State.setTeam_dies (n : Nat) (x : Team) : (s.setTeam n x).dies = s.dies := rfl
@[simp] theorem State.setTeam_flight (n : Nat) (x : Team) : (s.setTeam n x).flight = s.flight := rfl
@[simp] theorem State.setTeam_peers (n : Nat) (x : Team) : (s.setTeam n x).peers = s.peers := rfl
@[simp] theorem State.setTeam_vdevs (n : Nat) (x : Team) : (s.setTeam n x).vdevs = s.vdevs := rfl
@[simp] theorem State.setTeam_bufs (n : Nat) (x : Team) : (s.setTeam n x).bufs = s.bufs := rfl
@[simp] theorem State.setTeam_profs (n : Nat) (x : Team) : (s.setTeam n x).profs = s.profs := rfl
@[simp] theorem State.setTeam_endpoints (n : Nat) (x : Team) : (s.setTeam n x).endpoints = s.endpoints := rfl
@[simp] theorem State.setTeam_keys (n : Nat) (x : Team) : (s.setTeam n x).keys = s.keys := rfl
@[simp] theorem State.setTeam_stackDies (n : Nat) (x : Team) : (s.setTeam n x).stackDies = s.stackDies := rfl
@[simp] theorem State.setTeam_boundaryDown (n : Nat) (x : Team) : (s.setTeam n x).boundaryDown = s.boundaryDown := rfl
@[simp] theorem State.setTeam_boundaryHeld (n : Nat) (x : Team) : (s.setTeam n x).boundaryHeld = s.boundaryHeld := rfl
@[simp] theorem State.setTeam_pager (n : Nat) (x : Team) : (s.setTeam n x).pager = s.pager := rfl
@[simp] theorem State.setTeam_nb (n : Nat) (x : Team) : (s.setTeam n x).nb = s.nb := rfl
@[simp] theorem State.setTeam_drains (n : Nat) (x : Team) : (s.setTeam n x).drains = s.drains := rfl
@[simp] theorem State.setTeam_sets (n : Nat) (x : Team) : (s.setTeam n x).sets = s.sets := rfl
@[simp] theorem State.setTeam_kills (n : Nat) (x : Team) : (s.setTeam n x).kills = s.kills := rfl
@[simp] theorem State.setTeam_remap (n : Nat) (x : Team) : (s.setTeam n x).remap = s.remap := rfl
@[simp] theorem State.setTeam_msix (n : Nat) (x : Team) : (s.setTeam n x).msix = s.msix := rfl
@[simp] theorem State.setTeam_msixDropped (n : Nat) (x : Team) : (s.setTeam n x).msixDropped = s.msixDropped := rfl
@[simp] theorem State.setTeam_errors (n : Nat) (x : Team) : (s.setTeam n x).errors = s.errors := rfl
@[simp] theorem State.setTeam_links (n : Nat) (x : Team) : (s.setTeam n x).links = s.links := rfl
@[simp] theorem State.setTeam_ports (n : Nat) (x : Team) : (s.setTeam n x).ports = s.ports := rfl
@[simp] theorem State.setTeam_pkgId (n : Nat) (x : Team) : (s.setTeam n x).pkgId = s.pkgId := rfl
@[simp] theorem State.setTeam_routes (n : Nat) (x : Team) : (s.setTeam n x).routes = s.routes := rfl
@[simp] theorem State.setTeam_replies (n : Nat) (x : Team) : (s.setTeam n x).replies = s.replies := rfl
@[simp] theorem State.setTeam_incoming (n : Nat) (x : Team) : (s.setTeam n x).incoming = s.incoming := rfl
@[simp] theorem State.setTeam_hostBad (n : Nat) (x : Team) : (s.setTeam n x).hostBad = s.hostBad := rfl
@[simp] theorem State.setTeam_qrefused (n : Nat) (x : Team) : (s.setTeam n x).qrefused = s.qrefused := rfl
@[simp] theorem State.setTeam_erefused (n : Nat) (x : Team) : (s.setTeam n x).erefused = s.erefused := rfl
@[simp] theorem State.setTeam_mgmt (n : Nat) (x : Team) : (s.setTeam n x).mgmt = s.mgmt := rfl
@[simp] theorem State.setTeam_gtime (n : Nat) (x : Team) : (s.setTeam n x).gtime = s.gtime := rfl

@[simp] theorem State.setGrid_agenda (n : Nat) (x : Grid) : (s.setGrid n x).agenda = s.agenda := rfl
@[simp] theorem State.setGrid_turn (n : Nat) (x : Grid) : (s.setGrid n x).turn = s.turn := rfl
@[simp] theorem State.setGrid_waiting (n : Nat) (x : Grid) : (s.setGrid n x).waiting = s.waiting := rfl
@[simp] theorem State.setGrid_tick (n : Nat) (x : Grid) : (s.setGrid n x).tick = s.tick := rfl
@[simp] theorem State.setGrid_free (n : Nat) (x : Grid) : (s.setGrid n x).free = s.free := rfl
@[simp] theorem State.setGrid_nextId (n : Nat) (x : Grid) : (s.setGrid n x).nextId = s.nextId := rfl
@[simp] theorem State.setGrid_powered (n : Nat) (x : Grid) : (s.setGrid n x).powered = s.powered := rfl
@[simp] theorem State.setGrid_mem (n : Nat) (x : Grid) : (s.setGrid n x).mem = s.mem := rfl
@[simp] theorem State.setGrid_groups (n : Nat) (x : Grid) : (s.setGrid n x).groups = s.groups := rfl
@[simp] theorem State.setGrid_cores (n : Nat) (x : Grid) : (s.setGrid n x).cores = s.cores := rfl
@[simp] theorem State.setGrid_teams (n : Nat) (x : Grid) : (s.setGrid n x).teams = s.teams := rfl
@[simp] theorem State.setGrid_clusters (n : Nat) (x : Grid) : (s.setGrid n x).clusters = s.clusters := rfl
@[simp] theorem State.setGrid_dies (n : Nat) (x : Grid) : (s.setGrid n x).dies = s.dies := rfl
@[simp] theorem State.setGrid_flight (n : Nat) (x : Grid) : (s.setGrid n x).flight = s.flight := rfl
@[simp] theorem State.setGrid_peers (n : Nat) (x : Grid) : (s.setGrid n x).peers = s.peers := rfl
@[simp] theorem State.setGrid_vdevs (n : Nat) (x : Grid) : (s.setGrid n x).vdevs = s.vdevs := rfl
@[simp] theorem State.setGrid_bufs (n : Nat) (x : Grid) : (s.setGrid n x).bufs = s.bufs := rfl
@[simp] theorem State.setGrid_profs (n : Nat) (x : Grid) : (s.setGrid n x).profs = s.profs := rfl
@[simp] theorem State.setGrid_endpoints (n : Nat) (x : Grid) : (s.setGrid n x).endpoints = s.endpoints := rfl
@[simp] theorem State.setGrid_keys (n : Nat) (x : Grid) : (s.setGrid n x).keys = s.keys := rfl
@[simp] theorem State.setGrid_stackDies (n : Nat) (x : Grid) : (s.setGrid n x).stackDies = s.stackDies := rfl
@[simp] theorem State.setGrid_boundaryDown (n : Nat) (x : Grid) : (s.setGrid n x).boundaryDown = s.boundaryDown := rfl
@[simp] theorem State.setGrid_boundaryHeld (n : Nat) (x : Grid) : (s.setGrid n x).boundaryHeld = s.boundaryHeld := rfl
@[simp] theorem State.setGrid_pager (n : Nat) (x : Grid) : (s.setGrid n x).pager = s.pager := rfl
@[simp] theorem State.setGrid_nb (n : Nat) (x : Grid) : (s.setGrid n x).nb = s.nb := rfl
@[simp] theorem State.setGrid_drains (n : Nat) (x : Grid) : (s.setGrid n x).drains = s.drains := rfl
@[simp] theorem State.setGrid_sets (n : Nat) (x : Grid) : (s.setGrid n x).sets = s.sets := rfl
@[simp] theorem State.setGrid_kills (n : Nat) (x : Grid) : (s.setGrid n x).kills = s.kills := rfl
@[simp] theorem State.setGrid_remap (n : Nat) (x : Grid) : (s.setGrid n x).remap = s.remap := rfl
@[simp] theorem State.setGrid_msix (n : Nat) (x : Grid) : (s.setGrid n x).msix = s.msix := rfl
@[simp] theorem State.setGrid_msixDropped (n : Nat) (x : Grid) : (s.setGrid n x).msixDropped = s.msixDropped := rfl
@[simp] theorem State.setGrid_errors (n : Nat) (x : Grid) : (s.setGrid n x).errors = s.errors := rfl
@[simp] theorem State.setGrid_links (n : Nat) (x : Grid) : (s.setGrid n x).links = s.links := rfl
@[simp] theorem State.setGrid_ports (n : Nat) (x : Grid) : (s.setGrid n x).ports = s.ports := rfl
@[simp] theorem State.setGrid_pkgId (n : Nat) (x : Grid) : (s.setGrid n x).pkgId = s.pkgId := rfl
@[simp] theorem State.setGrid_routes (n : Nat) (x : Grid) : (s.setGrid n x).routes = s.routes := rfl
@[simp] theorem State.setGrid_replies (n : Nat) (x : Grid) : (s.setGrid n x).replies = s.replies := rfl
@[simp] theorem State.setGrid_incoming (n : Nat) (x : Grid) : (s.setGrid n x).incoming = s.incoming := rfl
@[simp] theorem State.setGrid_hostBad (n : Nat) (x : Grid) : (s.setGrid n x).hostBad = s.hostBad := rfl
@[simp] theorem State.setGrid_qrefused (n : Nat) (x : Grid) : (s.setGrid n x).qrefused = s.qrefused := rfl
@[simp] theorem State.setGrid_erefused (n : Nat) (x : Grid) : (s.setGrid n x).erefused = s.erefused := rfl
@[simp] theorem State.setGrid_mgmt (n : Nat) (x : Grid) : (s.setGrid n x).mgmt = s.mgmt := rfl
@[simp] theorem State.setGrid_gtime (n : Nat) (x : Grid) : (s.setGrid n x).gtime = s.gtime := rfl

@[simp] theorem State.setVdev_agenda (n : Nat) (x : VDev) : (s.setVdev n x).agenda = s.agenda := rfl
@[simp] theorem State.setVdev_turn (n : Nat) (x : VDev) : (s.setVdev n x).turn = s.turn := rfl
@[simp] theorem State.setVdev_waiting (n : Nat) (x : VDev) : (s.setVdev n x).waiting = s.waiting := rfl
@[simp] theorem State.setVdev_tick (n : Nat) (x : VDev) : (s.setVdev n x).tick = s.tick := rfl
@[simp] theorem State.setVdev_free (n : Nat) (x : VDev) : (s.setVdev n x).free = s.free := rfl
@[simp] theorem State.setVdev_nextId (n : Nat) (x : VDev) : (s.setVdev n x).nextId = s.nextId := rfl
@[simp] theorem State.setVdev_powered (n : Nat) (x : VDev) : (s.setVdev n x).powered = s.powered := rfl
@[simp] theorem State.setVdev_mem (n : Nat) (x : VDev) : (s.setVdev n x).mem = s.mem := rfl
@[simp] theorem State.setVdev_groups (n : Nat) (x : VDev) : (s.setVdev n x).groups = s.groups := rfl
@[simp] theorem State.setVdev_cores (n : Nat) (x : VDev) : (s.setVdev n x).cores = s.cores := rfl
@[simp] theorem State.setVdev_teams (n : Nat) (x : VDev) : (s.setVdev n x).teams = s.teams := rfl
@[simp] theorem State.setVdev_grids (n : Nat) (x : VDev) : (s.setVdev n x).grids = s.grids := rfl
@[simp] theorem State.setVdev_clusters (n : Nat) (x : VDev) : (s.setVdev n x).clusters = s.clusters := rfl
@[simp] theorem State.setVdev_dies (n : Nat) (x : VDev) : (s.setVdev n x).dies = s.dies := rfl
@[simp] theorem State.setVdev_flight (n : Nat) (x : VDev) : (s.setVdev n x).flight = s.flight := rfl
@[simp] theorem State.setVdev_peers (n : Nat) (x : VDev) : (s.setVdev n x).peers = s.peers := rfl
@[simp] theorem State.setVdev_bufs (n : Nat) (x : VDev) : (s.setVdev n x).bufs = s.bufs := rfl
@[simp] theorem State.setVdev_profs (n : Nat) (x : VDev) : (s.setVdev n x).profs = s.profs := rfl
@[simp] theorem State.setVdev_endpoints (n : Nat) (x : VDev) : (s.setVdev n x).endpoints = s.endpoints := rfl
@[simp] theorem State.setVdev_keys (n : Nat) (x : VDev) : (s.setVdev n x).keys = s.keys := rfl
@[simp] theorem State.setVdev_stackDies (n : Nat) (x : VDev) : (s.setVdev n x).stackDies = s.stackDies := rfl
@[simp] theorem State.setVdev_boundaryDown (n : Nat) (x : VDev) : (s.setVdev n x).boundaryDown = s.boundaryDown := rfl
@[simp] theorem State.setVdev_boundaryHeld (n : Nat) (x : VDev) : (s.setVdev n x).boundaryHeld = s.boundaryHeld := rfl
@[simp] theorem State.setVdev_pager (n : Nat) (x : VDev) : (s.setVdev n x).pager = s.pager := rfl
@[simp] theorem State.setVdev_nb (n : Nat) (x : VDev) : (s.setVdev n x).nb = s.nb := rfl
@[simp] theorem State.setVdev_drains (n : Nat) (x : VDev) : (s.setVdev n x).drains = s.drains := rfl
@[simp] theorem State.setVdev_sets (n : Nat) (x : VDev) : (s.setVdev n x).sets = s.sets := rfl
@[simp] theorem State.setVdev_kills (n : Nat) (x : VDev) : (s.setVdev n x).kills = s.kills := rfl
@[simp] theorem State.setVdev_remap (n : Nat) (x : VDev) : (s.setVdev n x).remap = s.remap := rfl
@[simp] theorem State.setVdev_msix (n : Nat) (x : VDev) : (s.setVdev n x).msix = s.msix := rfl
@[simp] theorem State.setVdev_msixDropped (n : Nat) (x : VDev) : (s.setVdev n x).msixDropped = s.msixDropped := rfl
@[simp] theorem State.setVdev_errors (n : Nat) (x : VDev) : (s.setVdev n x).errors = s.errors := rfl
@[simp] theorem State.setVdev_links (n : Nat) (x : VDev) : (s.setVdev n x).links = s.links := rfl
@[simp] theorem State.setVdev_ports (n : Nat) (x : VDev) : (s.setVdev n x).ports = s.ports := rfl
@[simp] theorem State.setVdev_pkgId (n : Nat) (x : VDev) : (s.setVdev n x).pkgId = s.pkgId := rfl
@[simp] theorem State.setVdev_routes (n : Nat) (x : VDev) : (s.setVdev n x).routes = s.routes := rfl
@[simp] theorem State.setVdev_replies (n : Nat) (x : VDev) : (s.setVdev n x).replies = s.replies := rfl
@[simp] theorem State.setVdev_incoming (n : Nat) (x : VDev) : (s.setVdev n x).incoming = s.incoming := rfl
@[simp] theorem State.setVdev_hostBad (n : Nat) (x : VDev) : (s.setVdev n x).hostBad = s.hostBad := rfl
@[simp] theorem State.setVdev_qrefused (n : Nat) (x : VDev) : (s.setVdev n x).qrefused = s.qrefused := rfl
@[simp] theorem State.setVdev_erefused (n : Nat) (x : VDev) : (s.setVdev n x).erefused = s.erefused := rfl
@[simp] theorem State.setVdev_mgmt (n : Nat) (x : VDev) : (s.setVdev n x).mgmt = s.mgmt := rfl
@[simp] theorem State.setVdev_gtime (n : Nat) (x : VDev) : (s.setVdev n x).gtime = s.gtime := rfl

@[simp] theorem State.setCtx_agenda (v c : Nat) (x : Ctx) : (s.setCtx v c x).agenda = s.agenda := rfl
@[simp] theorem State.setCtx_turn (v c : Nat) (x : Ctx) : (s.setCtx v c x).turn = s.turn := rfl
@[simp] theorem State.setCtx_waiting (v c : Nat) (x : Ctx) : (s.setCtx v c x).waiting = s.waiting := rfl
@[simp] theorem State.setCtx_tick (v c : Nat) (x : Ctx) : (s.setCtx v c x).tick = s.tick := rfl
@[simp] theorem State.setCtx_free (v c : Nat) (x : Ctx) : (s.setCtx v c x).free = s.free := rfl
@[simp] theorem State.setCtx_nextId (v c : Nat) (x : Ctx) : (s.setCtx v c x).nextId = s.nextId := rfl
@[simp] theorem State.setCtx_powered (v c : Nat) (x : Ctx) : (s.setCtx v c x).powered = s.powered := rfl
@[simp] theorem State.setCtx_mem (v c : Nat) (x : Ctx) : (s.setCtx v c x).mem = s.mem := rfl
@[simp] theorem State.setCtx_groups (v c : Nat) (x : Ctx) : (s.setCtx v c x).groups = s.groups := rfl
@[simp] theorem State.setCtx_cores (v c : Nat) (x : Ctx) : (s.setCtx v c x).cores = s.cores := rfl
@[simp] theorem State.setCtx_teams (v c : Nat) (x : Ctx) : (s.setCtx v c x).teams = s.teams := rfl
@[simp] theorem State.setCtx_grids (v c : Nat) (x : Ctx) : (s.setCtx v c x).grids = s.grids := rfl
@[simp] theorem State.setCtx_clusters (v c : Nat) (x : Ctx) : (s.setCtx v c x).clusters = s.clusters := rfl
@[simp] theorem State.setCtx_dies (v c : Nat) (x : Ctx) : (s.setCtx v c x).dies = s.dies := rfl
@[simp] theorem State.setCtx_flight (v c : Nat) (x : Ctx) : (s.setCtx v c x).flight = s.flight := rfl
@[simp] theorem State.setCtx_peers (v c : Nat) (x : Ctx) : (s.setCtx v c x).peers = s.peers := rfl
@[simp] theorem State.setCtx_bufs (v c : Nat) (x : Ctx) : (s.setCtx v c x).bufs = s.bufs := rfl
@[simp] theorem State.setCtx_profs (v c : Nat) (x : Ctx) : (s.setCtx v c x).profs = s.profs := rfl
@[simp] theorem State.setCtx_endpoints (v c : Nat) (x : Ctx) : (s.setCtx v c x).endpoints = s.endpoints := rfl
@[simp] theorem State.setCtx_keys (v c : Nat) (x : Ctx) : (s.setCtx v c x).keys = s.keys := rfl
@[simp] theorem State.setCtx_stackDies (v c : Nat) (x : Ctx) : (s.setCtx v c x).stackDies = s.stackDies := rfl
@[simp] theorem State.setCtx_boundaryDown (v c : Nat) (x : Ctx) : (s.setCtx v c x).boundaryDown = s.boundaryDown := rfl
@[simp] theorem State.setCtx_boundaryHeld (v c : Nat) (x : Ctx) : (s.setCtx v c x).boundaryHeld = s.boundaryHeld := rfl
@[simp] theorem State.setCtx_pager (v c : Nat) (x : Ctx) : (s.setCtx v c x).pager = s.pager := rfl
@[simp] theorem State.setCtx_nb (v c : Nat) (x : Ctx) : (s.setCtx v c x).nb = s.nb := rfl
@[simp] theorem State.setCtx_drains (v c : Nat) (x : Ctx) : (s.setCtx v c x).drains = s.drains := rfl
@[simp] theorem State.setCtx_sets (v c : Nat) (x : Ctx) : (s.setCtx v c x).sets = s.sets := rfl
@[simp] theorem State.setCtx_kills (v c : Nat) (x : Ctx) : (s.setCtx v c x).kills = s.kills := rfl
@[simp] theorem State.setCtx_remap (v c : Nat) (x : Ctx) : (s.setCtx v c x).remap = s.remap := rfl
@[simp] theorem State.setCtx_msix (v c : Nat) (x : Ctx) : (s.setCtx v c x).msix = s.msix := rfl
@[simp] theorem State.setCtx_msixDropped (v c : Nat) (x : Ctx) : (s.setCtx v c x).msixDropped = s.msixDropped := rfl
@[simp] theorem State.setCtx_errors (v c : Nat) (x : Ctx) : (s.setCtx v c x).errors = s.errors := rfl
@[simp] theorem State.setCtx_links (v c : Nat) (x : Ctx) : (s.setCtx v c x).links = s.links := rfl
@[simp] theorem State.setCtx_ports (v c : Nat) (x : Ctx) : (s.setCtx v c x).ports = s.ports := rfl
@[simp] theorem State.setCtx_pkgId (v c : Nat) (x : Ctx) : (s.setCtx v c x).pkgId = s.pkgId := rfl
@[simp] theorem State.setCtx_routes (v c : Nat) (x : Ctx) : (s.setCtx v c x).routes = s.routes := rfl
@[simp] theorem State.setCtx_replies (v c : Nat) (x : Ctx) : (s.setCtx v c x).replies = s.replies := rfl
@[simp] theorem State.setCtx_incoming (v c : Nat) (x : Ctx) : (s.setCtx v c x).incoming = s.incoming := rfl
@[simp] theorem State.setCtx_hostBad (v c : Nat) (x : Ctx) : (s.setCtx v c x).hostBad = s.hostBad := rfl
@[simp] theorem State.setCtx_qrefused (v c : Nat) (x : Ctx) : (s.setCtx v c x).qrefused = s.qrefused := rfl
@[simp] theorem State.setCtx_erefused (v c : Nat) (x : Ctx) : (s.setCtx v c x).erefused = s.erefused := rfl
@[simp] theorem State.setCtx_mgmt (v c : Nat) (x : Ctx) : (s.setCtx v c x).mgmt = s.mgmt := rfl
@[simp] theorem State.setCtx_gtime (v c : Nat) (x : Ctx) : (s.setCtx v c x).gtime = s.gtime := rfl

@[simp] theorem State.setQueue_agenda (v q : Nat) (x : Queue) : (s.setQueue v q x).agenda = s.agenda := rfl
@[simp] theorem State.setQueue_turn (v q : Nat) (x : Queue) : (s.setQueue v q x).turn = s.turn := rfl
@[simp] theorem State.setQueue_waiting (v q : Nat) (x : Queue) : (s.setQueue v q x).waiting = s.waiting := rfl
@[simp] theorem State.setQueue_tick (v q : Nat) (x : Queue) : (s.setQueue v q x).tick = s.tick := rfl
@[simp] theorem State.setQueue_free (v q : Nat) (x : Queue) : (s.setQueue v q x).free = s.free := rfl
@[simp] theorem State.setQueue_nextId (v q : Nat) (x : Queue) : (s.setQueue v q x).nextId = s.nextId := rfl
@[simp] theorem State.setQueue_powered (v q : Nat) (x : Queue) : (s.setQueue v q x).powered = s.powered := rfl
@[simp] theorem State.setQueue_mem (v q : Nat) (x : Queue) : (s.setQueue v q x).mem = s.mem := rfl
@[simp] theorem State.setQueue_groups (v q : Nat) (x : Queue) : (s.setQueue v q x).groups = s.groups := rfl
@[simp] theorem State.setQueue_cores (v q : Nat) (x : Queue) : (s.setQueue v q x).cores = s.cores := rfl
@[simp] theorem State.setQueue_teams (v q : Nat) (x : Queue) : (s.setQueue v q x).teams = s.teams := rfl
@[simp] theorem State.setQueue_grids (v q : Nat) (x : Queue) : (s.setQueue v q x).grids = s.grids := rfl
@[simp] theorem State.setQueue_clusters (v q : Nat) (x : Queue) : (s.setQueue v q x).clusters = s.clusters := rfl
@[simp] theorem State.setQueue_dies (v q : Nat) (x : Queue) : (s.setQueue v q x).dies = s.dies := rfl
@[simp] theorem State.setQueue_flight (v q : Nat) (x : Queue) : (s.setQueue v q x).flight = s.flight := rfl
@[simp] theorem State.setQueue_peers (v q : Nat) (x : Queue) : (s.setQueue v q x).peers = s.peers := rfl
@[simp] theorem State.setQueue_bufs (v q : Nat) (x : Queue) : (s.setQueue v q x).bufs = s.bufs := rfl
@[simp] theorem State.setQueue_profs (v q : Nat) (x : Queue) : (s.setQueue v q x).profs = s.profs := rfl
@[simp] theorem State.setQueue_endpoints (v q : Nat) (x : Queue) : (s.setQueue v q x).endpoints = s.endpoints := rfl
@[simp] theorem State.setQueue_keys (v q : Nat) (x : Queue) : (s.setQueue v q x).keys = s.keys := rfl
@[simp] theorem State.setQueue_stackDies (v q : Nat) (x : Queue) : (s.setQueue v q x).stackDies = s.stackDies := rfl
@[simp] theorem State.setQueue_boundaryDown (v q : Nat) (x : Queue) : (s.setQueue v q x).boundaryDown = s.boundaryDown := rfl
@[simp] theorem State.setQueue_boundaryHeld (v q : Nat) (x : Queue) : (s.setQueue v q x).boundaryHeld = s.boundaryHeld := rfl
@[simp] theorem State.setQueue_pager (v q : Nat) (x : Queue) : (s.setQueue v q x).pager = s.pager := rfl
@[simp] theorem State.setQueue_nb (v q : Nat) (x : Queue) : (s.setQueue v q x).nb = s.nb := rfl
@[simp] theorem State.setQueue_drains (v q : Nat) (x : Queue) : (s.setQueue v q x).drains = s.drains := rfl
@[simp] theorem State.setQueue_sets (v q : Nat) (x : Queue) : (s.setQueue v q x).sets = s.sets := rfl
@[simp] theorem State.setQueue_kills (v q : Nat) (x : Queue) : (s.setQueue v q x).kills = s.kills := rfl
@[simp] theorem State.setQueue_remap (v q : Nat) (x : Queue) : (s.setQueue v q x).remap = s.remap := rfl
@[simp] theorem State.setQueue_msix (v q : Nat) (x : Queue) : (s.setQueue v q x).msix = s.msix := rfl
@[simp] theorem State.setQueue_msixDropped (v q : Nat) (x : Queue) : (s.setQueue v q x).msixDropped = s.msixDropped := rfl
@[simp] theorem State.setQueue_errors (v q : Nat) (x : Queue) : (s.setQueue v q x).errors = s.errors := rfl
@[simp] theorem State.setQueue_links (v q : Nat) (x : Queue) : (s.setQueue v q x).links = s.links := rfl
@[simp] theorem State.setQueue_ports (v q : Nat) (x : Queue) : (s.setQueue v q x).ports = s.ports := rfl
@[simp] theorem State.setQueue_pkgId (v q : Nat) (x : Queue) : (s.setQueue v q x).pkgId = s.pkgId := rfl
@[simp] theorem State.setQueue_routes (v q : Nat) (x : Queue) : (s.setQueue v q x).routes = s.routes := rfl
@[simp] theorem State.setQueue_replies (v q : Nat) (x : Queue) : (s.setQueue v q x).replies = s.replies := rfl
@[simp] theorem State.setQueue_incoming (v q : Nat) (x : Queue) : (s.setQueue v q x).incoming = s.incoming := rfl
@[simp] theorem State.setQueue_hostBad (v q : Nat) (x : Queue) : (s.setQueue v q x).hostBad = s.hostBad := rfl
@[simp] theorem State.setQueue_qrefused (v q : Nat) (x : Queue) : (s.setQueue v q x).qrefused = s.qrefused := rfl
@[simp] theorem State.setQueue_erefused (v q : Nat) (x : Queue) : (s.setQueue v q x).erefused = s.erefused := rfl
@[simp] theorem State.setQueue_mgmt (v q : Nat) (x : Queue) : (s.setQueue v q x).mgmt = s.mgmt := rfl
@[simp] theorem State.setQueue_gtime (v q : Nat) (x : Queue) : (s.setQueue v q x).gtime = s.gtime := rfl

@[simp] theorem State.await_turn (ds : List Instr) : (s.await ds).turn = s.turn := rfl
@[simp] theorem State.await_tick (ds : List Instr) : (s.await ds).tick = s.tick := rfl
@[simp] theorem State.await_free (ds : List Instr) : (s.await ds).free = s.free := rfl
@[simp] theorem State.await_nextId (ds : List Instr) : (s.await ds).nextId = s.nextId := rfl
@[simp] theorem State.await_powered (ds : List Instr) : (s.await ds).powered = s.powered := rfl
@[simp] theorem State.await_mem (ds : List Instr) : (s.await ds).mem = s.mem := rfl
@[simp] theorem State.await_groups (ds : List Instr) : (s.await ds).groups = s.groups := rfl
@[simp] theorem State.await_cores (ds : List Instr) : (s.await ds).cores = s.cores := rfl
@[simp] theorem State.await_teams (ds : List Instr) : (s.await ds).teams = s.teams := rfl
@[simp] theorem State.await_grids (ds : List Instr) : (s.await ds).grids = s.grids := rfl
@[simp] theorem State.await_clusters (ds : List Instr) : (s.await ds).clusters = s.clusters := rfl
@[simp] theorem State.await_dies (ds : List Instr) : (s.await ds).dies = s.dies := rfl
@[simp] theorem State.await_flight (ds : List Instr) : (s.await ds).flight = s.flight := rfl
@[simp] theorem State.await_peers (ds : List Instr) : (s.await ds).peers = s.peers := rfl
@[simp] theorem State.await_vdevs (ds : List Instr) : (s.await ds).vdevs = s.vdevs := rfl
@[simp] theorem State.await_bufs (ds : List Instr) : (s.await ds).bufs = s.bufs := rfl
@[simp] theorem State.await_profs (ds : List Instr) : (s.await ds).profs = s.profs := rfl
@[simp] theorem State.await_endpoints (ds : List Instr) : (s.await ds).endpoints = s.endpoints := rfl
@[simp] theorem State.await_keys (ds : List Instr) : (s.await ds).keys = s.keys := rfl
@[simp] theorem State.await_stackDies (ds : List Instr) : (s.await ds).stackDies = s.stackDies := rfl
@[simp] theorem State.await_boundaryDown (ds : List Instr) : (s.await ds).boundaryDown = s.boundaryDown := rfl
@[simp] theorem State.await_boundaryHeld (ds : List Instr) : (s.await ds).boundaryHeld = s.boundaryHeld := rfl
@[simp] theorem State.await_pager (ds : List Instr) : (s.await ds).pager = s.pager := rfl
@[simp] theorem State.await_nb (ds : List Instr) : (s.await ds).nb = s.nb := rfl
@[simp] theorem State.await_drains (ds : List Instr) : (s.await ds).drains = s.drains := rfl
@[simp] theorem State.await_sets (ds : List Instr) : (s.await ds).sets = s.sets := rfl
@[simp] theorem State.await_kills (ds : List Instr) : (s.await ds).kills = s.kills := rfl
@[simp] theorem State.await_remap (ds : List Instr) : (s.await ds).remap = s.remap := rfl
@[simp] theorem State.await_msix (ds : List Instr) : (s.await ds).msix = s.msix := rfl
@[simp] theorem State.await_msixDropped (ds : List Instr) : (s.await ds).msixDropped = s.msixDropped := rfl
@[simp] theorem State.await_errors (ds : List Instr) : (s.await ds).errors = s.errors := rfl
@[simp] theorem State.await_links (ds : List Instr) : (s.await ds).links = s.links := rfl
@[simp] theorem State.await_ports (ds : List Instr) : (s.await ds).ports = s.ports := rfl
@[simp] theorem State.await_pkgId (ds : List Instr) : (s.await ds).pkgId = s.pkgId := rfl
@[simp] theorem State.await_routes (ds : List Instr) : (s.await ds).routes = s.routes := rfl
@[simp] theorem State.await_replies (ds : List Instr) : (s.await ds).replies = s.replies := rfl
@[simp] theorem State.await_incoming (ds : List Instr) : (s.await ds).incoming = s.incoming := rfl
@[simp] theorem State.await_hostBad (ds : List Instr) : (s.await ds).hostBad = s.hostBad := rfl
@[simp] theorem State.await_qrefused (ds : List Instr) : (s.await ds).qrefused = s.qrefused := rfl
@[simp] theorem State.await_erefused (ds : List Instr) : (s.await ds).erefused = s.erefused := rfl
@[simp] theorem State.await_mgmt (ds : List Instr) : (s.await ds).mgmt = s.mgmt := rfl
@[simp] theorem State.await_gtime (ds : List Instr) : (s.await ds).gtime = s.gtime := rfl

/-- Raising an interrupt changes the remap table, the messages and the pending vectors, and nothing else (R394). -/
theorem State.interrupt_rest (vd n : Nat) : ∃ v r m d, s.interrupt vd n = { s with vdevs := v, remap := r, msix := m, msixDropped := d } := by
  unfold State.interrupt
  simp only []
  split
  · exact ⟨_, _, _, _, rfl⟩
  · split <;> exact ⟨_, _, _, _, rfl⟩

/-- The same for a vector field. -/
theorem State.interruptField_rest (vd f : Nat) :
    ∃ v r m d, s.interruptField vd f = { s with vdevs := v, remap := r, msix := m, msixDropped := d } := by
  unfold State.interruptField
  split
  · exact ⟨_, _, _, _, rfl⟩
  · exact s.interrupt_rest vd f

/-- The same for the error vectors of several devices. -/
theorem State.errorVectors_rest (l : List Nat) (s : State) : ∃ v r m d,
    l.foldl (fun (s : State) v => s.interruptField v (s.vdev v).verrvec) s = { s with vdevs := v, remap := r, msix := m, msixDropped := d } := by
  induction l generalizing s with
  | nil => exact ⟨_, _, _, _, rfl⟩
  | cons x xs ih =>
    obtain ⟨_, _, _, _, h⟩ := s.interruptField_rest x (s.vdev x).verrvec
    obtain ⟨_, _, _, _, h'⟩ := ih (s.interruptField x (s.vdev x).verrvec)
    rw [List.foldl_cons, h']
    exact ⟨_, _, _, _, by rw [h]⟩

/-- EVERYTHING A REPORT CAN DO: it is the last report, and beside it the interrupts change. -/
theorem State.report_rest (x : Report) : ∃ v r m d,
    s.report x = { s with errors := s.errors ++ [x], vdevs := v, remap := r, msix := m, msixDropped := d } := by
  unfold State.report
  simp only []
  obtain ⟨_, _, _, _, h⟩ := State.errorVectors_rest (x.named.filter fun v => (s.vdevs.find v).any fun d => d.state != .absent)
    { s with errors := s.errors ++ [x], msix := s.msix ++ [(0, 0)] }
  rw [h]
  exact ⟨_, _, _, _, rfl⟩

/-- A report that names a context, or no device, tells the physical function alone (R309). -/
theorem State.report_unnamed (x : Report) (h : x.named = []) : s.report x = { s with errors := s.errors ++ [x], msix := s.msix ++ [(0, 0)] } := by
  unfold State.report
  simp [h]

@[simp] theorem State.report_agenda (r : Report) : (s.report r).agenda = s.agenda := by
  obtain ⟨_, _, _, _, h⟩ := s.report_rest r; rw [h]
@[simp] theorem State.report_turn (r : Report) : (s.report r).turn = s.turn := by
  obtain ⟨_, _, _, _, h⟩ := s.report_rest r; rw [h]
@[simp] theorem State.report_waiting (r : Report) : (s.report r).waiting = s.waiting := by
  obtain ⟨_, _, _, _, h⟩ := s.report_rest r; rw [h]
@[simp] theorem State.report_tick (r : Report) : (s.report r).tick = s.tick := by
  obtain ⟨_, _, _, _, h⟩ := s.report_rest r; rw [h]
@[simp] theorem State.report_free (r : Report) : (s.report r).free = s.free := by
  obtain ⟨_, _, _, _, h⟩ := s.report_rest r; rw [h]
@[simp] theorem State.report_nextId (r : Report) : (s.report r).nextId = s.nextId := by
  obtain ⟨_, _, _, _, h⟩ := s.report_rest r; rw [h]
@[simp] theorem State.report_powered (r : Report) : (s.report r).powered = s.powered := by
  obtain ⟨_, _, _, _, h⟩ := s.report_rest r; rw [h]
@[simp] theorem State.report_mem (r : Report) : (s.report r).mem = s.mem := by
  obtain ⟨_, _, _, _, h⟩ := s.report_rest r; rw [h]
@[simp] theorem State.report_groups (r : Report) : (s.report r).groups = s.groups := by
  obtain ⟨_, _, _, _, h⟩ := s.report_rest r; rw [h]
@[simp] theorem State.report_cores (r : Report) : (s.report r).cores = s.cores := by
  obtain ⟨_, _, _, _, h⟩ := s.report_rest r; rw [h]
@[simp] theorem State.report_teams (r : Report) : (s.report r).teams = s.teams := by
  obtain ⟨_, _, _, _, h⟩ := s.report_rest r; rw [h]
@[simp] theorem State.report_grids (r : Report) : (s.report r).grids = s.grids := by
  obtain ⟨_, _, _, _, h⟩ := s.report_rest r; rw [h]
@[simp] theorem State.report_clusters (r : Report) : (s.report r).clusters = s.clusters := by
  obtain ⟨_, _, _, _, h⟩ := s.report_rest r; rw [h]
@[simp] theorem State.report_dies (r : Report) : (s.report r).dies = s.dies := by
  obtain ⟨_, _, _, _, h⟩ := s.report_rest r; rw [h]
@[simp] theorem State.report_flight (r : Report) : (s.report r).flight = s.flight := by
  obtain ⟨_, _, _, _, h⟩ := s.report_rest r; rw [h]
@[simp] theorem State.report_peers (r : Report) : (s.report r).peers = s.peers := by
  obtain ⟨_, _, _, _, h⟩ := s.report_rest r; rw [h]
@[simp] theorem State.report_bufs (r : Report) : (s.report r).bufs = s.bufs := by
  obtain ⟨_, _, _, _, h⟩ := s.report_rest r; rw [h]
@[simp] theorem State.report_profs (r : Report) : (s.report r).profs = s.profs := by
  obtain ⟨_, _, _, _, h⟩ := s.report_rest r; rw [h]
@[simp] theorem State.report_endpoints (r : Report) : (s.report r).endpoints = s.endpoints := by
  obtain ⟨_, _, _, _, h⟩ := s.report_rest r; rw [h]
@[simp] theorem State.report_keys (r : Report) : (s.report r).keys = s.keys := by
  obtain ⟨_, _, _, _, h⟩ := s.report_rest r; rw [h]
@[simp] theorem State.report_stackDies (r : Report) : (s.report r).stackDies = s.stackDies := by
  obtain ⟨_, _, _, _, h⟩ := s.report_rest r; rw [h]
@[simp] theorem State.report_boundaryDown (r : Report) : (s.report r).boundaryDown = s.boundaryDown := by
  obtain ⟨_, _, _, _, h⟩ := s.report_rest r; rw [h]
@[simp] theorem State.report_boundaryHeld (r : Report) : (s.report r).boundaryHeld = s.boundaryHeld := by
  obtain ⟨_, _, _, _, h⟩ := s.report_rest r; rw [h]
@[simp] theorem State.report_pager (r : Report) : (s.report r).pager = s.pager := by
  obtain ⟨_, _, _, _, h⟩ := s.report_rest r; rw [h]
@[simp] theorem State.report_nb (r : Report) : (s.report r).nb = s.nb := by
  obtain ⟨_, _, _, _, h⟩ := s.report_rest r; rw [h]
@[simp] theorem State.report_drains (r : Report) : (s.report r).drains = s.drains := by
  obtain ⟨_, _, _, _, h⟩ := s.report_rest r; rw [h]
@[simp] theorem State.report_sets (r : Report) : (s.report r).sets = s.sets := by
  obtain ⟨_, _, _, _, h⟩ := s.report_rest r; rw [h]
@[simp] theorem State.report_kills (r : Report) : (s.report r).kills = s.kills := by
  obtain ⟨_, _, _, _, h⟩ := s.report_rest r; rw [h]
@[simp] theorem State.report_links (r : Report) : (s.report r).links = s.links := by
  obtain ⟨_, _, _, _, h⟩ := s.report_rest r; rw [h]
@[simp] theorem State.report_ports (r : Report) : (s.report r).ports = s.ports := by
  obtain ⟨_, _, _, _, h⟩ := s.report_rest r; rw [h]
@[simp] theorem State.report_pkgId (r : Report) : (s.report r).pkgId = s.pkgId := by
  obtain ⟨_, _, _, _, h⟩ := s.report_rest r; rw [h]
@[simp] theorem State.report_routes (r : Report) : (s.report r).routes = s.routes := by
  obtain ⟨_, _, _, _, h⟩ := s.report_rest r; rw [h]
@[simp] theorem State.report_replies (r : Report) : (s.report r).replies = s.replies := by
  obtain ⟨_, _, _, _, h⟩ := s.report_rest r; rw [h]
@[simp] theorem State.report_incoming (r : Report) : (s.report r).incoming = s.incoming := by
  obtain ⟨_, _, _, _, h⟩ := s.report_rest r; rw [h]
@[simp] theorem State.report_hostBad (r : Report) : (s.report r).hostBad = s.hostBad := by
  obtain ⟨_, _, _, _, h⟩ := s.report_rest r; rw [h]
@[simp] theorem State.report_qrefused (r : Report) : (s.report r).qrefused = s.qrefused := by
  obtain ⟨_, _, _, _, h⟩ := s.report_rest r; rw [h]
@[simp] theorem State.report_erefused (r : Report) : (s.report r).erefused = s.erefused := by
  obtain ⟨_, _, _, _, h⟩ := s.report_rest r; rw [h]
@[simp] theorem State.report_mgmt (r : Report) : (s.report r).mgmt = s.mgmt := by
  obtain ⟨_, _, _, _, h⟩ := s.report_rest r; rw [h]
@[simp] theorem State.report_gtime (r : Report) : (s.report r).gtime = s.gtime := by
  obtain ⟨_, _, _, _, h⟩ := s.report_rest r; rw [h]

@[simp] theorem State.setCore_cores (c : Nat) (x : Core) : (s.setCore c x).cores = s.cores.put c x := rfl
@[simp] theorem State.setDie_dies (d : Nat) (x : Die) : (s.setDie d x).dies = s.dies.put d x := rfl
@[simp] theorem State.setGroup_groups (n : Nat) (x : Group) : (s.setGroup n x).groups = s.groups.put n x := rfl
@[simp] theorem State.setTeam_teams (n : Nat) (x : Team) : (s.setTeam n x).teams = s.teams.put n x := rfl
@[simp] theorem State.setGrid_grids (n : Nat) (x : Grid) : (s.setGrid n x).grids = s.grids.put n x := rfl
@[simp] theorem State.setVdev_vdevs (n : Nat) (x : VDev) : (s.setVdev n x).vdevs = s.vdevs.put n x := rfl
@[simp] theorem State.setCtx_vdevs (v c : Nat) (x : Ctx) : (s.setCtx v c x).vdevs = s.vdevs.put v { s.vdev v with ctxs := (s.vdev v).ctxs.put c x } := rfl
@[simp] theorem State.setQueue_vdevs (v q : Nat) (x : Queue) : (s.setQueue v q x).vdevs = s.vdevs.put v { s.vdev v with queues := (s.vdev v).queues.put q x } := rfl
@[simp] theorem State.await_agenda (ds : List Instr) : (s.await ds).agenda = ds ++ s.agenda := rfl
@[simp] theorem State.await_waiting (ds : List Instr) : (s.await ds).waiting = true := rfl
@[simp] theorem State.report_errors (r : Report) : (s.report r).errors = s.errors ++ [r] := by
  obtain ⟨_, _, _, _, h⟩ := s.report_rest r; rw [h]

end Sys2Proof.Machine
end

