-- ==== Sys2Proof/Laws/Issue.lean ====
section
/-! SUPPORT. The frame in which every instruction word issues: what `issue`, `commit` and `finish` can do (R55, R64, R66). -/

namespace Sys2Proof.Machine

open Sys2Proof

/-! ## What lies outside groups and cores -/

theorem SameOutside.refl (s : State) : SameOutside s s := rfl

theorem SameOutside.trans {s u w : State} (h : SameOutside s u) (h' : SameOutside u w) : SameOutside s w := by
  unfold SameOutside at *
  rw [h', h]

theorem State.core_setCore (s : State) (c d : Nat) (x : Core) : (s.setCore c x).core d = if d = c then x else s.core d :=
  Table.getD_put s.cores c d Core.reset x

@[simp] theorem State.core_setCore_self (s : State) (c : Nat) (x : Core) : (s.setCore c x).core c = x := by simp [State.core_setCore]

theorem OneGroup.refl (s : State) (core slot : Nat) : OneGroup s s core slot := ⟨rfl, fun _ _ => rfl, fun _ _ => rfl, rfl⟩

theorem OneGroup.trans {s u w : State} {core slot : Nat} (h : OneGroup s u core slot) (h' : OneGroup u w core slot) : OneGroup s w core slot :=
  ⟨h.outside.trans h'.outside, fun n hn => (h'.groups n hn).trans (h.groups n hn), fun c hc => (h'.cores c hc).trans (h.cores c hc), by
    rw [h'.core]; rw [h.core]⟩

/-- A change of one group. -/
theorem OneGroup.modify (s : State) (core slot : Nat) (f : Group → Group) : OneGroup s { s with groups := s.groups.modify slot f } core slot :=
  ⟨rfl, fun _ hn => by simp [Table.find_modify, hn], fun _ _ => rfl, rfl⟩

theorem OneGroup.setGroup (s : State) (core slot : Nat) (g : Group) : OneGroup s (s.setGroup slot g) core slot :=
  ⟨rfl, fun _ hn => Table.find_put_ne _ _ hn, fun _ _ => rfl, rfl⟩

/-- A change of a core's clock and runs. -/
theorem OneGroup.setCore (s : State) (core slot : Nat) (x : Core) (h : x = { s.core core with clock := x.clock, runs := x.runs }) :
    OneGroup s (s.setCore core x) core slot :=
  ⟨rfl, fun _ _ => rfl, fun c hc => by simp [State.core_setCore, hc], by simpa using h⟩

/-- Ending the run of the group. -/
theorem OneGroup.endRun (s : State) (core sc slot : Nat) (h : ∀ r, (s.core core).runs.find sc = some r → r.slot = slot) :
    OneGroup s (s.endRun core sc) core slot := by
  unfold State.endRun
  split
  · exact OneGroup.refl ..
  · next r hr =>
    rw [h r hr]
    exact (OneGroup.setCore s core slot { s.core core with runs := (s.core core).runs.del sc } rfl).trans
      (OneGroup.modify (s.setCore core { s.core core with runs := (s.core core).runs.del sc }) core slot fun g => { g with hazards := [] })

/-! ## The group that issues -/

theorem lanesOf_nodup (m : BitVec 64) : (lanesOf m).Nodup := List.Nodup.filter _ List.nodup_range

/-- What a change of distinct lanes makes of each lane. -/
theorem Group.lane_onLanes (g : Group) (ls : List Nat) (f : Lane → Lane) (h : ls.Nodup) (l : Nat) :
    (g.onLanes ls f).lane l = if ls.contains l then f (g.lane l) else g.lane l := by
  unfold Group.onLanes
  induction ls generalizing g with
  | nil => rfl
  | cons m ls ih =>
    rw [List.nodup_cons] at h
    rw [List.foldl_cons, ih _ h.2, Group.lane_setLane]
    by_cases hm : l = m
    · subst hm
      simp [h.1]
    · have h2 : (m :: ls).contains l = ls.contains l := by simp [hm]
      rw [h2]; simp [hm]

theorem Lane.wentOn_keeps {α : Type} (p : Lane → α) (hp : ∀ (x : Lane) a b, p { x with pc := a, clause := b } = p x) (x : Lane) (b : Bool) (n : Nat) :
    p (x.wentOn b n) = p x := by
  unfold Lane.wentOn; split
  · exact hp _ _ _
  · rfl

theorem GroupAdvanced.refl (g : Group) : GroupAdvanced g g [] 0 := ⟨fun _ => rfl, rfl, fun _ => rfl⟩

/-- Going on, and then a change of stamps, pending results or the replayed access only. -/
theorem GroupAdvanced.trans {g g' g'' : Group} {ls : List Nat} {n : Nat} (h : GroupAdvanced g g' ls n) (h' : GroupAdvanced g' g'' [] 0) :
    GroupAdvanced g g'' ls n :=
  ⟨fun c => (h'.regs c).trans (h.regs c), h'.rest.trans (by rw [h.rest]), fun l => by rw [h'.lanes l]; rw [h.lanes l]; rfl⟩

/-- A change of stamps. -/
theorem GroupAdvanced.stamps (g : Group) (ls : List Nat) (n : Nat) : GroupAdvanced g (g.onLanes ls fun x => { x with stamp := n }) [] 0 := by
  refine ⟨(SameRegs.onLanes g ls (fun x => { x with stamp := n }) (fun _ => rfl) (fun _ => rfl) (fun _ => rfl)).value, by rw [Group.onLanes_rest], fun l => ?_⟩
  have h := Group.onLanes_keeps (fun x => { x with stamp := 0 }) (fun x => { x with stamp := n }) (fun _ => rfl) g ls l
  simp only [Lane.mk.injEq] at h
  obtain ⟨h1, h2, h3, h4, h5, h6, h7, -, h9, h10, h11⟩ := h
  generalize (g.onLanes ls fun x => { x with stamp := n }).lane l = y at *
  show y = { (g.lane l).wentOn false 0 with stamp := y.stamp }
  unfold Lane.wentOn
  generalize g.lane l = x at *
  cases x; cases y; simp only at *; subst_vars; rfl

theorem GroupAdvanced.advance (g : Group) (ls : List Nat) (n : Nat) (h : ls.Nodup) : GroupAdvanced g (g.advance ls n) ls n := by
  refine ⟨(SameRegs.onLanes g ls (fun x => { x with pc := x.pc + BitVec.ofNat 56 (4 * n), clause := x.clause.bind fun c => clauseOn c n })
    (fun _ => rfl) (fun _ => rfl) (fun _ => rfl)).value, ?_, fun l => ?_⟩
  · unfold Group.advance; rw [Group.onLanes_rest]
  · unfold Group.advance
    rw [Group.lane_onLanes _ _ _ h]
    unfold Lane.wentOn
    by_cases hl : ls.contains l = true
    · simp only [hl, if_true]
    · simp only [hl]

/-- What `finish` does to its own group. -/
theorem State.finish_moved (s : State) (core sc : Nat) (w : Site) (stall : BitVec 3) (moved : BitVec 64) (g : Group)
    (h : s.groups.find w.slot = some g) (hr : ∀ r, (s.core core).runs.find sc = some r → r.slot = w.slot) :
    OneGroup s (s.finish core sc w stall moved) core w.slot ∧
      ∃ g', (s.finish core sc w stall moved).groups.find w.slot = some g' ∧ GroupAdvanced g g' (lanesOf (w.set &&& ~~~moved)) w.len ∧
        (g'.hazards = [] ∨ g'.hazards = (g.age (1 + stall.toNat)).hazards) := by
  set g1 : Group := { ((g.advance (lanesOf (w.set &&& ~~~moved)) w.len).age (1 + stall.toNat)) with replay := none } with hg1
  have hm1 : GroupAdvanced g g1 (lanesOf (w.set &&& ~~~moved)) w.len := by
    have ha := GroupAdvanced.advance g (lanesOf (w.set &&& ~~~moved)) w.len (lanesOf_nodup _)
    exact ⟨ha.regs, by rw [hg1]; unfold Group.age; rw [ha.rest], ha.lanes⟩
  have hh1 : g1.hazards = (g.age (1 + stall.toNat)).hazards := by
    rw [hg1]; unfold Group.age Group.advance; rw [Group.onLanes_rest]
  set s1 : State := { s with groups := s.groups.modify w.slot fun g =>
    { ((g.advance (lanesOf (w.set &&& ~~~moved)) w.len).age (1 + stall.toNat)) with replay := none } } with hs1
  have hf1 : s1.groups.find w.slot = some g1 := by rw [hs1]; simp [Table.find_modify, h, hg1]
  set s2 : State := s1.setCore core { s1.core core with clock := (s1.core core).clock + 1 + stall.toNat } with hs2
  have h2 : OneGroup s s2 core w.slot := (OneGroup.modify s core w.slot _).trans (OneGroup.setCore s1 core w.slot _ rfl)
  have hf2 : s2.groups.find w.slot = some g1 := hf1
  have hr2 : ∀ r, (s2.core core).runs.find sc = some r → r.slot = w.slot := by
    intro r hr'; rw [hs2, State.core_setCore_self] at hr'; exact hr r hr'
  have hfin : s.finish core sc w stall moved =
      match (s1.core core).runs.find sc, s2.groups.find w.slot with
      | some r, some g =>
        let ls := g.live r.set
        let s3 := if g.together ls then s2 else s2.setGroup w.slot (g.onLanes ls fun x => { x with stamp := g.runCount })
        let s4 := s3.setCore core { s3.core core with runs := (s1.core core).runs.put sc { r with issued := r.issued + 1, set := laneSet ls } }
        if ls.isEmpty || !g.together ls || (w.clause.1.getLsbD 8 && decide (w.clause.2 ≤ w.len)) then s4.endRun core sc else s4
      | _, _ => s2 := rfl
  rw [hfin, hf2]
  cases hrun : (s1.core core).runs.find sc with
  | none => exact ⟨h2, g1, hf2, hm1, .inr hh1⟩
  | some r =>
    have hslot : r.slot = w.slot := hr r hrun
    simp only []
    set ls := g1.live r.set with hls
    set s3 := if g1.together ls then s2 else s2.setGroup w.slot (g1.onLanes ls fun x => { x with stamp := g1.runCount }) with hs3
    have h3 : OneGroup s2 s3 core w.slot ∧ ∃ g', s3.groups.find w.slot = some g' ∧ GroupAdvanced g1 g' [] 0 ∧ g'.hazards = g1.hazards := by
      rw [hs3]; split
      · exact ⟨OneGroup.refl .., g1, hf2, GroupAdvanced.refl g1, rfl⟩
      · exact ⟨OneGroup.setGroup .., _, Table.find_put_self _ _ _, GroupAdvanced.stamps g1 ls _, by rw [Group.onLanes_rest]⟩
    obtain ⟨h3, g3, hf3, hm3, hh3⟩ := h3
    set s4 := s3.setCore core { s3.core core with runs := (s1.core core).runs.put sc { r with issued := r.issued + 1, set := laneSet ls } } with hs4
    have h4 : OneGroup s3 s4 core w.slot := OneGroup.setCore s3 core w.slot _ rfl
    have hf4 : s4.groups.find w.slot = some g3 := hf3
    have h04 : OneGroup s s4 core w.slot := (h2.trans h3).trans h4
    split
    · have hr4 : ∀ q, (s4.core core).runs.find sc = some q → q.slot = w.slot := by
        intro q hq
        rw [hs4, State.core_setCore_self] at hq
        simp only [Table.find_put_self, Option.some.injEq] at hq
        rw [← hq]; exact hslot
      refine ⟨h04.trans (OneGroup.endRun s4 core sc w.slot hr4), ?_⟩
      unfold State.endRun
      split
      · exact ⟨g3, hf4, hm1.trans hm3, .inr (hh3.trans hh1)⟩
      · next q hq =>
        rw [hr4 q hq]
        refine ⟨{ g3 with hazards := [] }, by simp [Table.find_modify, hf4], (hm1.trans hm3).trans ⟨fun _ => rfl, rfl, fun _ => rfl⟩, .inl rfl⟩
    · exact ⟨h04, g3, hf4, hm1.trans hm3, .inr (hh3.trans hh1)⟩

/-- A group whose registers have been written and which has then moved on. -/
theorem GroupWrote.moved {g g' g'' : Group} {ls : List Nat} {n : Nat} {cs : List RCell} {x : Word} {hz hz' : List Hazard}
    (h : GroupWrote g g' [] 0 cs x hz) (h' : GroupAdvanced g' g'' ls n) (hh : g''.hazards = [] ∨ g''.hazards = hz') :
    GroupWrote g g'' ls n cs x hz' := by
  refine ⟨fun c => (h'.regs c).trans (h.written c), fun c hc => (h'.regs c).trans (h.kept c hc), ?_, hh, ?_, ?_, fun l => ?_⟩
  · rw [h'.rest]; exact h.fpx
  · have := h.rest
    rw [h'.rest]; rw [this]
  · rw [h'.rest]; exact h.codes
  · have h1 : g'.lane l = { g.lane l with stamp := (g'.lane l).stamp, preds := (g'.lane l).preds, ix := (g'.lane l).ix, v := (g'.lane l).v } :=
      h.lanes l
    have h2 := h'.lanes l
    generalize g''.lane l = z at *
    generalize g'.lane l = y at *
    rw [h2]; rw [h1]
    unfold Lane.wentOn
    split <;> rfl

/-- What has landed changes the pending results alone. -/
theorem Group.landed_rest (g : Group) (ns : List RegName) : g.landed ns = { g with hazards := (g.landed ns).hazards } := rfl

/-- What is left pending depends on the pending results alone. -/
theorem Group.landed_congr {g g' : Group} (h : g.hazards = g'.hazards) (ns : List RegName) : (g.landed ns).hazards = (g'.landed ns).hazards := by
  unfold Group.landed
  simp only [h]

theorem Group.writes_hazards (g : Group) (cs : List RCell) : (g.writes cs).hazards = g.hazards := by rw [Group.writes_rest]

/-- Writes do not depend on the codes, and leave them. -/
theorem Group.writes_codes (g : Group) (k : List (Stored × Nat)) (cs : List RCell) :
    Group.writes { g with codes := k } cs = { g.writes cs with codes := k } := by
  unfold Group.writes
  induction cs generalizing g with
  | nil => rfl
  | cons c cs ih => rw [List.foldl_cons, List.foldl_cons, ← ih]; cases c <;> rfl

/-- Results committed, with or without a latency (R64). -/
theorem Group.commit_wrote (g : Group) (lat : Option Nat) (pc : BitVec 56) (cs : List RCell) : GroupWrote g (g.commit lat pc cs) [] 0 cs g.fpx (g.commit lat pc cs).hazards := by
  have he := Group.writes_codes g (g.encoded (cs.map RCell.stored)).codes cs
  have hw : SameRegs (g.writes cs) (g.commit lat pc cs) := by
    unfold Group.commit Group.encoded at *; split
    · rw [he]; exact ⟨rfl, rfl, fun _ => ⟨rfl, rfl, rfl⟩⟩
    · rw [he]; exact ⟨rfl, rfl, fun _ => ⟨rfl, rfl, rfl⟩⟩
  have hl : ∀ l, (g.commit lat pc cs).lane l = (g.writes cs).lane l := by
    intro l; unfold Group.commit Group.encoded at *; split <;> rw [he] <;> rfl
  have hr := Group.writes_rest g cs
  have hc : g.commit lat pc cs = { g.writes cs with codes := (g.encoded (cs.map RCell.stored)).codes, hazards := (g.commit lat pc cs).hazards } := by
    unfold Group.commit Group.encoded at *; split
    · rw [Group.landed_rest, he]
    · rw [he]
  refine ⟨hw.value, fun c hc => (hw.value c).trans (Group.writes_other g cs c hc), ?_, .inr rfl, ?_, ?_, fun l => ?_⟩
  · rw [hc, hr]
  · rw [hc, hr]
  · rw [hc]
  · rw [hl]
    have h0 := Group.writes_lane (fun x : Lane => { x with preds := 0, ix := [], v := [] }) (fun _ _ _ _ => rfl) g cs l
    simp only [Lane.mk.injEq] at h0
    obtain ⟨h1, h2, -, -, -, h6, h7, h8, h9, h10, h11⟩ := h0
    generalize (g.writes cs).lane l = y at *
    show y = { (g.lane l).wentOn false 0 with stamp := y.stamp, preds := y.preds, ix := y.ix, v := y.v }
    unfold Lane.wentOn
    generalize g.lane l = x at *
    cases x; cases y; simp only at *; subst_vars; rfl

/-- A bind that answers has had an answer to continue with. -/
theorem bind_ok {ε α β : Type} {x : Except ε α} {f : α → Except ε β} {y : β} (h : (x >>= f) = .ok y) : ∃ a, x = .ok a ∧ f a = .ok y := by
  cases x with
  | error e => exact absurd h (by simp [bind, Except.bind])
  | ok a => exact ⟨a, rfl, h⟩

/-- The run that issues belongs to the slot of its frame, and the group is the one with the entries popped. -/
theorem prepare_frame {f : Form} {t : Tail} {s : State} {r : Run} {g : Group} {fr : Issue} {s₁ : State}
    (h : prepare f t s r g = .ok (fr, s₁)) :
    fr.site.slot = r.slot ∧ s₁ = s.setGroup r.slot fr.g := by
  unfold prepare at h
  iterate 11 (obtain ⟨_, _, h⟩ := bind_ok h)
  simp only [Except.ok.injEq, Prod.mk.injEq] at h
  obtain ⟨rfl, rfl⟩ := h
  exact ⟨rfl, rfl⟩

/-- A READY WORD COMPLETES AS ITS BODY SAYS: the body's answer is the next state, once the word has been counted and the lanes that
it did not move have gone on. -/
theorem issue_ready {f : Form} {t : Tail} {s : State} {core sc : Nat} {r : Run} {g : Group} {fr : Issue} {s₁ : State}
    (h : Ready f t s core sc r g fr s₁) (body : Issue → State → Except Stop (State × BitVec 64)) (s₂ : State) (moved : BitVec 64)
    (hb : body fr s₁ = .ok (s₂, moved)) : issue f t s body = .next (s₂.finish core sc fr.site t.stall moved) := by
  obtain ⟨g₀, h₀, rfl⟩ := h.turn
  unfold issue
  rw [h₀]
  simp [h.checks, Except.bind, hb, Except.map]

/-- EVERYTHING `issue` CAN DO when a run has the turn: the word completes as its body says; it takes the exception of its checks or of its body,
with the state as it was; or it waits where it stands. -/
theorem issue_cases (f : Form) (t : Tail) (s : State) (body : Issue → State → Except Stop (State × BitVec 64)) {core sc : Nat} {r : Run}
    {g : Group} (h : s.issuing = some (core, sc, r, g)) :
    (∃ fr s₁ s₂ moved, prepare f t s r (f.arrive t s r g) = .ok (fr, s₁) ∧ body fr s₁ = .ok (s₂, moved) ∧
      issue f t s body = .next (s₂.finish core sc fr.site t.stall moved)) ∨
    (∃ tr w, issue f t s body = .next (s.raise w tr) ∧ w.slot = r.slot) ∨
    (∃ (s' : State) (deps : List Instr), issue f t s body = .next (s'.await deps)) := by
  unfold issue
  rw [h]
  simp only []
  cases hp : prepare f t s r (f.arrive t s r g) with
  | error e => cases e with
    | trap tr =>
      exact .inr (.inl ⟨tr, siteOf r (f.arrive t s r g) (1 + t.mods.length) (activeLanes (f.arrive t s r g).seen r.set (predOf (r.hdr (f.arrive t s r g)) (Tail.modifiers t))), by
        simp [Except.bind], rfl⟩)
    | wait s' deps => exact .inr (.inr ⟨(s'.unpop r.slot (f.arrive t s r g)).elapse r.slot, deps, by simp [Except.bind]⟩)
  | ok x =>
    obtain ⟨fr, s₁⟩ := x
    cases hb : body fr s₁ with
    | error e => cases e with
      | trap tr =>
        exact .inr (.inl ⟨tr, siteOf r (f.arrive t s r g) (1 + t.mods.length) (activeLanes (f.arrive t s r g).seen r.set (predOf (r.hdr (f.arrive t s r g)) (Tail.modifiers t))), by
          simp [Except.bind, hb, Except.map], rfl⟩)
      | wait s' deps => exact .inr (.inr ⟨(s'.unpop r.slot (f.arrive t s r g)).elapse r.slot, deps, by simp [Except.bind, hb, Except.map]⟩)
    | ok y => exact .inl ⟨fr, s₁, y.1, y.2, rfl, hb, by simp [Except.bind, hb, Except.map]⟩

/-- The facts about a ready word that its frame rests on. -/
theorem Ready.slots {f : Form} {t : Tail} {s : State} {core sc : Nat} {r : Run} {g : Group} {fr : Issue} {s₁ : State}
    (h : Ready f t s core sc r g fr s₁) :
    fr.site.slot = r.slot ∧ s₁.groups.find r.slot = some fr.g ∧ ∀ q, (s₁.core core).runs.find sc = some q → q.slot = r.slot := by
  obtain ⟨hs, rfl⟩ := prepare_frame h.checks
  refine ⟨hs, Table.find_put_self _ _ _, fun q hq => ?_⟩
  obtain ⟨g₀, ht, -⟩ := h.turn
  unfold State.issuing at ht
  split at ht
  · exact absurd ht (by simp)
  · next r' hr' =>
    split at ht
    · exact absurd ht (by simp)
    · simp only [Option.some.injEq, Prod.mk.injEq] at ht
      obtain ⟨rfl, rfl, rfl, -⟩ := ht
      have : (s.core (s.turn / 12)).runs.find (s.turn % 12) = some q := hq
      rw [hr'] at this
      simp only [Option.some.injEq] at this
      exact this ▸ rfl

/-- No lane is taken out of a set. -/
theorem and_not_zero (x : BitVec 64) : x &&& ~~~(0 : BitVec 64) = x := by
  have h : ~~~(0 : BitVec 64) = BitVec.allOnes 64 := by decide
  rw [h]; exact BitVec.and_allOnes

/-- A body that commits cells and, perhaps, changes FPX. -/
theorem Ready.writes_fpx {f : Form} {t : Tail} {s : State} {core sc : Nat} {r : Run} {g : Group} {fr : Issue} {s₁ : State}
    (h : Ready f t s core sc r g fr s₁) (lat : Option Nat) (cs : List RCell) (fpx : Word → Word) :
    RegWrite s₁ ((fr.commit { s₁ with groups := s₁.groups.modify fr.site.slot fun g => { g with fpx := fpx g.fpx } } lat cs).finish core sc fr.site
      t.stall 0) core fr.site (1 + t.stall.toNat) lat cs fpx := by
  obtain ⟨hs, hg, hr⟩ := h.slots
  rw [← hs] at hg hr
  set s₂ : State := { s₁ with groups := s₁.groups.modify fr.site.slot fun g => { g with fpx := fpx g.fpx } } with hs2
  have h2 : OneGroup s₁ s₂ core fr.site.slot := by rw [hs2]; exact OneGroup.modify ..
  have hf2 : s₂.groups.find fr.site.slot = some { fr.g with fpx := fpx fr.g.fpx } := by rw [hs2]; simp [Table.find_modify, hg]
  have h3 : OneGroup s₂ (fr.commit s₂ lat cs) core fr.site.slot := OneGroup.modify ..
  have hf3 : (fr.commit s₂ lat cs).groups.find fr.site.slot = some (({ fr.g with fpx := fpx fr.g.fpx } : Group).commit lat fr.site.pc cs) := by
    unfold Issue.commit; simp [Table.find_modify, hf2]
  obtain ⟨h4, g', hg', hm, hh⟩ := State.finish_moved (fr.commit s₂ lat cs) core sc fr.site t.stall 0 _ hf3 hr
  refine ⟨(h2.trans h3).trans h4, fun g0 h0 => ?_⟩
  rw [hg] at h0
  simp only [Option.some.injEq] at h0
  subst h0
  refine ⟨g', hg', ?_⟩
  have hreg : SameRegs fr.g ({ fr.g with fpx := fpx fr.g.fpx } : Group) := ⟨rfl, rfl, fun _ => ⟨rfl, rfl, rfl⟩⟩
  have hb : ∀ c, ({ fr.g with fpx := fpx fr.g.fpx } : Group).before c = fr.g.before c := hreg.value
  have hp : (({ fr.g with fpx := fpx fr.g.fpx } : Group).commit lat fr.site.pc cs).hazards = (fr.g.commit lat fr.site.pc cs).hazards := by
    unfold Group.commit
    split
    · exact Group.landed_congr (by rw [Group.writes_hazards, Group.writes_hazards]; rfl) _
    · have hm : cs.map ({ fr.g with fpx := fpx fr.g.fpx } : Group).before = cs.map fr.g.before := List.map_congr_left fun c _ => hb c
      simp only [hm]
  have hc := (Group.commit_wrote ({ fr.g with fpx := fpx fr.g.fpx } : Group) lat fr.site.pc cs).moved hm hh
  rw [and_not_zero] at hc
  refine ⟨fun c => (hc.written c).trans ((hreg.writes cs).value c), fun c hx => (hc.kept c hx).trans (hreg.value c), hc.fpx, ?_,
    hc.rest.trans (by rfl), hc.codes, hc.lanes⟩
  rcases hh with hh | hh
  · exact .inl hh
  · refine .inr (hh.trans ?_)
    unfold Group.pendingAfter Group.age
    simp only [hp]

/-- A change of FPX that changes nothing. -/
theorem modify_fpx_id (s : State) (slot : Nat) : { s with groups := s.groups.modify slot fun g => { g with fpx := id g.fpx } } = s := by
  have : (s.groups.modify slot fun g => { g with fpx := id g.fpx }) = s.groups := by
    unfold Table.modify
    conv_rhs => rw [← List.map_id s.groups]
    apply List.map_congr_left
    intro kv _
    split <;> rfl
  rw [this]

/-- A body that commits cells. -/
theorem Ready.writes {f : Form} {t : Tail} {s : State} {core sc : Nat} {r : Run} {g : Group} {fr : Issue} {s₁ : State}
    (h : Ready f t s core sc r g fr s₁) (lat : Option Nat) (cs : List RCell) :
    RegWrite s₁ ((fr.commit s₁ lat cs).finish core sc fr.site t.stall 0) core fr.site (1 + t.stall.toNat) lat cs id := by
  have := h.writes_fpx lat cs id
  rwa [modify_fpx_id] at this

/-- A body that changes its group, and moves lanes itself. -/
theorem Ready.moves {f : Form} {t : Tail} {s : State} {core sc : Nat} {r : Run} {g : Group} {fr : Issue} {s₁ : State}
    (h : Ready f t s core sc r g fr s₁) (eff : Group → Group) (moved : BitVec 64) :
    OneGroup s₁ (State.finish { s₁ with groups := s₁.groups.modify fr.site.slot eff } core sc fr.site t.stall moved) core fr.site.slot ∧
      ∃ g', (State.finish { s₁ with groups := s₁.groups.modify fr.site.slot eff } core sc fr.site t.stall moved).groups.find fr.site.slot = some g' ∧
        GroupAdvanced (eff fr.g) g' (lanesOf (fr.site.set &&& ~~~moved)) fr.site.len := by
  obtain ⟨hs, hg, hr⟩ := h.slots
  rw [← hs] at hg hr
  have hf : ({ s₁ with groups := s₁.groups.modify fr.site.slot eff } : State).groups.find fr.site.slot = some (eff fr.g) := by
    simp [Table.find_modify, hg]
  obtain ⟨h1, g', h2, h3, -⟩ := State.finish_moved { s₁ with groups := s₁.groups.modify fr.site.slot eff } core sc fr.site t.stall moved _ hf hr
  exact ⟨(OneGroup.modify s₁ core fr.site.slot eff).trans h1, g', h2, h3⟩

/-- A body that answers a state in which the issuing run is still one of the word's slot. -/
theorem Ready.does {f : Form} {t : Tail} {s : State} {core sc : Nat} {r : Run} {g : Group} {fr : Issue} {s₁ : State}
    (h : Ready f t s core sc r g fr s₁) (s₂ : State) (moved : BitVec 64) (hr : (s₂.core core).runs = (s₁.core core).runs)
    (hg : (s₂.groups.find fr.site.slot).isSome) :
    OneGroup s₂ (s₂.finish core sc fr.site t.stall moved) core fr.site.slot ∧
      ∀ g₂, s₂.groups.find fr.site.slot = some g₂ → ∃ g', (s₂.finish core sc fr.site t.stall moved).groups.find fr.site.slot = some g' ∧
        GroupAdvanced g₂ g' (lanesOf (fr.site.set &&& ~~~moved)) fr.site.len := by
  obtain ⟨hs, -, hq⟩ := h.slots
  obtain ⟨g₂, hg₂⟩ := Option.isSome_iff_exists.1 hg
  obtain ⟨h1, g', h2, h3, -⟩ := State.finish_moved s₂ core sc fr.site t.stall moved g₂ hg₂ (by rw [hr, hs]; exact hq)
  refine ⟨h1, fun g₃ h₃ => ⟨g', h2, ?_⟩⟩
  rw [hg₂] at h₃
  simp only [Option.some.injEq] at h₃
  exact h₃ ▸ h3

/-- A WORD WHOSE BODY ANSWERS THE STATE THAT `eff` SAYS does that. -/
theorem Does.of {α : Type} {i : Instr} {t : Tail} {f : Form} {ok : α → Issue → State → Prop} {eff : α → Issue → State → State}
    {moved : α → Issue → BitVec 64} (body : Issue → State → Except Stop (State × BitVec 64)) (he : ∀ s, exec i s = issue f t s body)
    (hb : ∀ x fr s, ok x fr s → body fr s = .ok (eff x fr s, moved x fr))
    (hr : ∀ x fr s core, ok x fr s → ((eff x fr s).core core).runs = (s.core core).runs)
    (hg : ∀ x fr s, ok x fr s → ((eff x fr s).groups.find fr.site.slot).isSome = (s.groups.find fr.site.slot).isSome) :
    Does i t f ok eff moved := by
  intro s core sc r g fr s₁ x h hx
  obtain ⟨hs, hf, -⟩ := h.slots
  have hd := h.does (eff x fr s₁) (moved x fr) (hr x fr s₁ core hx) (by rw [hg x fr s₁ hx, hs, hf]; rfl)
  exact ⟨_, (he s).trans (issue_ready h _ _ _ (hb x fr s₁ hx)), hd.1, hd.2⟩

/-- A word whose body answers a trap takes it. -/
theorem TrapsWhen.of {i : Instr} {t : Tail} {f : Form} {bad : Issue → State → Prop} {tr : Issue → State → Trap}
    (body : Issue → State → Except Stop (State × BitVec 64)) (he : ∀ s, exec i s = issue f t s body)
    (hb : ∀ fr s, bad fr s → body fr s = .error (.trap (tr fr s))) : TrapsWhen i t f bad tr := by
  intro s core sc r g fr s₁ h hx
  obtain ⟨g₀, h₀, rfl⟩ := h.turn
  rw [he s]
  unfold issue
  rw [h₀]
  simp [h.checks, Except.bind, hb fr s₁ hx, Except.map]
  rfl

/-- A word whose body commits cells writes them. -/
theorem Writes.of {i : Instr} {t : Tail} {f : Form} {lat : Option Nat} {cells : Issue → List RCell}
    (he : ∀ s, exec i s = issue f t s fun fr s => .ok (fr.commit s lat (cells fr), 0)) : Writes i t f lat cells := by
  intro s core sc r g fr s₁ h
  exact ⟨_, (he s).trans (issue_ready h _ _ 0 rfl), h.writes _ _⟩

end Sys2Proof.Machine
end

