-- ==== Sys2Proof/Laws/Memory.lean ====
section
/-! SUPPORT. Memory as a list of cells: what reads give after writes, and that every memory operation keeps the canonical form (DESIGN CHOICE: log 3). -/

namespace Sys2Proof.Machine

theorem memWf_iff (m : List Host.Cell) : Memory.wf m = true ↔ Table.wf m = true ∧ ∀ c ∈ m, c.2 ≠ 0 := by
  simp [Memory.wf]

@[simp] theorem memWf_nil : Memory.wf [] = true := rfl

/-- A memory keeps its canonical form when entries are dropped. -/
theorem memWf_filter (m : List Host.Cell) (p : Host.Cell → Bool) (h : Memory.wf m = true) : Memory.wf (m.filter p) = true := by
  rw [memWf_iff] at h ⊢
  exact ⟨Table.wf_filter m p h.1, fun c hc => h.2 c (List.mem_of_mem_filter hc)⟩

theorem mem_put {α : Type} (t : Table α) (i : Nat) (x : α) (c : Nat × α) (h : c ∈ t.put i x) : c = (i, x) ∨ c ∈ t := by
  induction t with
  | nil => exact .inl (by simpa [Table.put] using h)
  | cons kv t ih =>
    obtain ⟨k, v⟩ := kv
    simp only [Table.put] at h
    split at h
    · rcases List.mem_cons.1 h with h | h
      · exact .inl h
      · exact .inr h
    · split at h
      · rcases List.mem_cons.1 h with h | h
        · exact .inl h
        · exact .inr (List.mem_cons_of_mem _ h)
      · rcases List.mem_cons.1 h with h | h
        · exact .inr (h ▸ List.mem_cons_self ..)
        · rcases ih h with h | h
          · exact .inl h
          · exact .inr (List.mem_cons_of_mem _ h)

/-- Writing one cell keeps the canonical form. -/
theorem memWf_writeCell (m : List Host.Cell) (k : Nat) (b : BitVec 8) (h : Memory.wf m = true) : Memory.wf (writeCell m k b) = true := by
  unfold writeCell Regs.set Table.setD
  split
  · exact memWf_filter m _ h
  · next hb =>
    rw [memWf_iff] at h ⊢
    refine ⟨Table.wf_put m k b h.1, fun c hc => ?_⟩
    rcases mem_put m k b c hc with rfl | hc
    · exact hb
    · exact h.2 c hc

/-- Writing a run of cells keeps the canonical form. -/
theorem memWf_writeCells (m : List Host.Cell) (k : Nat) (bs : List (BitVec 8)) (h : Memory.wf m = true) : Memory.wf (writeCells m k bs) = true := by
  induction bs generalizing m k with
  | nil => exact h
  | cons b bs ih => exact ih _ _ (memWf_writeCell m k b h)

/-- Zeroing a run of cells keeps the canonical form. -/
theorem memWf_zeroCells (m : List Host.Cell) (k n : Nat) (h : Memory.wf m = true) : Memory.wf (zeroCells m k n) = true := memWf_filter m _ h

/-- Writes made one after another keep the canonical form. -/
theorem memWf_foldl {α : Type} (f : List Host.Cell → α → List Host.Cell) (hf : ∀ m x, Memory.wf m = true → Memory.wf (f m x) = true)
    (xs : List α) (m : List Host.Cell) (h : Memory.wf m = true) : Memory.wf (xs.foldl f m) = true := by
  induction xs generalizing m with
  | nil => exact h
  | cons x xs ih => exact ih _ (hf m x h)

/-- Moving a run of cells keeps the canonical form. -/
theorem memWf_moveCells (m : List Host.Cell) (a b n : Nat) (h : Memory.wf m = true) : Memory.wf (moveCells m a b n) = true := by
  unfold moveCells
  exact memWf_foldl _ (fun m c hm => memWf_writeCell m _ _ hm) _ _ (memWf_zeroCells m b n h)

/-- A cell after one write. -/
theorem readCell_writeCell (m : List Host.Cell) (k j : Nat) (b : BitVec 8) :
    readCell (writeCell m k b) j = if j = k then b else readCell m j := Regs.get_set m k j b

/-- A cell after a run of writes: the byte of the run that lies there, or what it held. -/
theorem readCell_writeCells (m : List Host.Cell) (k j : Nat) (bs : List (BitVec 8)) :
    readCell (writeCells m k bs) j = if k ≤ j ∧ j < k + bs.length then bs.getD (j - k) 0 else readCell m j := by
  induction bs generalizing m k with
  | nil => simp [writeCells]
  | cons b bs ih =>
    rw [writeCells, ih, readCell_writeCell]
    by_cases h1 : j = k
    · subst h1; simp
    · by_cases h2 : k + 1 ≤ j ∧ j < k + 1 + bs.length
      · have h3 : k ≤ j ∧ j < k + (b :: bs).length := by simp; omega
        rw [if_pos h2, if_pos h3]
        obtain ⟨n, rfl⟩ : ∃ n, j = k + 1 + n := ⟨j - (k + 1), by omega⟩
        rw [show k + 1 + n - (k + 1) = n by omega, show k + 1 + n - k = n + 1 by omega]; rfl
      · have h3 : ¬ (k ≤ j ∧ j < k + (b :: bs).length) := by simp; omega
        rw [if_neg h2, if_neg h3, if_neg h1]

theorem find_filter_key {α : Type} (t : Table α) (p : Nat → Bool) (j : Nat) :
    Table.find (t.filter fun kv => p kv.1) j = if p j then Table.find t j else none := by
  induction t with
  | nil => simp
  | cons kv t ih =>
    obtain ⟨k, v⟩ := kv
    by_cases hk : p k = true
    · rw [List.filter_cons_of_pos (by simpa using hk), Table.find_cons, Table.find_cons, ih]
      by_cases hj : j = k <;> simp [hj, hk]
    · rw [List.filter_cons_of_neg (by simpa using hk), ih, Table.find_cons]
      by_cases hj : j = k <;> simp [hj, hk]

/-- A cell after a run of cells has been zeroed. -/
theorem readCell_zeroCells (m : List Host.Cell) (k n j : Nat) :
    readCell (zeroCells m k n) j = if k ≤ j ∧ j < k + n then 0 else readCell m j := by
  have h := find_filter_key m (fun c => decide (c < k) || decide (k + n ≤ c)) j
  unfold readCell zeroCells Regs.get Table.getD
  rw [h]
  by_cases hj : k ≤ j ∧ j < k + n
  · rw [if_pos hj, if_neg (by simp; omega)]; rfl
  · rw [if_neg hj, if_pos (by simp; omega)]

end Sys2Proof.Machine
end

