-- ==== Sys2Proof/Tests/Slice0.lean ====
section
/-! SUPPORT. The model's own tests: words of the specification's encodings, terms that WellFormed refuses, and for each obligation a concrete
state and operands that meet its hypotheses, clause by clause. -/

namespace Sys2Proof.Tests

set_option Elab.async false

open Sys2Proof Sys2Proof.Machine

/-! ## Small states -/

/-- One group of one lane in a run of core 0, inside a clause of ENGINE 7. -/
def st0 : State := State.reset.withFetchWord 32 0

/-- The group of `st0`, changed. -/
def withGroup (f : Group → Group) (s : State := st0) : State := { s with groups := s.groups.modify 0 f }

/-- The lane of `st0` in a clause of another ENGINE. -/
def inEngine (e : Nat) (s : State := st0) : State :=
  withGroup (fun g => g.onLanes [0] fun x => { x with clause := some (BitVec.ofNat 32 (0xB000000F + 512 * e), 15) }) s

/-- S registers from S0 on. -/
def withS (xs : List Nat) (s : State := st0) : State :=
  withGroup (fun g => { g with s := ((List.range xs.length).zip xs).foldl (fun (t : Regs 32) x => t.set x.1 (BitVec.ofNat 32 x.2)) g.s }) s

/-- The team of `st0`, changed. -/
def withTeam (f : Team → Team) (s : State := st0) : State := { s with teams := s.teams.modify 0 f }

/-- Bytes of the grid's record, changed from an offset on. -/
def withRecord (off : Nat) (bs : List (BitVec 8)) (s : State := st0) : State :=
  { s with grids := s.grids.modify 0 fun g => { g with record := splice g.record off bs } }

/-- No modifier word. -/
def t0 : Tail := ⟨0, []⟩

/-- An ARITH word that names C. -/
def tC (c : Nat) : Tail := ⟨0, [BitVec.ofNat 32 (4 * c)]⟩

/-- An EXT word. -/
def tE (x : Nat) : Tail := ⟨0, [BitVec.ofNat 32 (2 ^ 31 + 2 * x)]⟩

/-- An ORDER word. -/
def tO (flav scope : Nat) : Tail := ⟨0, [BitVec.ofNat 32 (3 * 2 ^ 29 + flav * 2 ^ 26 + scope * 2 ^ 23)]⟩

/-- The issue checks of a word pass on a state, and its frame and the state after its queue operands meet a condition. -/
def readyWith (f : Form) (t : Tail) (s : State) (p : Issue → State → Bool) : Bool :=
  match s.issuing with
  | none => false
  | some (_, _, r, g) => match prepare f t s r (f.arrive t s r g) with
    | .error _ => false
    | .ok (fr, s₁) => p fr s₁

/-- `readyWith` gives the hypotheses of the statements about words. -/
theorem readyWith_ready {f : Form} {t : Tail} {s : State} {p : Issue → State → Bool} (h : readyWith f t s p = true) :
    ∃ core sc r g fr s₁, Ready f t s core sc r g fr s₁ ∧ p fr s₁ = true := by
  unfold readyWith at h
  split at h
  · exact absurd h (by simp)
  · next core sc r g hi =>
    split at h
    · exact absurd h (by simp)
    · next fr s₁ hp => exact ⟨core, sc, r, f.arrive t s r g, fr, s₁, ⟨⟨g, hi, rfl⟩, hp⟩, h⟩

/-- The issue checks of a word pass. -/
def ready (f : Form) (t : Tail := t0) (s : State := st0) : Bool := readyWith f t s fun _ _ => true

/-- The state that an instruction or event leads to meets a condition. -/
def after (i : Instr) (s : State) (p : State → Bool) : Bool :=
  match exec i s with
  | .next u => p u
  | _ => false

/-- An exception is what the word comes to. -/
def trapsWith (i : Instr) (s : State) (c : Cause) : Bool :=
  after i s fun u => ((u.core 0).coal.map CoalRec.cause == [c]) || (u.errors.any fun e => match e with | .context c' _ _ _ _ _ => c' == c | _ => false)

/-- Every condition of a list holds. -/
def allTrue (l : List Bool) : Bool := l.all id

/-- The grid's item queue 0, bound; the lane's predicates are all true, and V1 holds 7. -/
def stItems (q : Option ItemQueue) : State :=
  withRecord 36 (toBytes 1 8) (withGroup (fun g => g.onLanes [0] fun x => { x with preds := 0xFF, v := [(8, 7)] })
    (st0.setCore 0 { st0.core 0 with iq := match q with | some x => [(0, x)] | none => [] }))

/-- S0 and S1 hold an address of host memory; S2 and S3 an address of the window. -/
def stMem : State := withS [0x1100, 0, 0x40, 0x00F00000]

/-- A stream record of a queue with one entry at 0x1100, and one whose field is not valid. -/
def rec64 (q ty : Nat) : List (BitVec 8) := toBytes 8 0x1100 ++ List.replicate 36 0 ++ toBytes 4 (ty + 16 * q + 2 ^ 16) ++ List.replicate 16 0

/-- The stream of a record. -/
def stream0 (q : Nat) : Stream := match recordOf64 (rec64 q 4) with
  | .good r => r
  | _ => ⟨0, [], [], 0, 0, 0, 0, 0, false, 0, none, none⟩

/-! ## Encoding -/

theorem test_words_integer : decodeWords [0b0000001_0000011_0000001_0000010_100_0] = .ok (.iadd 3 1 2 ⟨4, []⟩, []) := by decide +kernel

/-- EncodingRoundTrips and DecodedWordsHaveOneEncoding have instances, one with a modifier word. -/
theorem wit_encoding :
    (Instr.wf (.iadd 3 1 2 t0) && (encode (.iadd 3 1 2 t0)).isSome && Instr.wf (.imad 3 1 2 (tC 9)) && (encode (.imad 3 1 2 (tC 9))).isSome &&
     match decodeWords [0b0000001_0000011_0000001_0000010_100_0] with | .ok (i, _) => (encode i).isSome | .error _ => false) = true := by
  decide +kernel

/-- FunctionOpcodeDividesFN7: clauses of ENGINE 0 and 7, and fields with and without a function and with reserved bits. -/
theorem wit_function_opcode :
    ([0, 7].all fun e => match (inEngine e).issuing with
      | some (_, _, r, g) => ((r.hdr g).extractLsb' 9 3).toNat == e
      | none => false) = true ∧ (0x70 : BitVec 7).toNat / 16 = 7 ∧ (0x5C : BitVec 7).toNat / 16 = 5 ∧ (0x51 : BitVec 7).toNat % 4 ≠ 0 := by
  decide +kernel

/-- LogicInstructions, IntegerArithmeticCompletes and BitFieldsComplete: every form is ready. -/
theorem wit_integer_forms :
    (([accLogic, accArith 2, accNeg 2, accNeg 1, accArith 1].flatMap fun acc =>
        [wordForm .lane acc 3 [1, 2], wordForm .lane acc 126 [1, 97], wordForm .lane acc 96 [97, 98]]).all (fun f => ready f) &&
      ready (wordForm .lane { accArith 3 with useC := true } 3 [1, 2]) (tC 9) && ready (wordForm .lane { accLogic with useC := true } 3 [1, 2]) (tC 9) &&
      ready { cls := .lane, acc := accArith 2, dst := some { f := 4, width := 2 }, srcs := [{ f := 2, width := 2 }, { f := 6, width := 2 }] } &&
      ready { cls := .lane, acc := { index := true, dual := true, scale := .lea }, dst := some { f := 4, width := 2 },
              srcs := [{ f := 2, width := 2 }, { f := 6 }] }) = true := by decide +kernel

/-! ## Steps, registers, issue and exceptions -/

/-- `st0` with an IADD where it stands. -/
def stAdd : State := State.reset.withFetchWord 32 0x02060088

/-- MemoryStaysCanonical, StepRunsTheDecodedInstruction: a step from a canonical memory; a fetched and decoded word; an event that is due. -/
theorem wit_step :
    allTrue [Memory.wf stAdd.mem, match step stAdd with | .next _ => true | _ => false, stAdd.agenda.isEmpty, stAdd.powered, !stAdd.waiting,
      match stAdd.issuing with
      | some (_, _, r, g) => (g.lane (lowest r.set)).clause.isSome && decide (r.issued < 24) && g.imprecise.isEmpty && match stAdd.fetchChain r.slot g (g.lane (lowest r.set)).pc 6 with
        | .ok ws => match decodeWords ws with | .ok _ => true | _ => false
        | .error _ => false
      | none => false,
      !isWindow 0x1004, (match placeGroup.checkControl [0] with | .ok _ => true | .error _ => false), match stAdd.lookCore 0 1 0 .fetch 0x1004 with
        | .ok l _ => match stAdd.readLoc l 4 with | .ok _ => true | _ => false
        | _ => false,
      match stAdd.fetch 0 placeGroup 0x1004 with | .ok _ => true | _ => false,
      match step { st0 with agenda := [.casterKill 3 ⟨1, none⟩] } with | .next u => (u.core 3).crefused.length == 1 | _ => false] = true := by
  decide +kernel

/-- RegistersHoldWhatIsWritten: a vector and a predicate cell, and a group without hazards. -/
theorem wit_registers :
    allTrue [(placeGroup.write (.v 0 8 5)).valueAt (.v 0 8 0) == .v 0 8 5, (placeGroup.write (.p 0 7 true)).valueAt (.p 0 7 false) == .p 0 7 true,
      !(RCell.v 0 8 0).samePlace (.v 0 16 0), placeGroup.hazards.isEmpty] = true := by
  decide +kernel

/-- A form that accepts nothing in a clause of ENGINE 0, one with a modifier word that it does not take, and a hazard with SCHK set. -/
def stHazard : State :=
  let s := withGroup (fun g => { g with hazards := [⟨[.v 1], [], 5, 0x1000⟩] })
  s.setCtx 1 0 { s.ctx 1 0 with schk := true }

/-- IssueChecksTrapInOrder. -/
theorem wit_issue_checks :
    allTrue [match (inEngine 0).issuing with | some (_, _, r, g) => !OpClass.matrix.accepts ((r.hdr g).extractLsb' 9 3).toNat false | none => false,
      (Mods.parse [0xA0000000] Mods.none).isNone, !accLogic.ok (Tail.modifiers (tE 1)), !(accLogic.ok (Tail.modifiers (tO 1 1))),
      match stHazard.issuing with
      | some (_, _, r, g) => (g.hazardOn ((wordForm .lane accLogic 3 [1, 2]).readNames (r.frame t0 stHazard g ([], 0)) (r.hdr g))).isSome &&
          (stHazard.ctx (stHazard.owner g).1 (stHazard.owner g).2).schk && g.loads.isEmpty
      | none => false,
      after (.iadd 3 1 2 t0) stHazard fun u => (u.core 0).coal.map CoalRec.cause == [.stallUndersized],
      trapsWith (.iadd 3 95 2 t0) (withRecord 16 (toBytes 8 (1 + 1 * 2 ^ 42 + 11 * 2 ^ 47))) .regRange, trapsWith (.iadd 96 1 2 t0) st0 .illegalDest,
      trapsWith (.iadd 119 1 2 t0) st0 .illegalDest, after (.iadd 95 1 2 t0) st0 fun u => (u.core 0).coal.isEmpty,
      trapsWith (.iadd 3 1 2 (tE 1)) st0 .illegalField, trapsWith (.mmwait t0) (inEngine 0) .classMismatch] = true := by
  decide +kernel

/-- The site of lane 0's word in `st0`. -/
def site0 : Site := ⟨0, 1, 1, 0x1004, (0xB0000E0F, 15), 1⟩

/-- Eight records of other groups' exceptions are delivered already but one. -/
def stTrapped : State := withGroup (fun g => { g with trap := { g.trap with active := true } })

/-- TakingAnException: a T cause outside trap mode, an F cause, and any cause in trap mode. -/
theorem wit_exception :
    allTrue [(st0.groups.find 0).isSome, Cause.align.kind == .T, !placeGroup.trap.active, (st0.core 0).coal.isEmpty, Cause.ownerMismatch.kind == .F,
      match stTrapped.groups.find 0 with | some g => g.trap.active | none => false,
      ((st0.raise site0 { cause := .align }).core 0).coal.map CoalRec.cause == [.align],
      ((st0.raise site0 { cause := .ownerMismatch }).ctx 1 0).state == 2, ((stTrapped.raise site0 { cause := .align }).ctx 1 0).state == 2] = true := by
  decide +kernel

/-- The translation that `st0` holds. -/
def x0 : Xlation := ⟨1, 0, 0, 0, 0x200000, 0, 7, 2, true, .leaf true true true false 0 0, false, false⟩

/-- MemoryPortChecksThePlace: no entry, its last byte and the byte past it, a right that it lacks, another's entry, an entry that serves; and a
translation by which a group meets the cause. -/
theorem wit_memory_port :
    allTrue [match ({ st0 with bufs := [] } : State).resolve 1 0 .load x0 64 with | .fault .bufferTable _ => true | _ => false,
      (st0.leafCause 1 0 .load x0.attr).isNone, !attrKeyed x0.attr,
      match ({ st0 with bufs := [(0, ⟨true, true, 0, 1, 0, 1, 0⟩)] } : State).resolve 1 0 .load { x0 with s2 := .leaf true true true false 0 (2 ^ 21) } 0 with
        | .fault .bufferTable _ => true | _ => false,
      match ({ st0 with bufs := [(0, ⟨true, true, 0, 1, 0, 1, 0⟩)] } : State).resolve 1 0 .load { x0 with s2 := .leaf true true true false 0 (2 ^ 21 - 1) } 0 with
        | .ok _ _ => true | _ => false,
      match ({ st0 with bufs := [(0, ⟨true, false, 0, 1, 0, 1, 0⟩)] } : State).resolve 1 0 .store x0 64 with | .fault .bufferTable _ => true | _ => false,
      match ({ st0 with bufs := [(0, ⟨true, true, 0, 2, 0, 1, 0⟩)] } : State).resolve 1 0 .load x0 64 with | .fault .ownerMismatch _ => true | _ => false,
      match ({ st0 with bufs := [(0, ⟨true, true, 0, 2, 0, 1, 0⟩)] } : State).lookCore 0 1 0 .load 64 with | .fault .ownerMismatch _ => true | _ => false,
      match ({ st0 with bufs := [] } : State).lookCore 0 1 0 .load 64 with | .fault .bufferTable _ => true | _ => false] = true := by
  decide +kernel

/-- A location in the core's own slice. -/
def lSram : Loc := ⟨.sram 0 0x40, none, 0, 1, 0⟩

/-- AtomicsApplyTheirFunction: an atomic of each TYPE, a compare-and-swap that is equal and one that is not. -/
theorem wit_atomic_functions :
    allTrue ([(0, 0), (1, 1), (2, 2), (6, 3), (7, 1), (8, 1), (9, 3), (9, 4), (9, 5)].map fun x : Nat × Nat => atomValid x.1 x.2 &&
        match st0.performPart (.atom x.1 x.2) (0, ⟨0, 0, 0x40, atomSize x.2, List.replicate (atomSize x.2) 1, []⟩, lSram) with
        | .ok (u, _) => decide (readCell u.mem 0x40 = if x.1 = 1 then 0 else 1)
        | .error _ => false) = true ∧
    allTrue [match st0.performPart .cas (0, ⟨0, 0, 0x40, 4, [1, 2, 3, 4], [0, 0, 0, 0]⟩, lSram) with | .ok (u, _) => readCell u.mem 0x43 == 4 | _ => false,
      match st0.performPart .cas (0, ⟨0, 0, 0x40, 4, [1, 2, 3, 4], [0, 0, 0, 1]⟩, lSram) with | .ok (u, _) => u == st0 | _ => false] = true := by
  decide +kernel

/-! ## Lane instructions -/

/-- IntegerResultsAreExact: both widths, and 64 values. -/
theorem wit_integer_results :
    allTrue [(List.replicate 64 (⟨1, [], []⟩ : RedVal)).length == 64, (storeInt 32 1 (2 ^ 40)).toInt == 2 ^ 31 - 1, (storeInt 64 2 (-1)).toNat == 0,
      match redTree 0 6 (List.replicate 64 ⟨1, [], []⟩) with | ([z], []) => z.v == 64 | _ => false] = true := by
  decide +kernel

/-- PredicatesAndSelectionComplete. -/
theorem wit_predicate_forms :
    allTrue [ready { cls := .lane, acc := { index := true }, srcs := [{ f := 1 }, { f := 2 }], writes := [.p 3], bad := fun _ => decide (10 ≤ (9 : BitVec 4).toNat) },
      ready { cls := .vector, reads := [.p 1, .p 2], writes := [.p 3] }, ready { cls := .vector, reads := [.p 7, .p 0], writes := [.p 0] },
      ready { cls := .lane, acc := { accLogic with useC := true, moves := true }, dst := some { f := 3 }, srcs := [{ f := 1 }, { f := 2 }], reads := [.p 1],
              regC := false, bad := fun m => m.ar.c >>> 4 != 0 } (tC 9),
      ready (wordForm .lane { accLogic with moves := true } 3 [1]), ready { cls := .lane, acc := { accLogic with ext := true }, dst := some { f := 3 }, bad := badConst },
      ready { cls := .lane, acc := { accLogic with ext := true }, dst := some { f := 4, width := 2 }, bad := badConst } (tE 5)] = true := by
  decide +kernel

/-- SpecialAndIndexRegistersComplete: a special register of one word and of two, FPX, and index windows within and beyond the allocation. -/
theorem wit_special_registers :
    allTrue [ready { cls := .lane, acc := { index := true }, dst := some { f := 3 }, rule := .vOnly, bad := fun _ => decide (22 < (0 : Nat)) },
      ready { cls := .lane, acc := { index := true }, dst := some { f := 4, width := 2 }, rule := .std },
      ready { cls := .lane, acc := { index := true }, srcs := [{ f := 96 }], rule := .scalarSrc },
      readyWith { cls := .vector, acc := { index := true }, srcs := [{ f := 96 }, { f := 2 }], bad := fun _ => !isSZ 96 } t0 (withS [0x6000])
        (fun fr s => decide ((fr.opWords 0 [{ f := 96 }, { f := 2 }] 0).extractLsb' 8 7 = 96) && decide (8 * (s.gridOf fr.g.team).regb = 96)),
      readyWith { cls := .vector, acc := { index := true }, srcs := [{ f := 96 }, { f := 2 }], bad := fun _ => !isSZ 96 } t0 (withS [0x5F00])
        (fun fr s => decide ((fr.opWords 0 [{ f := 96 }, { f := 2 }] 0).extractLsb' 8 7 < 8 * (s.gridOf fr.g.team).regb)),
      ready { cls := .vector, acc := { index := true }, srcs := [{ f := 2 }], reads := [.ix 3] },
      after (.ixset 0 96 2 t0) (withS [0x5F00]) fun u => (u.groups.find 0).any fun g => g.wins.find 0 == some (0, 95),
      trapsWith (.ixset 0 96 2 t0) (withS [0x6000]) .indexBounds] = true := by
  decide +kernel

/-- ControlTransfersComplete and MeetingExitAndYieldComplete: aligned and misaligned targets, and a PC outside 56 bits. -/
theorem wit_control :
    allTrue [ready { cls := .any }, ready { cls := .scalar }, ready { cls := .scalar, dst := some { f := 0, width := 2 } },
      readyWith { cls := .scalar, acc := { index := true }, srcs := [{ f := 96, width := 2 }] } t0 (withS [0x2000])
        (fun fr _ => fr.act.all fun l => decide ((opd (fr.readAll l [{ f := 96, width := 2 }] 0) 0).toNat = 0x2000)),
      readyWith { cls := .scalar, acc := { index := true }, srcs := [{ f := 96, width := 2 }] } t0 (withS [0x2002])
        (fun fr _ => fr.act.any fun l => decide ((opd (fr.readAll l [{ f := 96, width := 2 }] 0) 0).toNat % 4 ≠ 0)),
      readyWith { cls := .scalar, acc := { index := true }, srcs := [{ f := 96, width := 2 }] } t0 (withS [0, 2 ^ 24])
        (fun fr _ => fr.act.any fun l => decide (2 ^ 56 ≤ (opd (fr.readAll l [{ f := 96, width := 2 }] 0) 0).toNat)),
      ready { cls := .scalar, acc := { index := true }, dst := some { f := 4, width := 2 }, rule := .vOnly,
              pre := fun i => if i.act.any fun l => i.g.mismatch (.meet l) then trapR .residue 0 else .ok () },
      after (.brx 96 t0) (withS [0x2000]) (fun u => (u.groups.find 0).any fun g => (g.lane 0).pc == 0x2000), trapsWith (.brx 96 t0) (withS [0x2002]) .align,
      trapsWith (.meetr 96 t0) (withS [0, 2 ^ 24]) .meetInvalid, after (.exit t0) st0 fun u => (u.groups.find 0).any fun g => (g.lane 0).exited] = true := by
  decide +kernel

/-- Two lanes that have met: the second arrives last. -/
def metGroup : Group := { placeGroup with lanes :=
  [(0, { placeLane with meet := 0x2000, held := true, pc := 0x2000, clause := none }), (1, { placeLane with meet := 0x2000, held := true, pc := 0x2000, clause := none })] }

/-- MeetingExitAndYieldComplete: a meeting that is released, and a group in trap mode. -/
theorem wit_meeting :
    allTrue [(metGroup.lane 0).held, !(metGroup.release.lane 0).held, stTrapped.groups.all fun g => g.2.trap.active, slotCore 0 == 0, slotSub 0 == 0] = true := by
  decide +kernel

/-- TrapAndBreakTakeTheirException: with an active lane, and with none. -/
theorem wit_trap_break :
    allTrue [readyWith { cls := .scalar } t0 st0 (fun fr _ => fr.act != []),
      readyWith { cls := .scalar } t0 (withGroup fun g => g.onLanes [0] fun x => { x with clause := some (0xB8000E0F, 15) }) (fun fr _ => fr.act == []),
      trapsWith (.trap 5 t0) st0 .softwareTrap, trapsWith (.brk 5 t0) st0 .breakpoint] = true := by
  decide +kernel

/-- FloatArithmeticCompletes, FloatFunctionsAndConversionsComplete and FloatPredicatesComplete: each form, without an exception and with an enabled one. -/
theorem wit_float_forms :
    allTrue [ready { cls := .lane, acc := accFloat 2, dst := some { f := 3 }, srcs := regs [1, 2] },
      ready { cls := .lane, acc := { accFloat 3 with useC := true }, dst := some { f := 3 }, srcs := regs [1, 2] } (tC 9),
      ready { cls := .vector, acc := accFloat 2, dst := some { f := 3 }, srcs := regs [1, 2] },
      ready { cls := .vector, acc := { accFloat 3 with useC := true }, dst := some { f := 3 }, srcs := regs [1, 2] } (tC 9),
      ready { cls := .vector, acc := accFloat 1, dst := some { f := 3 }, srcs := regs [1], bad := fun _ => (2 : BitVec 2) == 3 },
      ready { cls := .vector, acc := { accFloat 1 with moves := false }, dst := some { f := 3 }, srcs := regs [1] },
      ready { cls := .vector, acc := { accFloat 1 with res := 0, moves := false }, dst := some { f := 4, width := 2 }, srcs := regs [1] },
      ready { cls := .vector, acc := { accFloat 0 with res := 3, moves := false }, dst := some { f := 3 }, srcs := [{ f := 4, width := 2 }] },
      ready { cls := .lane, acc := { neg := 2, abs := 2, ftz := true, index := true }, srcs := regs [1, 2], writes := [.p 3], bad := fun _ => decide (10 ≤ (9 : BitVec 4).toNat) },
      ready { cls := .vector, acc := { neg := 1, abs := 1, ftz := true, index := true }, srcs := regs [1], writes := [.p 0], bad := fun _ => (14 : BitVec 4) == 15 },
      after (.fdivF32 3 1 2 t0) st0 (fun u => (u.core 0).coal.isEmpty && (u.groups.find 0).any fun g => g.fpx != 0),
      trapsWith (.fdivF32 3 1 2 t0) (withGroup fun g => { g with fpx := 0x3F0000 }) .fpTrap,
      f32.isNaN 0x7FC00000, f16.isSNaN 0x7D00, bf16.isNaN 0x7FC0] = true := by
  decide +kernel

/-- CrossLaneInstructionsComplete. -/
theorem wit_cross_lane_forms :
    allTrue [ready { cls := .vector, acc := { dual := true, moves := true }, dst := some { f := 3 }, srcs := regs [1, 2], rule := .vOnly },
      ready { cls := .vector, acc := { dual := true, moves := true }, dst := some { f := 3 }, srcs := regs [1], rule := .vOnly },
      ready { cls := .vector, acc := { dual := true, moves := true }, dst := some { f := 100 }, srcs := regs [1, 97], rule := .anyS, bad := fun _ => !isSZ 97 },
      ready { cls := .vector, acc := { dual := true, moves := true }, dst := some { f := 3 }, srcs := regs [1], rule := .anyS }, ready { cls := .vector, acc := { dual := true, moves := decide (8 ≤ (7 : BitVec 4).toNat) }, dst := some { f := 100 }, srcs := regs [1], rule := .anyS },
      ready { cls := .vector, dst := some { f := 4, width := 2 }, reads := [.p 1], rule := .anyS },
      ready { cls := .vector, dst := some { f := 100 }, reads := [.p 1], rule := .anyS },
      ready { cls := .vector, acc := { index := true }, dst := some { f := 3 }, srcs := regs [1], rule := .vOnly, bad := fun _ => false },
      ready { cls := .vector, acc := { index := true }, dst := some { f := 3 }, rule := .vOnly }] = true := by
  decide +kernel

/-! ## Memory and synchronization -/

/-- Every access that a condition names is located. -/
def locates (s : State) (fr : Issue) (k : Access) (u : BufUse) (ea : DWord) (n : Nat) : Bool :=
  if isWindow ea.toNat then (match s.windowLoc fr.g.team u ea.toNat n with | .ok _ => true | .error _ => false)
  else match s.lookCore (slotCore fr.site.slot) (s.owner fr.g).1 (s.owner fr.g).2 k ea.toNat with
    | .ok _ _ => true
    | _ => false

/-- LoadsComplete, StoresComplete: LD and LDM, ST and STM, to host memory and to the window, in vector and scalar form. -/
theorem wit_loads_stores :
    allTrue [readyWith { cls := .memory, acc := accMem true 1, dst := some { f := 3, width := 1 }, srcs := [baseOpnd 96], bad := fun _ => badBase 96 } t0 stMem
        (fun fr s => fr.g.loads.isEmpty && fr.act.all fun l => locates s fr .load .groupLoad (fr.ea l 96 0) 4),
      readyWith { cls := .memory, acc := accMem false 1, dst := some { f := 4, width := 2 }, srcs := [baseOpnd 98], bad := fun _ => badBase 98 } t0 stMem
        (fun fr s => locates s fr .load .groupLoad (fr.ea 0 98 0) 8 && decide (isWindow (fr.ea 0 98 0).toNat)),
      readyWith { cls := .memory, acc := accMem false 1, dst := some { f := 8, count := 8 }, srcs := [baseOpnd 98], bad := fun _ => badBase 98 || badRun 8 8, pre := fun i => i.runOk 8 8 true } t0 stMem
        (fun fr s => locates s fr .load .groupLoad (fr.ea 0 98 0) 32),
      readyWith { cls := .memory, acc := accMem true 2, srcs := [baseOpnd 96, { f := 3, width := 1, tan := true }], bad := fun _ => badBase 96 } t0 stMem
        (fun fr _ => decide ((fr.ea 0 96 0).toNat % 4 = 0) && decide (fr.g.fifo.length < 16)),
      readyWith { cls := .memory, acc := accMem false 2, srcs := [baseOpnd 98, { f := 8, count := 8, tan := false }], bad := fun _ => badBase 98 || badRun 8 8, pre := fun i => i.runOk 8 8 true } t0 stMem
        (fun fr s => locates s fr .store .groupStore (fr.ea 0 98 0) 32),
      after (.ld 3 96 0 4 t0) stMem (fun u => (u.groups.find 0).any fun g => g.loads.length == 1),
      after (.ldm 8 98 0 0 7 t0) stMem (fun u => (u.groups.find 0).any fun g => g.loads.length == 1),
      after (.st 3 98 0 4 t0) stMem (fun u => (u.groups.find 0).any fun g => g.fifo.length == 1),
      after (.stm 8 98 0 0 7 t0) stMem (fun u => (u.groups.find 0).any fun g => g.fifo.length == 1)] = true := by
  decide +kernel

/-- AtomicsComplete: ATOM, CAS and CAS128 in the window; the TYPE and OP stand in the EXT word. -/
theorem wit_atomics :
    allTrue [readyWith { cls := .memory, acc := accAtomic true false, dst := some { f := 3, width := 1 }, srcs := [baseOpnd 98, { f := 5, width := 1 }], bad := fun _ => badBase 98 } (tE 0) stMem
        (fun fr s => locates s fr .rmw .groupStore (fr.ea 0 98 0) 4 && fr.tans.isEmpty),
      readyWith { cls := .memory, acc := accAtomic true true, dst := some { f := 3, width := 1 }, srcs := [baseOpnd 98, { f := 5, width := 1, tan := false }], writes := [.p 0], bad := fun m => badBase 98 || m.extField 27 1 == 1 } ⟨0, (tC 9).mods.map (· ||| 1) ++ (tE 0).mods⟩ stMem (fun _ _ => true),
      readyWith { cls := .memory, acc := accAtomic false true, dst := some { f := 4, width := 4 }, srcs := [baseOpnd 98, { f := 8, width := 4, tan := false }], writes := [.p 0], bad := fun m => badBase 98 || m.extField 27 1 == 1 } ⟨0, (tC 12).mods.map (· ||| 1) ++ (tE 0).mods⟩ stMem (fun _ _ => true),
      after (.atom 3 98 5 (tE 0)) stMem (fun u => (u.groups.find 0).any fun g => g.fifo.length == 1 && g.loads.length == 1),
      after (.cas 3 98 5 ⟨0, (tC 9).mods.map (· ||| 1) ++ (tE 0).mods⟩) stMem (fun u => (u.groups.find 0).any fun g => g.fifo.length == 1 && g.loads.length == 1),
      after (.cas128 4 98 8 ⟨0, (tC 12).mods.map (· ||| 1) ++ (tE 0).mods⟩) stMem
        (fun u => (u.groups.find 0).any fun g => g.fifo.length == 1 && g.loads.length == 1)] = true := by
  decide +kernel

/-- FencesAndPrefetchComplete: FENCE of each flavour, PREF to each level in translated memory, in the window, and at an address that faults. -/
theorem wit_fences :
    allTrue ([1, 2, 3, 4].map (fun f => readyWith { cls := .memory, acc := { needOrder := true, flavs := [1, 2, 3, 4] } } (tO f 5) st0
        (fun fr s => fr.g.loads.isEmpty && fr.g.fifo.isEmpty && (s.unreleased fr.site.slot fr.g 5 (f == 4)).isEmpty)) ++
      [96, 98].map (fun a => readyWith { cls := .memory, acc := { ext := true }, srcs := [baseOpnd a], bad := fun _ => badBase a } t0 stMem
        (fun fr s => fr.act.all fun n => locates s fr .load .groupLoad (fr.ea n a 0) 1)) ++
      [readyWith { cls := .memory, acc := { ext := true }, srcs := [baseOpnd 96], bad := fun _ => badBase 96 } t0 (withS [0, 0] { st0 with bufs := [] })
        (fun fr s => match s.look 0 1 0 0 .load (fr.ea 0 96 0).toNat with | .fault _ _ => fr.act == [0] | _ => false),
       after (.pref 0 96 t0) stMem fun u => u.mem == stMem.mem]) = true := by
  decide +kernel

/-- A team granted 64 buffers. -/
def stBuf (base size : Nat) (bufs : Table Buffer) : State := withTeam (fun t => { t with bufs := bufs }) (withS [base, size])

/-- BufferInstructionsComplete: a declaration, its deletion, one that meets another, each bad bound, a buffer in use, and the states of BUFQ. -/
theorem wit_buffers :
    allTrue [after (.bufdcl 63 96 t0) (stBuf 0xFF00 0x100 []) (fun u => ((u.team 0).bufs.find 63).isSome),
      after (.bufdcl 1 96 t0) (stBuf 0 0 [(1, ⟨0, 256, .full, 0, 0⟩)]) (fun u => ((u.team 0).bufs.find 1).isNone && (u.core 0).coal.isEmpty),
      trapsWith (.bufdcl 1 96 t0) (stBuf 0x100 0x100 [(2, ⟨0, 0x200, .full, 0, 0⟩)]) .bufBounds, trapsWith (.bufdcl 1 96 t0) (stBuf 0x80 0x100 []) .bufBounds,
      trapsWith (.bufdcl 1 96 t0) (stBuf 0xFF00 0x200 []) .sramRange, trapsWith (.bufdcl 1 96 t0) (stBuf 0 0x100 [(1, ⟨0, 256, .filling, 0, 0⟩)]) .bufState,
      after (.bufset 1 2 t0) (stBuf 0 0 [(1, ⟨0, 256, .empty, 0, 0⟩)]) (fun u => ((u.team 0).bufs.find 1).any fun b => b.state == .full),
      after (.bufset 1 0 t0) (stBuf 0 0 [(1, ⟨0, 256, .full, 0, 0⟩)]) (fun u => ((u.team 0).bufs.find 1).any fun b => b.state == .empty),
      trapsWith (.bufset 1 0 t0) st0 .bufBounds, trapsWith (.bufset 1 0 t0) (stBuf 0 0 [(1, ⟨0, 256, .draining, 0, 0⟩)]) .bufState,
      after (.bufq 4 1 t0) (stBuf 0 0 [(1, ⟨0, 256, .full, 0, 0⟩)]) (fun u => (u.core 0).coal.isEmpty),
      trapsWith (.bufdcl 63 96 t0) (withRecord 24 (toBytes 4 65536 ++ toBytes 4 0) (withRecord 32 (toBytes 8 1) (stBuf 0 0x100 []))) .bufBounds,
      trapsWith (.bufq 4 63 t0) (withRecord 32 (toBytes 8 1) st0) .bufBounds,
      ready { cls := .memory, srcs := [baseOpnd 96], bad := fun _ => !isS 96 }, ready { cls := .memory, bad := fun _ => (2 : BitVec 2) == 1 },
      ready { cls := .memory, dst := some { f := 4, width := 2 }, rule := .anyS, bad := fun _ => (1 : RegField).getLsbD 6 }] = true := by
  decide +kernel

/-- S0 and S1 hold an address of the window; S2 holds a value; an object stands there. -/
def stBar (v : Nat) (b : Barrier) : State := (withS [0x40, 0x00F00000, v]).setBarrier lSram.place b

/-- A barrier object. -/
def bar0 : Barrier := ⟨0, 2, 2, 0, false, 0⟩

/-- Barrier words: the object is aligned, in the window, and nothing is outstanding. -/
def barReady (acc : List Nat) (src : Bool) (s : State) : Bool :=
  readyWith (if src then { cls := .memory, acc := accBar acc, srcs := [baseOpnd 96, { f := 98 }], bad := fun _ => !isS 96 || !isSZ 98 }
    else { cls := .memory, acc := accBar acc, dst := some { f := 3 }, srcs := [baseOpnd 96], bad := fun _ => !isS 96 }) t0 s
    fun fr s => fr.g.loads.isEmpty && decide ((fr.ea 0 96 0).toNat % 16 = 0) && isWindow (fr.ea 0 96 0).toNat && locates s fr .load .groupStore (fr.ea 0 96 0) 16

/-- BarrierInstructionsComplete: each instruction with the values at the ends of its range, and each overflow. -/
theorem wit_barriers :
    allTrue ([1, 65535].map (fun v => barReady [0, 2] true (stBar v bar0) && after (.barinit 98 96 t0) (stBar v bar0) fun u => (u.barrierAt lSram.place).expect == v) ++
      [0, 65536].map (fun v => trapsWith (.barinit 98 96 t0) (stBar v bar0) .barrierOverflow) ++
      [after (.barexp 98 96 t0) (stBar (2 ^ 31 - 1) bar0) (fun u => (u.barrierAt lSram.place).tx == -(2 ^ 31 - 1)),
       trapsWith (.barexp 98 96 t0) (stBar (2 ^ 31) bar0) .barrierOverflow, trapsWith (.barexp 98 96 t0) (stBar 2 { bar0 with tx := -(2 ^ 31) + 1 }) .barrierOverflow,
       barReady [0, 2, 3] false (stBar 0 bar0), after (.bararv 3 96 t0) (stBar 0 bar0) (fun u => (u.barrierAt lSram.place).pending == 1),
       after (.bararv 3 96 t0) (stBar 0 { bar0 with pending := 1 }) (fun u => (u.barrierAt lSram.place).phase == 1 && (u.barrierAt lSram.place).pending == 2),
       trapsWith (.bararv 3 96 t0) (stBar 0 { bar0 with pending := 0, tx := 5 }) .barrierOverflow,
       barReady [0, 1] true (stBar 1 bar0), after (.barwait 98 96 t0) (stBar 1 bar0) (fun u => (u.groups.find 0).any fun g => g.wait == none && (g.lane 0).pc == 0x1008),
       after (.cbarwait 98 96 t0) (stBar 1 bar0) (fun u => (u.groups.find 0).any fun g => g.wait == none && (g.lane 0).pc == 0x1008),
       barReady [0, 1] false (stBar 0 bar0), after (.bartest 3 96 t0) (stBar 0 bar0) (fun u => (u.groups.find 0).any fun g => (g.lane 0).pc == 0x1008),
       after (.cbararv 3 96 t0) (stBar 0 bar0) (fun u => (u.barrierAt lSram.place).pending == 1),
       after (.cbararv 3 96 t0) { stBar 0 bar0 with groups := (stBar 0 bar0).groups ++ [(1, { placeGroup with num := 1 })] }
         (fun u => (u.barrierAt lSram.place).pending == 2 && (u.team 0).marks.getD 0x40 [] == [0]),
       trapsWith (.cbararv 3 96 t0) (stBar 0 { bar0 with pending := 0, tx := 5 }) .barrierOverflow]) = true := by
  decide +kernel

/-- TeamSynchronizationAndBarrierObjects: a TSYNC, a team that one lane keeps waiting, a team that is released, and an object at its limits. -/
theorem wit_team_sync :
    allTrue [readyWith { cls := .memory } t0 st0 (fun fr s => fr.g.loads.isEmpty && fr.g.fifo.isEmpty && (s.unreleased fr.site.slot fr.g 1 false).isEmpty),
      st0.groups.any (fun g => g.2.alive.any fun l => !(g.2.lane l).tsync), st0.tsyncRelease 0 == st0,
      (withGroup fun g => g.onLanes [0] fun x => { x with tsync := true }).groups.all (fun g => !g.2.alive.isEmpty && g.2.alive.all fun l => (g.2.lane l).tsync),
      ((withGroup fun g => g.onLanes [0] fun x => { x with tsync := true }).tsyncRelease 0).groups.all (fun g => g.2.alive.all fun l => !(g.2.lane l).tsync),
      (st0.setBarrier lSram.place ⟨2 ^ 32 - 1, 2 ^ 16 - 1, 2 ^ 16 - 1, -(2 ^ 31), true, 2 ^ 31 - 1⟩).barrierAt lSram.place ==
        ⟨2 ^ 32 - 1, 2 ^ 16 - 1, 2 ^ 16 - 1, -(2 ^ 31), true, 2 ^ 31 - 1⟩] = true := by
  decide +kernel

/-- Stream records in host memory, whose address S0 and S1 hold; S2 holds a mask. -/
def stStream (recs : List (List (BitVec 8))) (mask : Nat) : State :=
  withS [0x1140, 0, mask] { st0 with mem := writeCells st0.mem (Place.host 0x1140).key recs.flatten }

/-- StreamInstructionsComplete: one record and eight, a bad one, a queue named twice, a misaligned address; masks of known and unknown streams. -/
theorem wit_streams :
    allTrue [ready { cls := .memory, acc := { ext := true }, srcs := [baseOpnd 96], bad := fun _ => !isS 96 || (8 : BitVec 4) == 0 || decide (8 < (8 : BitVec 4).toNat) },
      ready { cls := .memory, srcs := [{ f := 98 }], bad := fun _ => !isSZ 98 },
      after (.aqload 1 96 t0) (stStream [rec64 3 4] 0) (fun u => (u.groups.find 0).any fun g => g.streams.find 0 == some (stream0 3)),
      after (.aqload 8 96 t0) (stStream [rec64 0 4] 0) (fun u => (u.groups.find 0).any fun g => g.streams.length == 1),
      trapsWith (.aqload 2 96 t0) (stStream [rec64 3 4, rec64 0 5] 0) .illegalField, trapsWith (.aqload 2 96 t0) (stStream [rec64 3 4, rec64 3 4] 0) .illegalField,
      trapsWith (.aqload 1 96 t0) (withS [0x1144, 0]) .align,
      after (.aqstart 98 t0) (withGroup (fun g => { g with streams := [(7, stream0 2)] }) (stStream [] 0x80))
        (fun u => (u.groups.find 0).any fun g => (g.streams.find 7).any Stream.running),
      trapsWith (.aqstart 98 t0) (stStream [] 0x80) .illegalField,
      after (.aqstop 98 t0) (withGroup (fun g => { g with streams := [(7, { stream0 2 with running := true })] }) (stStream [] 0x80))
        (fun u => (u.groups.find 0).any fun g => !(g.streams.find 7).any Stream.running),
      after (.qflush 98 t0) (withGroup (fun g => { g with queues := [(5, [[]])] }) (stStream [] 0x20)) (fun u => (u.groups.find 0).any fun g => g.queues.isEmpty)] = true := by
  decide +kernel

/-- ItemQueueInstructionsComplete: room, a range queue, no queue; an item for the lane, and none. -/
theorem wit_item_queues :
    allTrue [ready { cls := .memory, acc := { index := true }, srcs := [{ f := 1, tan := false }] },
      ready { cls := .scalar, dst := some { f := 3 }, reads := [.p 1], writes := [.p 1], rule := .vOnly, bad := fun _ => (1 : BitVec 3) == 0 },
      after (.itempush 0 1 t0) (stItems (some ⟨0, [5], 6, false, 0, false, []⟩)) (fun u => (u.itemQueue 0 0).any fun q => q.items == [5, 7]),
      trapsWith (.itempush 0 1 t0) (stItems (some ⟨0, [5], 6, true, 0, false, []⟩)) .itemQueue, trapsWith (.itempush 0 1 t0) (stItems none) .itemQueue,
      after (.refill 3 1 0 4 t0) (stItems (some ⟨0, [5], 6, false, 0, false, []⟩))
        (fun u => (u.itemQueue 0 0).any (fun q => q.items.isEmpty) && (u.groups.find 0).any fun g => (g.lane 0).v.get 24 == 5),
      after (.refill 3 1 0 4 t0) (stItems (some ⟨0, [], 6, false, 0, false, []⟩)) (fun u => (u.groups.find 0).any fun g => (g.lane 0).pc == 0x1014),
      trapsWith (.refill 3 1 0 4 t0) (stItems none) .itemQueue] = true := by
  decide +kernel

/-! ## Matrix and copy -/

/-- A quad of words. -/
def quad (ws : List Nat) : BitVec 128 := BitVec.ofNat 128 (ofWords (ws.map (BitVec.ofNat 32)))

/-- A map at an offset of the window: type, role of B, panel stride. -/
def mapAt (off ty : Nat) (b : Bool) (ps : Nat) : BitVec 128 :=
  quad [off, 0x00F00000, ps, 2 ^ 16 * ty + (if b then 2 ^ 18 else 0)]

/-- Maps 0 and 1 of type `ty`, and bitmaps 2 and 3. -/
def maps0 (ty : Nat) : Table (BitVec 128) :=
  [(0, mapAt 0 ty false 0x1000), (1, mapAt 0x2000 ty true 0x1000), (2, mapAt 0x4000 3 false 256), (3, mapAt 0x5000 3 false 256)]

/-- A descriptor: ACC, INIT, SAT, SP, STEPS, BAR. -/
def desc (acc : Nat) (init satu sp : Bool) (steps bar : Nat) : List Nat :=
  [acc + 2 ^ 10 + (if init then 2 ^ 22 else 0) + (if satu then 2 ^ 23 else 0) + (if sp then 2 ^ 24 + 2 * 2 ^ 14 + 3 * 2 ^ 18 else 0), steps, bar, 0]

/-- A descriptor in S0 to S3, the team's maps set. -/
def stMat (ty : Nat) (d : List Nat) : State := withTeam (fun t => { t with maps := maps0 ty }) (withS d)

/-- The conditions on a descriptor and its maps in `MatrixInstructionsComplete`. -/
def fitsOp (sp : Option Bool) (fr : Issue) (s : State) : Bool :=
  let q := fr.quadOf 96
  let tm := s.team fr.g.team
  let maps := (opMaps q).map fun k => tm.maps.getD k 0
  let a := maps.getD 0 0
  let b := maps.getD 1 0
  let wide (mp : BitVec 128) (isB : Bool) : Bool := decide (mapRstride mp = 0 ∨ (opSparse q = false ∧ denseRow isB (mapType mp) ≤ mapRstride mp))
  decide (quadField q 25 7 = 0 ∧ quadField q 48 16 = 0 ∧ quadField q 96 32 = 0 ∧ (opSparse q = true ∨ quadField q 14 8 = 0) ∧
    1 ≤ opSteps q ∧ opSteps q ≤ 1024 ∧ opAcc q < (s.gridOf fr.g.team).accn ∧
    (∀ k ∈ opMaps q, k < (s.gridOf fr.g.team).omn ∧ (tm.maps.find k).isSome = true) ∧ mapType a = mapType b ∧ mapType a ≠ 3 ∧
    (opSat q = true → mapType a = 2) ∧ (opInit q = true ∨ (opAcc q ∈ s.tagsMet fr.g.team ↔ mapType a = 2)) ∧
    (s.core (slotCore fr.site.slot)).mq.length < 32) &&
  ((maps.drop 2).all fun mp => mapType mp == 3) && sp.all (· == opSparse q) && !mapRole a && mapRole b && wide a false && wide b true &&
  (decide (opBar q = noBarrier) || (decide (opBar q % 16 = 0) && (s.window fr.g.team (barAddr (opBar q)) 16).isSome)) &&
  (match s.operandsOk fr.g.team q maps with | .ok _ => true | .error _ => false) &&
  decide (mapType a = 2 ∨ (s.gridOf fr.g.team).tangents = 0 ∨ (s.gridOf fr.g.team).tstride ≠ 0)

/-- The conditions on an address quad, and room. -/
def quadOk (floats : Bool) (fr : Issue) (s : State) : Bool :=
  let q := fr.quadOf 96
  let g := s.gridOf fr.g.team
  decide ((quadField q 64 32 = 0 ∨ 256 ≤ quadField q 64 32) ∧ quadField q 0 64 % 16 = 0 ∧ quadField q 64 32 % 16 = 0 ∧
    (s.core (slotCore fr.site.slot)).mq.length < 32 ∧ (floats = false ∨ g.tangents = 0 ∨ g.tstride ≠ 0)) &&
  decide (quadField q 96 32 = noBarrier) && (List.range 64).all fun r => s.spanOk fr.g.team (tileRow q g.tstride r 0) 256

/-- The kinds in core 0's matrix queue. -/
def queued (u : State) (k : MatKind) : Bool := (u.core 0).mq.map MatrixOp.kind == [k]

/-- MatrixInstructionsComplete: dense, sparse and INT8 operations at the ends of their ranges, each accumulator instruction, a FAILED team, and a muster
signed in part and in full. -/
theorem wit_matrix :
    allTrue [readyWith { cls := .matrix, srcs := [runOpnd 96 4], bad := fun _ => badRunAt 4 96 } t0 (stMat 0 (desc 0 true false false 1 (2 ^ 32 - 1)))
        (fitsOp (some false)),
      readyWith { cls := .matrix, srcs := [runOpnd 96 4], bad := fun _ => badRunAt 4 96 } t0
        (withTeam (fun t => { t with s32 := [63] }) (stMat 2 (desc 63 false true false 2 0x8000))) (fitsOp (some false)),
      readyWith { cls := .matrix, srcs := [runOpnd 96 4], bad := fun _ => badRunAt 4 96 } t0 (stMat 1 (desc 0 true false true 1 (2 ^ 32 - 1)))
        (fitsOp (some true)),
      after (.mma 96 t0) (stMat 0 (desc 0 true false false 1 (2 ^ 32 - 1))) (queued · .mm),
      after (.mma 96 t0) (withTeam (fun t => { t with mfailed := some ⟨.matrixShape, none, 0, false⟩ }) (stMat 0 (desc 0 true false false 1 (2 ^ 32 - 1))))
        (fun u => (u.core 0).mq.isEmpty && (u.groups.find 0).any fun g => g.mkept.length == 1),
      after (.mmas 96 t0) (stMat 1 (desc 0 true false true 1 (2 ^ 32 - 1))) (queued · .mm),
      readyWith { cls := .matrix } t0 st0 (fun fr s => decide (63 < (s.gridOf fr.g.team).accn) && (s.core 0).mq.isEmpty),
      after (.mmz 1 63 t0) st0 (queued · (.mmz 63 true)),
      readyWith { cls := .matrix, srcs := [runOpnd 96 4], bad := fun _ => badRunAt 4 96 } t0 (withS [0, 0x00F00000, 0, 2 ^ 32 - 1]) (quadOk true),
      after (.accld 0 0 96 t0) (withS [0, 0x00F00000, 0, 2 ^ 32 - 1]) (queued · (.accld 0 false)),
      readyWith { cls := .matrix, srcs := [runOpnd 96 4], bad := fun _ => badRunAt 4 96 } t0 (withS [0, 0x00F00000, 256, 2 ^ 32 - 1]) (quadOk true),
      after (.accst 63 96 t0) (withS [0, 0x00F00000, 256, 2 ^ 32 - 1]) (queued · (.accst 63)),
      after (.accmv 63 0 t0) st0 (queued · (.accmv 63 0)), after (.accadd 0 63 62 t0) st0 (queued · (.accadd 63 62 false)),
      after (.accadd 1 63 62 t0) (withTeam (fun t => { t with s32 := [62, 63] }) st0) (queued · (.accadd 63 62 true)),
      readyWith { cls := .matrix, srcs := [runOpnd 96 4], bad := fun _ => badRunAt 4 96 } t0
        (withTeam (fun t => { t with musters := [(15, ⟨1, 0, 0, [], 0, []⟩)] }) (stMat 0 (desc 0 true false false 1 (2 ^ 32 - 1))))
        (fun fr s => fitsOp none fr s && decide (15 < (s.gridOf fr.g.team).musn)),
      after (.msign 15 96 t0) (withTeam (fun t => { t with musters := [(15, ⟨1, 0, 0, [], 0, []⟩)] }) (stMat 0 (desc 0 true false false 1 (2 ^ 32 - 1))))
        (queued · .mm),
      after (.msign 15 96 t0) (withTeam (fun t => { t with musters := [(15, ⟨3, 0, 0, [], 0, []⟩)] }) (stMat 0 (desc 0 true false false 1 (2 ^ 32 - 1))))
        (fun u => (u.core 0).mq.isEmpty && ((u.team 0).musters.getD 15 Muster.none).signed == 1)] = true := by
  decide +kernel

/-- A kept cause. -/
def kept0 (c : Cause) : Kept := ⟨c, some 0x40, 0x1234, false⟩

/-- MatrixStateInstructionsComplete: OMSET, MSTCFG, MMWAIT and MMSTAT, and the exceptions of each. -/
theorem wit_matrix_state :
    allTrue [after (.omset 15 96 t0) (withS [0, 0x00F00000, 0x1000, 0]) (fun u => (u.team 0).maps.find 15 == some (mapAt 0 0 false 0x1000)),
      trapsWith (.omset 15 96 t0) (withS [8, 0x00F00000, 0x1000, 0]) .matrixShape, trapsWith (.omset 0 96 t0) (withS [0, 0, 0, 2 ^ 16 * 3 + 16]) .matrixShape,
      trapsWith (.omset 15 96 t0) (withRecord 32 (toBytes 8 (64 + 15 * 2 ^ 7)) (withS [0, 0x00F00000, 0x1000, 0])) .matrixShape,
      readyWith { cls := .matrix, srcs := [{ f := 96, tan := false }], bad := fun _ => !isSZ 96 } t0 (withS [1])
        (fun fr s => decide (15 < (s.gridOf fr.g.team).musn) && decide (1 < 2 ^ s.teamGroups fr.g.team)),
      after (.mstcfg 15 96 t0) (withS [1]) (fun u => ((u.team 0).musters.getD 15 Muster.none).mask == 1),
      trapsWith (.mstcfg 15 96 t0) (withS [2]) .musterMismatch,
      trapsWith (.mstcfg 0 96 t0) (withTeam (fun t => { t with musters := [(0, ⟨3, 1, 0, [], 0, []⟩)] }) (withS [1])) .musterMismatch,
      readyWith { cls := .matrix } t0 st0 (fun fr s => decide (s.matrixCount fr.g = 0) && fr.g.mkept.isEmpty),
      after (.mmwait t0) st0 (fun u => (u.groups.find 0).any fun g => g.wait.isNone && (g.lane 0).pc == 0x1008),
      trapsWith (.mmwait t0) (withGroup fun g => { g with mkept := [kept0 .matrixFormat] }) .matrixFormat,
      ready { cls := .matrix, dst := some { f := 98, width := 2 }, rule := .anyS, bad := fun _ => !isS 98 && !isV 98 },
      ready { cls := .matrix, dst := some { f := 4, width := 2 }, rule := .anyS, bad := fun _ => !isS 4 && !isV 4 },
      after (.mmstat 98 1 t0) (withTeam (fun t => { t with mflags := 0x1F }) st0)
        (fun u => (u.team 0).mflags == 0 && (u.groups.find 0).any fun g => g.s.get 2 == 0x1F)] = true := by
  decide +kernel

/-- A descriptor octet in S0 to S7: source, destination, columns, rows, words 5 to 7; a source buffer that is FULL and a destination buffer that is EMPTY. -/
def stCopy (src dst cols rows w5 w6 bar : Nat) : State :=
  withTeam (fun t => { t with bufs := [(0, ⟨0, 256, .full, 0, 0⟩), (63, ⟨0x8000, 0x8000, .empty, 0, 0⟩)], fmts := Regs.set (Regs.set [] 31 0x148) 0 0x148 })
    (withS [src % 2 ^ 32, src / 2 ^ 32, dst % 2 ^ 32, dst / 2 ^ 32, cols + 2 ^ 16 * rows, w5, w6, bar])

/-- A window address. -/
def win (off : Nat) : Nat := sramBase + off

/-- A package with an endpoint of the context. -/
def withEp (s : State) : State := { s with endpoints := [(3, ⟨true, 1, 0, 15, 1, 0, true, true, true, 0, 0⟩)] }

/-- The hypotheses of CopyInstructionsComplete: the form issues, the channel has room, the shape, endpoint, alignment, window and buffer checks pass. -/
def copyOk (kind : CopyKind) (c : Nat) (ctl : Nat) (s : State) : Bool :=
  readyWith (copyForm kind c 96) (tE ctl) s fun fr s =>
    let d := fr.sregs 96 8
    let w := fr.mods.ext.getD 0
    let gr := s.gridOf fr.g.team
    let fmt := (s.team fr.g.team).fmts.get (ctlField w 0 5)
    let g := geoOf kind d w fmt
    decide (c < gr.chn) && decide (((s.team fr.g.team).chan c).queue.length < 8) && !((s.team fr.g.team).chan c).failed && decide ((d.getD 1 0).extractLsb' 24 8 = 0) &&
    decide ((d.getD 3 0).extractLsb' 24 8 = 0) && (kind != .fill || decide (d.getD 5 0 = 0)) &&
    ((kind != .cpyt && kind != .cpyo) || (pairOk (kind == .cpyo) g.st g.ct && decide (ctlField w 5 3 = 0 ∨ ctlField w 0 5 = 0) &&
      (g.st != 0 || (decide (ctlField w 0 5 < gr.fmtn) && decide (fmt ≠ 0) && !((Narrow.of fmt).bsm && (if kind = .cpyt then g.cols else g.dcols) % 16 != 0))))) &&
    (match checkShape kind w g with | .ok _ => true | .error _ => false) && (match s.checkEndpoint fr kind with | .ok _ => true | .error _ => false) &&
    (match s.checkCopy fr kind w g with | .ok _ => true | .error _ => false) && (match s.copyBufs fr kind g with | .ok _ => true | .error _ => false) &&
    decide (g.tan = false ∨ gr.tangents = 0 ∨ gr.tstride ≠ 0)

/-- The channel has accepted one command, and its buffers have changed. -/
def accepted (kind : CopyKind) (c : Nat) (src dst : Bool) (u : State) : Bool :=
  ((u.team 0).chan c).queue.map CopyCmd.kind == [kind] && ((u.team 0).bufs.find 0).any (fun b => (b.state == .draining) == src) &&
  ((u.team 0).bufs.find 63).any fun b => (b.state == .filling) == dst

/-- CopyInstructionsComplete: each command, with buffers, with a latched format, and with an endpoint. -/
theorem wit_copies :
    allTrue [copyOk .cpy 15 0x8000 (stCopy (win 0) (win 0x8000) 4 2 0 0 (2 ^ 32 - 1)),
      after (.cpy 15 96 (tE 0x8000)) (stCopy (win 0) (win 0x8000) 4 2 0 0 (2 ^ 32 - 1)) (accepted .cpy 15 true true),
      copyOk .cpyt 0 0x180 (stCopy (win 0) (win 0x8000) 4 2 0 0 0x7000), copyOk .cpyt 0 0x1F (stCopy (win 0) 0x10000 16 1 0 0 (2 ^ 32 - 1)),
      after (.cpyt 0 96 (tE 0x1F)) (stCopy (win 0) 0x10000 16 1 0 0 (2 ^ 32 - 1)) (accepted .cpyt 0 true false),
      copyOk .cpyo 0 0x180 (stCopy (win 0) (win 0x8000) 4 2 0 0 (2 ^ 32 - 1)),
      after (.cpyo 0 96 (tE 0x180)) (stCopy (win 0) (win 0x8000) 4 2 0 0 (2 ^ 32 - 1)) (accepted .cpyo 0 true true),
      copyOk .cpyg 0 0x8000 (stCopy 0x10000 (win 0x8000) 4 2 0x4000 0 (2 ^ 32 - 1)),
      after (.cpyg 0 96 (tE 0x8000)) (stCopy 0x10000 (win 0x8000) 4 2 0x4000 0 (2 ^ 32 - 1)) (accepted .cpyg 0 false true),
      copyOk .cpys 0 0x8000 (stCopy (win 0) 0x10000 4 2 0 0x4000 (2 ^ 32 - 1)),
      after (.cpys 0 96 (tE 0x8000)) (stCopy (win 0) 0x10000 4 2 0 0x4000 (2 ^ 32 - 1)) (accepted .cpys 0 true false),
      copyOk .fill 0 0x8000 (stCopy 7 (win 0x8000) 4 2 0 0 (2 ^ 32 - 1)),
      after (.cpyfill 0 96 (tE 0x8000)) (stCopy 7 (win 0x8000) 4 2 0 0 (2 ^ 32 - 1)) (accepted .fill 0 false true),
      copyOk .mcast 0 0x18000 (stCopy (win 0) (win 0x8000) 4 2 0 0 (2 ^ 32 - 1)),
      after (.cmcast 0 96 (tE 0x18000)) (stCopy (win 0) (win 0x8000) 4 2 0 0 (2 ^ 32 - 1)) (accepted .mcast 0 true false),
      copyOk (.peer true 15) 0 0x1F8000 (withEp (stCopy 0x40 (win 0x8000) 4 2 0 0 (2 ^ 32 - 1))),
      after (.cpyp 0 96 (tE 0x1F8000)) (withEp (stCopy 0x40 (win 0x8000) 4 2 0 0 (2 ^ 32 - 1))) (accepted (.peer true 3) 0 false true)] = true := by
  decide +kernel

/-- A channel with a state. -/
def withChan (c : Nat) (x : Channel) (s : State) : State := withTeam (fun t => { t with chans := [(c, x)] }) s

/-- ChannelInstructionsComplete: a signal, an idle channel and one that keeps a cause, its state, a format register, and each refusal. -/
theorem wit_channels :
    allTrue [ready { cls := .copy, first := fun s slot g => s.chanFree slot g 15, acc := { needExt := true }, srcs := [runOpnd 96 4], bad := fun m => badRunAt 4 96 || (m.ext.getD 0 &&& ~~~(0x3F : BitVec 28)) != 0 || (m.ext.getD 0).getLsbD 1 } (tE 0x3D),
      after (.psig 15 96 (tE 0x3D)) (withEp (withS [0x40, 0, 5, 0])) (fun u => ((u.team 0).chan 15).queue.map CopyCmd.kind == [.sig 1 3]),
      ready { cls := .copy, srcs := [{ f := 126, tan := false }], bad := fun _ => !isSZ 126 }, st0.channelMet 0 15 none,
      after (.chwait 15 126 t0) st0 (fun u => (u.groups.find 0).any fun g => g.wait.isNone && (g.lane 0).pc == 0x1008),
      trapsWith (.chwait 15 126 t0) (withChan 15 { Channel.idle with kept := some (kept0 .copyBounds), failed := true } st0) .copyBounds,
      trapsWith (.chwait 15 126 t0) (withRecord 32 (toBytes 8 0) st0) .copyChannelState,
      ready { cls := .copy, dst := some { f := 98, width := 2 }, rule := .anyS, bad := fun _ => !isS 98 && !isV 98 },
      after (.chstat 98 1 15 t0) (withChan 15 { Channel.idle with flags := 0x11 } st0) (fun u => ((u.team 0).chan 15).flags == 0 && (u.groups.find 0).any fun g => g.s.get 2 == 64 * 0x11),
      trapsWith (.chstat 4 0 15 t0) (withRecord 32 (toBytes 8 0) st0) .copyChannelState,
      ready { cls := .copy, srcs := [runOpnd 96 2], bad := fun _ => badRunAt 2 96 }, Narrow.valid 0x148, !Narrow.valid 0,
      after (.fmtset 31 96 t0) (withS [0x148, 0]) (fun u => (u.team 0).fmts.get 31 == 0x148), trapsWith (.fmtset 31 96 t0) (withS [0, 0]) .copyFormat,
      trapsWith (.fmtset 31 96 t0) (withRecord 32 (toBytes 8 (31 * 2 ^ 22)) (withS [0x148, 0])) .copyFormat,
      after (.fmtget 98 31 t0) (withTeam (fun t => { t with fmts := [(31, 0x148)] }) st0) (fun u => (u.groups.find 0).any fun g => g.s.get 2 == 0x148),
      trapsWith (.fmtget 98 31 t0) (withRecord 32 (toBytes 8 (31 * 2 ^ 22)) st0) .copyFormat] = true := by
  decide +kernel

/-! ## Near-bank units, dies and traps -/

/-- A CC frame at address 0: 32 granules of a device buffer whose profile is stack-local. -/
def withCC (s : State) : State := { s with
  vdevs := s.vdevs.modify 1 fun d => { d with s2 := (List.range 32).map fun n => (n, ⟨true, true, true, true, 0, n, 5⟩) }
  bufs := [(0, ⟨true, true, 0, 1, 0, 1, 0⟩)], profs := [(0, ⟨8, 4, 0xFFFFFFFF, 0⟩)]
  dies := s.dies.put 0 { s.die 0 with tlc := [⟨1, 0, 0, 0, 0x200000, 0, 0x37, 2, true, .leaf true true true true 0 0, false, false⟩] } }

/-- An octet in S0 to S7: X, Y, Z, word 6, word 7. -/
def stNb (x y z w6 w7 : Nat) : State := withCC (withS [x, 0, y, 0, z, 0, w6, w7])

/-- An octet for each function: sixteen BF16 elements in one bank pair. -/
def octet0 (fn : Nat) (p : Nat) : State :=
  let z := if fn = 5 then 1024 * p + 98 else 1024 * p + 64
  stNb (if fn = 8 then 0 else 1024 * p) (if fn = 1 ∨ fn = 6 ∨ fn = 7 ∨ fn = 8 then 0 else 1024 * p + 32) z (2 ^ 20 + (if fn = 5 then 0 else 15)) 0

/-- The hypotheses on a command. -/
def nbOk (fn : Nat) (s : State) : Bool :=
  readyWith { cls := .near, srcs := [{ f := 126, tan := false }, runOpnd 96 8], bad := fun _ => badRunAt 8 96 || !isSZ 126 } t0 s fun fr s =>
    let c := nbOf fr (s.owner fr.g) 0 fn (fr.sregs 96 8) noBarrier
    !c.badOctet && (!c.single || decide (c.addr 2 % c.os = 0)) && !c.crosses && !c.badLayout && decide (s.nbHeld fr.site.slot fr.g < 8) &&
    c.uses.all fun k => match s.ccLoc fr.site.slot fr.g (if k = 2 then .store else .load) (BitVec.ofNat 64 (c.addr k)) with
      | .ok l => l.dram.1 == 2
      | .error _ => false

/-- NearBankInstructionsComplete: every command in the last bank pair, each bad octet, lanes in the frame, and both sides of NBFENCE. -/
theorem wit_near_bank :
    allTrue ((List.range 9).map (fun n => nbOk n (octet0 n 2047)) ++
      [(.nbaxpy 126 96 t0 : Instr), .nbscal 126 96 t0, .nbadd 126 96 t0, .nbmul 126 96 t0, .nbdot 126 96 t0, .nbgemv 126 96 t0, .nbcopy 126 96 t0, .nbred 126 96 t0,
        .nbfill 126 96 t0].mapIdx (fun n i => after i (octet0 n 2047) (fun u => u.nb.map NbCmd.fn == [n]) &&
          trapsWith i (stNb 0 0 0 0 0) .illegalField &&
          trapsWith i (stNb (if n = 8 then 0 else 2047 * 1024) (if n = 1 ∨ n = 6 ∨ n = 7 ∨ n = 8 then 0 else 2047 * 1024) (2047 * 1024) (2 ^ 20 + 16) 0) .nbCross) ++
      [ready { cls := .near, acc := { ext := true }, dst := some { f := 3 }, srcs := [baseOpnd 96], bad := fun _ => badBase 96 } t0 (withCC (withS [0x1FFFFC, 0])),
       after (.nbld 3 96 t0) (withCC (withS [0x1FFFFC, 0])) (fun u => u.nb.map NbCmd.fn == [9] && (u.groups.find 0).any fun g => g.loads.length == 1),
       after (.nbst 3 96 t0) (withCC (withS [0x1FFFFC, 0])) (fun u => u.nb.map NbCmd.fn == [10]),
       ready { cls := .near, acc := { needOrder := true, flavs := [1, 2, 3], bank := true }, srcs := [{ f := 98, tan := false }, baseOpnd 96], bad := fun _ => !isS 96 || !isSZ 98 } (tO 1 7)
         (withCC (withS [2047 * 1024, 0, 1])),
       after (.nbfence 98 96 (tO 2 7)) (withCC (withS [2047 * 1024, 0, 1])) (fun u => (u.groups.find 0).any fun g => g.wait.isNone && (g.lane 0).pc == 0x100C),
       after (.nbfence 126 96 (tO 1 7)) { withCC (withS [0, 0, 0]) with drains := [⟨0, 0, 2, 0, 2048, some [], false⟩] }
         (fun u => u.drains.isEmpty && (u.groups.find 0).any fun g => (g.lane 0).pc == 0x100C),
       trapsWith (.nbfence 98 96 (tO 2 7)) (withCC (withS [2047 * 1024, 0, 2])) .nbCross, trapsWith (.nbfence 98 96 (tO 2 7)) (withCC (withS [0, 0, 0])) .nbCross]) = true := by
  decide +kernel

/-- A profile: every core, one pool entry and one range slot on each die, key slots 16,382 and 16,383, four queues and eight interrupt vectors. -/
def prof0 : Nat := 2 ^ 64 * (2 ^ 64 - 1) + 2 ^ 21 * 4 + 2 ^ 256 * (16382 + 2 * 2 ^ 14 + 8 * 2 ^ 45) + 2 ^ 320 * (1 + 2 ^ 16 + 2 ^ 32 + 2 ^ 48)

/-- Virtual device 1 with that profile. -/
def withProf (s : State) : State := { s with vdevs := s.vdevs.modify 1 fun d => { d with profile := BitVec.ofNat 1024 prof0 } }

/-- S0 to S7, the profile, and a grid record at 0x1100. -/
def stDie (xs : List Nat) (rec : List (BitVec 8)) : State :=
  withProf (withS xs { st0 with mem := writeCells st0.mem (Place.host 0x1100).key rec })

/-- The state goes on: the group's lane stands after the word. -/
def goes (n : Nat) (p : State → Group → Bool) (u : State) : Bool := (u.groups.find 0).any fun g => g.wait.isNone && (g.lane 0).pc == BitVec.ofNat 56 n && p u g

/-- DieInstructionsComplete: the slots of both dies, the values at their ends and beyond them, a record that is entered and three that are refused, the threshold
of JOIN, and every selector of LSTAT. -/
theorem wit_die :
    allTrue [after (.rnginit 104 96 t0) (stDie [2 ^ 32 - 65535, 65535, 1, 65535, 0, 0, 0, 0, 1] []) (fun u => (u.die 1).ranges.find 257 == some (2 ^ 32 - 65535, 65535, 1, 65535)),
      after (.rnginit 126 96 t0) (stDie [0, 0, 65535, 1] []) (fun u => (u.die 0).ranges.find 256 == some (0, 0, 65535, 1)),
      trapsWith (.rnginit 104 96 t0) (stDie [0, 0, 1, 1, 0, 0, 0, 0, 2] []) .rangeSlot, trapsWith (.rnginit 126 96 t0) (stDie [0, 0, 0, 1] []) .rangeSlot,
      trapsWith (.rnginit 126 96 t0) (stDie [1, 2 ^ 32 - 1, 1, 65536] []) .rangeSlot,
      after (.grab 98 126 t0) ((stDie [] []).setDie 0 { (stDie [] []).die 0 with ranges := [(256, 7, 100, 8, 4)] })
        (goes 0x1008 fun u g => g.s.get 2 == 7 && g.s.get 3 == 13 && (u.die 0).ranges.find 256 == some (20, 87, 8, 4)),
      trapsWith (.grab 98 104 t0) (stDie [0, 0, 0, 0, 0, 0, 0, 0, 2] []) .rangeSlot,
      ready { cls := .system, acc := accSys true, dst := some { f := 98 }, srcs := [baseOpnd 96], rule := .anyS, bad := fun _ => !isSZ 98 || !isS 96 } t0
        (stDie [0x1100, 0] placeRecord),
      after (.launch 98 96 t0) (stDie [0x1100, 0] placeRecord) (goes 0x1008 fun u g => g.s.get 2 == 1 && (u.die 0).pool.length == 1 && (u.team 0).jcnt == 1),
      trapsWith (.launch 98 96 t0) (stDie [0x1104, 0] placeRecord) .align, trapsWith (.launch 98 96 t0) (stDie [0x1100, 0] []) .illegalField,
      trapsWith (.launch 98 96 t0) (withTeam (fun t => { t with jcnt := 65535 }) (stDie [0x1100, 0] placeRecord)) .launchPoolFull,
      ready { cls := .system, acc := accSys false, srcs := [{ f := 96, tan := false }], bad := fun _ => !isSZ 96 } t0 (stDie [65535] []),
      after (.join 96 t0) (withTeam (fun t => { t with jcnt := 65535 }) (stDie [65535] [])) (goes 0x1008 fun _ _ => true),
      after (.join 96 t0) (withGroup (fun g => { g with joinMet := some 3 }) (withTeam (fun t => { t with jcnt := 9 }) (stDie [3] []))) (goes 0x1008 fun _ g => g.joinMet == none),
      trapsWith (.join 96 t0) (stDie [65536] []) .joinInvalid, trapsWith (.join 126 t0) (withTeam (fun t => { t with childBad := [0x40] }) (stDie [] [])) .joinInvalid,
      after (.lstat 98 126 t0) (withTeam (fun t => { t with jcnt := 9 }) (stDie [] [])) (goes 0x1008 fun _ g => g.s.get 2 == 9),
      after (.lstat 98 96 t0) (stDie [1] []) (goes 0x1008 fun _ g => g.s.get 2 == 0 && g.s.get 3 == 1),
      after (.lstat 98 96 t0) ((stDie [0x102] []).setDie 1 { (stDie [] []).die 1 with ranges := [(257, 7, 100, 8, 4)] }) (goes 0x1008 fun _ g => g.s.get 2 == 100 && g.s.get 3 == 7),
      after (.lstat 98 96 t0) (withS [3] (stItems (some ⟨0, [5], 6, false, 0, false, []⟩))) (goes 0x1008 fun _ g => g.s.get 2 == 1 && g.s.get 3 == 6),
      after (.lstat 98 96 t0) (stDie [4] []) (goes 0x1008 fun _ _ => true), trapsWith (.lstat 98 96 t0) (stDie [5] []) .illegalField] = true := by
  decide +kernel

/-- The group of `st0` in its handler. -/
def inTrap (tpc : Nat) : State := withGroup fun g => { g with trap := { g.trap with active := true, cause := .align, addrv := true, addr := 0x40, tpc := BitVec.ofNat 64 tpc, set := 1 } }

/-- TrapInstructionsComplete: handlers, returns, each selector, and PROBE of a mapped address, an unmapped one and the window. -/
theorem wit_traps :
    allTrue [ready { cls := .system, srcs := [{ f := 96, width := 2, tan := false }], bad := fun _ => !isSZ 96 } t0 (withS [0xFFFFFFFC, 0x00FFFFFF]),
      after (.sethdlr 96 t0) (withS [0xFFFFFFFC, 0x00FFFFFF]) (fun u => (u.ctx 1 0).hdlr == 0xFFFFFFFFFFFFFC), trapsWith (.sethdlr 96 t0) (withS [2, 0]) .align,
      trapsWith (.sethdlr 96 t0) (withS [0, 0x01000000]) .align,
      after (.trapret 126 t0) (inTrap 0x2000) (fun u => (u.groups.find 0).any fun g => (g.lane 0).pc == 0x2000 && !g.trap.active),
      after (.trapret 96 t0) (withS [0x3000, 0] (inTrap 0x2000)) (fun u => (u.groups.find 0).any fun g => (g.lane 0).pc == 0x3000 && (g.lane 0).clause.isNone),
      trapsWith (.trapret 126 t0) st0 .illegalOpcode,
      ((inTrap 0x2001).groups.find 0).any (fun g => g.trap.active && badCode g.trap.tpc),
      after (.rdcause 98 0 t0) (inTrap 0x2000) (goes 0x1008 fun _ g => g.s.get 2 == 16 + 2 ^ 10 + 2 ^ 13), after (.rdcause 98 1 t0) (inTrap 0x2000) (goes 0x1008 fun _ g => g.s.get 2 == 0x40),
      after (.rdcause 98 2 t0) (inTrap 0x2000) (goes 0x1008 fun _ g => g.s.get 2 == 0x2000), after (.rdcause 4 3 t0) (inTrap 0x2000) (goes 0x1008 fun _ g => (g.lane 0).v.get 32 == 0),
      after (.rdcause 98 4 t0) (inTrap 0x2000) (goes 0x1008 fun _ g => g.s.get 2 == 0),
      after (.probe 98 96 t0) (withS [0x1000, 0]) (goes 0x1008 fun _ g => g.s.get 2 == 2 * 2 ^ 9 + 7 * 2 ^ 11),
      after (.probe 98 96 t0) (withS [0x40, 0x00F00000]) (goes 0x1008 fun _ g => g.s.get 2 == 2 ^ 8),
      after (.probe 98 96 t0) (withS [0, 0x01000000]) (goes 0x1008 fun _ g => g.s.get 2 == BitVec.ofNat 32 Cause.xlateRangeInvalid.code),
      after (.probe 4 2 t0) (withGroup fun g => g.onLanes [0] fun x => { x with v := [(16, 0x1000)] }) (goes 0x1008 fun _ g => (g.lane 0).v.get 32 == 2 * 2 ^ 9 + 7 * 2 ^ 11)] = true := by
  decide +kernel

/-- The pool's two key slots. -/
def stKeys (xs : List Nat) (k : List (Nat × KeySlot)) : State := { stDie xs [] with keys := k }

/-- SequenceInstructionsComplete: a FREE slot and none; an end, its completion, a sequence that has ended, and the two refusals. -/
theorem wit_sequences :
    allTrue [ready { cls := .system, acc := accSys false, dst := some { f := 98, width := 2 }, rule := .anyS, bad := fun _ => notPair 98 },
      ready { cls := .system, acc := accSys false, dst := some { f := 98 }, srcs := [baseOpnd 96], rule := .anyS, bad := fun _ => !isSZ 98 || !isS 96 } t0 (stKeys [16383, 5] []),
      after (.seqnew 98 t0) (stKeys [] [(16382, { KeySlot.reset with state := .live }), (16383, { KeySlot.reset with kgen := 2 ^ 20 - 1 })])
        (goes 0x1008 fun u g => g.s.get 2 == 16383 && g.s.get 3 == 2 ^ 20 - 1 && (u.key 16383).state == .live),
      after (.seqnew 98 t0) (stKeys [] [(16382, { KeySlot.reset with state := .live }), (16383, { KeySlot.reset with state := .retired })])
        (goes 0x1008 fun _ g => g.s.get 2 == 0xFFFFFFFF && g.s.get 3 == 0),
      after (.seqend 98 96 t0) (stKeys [16383, 2 ^ 20 - 1] [(16383, { KeySlot.reset with state := .live, kgen := 2 ^ 20 - 1 })])
        (fun u => (u.key 16383).state == .retired && (u.key 16383).draining == some (2 ^ 20 - 1) && (u.groups.find 0).any fun g => g.wait == some (.seqEnd 16383)),
      after (.seqend 98 96 t0) (stKeys [16383, 5] [(16383, { KeySlot.reset with state := .live, kgen := 5 })]) (fun u => (u.key 16383).state == .free && (u.key 16383).kgen == 6),
      after (.seqend 98 96 t0) (stKeys [16383, 5] [(16383, { KeySlot.reset with kgen := 6, enders := [(0, 0)] })]) (goes 0x1008 fun u g => g.s.get 2 == 1 && (u.key 16383).enders == []),
      after (.seqend 98 96 t0) (stKeys [16383, 5] [(16383, { KeySlot.reset with state := .live, kgen := 4 })]) (goes 0x1008 fun _ g => g.s.get 2 == 0),
      trapsWith (.seqend 98 96 t0) (stKeys [2 ^ 14, 0] []) .illegalField, trapsWith (.seqend 98 96 t0) (stKeys [16383, 2 ^ 20] []) .illegalField,
      trapsWith (.seqend 98 96 t0) (stKeys [16381, 0] []) .keyWorld, trapsWith (.seqend 126 96 t0) (stKeys [16383, 5] [(16383, { KeySlot.reset with state := .live, world := 1, kgen := 5 })]) .keyWorld] = true := by
  decide +kernel

/-! ## Events -/

/-- Instructions and events one after another. -/
def chain : List Instr → State → (State → Bool) → Bool
  | [], s, p => p s
  | i :: is, s, p => after i s (chain is · p)

/-- The state after one word. -/
def next (i : Instr) (s : State) : State := match exec i s with
  | .next u => u
  | _ => s

/-- Sub-core 0 of core 0 has no run. -/
def noRun (s : State) : State := s.setCore 0 { s.core 0 with runs := [] }

/-- A group with a load from host memory under way, from the window, and with a store to each. -/
def ldHost : State := next (.ld 3 96 0 4 t0) stMem
def ldWin : State := next (.ld 3 98 0 4 t0) stMem
def stHost : State := next (.st 3 96 0 4 t0) stMem
def stWin : State := next (.st 3 98 0 4 t0) stMem

/-- The hypotheses of the LOAD_RETURN clause. -/
def returns (s : State) (slot : Nat) : Bool := (s.groups.find slot).any fun g => match g.loads with
  | [ld] => ld.gen == (s.core (slotCore slot)).slotGen.get (slotIn slot) && !g.preempted && !g.stopped && decide (ld.accs.length ≤ ld.locs.length) && !ld.deferred &&
      (g.loads.all fun m => !ld.waitsFor (slotCore slot) m) && (s.ordBefore slot g ld).isNone &&
      (s.draw.2.readHalf slot g ld).isNone && (match s.draw.2.readAccs slot g ld s.draw.1 0 ld.accs with | .ok _ => true | .error _ => false)
  | _ => false

/-- The hypotheses of the STORE_FIFO_PERFORM clause. -/
def performs (s : State) (slot : Nat) (own : Bool) : Bool := (s.groups.find slot).any fun g => match g.fifo with
  | e :: _ => !g.preempted && !g.stopped && e.parked.isNone && (g.loads.all fun l => decide (e.seq ≤ l.seq) || l.fixed) && !releases e.flav &&
      (match s.entryParts slot g e with
        | .ok parts => parts.length == 1 && parts.all fun p => (p.2.2.own (slotCore slot)) == own && !p.2.2.isPeer && p.2.1.data.length == p.2.1.size
        | .error _ => false)
  | [] => false

/-- GroupEventsComplete: a run that begins, loads that return, stores that are performed at once and in flight, and a grab that gives items and that gives
none. -/
theorem wit_group_events :
    allTrue [(noRun st0).winner 0 0 == some 0, ((noRun st0).core 0).runs.isEmpty,
      after (.runBegin 0) (noRun st0) (fun u => ((u.core 0).runs.find 0).any fun r => r.slot == 0 && r.set == 1),
      returns ldHost 0, returns ldWin 0, after (.loadReturn 0 0) ldHost (fun u => (u.groups.find 0).any fun g => g.loads.isEmpty && (g.lane 0).v.get 24 == 0),
      performs stHost 0 false, performs stWin 0 true, after (.storeFifoPerform 0) stWin (fun u => u.flight.isEmpty && (u.groups.find 0).any fun g => g.fifo.isEmpty),
      after (.storeFifoPerform 0) stHost (fun u => u.flight.length == 1 && u.mem == stHost.mem),
      (next (.storeFifoPerform 0) stHost).flight.all (fun f => ((next (.storeFifoPerform 0) stHost).flightBefore f).isNone && !f.inPeer &&
        (match ((next (.storeFifoPerform 0) stHost).landFlight f.id).performParts f.kind f.parts with | .ok _ => true | .error _ => false)),
      chain [.storeFifoPerform 0, .pointOfCoherenceArrival 0] stHost (fun u => u.flight.isEmpty),
      chain [.st 3 98 0 4 t0, .storeFifoPerform 0, .ld 5 98 0 4 t0, .loadReturn 0 0] (withGroup (fun g => g.onLanes [0] fun x => { x with v := [(24, 7)] }) stMem)
        (fun u => (u.groups.find 0).any fun g => (g.lane 0).v.get 40 == 7),
      after (.itemQueueGrab 0 0) (withProf ((stItems (some ⟨0, [5], 6, true, 0, false, []⟩)).setDie 0 { (stItems none).die 0 with ranges := [(256, 7, 100, 8, 4)] }))
        (fun u => (u.itemQueue 0 0).any fun q => q.items.length == 14 && q.items.getLast? == some 19 && !q.dry),
      after (.itemQueueGrab 0 0) (withProf (stItems (some ⟨0, [5], 6, true, 0, false, []⟩))) (fun u => (u.itemQueue 0 0).any fun q => q.items == [5] && q.dry)] = true := by
  decide +kernel

/-- A running stream of one entry at 0x1100. -/
def stFill : State := withGroup fun g => { g with streams := [(7, { stream0 2 with running := true })] }

/-- `stFill` with its record the one served last. -/
def served (r : Nat) : State := stFill.setCore 0 { stFill.core 0 with sturn := r }

/-- The group of `st0` waits for its trap, whose record core 0 holds; HDLR is set or not, and the ring lies at 0x1100. -/
def stClose (hdlr : Nat) : State :=
  let s := next (.bufset 1 0 t0) st0
  s.setCtx 1 0 { s.ctx 1 0 with hdlr := BitVec.ofNat 56 hdlr, tring := 0x1100, tcount := 0x1200 }

/-- An imprecise cause of a store. -/
def pend0 : Pending := ⟨.align, some 0x41, false, 0x1004, 0x1004, none, 1, 0, 1, 0, 0⟩

/-- StreamAndTrapEventsComplete: an entry that fills, a store's cause that is delivered, a record that closes with a handler and without one. -/
theorem wit_stream_events :
    allTrue [(stFill.groups.find 0).any fun g => (g.streams.find 7).any fun x => x.running && x.parked.isNone && (g.queues.getD x.queue []).isEmpty &&
        (match collect ((served 7).elementLoc 0 g) (x.accs 0 0) with
          | .ok locs => (peerParts (partsOf (x.accs 0 0) locs)).isEmpty &&
              (match (served 7).draw.2.readEntry 0 g (served 7).draw.1 [] (partsOf (x.accs 0 0) locs) with | .ok _ => true | .error _ => false)
          | .error _ => false),
      after (.streamFill 0 7) stFill (fun u => (u.groups.find 0).any fun g => (g.queues.getD 2 []).length == 1 && g.streams.any fun x => x.2.pos == 1),
      st0.boundarySet 0 ((st0.groups.find 0).getD placeGroup) != 0,
      after (.impreciseStoreTrap 0) (withGroup fun g => { g with imprecise := [pend0] }) (fun u => (u.core 0).coal.map CoalRec.cause == [.align] &&
        (u.groups.find 0).any fun g => g.imprecise.isEmpty && g.wait == some .trap),
      ((stClose 0x2000).core 0).coal.all (fun r => r.deliver && !r.exited && r.parked.isNone && (match (stClose 0x2000).writeRecord 0 r with | (_, .ok ()) => true | _ => false)),
      ((stClose 0x2000).core 0).coal.length == 1,
      after (.coalescerClose 0 0) (stClose 0x2000) (fun u => (u.core 0).coal.isEmpty && (u.groups.find 0).any fun g => g.trap.active && g.trap.cause == .bufBounds && (g.lane 0).pc == 0x2000),
      after (.coalescerClose 0 0) (stClose 0) (fun u => (u.core 0).coal.isEmpty && (u.ctx 1 0).state == 2)] = true := by
  decide +kernel

/-- A grid of one team in die 0's pool, whose device holds the slice; its record may name a status block. -/
def stPool (stat : Nat) : State :=
  let s := withProf st0
  { s with grids := [(5, { Grid.gone with record := splice placeRecord 0x38 (toBytes 8 stat), seq := 2, vdev := 1 })], teams := [], groups := [], clusters := [], nextId := 6
           dies := s.dies.modify 0 fun d => { d with pool := [5] }
           cores := [], sets := [(0, ⟨⟨0, 1⟩, some 1, 0⟩)] }

/-- The group's context is pre-empted on core 0. -/
def stHeld : State := next (.preempt 0 1 0) stHost

/-- Every lane of the group has exited. -/
def stExited : State := noRun (withGroup fun g => { g with lanes := [] })

/-- ResidenceEventsComplete: a pre-emption with a store and a load outstanding, the return from it, the change of world over the HELD team and on an empty core, compaction,
and the retirement of the group and of its team. -/
theorem wit_residence :
    allTrue [stHost.flight.isEmpty, (stHost.nbPending (stHost.residentOf (stHost.clustersOn 0 1 0))).isNone, stHost.residentOf (stHost.clustersOn 0 1 0) == [0],
      (stHeld.team 0).held, (stHeld.groups.find 0).any fun g => g.preempted && g.fifo.length == 1 && g.replayTo == g.seq, stHeld.mem == stHost.mem,
      stHeld.clustersOn 0 1 0 == [0], ((stHeld.returnRecords 0 1 0).returnTeam 0).isSome, !(stHeld.team 0).joining, stHeld.isActive 1 0,
      after (.resume 0 1 0) stHeld (fun u => !(u.team 0).held && (u.groups.find 0).any fun g => !g.preempted),
      (stHeld.activeTeams 0).isEmpty, (stHeld.core 0).coal.isEmpty, (stHeld.claimable 0).contains 0, (stHeld.core 0).units.keys.all (decide <| · < 320),
      after (.worldChange 0 3) stHeld (fun u => (u.core 0).world == 3 && (u.core 0).units.isEmpty),
      after (.worldChange 63 63) st0 (fun u => (u.core 63).world == 63 && (u.core 63).l1.isEmpty), (st0.activeTeams 63).isEmpty,
      (stPool 0).compactAt 3 == some 200001, ((stPool 0).core 3).compacting.isEmpty, after (.compactWaitExpiry 3) (stPool 0) (fun u => (u.core 3).compact && u.gtime == 200001),
      (stExited.groups.find 0).any fun g => g.done && stExited.quiet 0 g && !g.preempted && !g.stopped,
      after (.groupRetire 0) stExited (fun u => (u.groups.find 0).isNone && (u.team 0).slots.isEmpty),
      (next (.groupRetire 0) stExited).teamIdle 0, ((next (.groupRetire 0) stExited).teams.find 0).isSome,
      chain [.groupRetire 0, .teamRetire 0] stExited (fun u => (u.teams.find 0).isNone && (u.grids.find 0).any fun g => g.ret0 == 1)] = true := by
  decide +kernel

/-- The same grid with a cluster of four teams. -/
def stPool4 : State :=
  let s := stPool 0
  { s with grids := [(5, { s.grid 5 with record := splice placeRecord 0x10 (toBytes 8 (4 + 2 * 2 ^ 32 + 2 * 2 ^ 36 + 2 ^ 42 + 2 ^ 47)) })] }

/-- The grid after its cluster has been placed. -/
def stPlaced : State := next (.clusterPlace 0) (stPool 0)

/-- Its teams have retired. -/
def stOver (stat : Nat) : State := let s := stPool stat; { s with grids := [(5, { s.grid 5 with nextCluster := 1, ret0 := 1 })] }

/-- PlacementEventsComplete: clusters of one and of four teams, the team's placement, and the end of grids with a status block and without one. -/
theorem wit_placement :
    allTrue [((stPool 0).die 0).pool.map (fun g => ((stPool 0).grid g).vdev) == [1], (stPool 0).nextGrid 0 1 == some 5, (stPool 0).placeFor 5 == some [0],
      stPool4.nextGrid 0 1 == some 5, stPool4.placeFor 5 == some [0, 1, 8, 9],
      after (.clusterPlace 0) (stPool 0) (fun u => (u.grid 5).nextCluster == 1 && u.agenda == [.teamPlace 7] && (u.clusters.find 6).isSome),
      after (.clusterPlace 0) stPool4 (fun u => u.agenda == [.teamPlace 7, .teamPlace 8, .teamPlace 9, .teamPlace 10] && (u.team 10).rank == 3 && (u.team 10).core == 9),
      (stPlaced.teams.find 7).any fun t => !t.placed && stPlaced.isActive 1 0 && stPlaced.holdsSlice 1,
      match stPlaced.readFormats ⟨2 ^ 59 + 7, .core, 0, 1, 0, 0⟩ ((List.range 32).map fun n => 8 * n) with
        | (s, .values _ _) => (match s.takeResources 0 7 5 with | some s₂ => (s.beginSpills s₂ 0 7).isNone | none => false) && s.teams.all fun t => t.1 != 7 || !t.2.placed
        | _ => false,
      after (.teamPlace 7) stPlaced (fun u => (u.team 7).placed && (u.team 7).slots.length == 1 && u.groups.length == 1 && u.groups.all fun g => (g.2.lane 63).pc == 0x1000 && !(g.2.lane 63).exited),
      (stOver 0).gridOver 5 ((stOver 0).grid 5), (stOver 0).isActive 1 0, ((stOver 0).grid 5).statAddr == 0, ((stOver 0x1100).grid 5).statAddr == 0x1100,
      after (.gridComplete 5) (stOver 0) (fun u => (u.grids.find 5).isNone && (u.die 0).pool.isEmpty),
      match (stOver 0x1100).agentWrite ⟨2 ^ 61 + 2 ^ 20 + 5, .packet, 0, 1, 0, 0⟩ 0x1100 ((stOver 0x1100).gridBlock ((stOver 0x1100).grid 5)) with
        | (_, .ok ()) => true
        | _ => false,
      after (.gridComplete 5) (stOver 0x1100) (fun u => (u.grids.find 5).isNone && readCell u.mem ((Place.host 0x1100).key) == 1),
      after (.gridComplete 5) { stOver 0 with grids := [(5, { (stOver 0).grid 5 with parent := some 3, imprecise := 1 })], teams := [(3, { Team.gone with grid := 9, jcnt := 2 })] }
        (fun u => (u.team 3).jcnt == 1 && (u.team 3).childBad == [0])] = true := by
  decide +kernel

/-- A queued operation can run. -/
def runs (s : State) (p : MatrixOp → Bool) : Bool := match (s.core 0).mq with
  | [o] => s.opReady 0 o && p o && (o.finished (s.team 0) 0 || (s.opTurn 0 == some 0 && !(o.readsPlanes 0).any (s.team 0).accMismatch && (s.core 0).assayBad == 0))
  | _ => false

/-- An ACCLD and an ACCST at a row; a dense operation before its first step; an operation that is finished. -/
def atRow (n : Nat) (s : State) : State := s.setCore 0 { s.core 0 with mq := (s.core 0).mq.map fun o => { o with begun := true, step := n } }
def stLd : State := next (.accld 0 0 96 t0) (withS [0, 0x00F00000, 0, 2 ^ 32 - 1])
def stSt : State := next (.accst 63 96 t0) (withS [0, 0x00F00000, 0, 2 ^ 32 - 1])
def stMm : State := atRow 0 (next (.mma 96 t0) (stMat 2 (desc 0 true false false 1 (2 ^ 32 - 1))))
def stDone (bar : Nat) : State :=
  let s := next (.mma 96 t0) (stMat 2 (desc 0 true false false 1 bar))
  (s.setCore 0 { s.core 0 with mq := (s.core 0).mq.map fun o => { o with begun := true, pass := 1, bytes := 8192, spent := 1 } }).setBarrier (.sram 0 0x8000)
    ⟨0, 1, 1, -8192, false, 0⟩

/-- MatrixEventsComplete: each kind of operation before its step, the first and the last rows, and completions with a barrier and without one. -/
theorem wit_matrix_events :
    allTrue [runs (next (.mmz 1 63 t0) st0) (fun o => o.kind == .mmz 63 true && !o.begun), after (.matrixStep 0 0) (next (.mmz 1 63 t0) st0) (fun u => (u.team 0).s32 == [63]),
      runs (next (.accmv 63 0 t0) st0) (fun o => o.kind == .accmv 63 0 && !o.begun), runs (next (.accadd 0 63 62 t0) st0) (fun o => o.kind == .accadd 63 62 false && !o.begun),
      zeroPlane.length == 4096, runs (atRow 62 stLd) (fun o => o.kind == .accld 0 false && o.pass == 0 && o.step + 1 < 64),
      after (.matrixStep 0 0) (atRow 62 stLd) (fun u => (u.core 0).mq.map MatrixOp.step == [63]),
      runs (atRow 63 stSt) (fun o => o.kind == .accst 63 && o.pass == 0 && o.step == 63),
      after (.matrixStep 0 0) (atRow 63 stSt) (fun u => (u.core 0).mq.map MatrixOp.pass == [1]),
      runs stMm (fun o => o.kind == .mm && o.begun && !o.finished (stMm.team 0) 0 && !opSparse o.quad && o.row == 0 &&
        (match stMm.rowsLocs (stMm.agentOf (2 ^ 50) .matrix 0) 0 (some .engineRead) .load (panelRows (o.maps.getD 1 0) true 0 0) with
          | (s, b, none) => (match s.rowsLocs (stMm.agentOf (2 ^ 50) .matrix 0) 0 (some .engineRead) .load (panelRows (o.maps.getD 0 0) false 0 0) with
            | (_, a, none) => b.length == 32 && a.length == 64
            | _ => false)
          | _ => false)),
      runs (stDone (2 ^ 32 - 1)) (fun o => o.finished ((stDone (2 ^ 32 - 1)).team 0) 0 && o.bar == noBarrier), !(stDone 0x8000).agentWaits ((stDone 0x8000).agentOf (2 ^ 50) .matrix 0),
      after (.matrixComplete 0 0) (stDone (2 ^ 32 - 1)) (fun u => (u.core 0).mq.isEmpty && (u.vdev 1).meters.get 1 == 1),
      after (.matrixComplete 0 0) (stDone 0x8000) (fun u => (u.core 0).mq.isEmpty && (u.barrierAt (.sram 0 0x8000)).tx == 0)] = true := by
  decide +kernel

/-- The state after a command has been accepted. -/
def stRow (i : Instr) (s : State) : State := next i s

/-- A copy at its last row: the hypotheses of the row clause. -/
def rowOk (ch : Nat) (refused : Bool) (s : State) : Bool := s.chanTurn 0 == some ch && (s.chanReady 0 ch).any fun c =>
  let w := s.agentOf (chanTag 0 ch) .caster 0
  decide (c.pass < c.geo.passes 0) && match (s.setCore 0 { s.core 0 with cturn := ch }).rowParts w 0 c c.geo 0 with
    | (s₁, _, .ok (parts, _, _, _)) => if refused then (s₁.rowRefused 0 c c.geo parts).any (fun x => x.1.kind == .T)
      else (s₁.rowRefused 0 c c.geo parts).isNone && (match s₁.copyWrite w 0 c parts with | (_, _, none) => true | _ => false)
    | _ => false

/-- The current command has made all its passes. -/
def passed (ch : Nat) (s : State) : State := withTeam (fun t => { t with chans := t.chans.modify ch fun x => { x with queue := x.queue.map fun c => { c with pass := 1, sent := true } } }) s

/-- CopyRowsComplete: a signal that is sent and one that is done, rows in the window and in memory, a destination in a buffer that has come since, and completions with
and without a barrier. -/
theorem wit_copy_rows :
    allTrue [((next (.psig 15 96 (tE 0x3D)) (withEp (withS [0x40, 0, 5, 0]))).chanReady 0 15).any (fun c => c.kind == .sig 1 3 && !c.sent),
      (next (.psig 15 96 (tE 0x3D)) (withEp (withS [0x40, 0, 5, 0]))).chanTurn 0 == some 15,
      chain [.psig 15 96 (tE 0x3D), .copyRow 0 15] (withEp (withS [0x40, 0, 5, 0])) (fun u => u.flight.length == 1),
      after (.copyComplete 0 15) (passed 15 (next (.psig 15 96 (tE 0x3D)) (withEp (withS [0x40, 0, 5, 0])))) (fun u => ((u.team 0).chan 15).queue.isEmpty),
      rowOk 15 false (next (.cpy 15 96 (tE 0x8000)) (stCopy (win 0) (win 0x8000) 4 1 0 0 (2 ^ 32 - 1))),
      chain [.cpy 15 96 (tE 0x8000), .copyRow 0 15] (stCopy (win 0) (win 0x8000) 4 2 0 0 (2 ^ 32 - 1)) (fun u => ((u.team 0).chan 15).queue.map CopyCmd.row == [1]),
      rowOk 0 false (next (.cpyt 0 96 (tE 0x180)) (stCopy (win 0) 0x1100 4 2 0 0 (2 ^ 32 - 1))),
      rowOk 0 true (withTeam (fun t => { t with bufs := [(9, ⟨0x4000, 256, .empty, 0, 0⟩)] }) (next (.cpys 0 96 (tE 0x8000)) (stCopy (win 0) (win 0x4000) 4 1 0 0x2000 (2 ^ 32 - 1)))),
      after (.copyComplete 0 15) (passed 15 (next (.cpy 15 96 (tE 0x8000)) (stCopy (win 0) (win 0x8000) 4 2 0 0 (2 ^ 32 - 1))))
        (fun u => ((u.team 0).chan 15).queue.isEmpty && (u.vdev 1).meters.get 3 == 32),
      after (.copyComplete 0 15) ((passed 15 (next (.cpy 15 96 (tE 0x8000)) (stCopy (win 0) (win 0x8000) 4 2 0 0 0x7000))).setBarrier (.sram 0 0x7000) ⟨0, 1, 1, -32, false, 0⟩)
        (fun u => ((u.team 0).chan 15).queue.isEmpty && (u.barrierAt (.sram 0 0x7000)).tx == 0)] = true := by
  decide +kernel

/-- The stack that holds the frame, its rows the device's. -/
def stStack (s : State) : State := { s with stackDies := [(2, { Stack.reset with pat := (List.range 32).map fun c => (65536 * c, 1) })] }

/-- A command of each kind that has been handed to the dispatch, and then entered. -/
def stCmd (i : Instr) (n : Nat) : State := next i (stStack (octet0 n 2047))
def cmd0 (s : State) : NbCmd := s.nb.headD ⟨0, 0, 0, 0, 0, 0, 0, 0, 0, 0, [], 0, 0, 0, 0, 0, ⟨0, 0, []⟩, [], none, 0, 0, [], none, false⟩
def enter (s : State) : Instr := .nbcmd ⟨2, (cmd0 s).id % 1024, 0, 1, 0, false⟩ ((cmd0 s).octet.flatMap fun w => toBytes 4 w.toNat)
def stIn (i : Instr) (n : Nat) : State := next (enter (stCmd i n)) (stCmd i n)

/-- NearBankEventsComplete: a command that enters, drains of all pairs and past them, each kind of part, completions, and a sequence that drains. -/
theorem wit_near_bank_events :
    allTrue [(stCmd (.nbaxpy 126 96 t0) 0).nbGoes (cmd0 (stCmd (.nbaxpy 126 96 t0) 0)), (stCmd (.nbaxpy 126 96 t0) 0).nbAfterMet (cmd0 (stCmd (.nbaxpy 126 96 t0) 0)),
      !(stCmd (.nbaxpy 126 96 t0) 0).nbBefore (cmd0 (stCmd (.nbaxpy 126 96 t0) 0)),
      (stIn (.nbaxpy 126 96 t0) 0).nb.map NbCmd.entered == [1], ((stIn (.nbaxpy 126 96 t0) 0).stack 2).queues.keys == [2047],
      ((stIn (.nbaxpy 126 96 t0) 0).stack 2).responses == [⟨0, 0, []⟩],
      after (.nbdrain ⟨2, 0, 0, 1, 2048 * 2 ^ 11, false⟩) { stIn (.nbaxpy 126 96 t0) 0 with drains := [⟨0, 0, 2, 0, 2048, none, false⟩] } (fun u => u.drains == [⟨0, 0, 2, 0, 2048, some [0], false⟩]),
      !(stIn (.nbaxpy 126 96 t0) 0).drainBehind ⟨0, 0, 2, 0, 2048, none, false⟩, (stCmd (.nbaxpy 126 96 t0) 0).drainBehind ⟨0, 0, 2, 0, 2048, none, false⟩,
      after (.nbdrain ⟨2, 5, 0, 1, 2047 + 2 * 2 ^ 11, false⟩) st0 (fun u => (u.stack 2).responses == [⟨5, 4, []⟩]),
      after (.nbColumn 2 2047) (stIn (.nbaxpy 126 96 t0) 0) (fun u => (u.stack 2).queues.isEmpty && u.nb.map NbCmd.finished == [1]),
      chain [.nbColumn 2 2047, .nbCommandComplete 0] (stIn (.nbaxpy 126 96 t0) 0) (fun u => u.nb.isEmpty && (u.vdev 1).meters.get 2 == 1),
      after (.nbColumn 2 2047) (stIn (.nbgemv 126 96 t0) 5) (fun u => u.nb.all fun c => c.vec.isSome),
      chain [.nbColumn 2 2047, .nbCommandComplete 0] (stIn (.nbdot 126 96 t0) 4) (fun u => u.nb.isEmpty && (u.core 0).coal.isEmpty && (u.ctx 1 0).state == 1),
      after (.nbColumn 2 2047) { stIn (.nbaxpy 126 96 t0) 0 with nb := [{ cmd0 (stIn (.nbaxpy 126 96 t0) 0) with fn := 9, accs := [(2047 * 1024, [])], load := none }], stackDies := [(2, { (stIn (.nbaxpy 126 96 t0) 0).stack 2 with queues := [(2047, [⟨0, .lane 0, 0⟩])] })] }
        (fun u => (u.stack 2).queues.isEmpty && u.nb.map NbCmd.finished == [1]),
      !st0.keyUsed 16383 5, after (.sequenceDrainDone 16383) { st0 with keys := [(16383, { KeySlot.reset with draining := some 5, key := 9 })] }
        (fun u => (u.key 16383).key == 0 && (u.key 16383).draining.isNone)] = true := by
  decide +kernel

/-- Granule 0 of device 1 lies in host memory; granule 1 is absent. -/
def stTwo : State :=
  let s := withProf st0
  { s with vdevs := s.vdevs.modify 1 fun d => { d with s2 := [(0, ⟨true, true, true, true, 0, 0, 0⟩), (1, ⟨false, true, true, false, 3, 0, 0⟩)] } }

/-- A walk that stands at a phase, an entry at 0x1100 that points to a table at 0x2000. -/
def stWalk (p : WalkPhase) : State :=
  { stTwo with dies := stTwo.dies.modify 0 fun d => { d with walks := [(9, ⟨1, 0, 0x200000, p, none⟩)] }, mem := writeCells stTwo.mem (Place.host 0x1100).key (toBytes 8 0x2001) }

/-- A translation that a walk has found, before stage 2. -/
def xl0 : Xlation := ⟨1, 0, 0, 0x200000, 0x210000, 0, 7, 1, false, .missing, false, false⟩

/-- An access of device 1 parked on granule 1, and its request. -/
def stAsk (res : Bool) : State :=
  { stTwo with
    dies := stTwo.dies.modify 0 fun d => { d with faults := [(5, ⟨5, false, false, false, .core, 0, 1, 0, 0x10000, 0x10000, none⟩)] }, pager := [⟨1, 1, [(0, 5)], false, none, none, []⟩],
    vdevs := stTwo.vdevs.modify 1 fun d => { d with s2 := d.s2.put 1 ⟨res, true, true, false, 3, 0, 0⟩ } }

/-- The device has a buffer of device memory. -/
def withBuf (s : State) : State := { s with bufs := s.bufs.put 3 ⟨true, true, 0, 1, 0, 1, 0⟩, profs := [(0, ⟨8, 4, 0xFFFFFFFF, 0⟩)] }

/-- A fill has begun, with and without backing. -/
def stFilling (b : Bool) : State :=
  let s := withBuf (stAsk false)
  { s with pager := [⟨1, 1, [(0, 5)], true, some (3, 0), none, []⟩], vdevs := s.vdevs.modify 1 fun d => { d with back := if b then [(1, ⟨0x20000, none⟩)] else [] } }

/-- What a walk of `stWalk` reads. -/
def walks (p : WalkPhase) (ok : WalkPhase → Bool) (err : Cause → Nat → Bool) : Bool :=
  match ((stWalk p).scrubTags 0).draw.2.walkRead 0 ⟨1, 0, 0x200000, p, none⟩ ((stWalk p).scrubTags 0).draw.1 with
  | .ok x => ok x.1
  | .error e => err e.1 e.2

/-- TranslationEventsComplete: walks that go on, end in a translation, park, and fail; requests with a frame, resident already and without a frame; fills with and without
backing; and the two timeouts. -/
theorem wit_translation :
    allTrue [walks (.pte 3 0x1100 false (toBytes 8 0x2001)) (· == .pte 2 0x2000 false []) (fun _ _ => false),
      after (.walkStep 0 9) (stWalk (.pte 3 0x1100 false (toBytes 8 0x2001))) (fun u => ((u.die 0).walks.find 9).any fun w => w.phase == .pte 2 0x2000 false []),
      after (.walkStep 0 9) (stWalk (.stage2 xl0)) (fun u => (u.die 0).walks.isEmpty && (u.die 0).tlc.length == 2 && (u.die 0).tlc.all Xlation.cacheable),
      walks (.stage2 xl0) (fun p => match p with | .done x => x.cacheable | _ => false) (fun _ _ => false),
      walks (.pte 2 0x10000 false []) (fun _ => false) (fun c g => c == .xlateNotPresent && g == 0x10000),
      walks (.pte 2 0x20000 false []) (fun _ => false) (fun c g => c == .xlateStage2 && g == 0x20000),
      after (.walkStep 0 9) (stWalk (.pte 2 0x10000 false [])) (fun u => u.isParked 0 0 && u.pager.length == 1 && (u.die 0).faultSeq == 1),
      after (.walkStep 0 9) (stWalk (.pte 2 0x20000 false [])) (fun u => ((u.die 0).walks.find 9).any fun w => w.phase == .failed .xlateStage2 0x20000),
      (withBuf (stAsk false)).nextReq == (stAsk false).pager.head?, (withBuf (stAsk false)).freeFrame 1 3 == some (3, 0),
      after .pagerServe (withBuf (stAsk false)) (fun u => u.pager.map PagerReq.frame == [some (3, 0)]),
      after .pagerServe (stAsk true) (fun u => u.pager.isEmpty && (u.die 0).faults.isEmpty), (stAsk false).freeFrame 1 3 == none,
      after .pagerServe (stAsk false) (fun u => (u.ctx 1 0).state == 2 && (u.ctx 1 0).cause == .pagerOvercommit && (u.die 0).faults.isEmpty),
      after .pagerFillComplete (stFilling false) (fun u => ((u.vdev 1).s2.find 1).any (fun f => f.res && f.buf == 3) && u.pager.isEmpty && (u.vdev 1).meters.get 4 == 1),
      match (stFilling true).copyIn 1 1 3 0 ⟨0x20000, none⟩ with | .ok _ => true | .error _ => false,
      after .pagerFillComplete (stFilling true) (fun u => u.pager.isEmpty),
      after (.walkTimeout 0 9) (stWalk (.pte 3 0x1100 false [])) (fun u => (u.ctx 1 0).state == 2 && (u.ctx 1 0).cause == .walkTimeout && (u.die 0).walks.isEmpty),
      after (.remoteTimeout 1 0) { st0 with flight := [⟨3, 0, 0, 0, 1, 0, 0, 0, 0, .store, [(0, ⟨0, 0, 0, 4, [0, 0, 0, 0], []⟩, ⟨.sram 1 0, none, 0, 1, 0⟩)], none, false⟩] }
        (fun u => (u.ctx 1 0).state == 2 && (u.ctx 1 0).cause == .remoteUnreachable)] = true := by
  decide +kernel

/-- Queue 3 of device 1, with a root whose one range record covers 64 KiB. -/
def stQueue (k : Queue) : State :=
  let s := stTwo.setCtx 1 0 { stTwo.ctx 1 0 with rtlive := 0x1200 }
  { s with vdevs := s.vdevs.modify 1 fun d => { d with queues := [(3, k)] }, sets := [(0, ⟨⟨0, 1⟩, some 1, 0⟩)],
           mem := writeCells s.mem (Place.host 0x1200).key (toBytes 8 17 ++ toBytes 16 0 ++ toBytes 8 0 ++ toBytes 8 15 ++ toBytes 8 3) }

/-- An enabled queue of 64 packets. -/
def queue0 : Queue := { Queue.zero with rbase := 0x2000, rlog := 12, enable := true, state := .idle, qstat := 0x1F00 }

/-- The device in another state. -/
def inState (v : VState) (s : State) : State := { s with vdevs := s.vdevs.modify 1 fun d => { d with state := v } }

/-- QueueEventsComplete: kicks of a full ring, of an empty one and past it; a device that takes no writes; an enabling that succeeds and each that does not; resets; slots; a
group that hangs; a queue of a stack that fails. -/
theorem wit_queues :
    allTrue [(stQueue queue0).ringOk 1 queue0, (stQueue queue0).takesWrites 1,
      after (.kick 1 3 64) (stQueue queue0) (fun u => (u.queue 1 3).state == .active && (u.queue 1 3).w == 64),
      after (.kick 1 3 0) (inState .stopped (stQueue queue0)) (fun u => (u.queue 1 3).state == .idle),
      after (.kick 1 3 65) (stQueue queue0) (fun u => (u.queue 1 3).state == .error && (u.queue 1 3).cause == .queueRing),
      after (.kick 1 3 1) (inState .configured (stQueue queue0)) (fun u => (u.vdev 1).ignored == 1), after (.queueEnable 1 3 true) (inState .resetting (stQueue queue0)) (fun u => (u.vdev 1).ignored == 1),
      after (.qctlReset 1 3) (inState .error (stQueue queue0)) (fun u => (u.vdev 1).ignored == 1),
      after (.queueEnable 1 3 true) (stQueue { queue0 with enable := false, state := .disabled, cvec := 7, evec := 7 }) (fun u => (u.queue 1 3).state == .idle && (u.queue 1 3).enable),
      after (.queueEnable 1 3 true) (stQueue { queue0 with enable := false, state := .disabled, cvec := 8 }) (fun u => (u.queue 1 3).cause == .illegalField),
      after (.queueEnable 1 3 true) (stQueue { queue0 with enable := false, state := .disabled, ctx := 1 }) (fun u => (u.queue 1 3).cause == .illegalField),
      after (.queueEnable 1 4 true) (stQueue queue0) (fun u => (u.queue 1 4).cause == .illegalField),
      after (.queueEnable 1 3 false) (stQueue queue0) (fun u => (u.queue 1 3).state == .disabled), after (.qctlReset 1 3) (stQueue { queue0 with state := .error }) (fun u => (u.queue 1 3).state == .disabled),
      (stQueue { queue0 with state := .active, w := 1, kicked := some 0 }).wantsSlot 1 3,
      after (.queueSlotGrant 1 3) (stQueue { queue0 with state := .active, w := 1, kicked := some 0 }) (fun u => (u.queue 1 3).mapped),
      after (.queueSlotRelease 1 3) (stQueue { queue0 with mapped := true }) (fun u => !(u.queue 1 3).mapped),
      after (.queueSlotRelease 1 3) (inState .stopped (stQueue { queue0 with mapped := true, state := .active, w := 1 })) (fun u => !(u.queue 1 3).mapped),
      after (.progressHang 1 0) st0 (fun u => (u.ctx 1 0).state == 2 && (u.ctx 1 0).cause == .hang),
      after (.nbQueueFailure 2 2047) (stIn (.nbaxpy 126 96 t0) 0) (fun u => (u.stack 2).queues.isEmpty && u.errors.any (· == .die 3 2 2047) && (u.ctx 1 0).state == 2)] = true := by
  decide +kernel

/-- Address 0 to 0x1FFFFF lies in device memory, in pages that any access may use. -/
def withDev (s : State) : State :=
  let s := stStack (withCC s)
  { s with dies := s.dies.put 0 { s.die 0 with tlc := [⟨1, 0, 0, 0, 0x200000, 0, 7, 2, true, .leaf true true true true 0 0, false, false⟩] } }

/-- A queue with a packet, at a step. -/
def stPacket (ws : List Nat) (step : Nat) (p : Packet → Packet := id) : State :=
  withDev (stQueue { queue0 with state := .active, mapped := true, w := 1, rdidx := 1,
                                 packets := [p ⟨0, (List.range ws.length).zip (ws.map (BitVec.ofNat 64)), step, false, false, 0, 0, none, []⟩] })

/-- The packet that comes next is well formed. -/
def serves (s : State) : Bool := s.serving 1 3 && !(s.queue 1 3).statDue && ((s.queue 1 3).current.any fun c => packetCause c.1.words false == none && c.2)

/-- The packet ends, or goes on. -/
def done (u : State) : Bool := (u.queue 1 3).packets.all Packet.done

/-- PacketEventsComplete: a fetch at the end of the ring, each packet type at each of its steps, every signal operation and every condition. -/
theorem wit_packets :
    allTrue [(withDev (stQueue { queue0 with mapped := true, w := 64, rdidx := 63 })).serving 1 3,
      after (.packetFetch 1 3) (withDev (stQueue { queue0 with mapped := true, w := 64, rdidx := 63 })) (fun u => (u.queue 1 3).packets.map Packet.idx == [63] && (u.queue 1 3).rdidx == 64),
      serves (stPacket [1, 0x2000, 0] 0), serves (stPacket [2, 0x2000, 9] 0), serves (stPacket [3, 0x2000, 2, 9] 0), serves (stPacket [4, 0x2000, 3, 0] 0), serves (stPacket [6, 1] 0), serves (stPacket [8, 16383, 5, 0] 0),
      serves (stPacket [5, 0x2000, 9, 0x2008, 1, 7] 1), serves (stPacket [7, 0x2000, 65536] 0),
      (let s := stPacket [1, 0x2000, 0] 0
       let s := { s with mem := writeCells s.mem (Place.dram 2 0x2000).key placeRecord }
       s.poolRoom 1 0 && after (.dispatch 1 3) s (fun u => (u.die 0).pool.length == 1 && (u.queue 1 3).packets.any fun p => p.grids.length == 1)),
      after (.dispatch 1 3) (stPacket [1, 0x2000, 0] 0 fun p => { p with begun := true, done := true, grids := [(77, 0, false)] }) (fun u => (u.queue 1 3).packets.all fun p => p.grids.isEmpty),
      after (.write 1 3) (stPacket [2, 0x2000, 9] 0) (fun u => done u && readCell u.mem (Place.dram 2 0x2000).key == 9),
      [(0, 9), (1, 9), (2, 247)].all (fun x => after (.signal 1 3) (stPacket [3, 0x2000, x.1, 9] 0) fun u => done u && (readCell u.mem (Place.dram 2 0x2000).key).toNat == x.2),
      [(0, 0), (1, 1), (2, 1), (3, 0)].all (fun x => after (.wait 1 3) (stPacket [4, 0x2000, x.1, x.2] 0) done &&
        after (.waitReevaluate 1 3) (stPacket [4, 0x2000, x.1, x.2] 0 fun p => { p with begun := true }) done),
      [(0, 1), (1, 0), (2, 0), (3, 1)].all (fun x => after (.wait 1 3) (stPacket [4, 0x2000, x.1, x.2] 0) fun u => !done u && (u.queue 1 3).packets.any Packet.begun),
      after (.writeSignal 1 3) (stPacket [5, 0x2000, 9, 0x2008, 1, 7] 0) (fun u => !done u && (u.queue 1 3).packets.any fun p => p.step == 1),
      after (.writeSignal 1 3) (stPacket [5, 0x2000, 9, 0x2008, 1, 7] 1) (fun u => done u && readCell u.mem (Place.dram 2 0x2008).key == 7),
      after (.fencePacket 1 3) (stPacket [6, 0] 0) done,
      (stPacket [6, 1] 0).outside 1 0 == .ready, after (.fencePacket 1 3) (stPacket [6, 1] 0) (fun u => done u && (u.ctx 1 0).epoch == 1 && (u.die 0).tlc.isEmpty),
      after (.indirect 1 3) (stPacket [7, 0x2000, 65536] 0) (fun u => (u.queue 1 3).packets.any fun p => p.subWords.isSome),
      after (.indirect 1 3) (stPacket [7, 0x2000, 1] 0 fun p => { p with subWords := some [(0, 2), (1, 0x3000), (2, 5)] }) (fun u => done u && readCell u.mem (Place.dram 2 0x3000).key == 5),
      after (.indirect 1 3) (stPacket [7, 0x2000, 2] 0 fun p => { p with subWords := some [(0, 2), (1, 0x3000), (2, 5)] }) (fun u => !done u && (u.queue 1 3).packets.any fun p => p.sub == 1),
      after (.sequenceEnd 1 3) { stPacket [8, 16383, 5, 0] 0 with keys := [(16383, { KeySlot.reset with state := .live, kgen := 5 })] }
        (fun u => (u.key 16383).kgen == 6 && (u.queue 1 3).ending == some 16383),
      after (.sequenceEnd 1 3) (stPacket [8, 16383, 5, 0] 0) done] = true := by
  decide +kernel

/-- A kill of device 1's context 0 under way. -/
def vic : Victim := ⟨1, some 0⟩
def stKill (waiting : List Nat) : State := { stHost with kills := [⟨vic, 0, waiting, 0, none⟩] }

/-- The device holds tokens, or its slice is bounded. -/
def withRate (s : State) : State := { s with vdevs := s.vdevs.modify 1 fun d => { d with profile := d.profile ||| BitVec.ofNat 1024 (2 ^ 192 * (5 + 2 ^ 32 * 100)), bucket := 7 } }

/-- KillAndSliceEventsComplete: every KILL and DRAIN of a victim with a store, an operation, a command, a near-bank part, a walk, a fault slot, a queue and a waiting request;
acknowledgements; a die that does not answer; slices; buckets. -/
theorem wit_kill :
    allTrue [stHost.victimOn vic 0 == [0], after (.coreKill 0 vic) stHost (fun u => (u.core 0).refused == [vic] && (u.groups.find 0).any Group.stopped),
      after (.coreDrain 0 vic) stHost (fun u => (u.groups.find 0).any (fun g => g.fifo.isEmpty && g.stopped) && (u.core 0).slotGen.get 0 == 1),
      after (.matrixKill 63 vic) stHost (fun u => (u.core 63).mrefused == [vic]), after (.casterKill 63 vic) stHost (fun u => (u.core 63).crefused == [vic]),
      after (.nearbankKill 1 vic) stHost (fun u => (u.die 1).nbRefused == [vic]), after (.walkerKill 1 vic) stHost (fun u => (u.die 1).refused == [vic]),
      after (.qslotKill vic) stHost (fun u => u.qrefused == [vic]), after (.endpointKill vic) stHost (fun u => u.erefused == [vic]),
      after (.matrixDrain 0 vic) (next (.mmz 1 63 t0) st0) (fun u => (u.core 0).mq.isEmpty), (next (.mmz 1 63 t0) st0).victimTeams vic == [0],
      after (.casterDrain 0 vic) (next (.psig 15 96 (tE 0x3D)) (withEp (withS [0x40, 0, 5, 0]))) (fun u => (u.team 0).chans.all fun c => c.2.queue.isEmpty),
      after (.nearbankDrain 0 vic) (stIn (.nbaxpy 126 96 t0) 0) (fun u => u.nb.isEmpty == (stackDie 2 == 0)), after (.nearbankDrain 1 vic) (stIn (.nbaxpy 126 96 t0) 0) (fun u => u.nb.isEmpty == (stackDie 2 == 1)),
      after (.walkerDrain 0 vic) (stWalk (.pte 3 0x1100 false [])) (fun u => (u.die 0).walks.isEmpty), after (.walkerDrain 0 vic) { stAsk false with pager := [⟨1, 1, [(0, 5)], false, none, none, [(1, 0)]⟩] } (fun u => (u.die 0).faults.isEmpty && u.pager.isEmpty),
      (stQueue { queue0 with noStat := true, mapped := true }).victimQueues vic == [3],
      after (.qslotDrain vic) (stQueue { queue0 with noStat := true, mapped := true }) (fun u => (u.queue 1 3).state == .error && (u.queue 1 3).cause == .killed && !(u.queue 1 3).mapped),
      after (.endpointDrain vic) { withEp st0 with incoming := [⟨3, 0, 0, 64, [], none⟩, ⟨4, 0, 0, 64, [], none⟩] } (fun u => u.incoming.length == 1 && u.replies.map PeerReply.ok == [false]),
      (stKill [100, 0]).acks 100 vic, after (.killAck 100 vic) (stKill [100, 0]) (fun u => u.kills.map Kill.waiting == [[0]]),
      after (.killAck 100 vic) (stKill [100]) (fun u => u.kills.isEmpty && (u.ctx 1 0).state == 2 && (u.ctx 1 0).cause == .killed),
      after (.killAckTimeout 400 vic) (stKill [400, 401]) (fun u => u.kills.map Kill.waiting == [[401]] && u.groups.isEmpty && u.teams.isEmpty && (u.die 0).walks.isEmpty),
      (withProf st0).devicesOf 0 == [1], (withProf st0).eligibleNow 1, ((withProf st0).set 0).running == none,
      after (.sliceEnd 0) (withProf st0) (fun u => (u.set 0).running == some 1),
      after (.sliceEnd 0) { withProf st0 with sets := [(0, ⟨⟨0, 1⟩, some 1, 0⟩)] } (fun u => (u.vdev 1).meters.get 0 == BitVec.ofNat 64 (((withProf st0).vdev 1).coreCount * ((withProf st0).vdev 1).slice)),
      ((withRate (withProf st0)).vdev 1).prof 0x18 31 0 == 5,
      after (.bucketEmpty 1) { withRate (stQueue { queue0 with mapped := true }) with sets := [(0, ⟨⟨0, 1⟩, some 1, 0⟩)] } (fun u => (u.vdev 1).bucket == 0 && u.agenda.contains (.sliceEnd 0) && !(u.queue 1 3).mapped),
      after (.bucketRecover 1) (withRate (withProf st0)) (fun u => decide (7 ≤ (u.vdev 1).bucket) && decide ((u.vdev 1).bucket ≤ 100))] = true := by
  decide +kernel

/-- Stack 2, changed. -/
def stPort (f : Stack → Stack := id) : State := let s := stStack st0; s.setStack 2 (f (s.stack 2))

/-- A header of the Stack Port, and one of an engine. -/
def port0 (spa arg dom : Nat) : PortHdr := ⟨2, 5, spa, dom, arg, false⟩
def eng0 (arg : Nat) : EngHdr := ⟨2, 6, arg, 0, 5, crucible⟩

/-- The latest response's status. -/
def said (st : Nat) (u : State) : Bool := ((u.stack 2).responses.getLast?).any fun r => r.tag == 5 && r.status == st

/-- The latest response is an engine's, with its own status. -/
def told (st : Nat) (u : State) : Bool := ((u.stack 2).responses.getLast?).any fun r => r.tag == 5 && r.status == 0 && r.data.take 4 == toBytes 4 (st + 6 * 2 ^ 16)

/-- An image with a KIND and a version. -/
def image0 (kind : Nat) : List (BitVec 8) := toBytes 4 0x42494C44 ++ toBytes 4 kind ++ toBytes 4 3 ++ List.replicate 52 0

/-- StackPortAndEngineCommandsComplete: each request at the first and the last row with each answer, each engine command, the patrol, and a hung engine. -/
theorem wit_stack_port :
    allTrue [after (.rd64 (port0 0 0 1)) (stPort) (said 0), after (.rd256 (port0 (31 * 65536) 0 1)) (stPort) (said 0), after (.rd64 (port0 (2 ^ 36) 0 1)) (stPort) (said 4),
      after (.rd256 (port0 (16384 * 2 ^ 22 - 256) 0 crucible)) (stPort) (said 0), after (.rd64 (port0 0 0 2)) (stPort) (said 2),
      after (.rd64 (port0 64 0 1)) (stPort fun k => { k with bad := [1], chanErrors := [(spaChan 64, 5)] }) (fun u => said 1 u && (u.stack 2).ras.length == 1),
      after (.wr64 (port0 64 0 1) (List.replicate 64 7) 1) (stPort) (fun u => said 0 u && readCell u.mem (Place.dram 2 64).key == 7 && readCell u.mem ((Place.dram 2 64).key + 1) == 0),
      after (.wr256 (port0 256 0 1) (List.replicate 256 7)) (stPort) (fun u => said 0 u && readCell u.mem ((Place.dram 2 511).key) == 7), after (.wr64 (port0 64 0 2) (List.replicate 64 7) 1) (stPort) (said 2),
      after (.cfgrd (port0 8 0 1)) (stPort) (said 0), after (.cfgwr (port0 0x40 0 1) (toBytes 8 9)) (stPort) (fun u => (u.stack 2).config 0x40 == 0),
      after (.patset ⟨port0 0 0 1, toBytes 32 0xFFF⟩) (stPort) (said 2), after (.patset ⟨port0 0 0 crucible, toBytes 32 0xFFF⟩) (stPort) (fun u => ((u.stack 2).owner 0).isNone),
      (stPort.stack 2).guardOk (patKey (2 ^ 22)) 1, after (.patset ⟨port0 (2 ^ 22) 0 crucible, toBytes 32 1⟩) (stPort) (fun u => (u.stack 2).owner (2 ^ 22) == some 1),
      after (.patset ⟨port0 (2 ^ 22) 0 crucible, toBytes 32 2⟩) (stPort) (fun u => said 5 u && u.errors.any (· == .die 14 2 0)), (stPort).stackDies.length == 1,
      after (.stackPortBadcmd (port0 0 0 1) 99) (stPort) (said 3),
      after (.rasread (eng0 0)) (stPort fun k => { k with hung := true }) (· == stPort fun k => { k with hung := true }), after (.rasread { eng0 0 with domain := 1 }) (stPort) (said 2),
      after (.rasread (eng0 0)) (stPort) (told 0), after (.patrol (eng0 168)) (stPort) (fun u => told 0 u && (u.stack 2).patrolHours == 168), after (.patrol (eng0 169)) (stPort) (told 2),
      after (.patrol (eng0 0)) (stPort) (told 2), after (.patstat (eng0 0)) (stPort) (told 0), after (.engstat (eng0 0)) (stPort) (told 0),
      after (.imgchunk (eng0 48) (List.replicate 48 7)) (stPort) (fun u => told 0 u && (u.stack 2).image.get 95 == 7),
      !(stPort).imageValid 3 ((List.range 64).map (stPort.stack 2).image.get), after (.imgact (eng0 64)) (stPort) (told 2),
      after (.qreset (eng0 (2047 + 2 ^ 11))) (stIn (.nbaxpy 126 96 t0) 0) (fun u => (u.stack 2).queues.isEmpty), after (.engcmdBadop (eng0 0) 77) (stPort) (told 1),
      after (.patrolRead 2) (stPort) (fun u => (u.stack 2).patrolNext == 64), after (.baseDieEngineHang 2) (stPort) (fun u => (u.stack 2).hung)] = true := by
  decide +kernel

/-- An image that a key of the maker signs is valid for its KIND: the hypotheses of the clauses on IMGACT and BOOT. -/
theorem wit_image (h : Config.imageSigned (image0 3) = true) : st0.imageValid 3 (image0 3) = true := by
  unfold State.imageValid
  rw [h]
  decide +kernel

/-- Links in a state. -/
def stLink (n : Nat) (l : Link) : State := { st0 with links := [(n, l)] }

/-- Power, before BOOT; the images of KIND 1 are not valid. -/
def stOff : State := { st0 with mgmt := { st0.mgmt with tripped := true, images := [(2, []), (3, [])], retired := [(0, 63, 0), (1, 7, 5)] } }

/-- LinkAndPowerEventsComplete: links that work, retrain and are retired, the last of the row links, a die that is cut, power, and BOOT without a valid image. -/
theorem wit_links :
    allTrue [after (.rowLinkFlit 7 true) (stLink 7 ⟨15, 3, false, false⟩) (fun u => u.link 7 == ⟨0, 3, false, false⟩), after (.rowLinkFlit 7 false) (stLink 7 ⟨14, 3, false, false⟩) (fun u => u.link 7 == ⟨15, 4, false, false⟩ && u.errors.isEmpty),
      after (.rowLinkFlit 7 false) (stLink 7 ⟨15, 0, false, false⟩) (fun u => u.link 7 == ⟨16, 1, false, false⟩ && u.errors == [.die 6 7 1]),
      after (.rowLinkFlit 7 false) (stLink 7 ⟨16, 3, false, false⟩) (fun u => u.link 7 == ⟨0, 3, true, false⟩ && u.errors.length == 1),
      after (.linkRetrainTimeout 7) (stLink 7 ⟨0, 3, true, false⟩) (fun u => (u.link 7).retired && !u.boundaryDown),
      after (.linkRetrainTimeout 7) { st0 with links := (List.range 7).map (fun n => (n, ⟨0, 0, false, true⟩)) ++ [(7, ⟨0, 3, true, false⟩)] } (fun u => u.boundaryDown && u.boundaryHeld),
      after (.ioLinkCut 0) st0 (fun u => (u.die 0).ioDown && (u.link 8).retired && (u.ctx 1 0).state == 2), after (.linkRetrainTimeout 9) (stLink 9 ⟨0, 3, true, false⟩) (fun u => (u.die 1).ioDown),
      after (.linkRetrainDone 7) { stLink 7 ⟨0, 3, false, true⟩ with boundaryDown := true, boundaryHeld := true } (fun u => u.link 7 == ⟨0, 3, false, false⟩ && !u.boundaryDown && u.boundaryHeld),
      after (.linkRetrainDone 9) (next (.linkRetrainTimeout 9) (stLink 9 ⟨0, 3, true, false⟩)) (fun u => !(u.die 1).ioDown), after (.rowLinkRecal 7) st0 (· == st0),
      after .powerOff st0 (fun u => !u.powered && u.groups.isEmpty && readCell u.mem (Place.host 0x1000).key == 0x0F), after .thermalTrip st0 (fun u => !u.powered && u.mgmt.tripped),
      !stOff.imageValid 1 (stOff.image 1 0), !stOff.imageValid 1 (stOff.image 1 1), stOff.activeSlot 1 == 0, !stOff.mgmt.booted,
      after .boot stOff (fun u => u.mgmt.booted && u.mgmt.recovery)] = true := by
  decide +kernel

/-- Every KIND's image is signed: the hypotheses of BOOT's first clause. -/
theorem wit_boot (h : ∀ k, 1 ≤ k → k ≤ 3 → Config.imageSigned (image0 k) = true) :
    let s := { st0 with mgmt := { st0.mgmt with images := [(2, image0 1), (4, image0 2), (6, image0 3)] } }
    s.mgmt.booted = false ∧ ∀ k, 1 ≤ k → k ≤ 3 → s.imageValid k (s.image k (s.activeSlot k)) = true := by
  refine ⟨by decide +kernel, fun k h1 h3 => ?_⟩
  obtain rfl | rfl | rfl : k = 1 ∨ k = 2 ∨ k = 3 := by omega
  · show (_ && Config.imageSigned (image0 1)) = true
    rw [h 1 (by omega) (by omega)]
    decide +kernel
  · show (_ && Config.imageSigned (image0 2)) = true
    rw [h 2 (by omega) (by omega)]
    decide +kernel
  · show (_ && Config.imageSigned (image0 3)) = true
    rw [h 3 (by omega) (by omega)]
    decide +kernel

/-- A profile within its ranges: weight 1, one context, four queues, core 0. -/
def prof1 : Nat := 1 + 2 ^ 16 + 2 ^ 21 * 4 + 2 ^ 64 + 2 ^ 256 * (16382 + 2 * 2 ^ 14 + 8 * 2 ^ 45) + 2 ^ 320 * (1 + 2 ^ 16 + 2 ^ 32 + 2 ^ 48)

/-- Device 1 with that profile, in a state. -/
def stDev (v : VState) : State := { st0 with vdevs := st0.vdevs.modify 1 fun d => { d with profile := BitVec.ofNat 1024 prof1, state := v } }

/-- The lock held by a requester, and features that may be locked. -/
def stLock (held : Bool) (r : Nat) (s : State := st0) : State := { s with mgmt := { s.mgmt with held := held, owner := r, lease := 9, featReq := 0xFF } }

/-- Context 0 in a state. -/
def ctxIn (st : Nat) (s : State := stDev .running) : State := s.setCtx 1 0 { s.ctx 1 0 with state := st, rtroot := 0x1200, hangt := 0 }

/-- RegisterAndLockEventsComplete: a context in each state, each register at its ends, devices that take no writes, the lock held and free, features on and off,
and caps at and beyond their ends. -/
theorem wit_register_events :
    allTrue [after (.contextEnable 1 0) (ctxIn 0) (fun u => (u.ctx 1 0).state == 1 && (u.ctx 1 0).rtlive == 0x1200), after (.contextTeardown 1 0) (ctxIn 1) (fun u => (u.ctx 1 0).state == 3 && u.kills.length == 1),
      after (.contextTeardown 1 0) (ctxIn 2) (fun u => (u.ctx 1 0).state == 3), after (.worldReportRequest 1) (stDev .stopped) (fun u => (u.vdev 1).repPending),
      after (.functionLevelReset 1) (stDev .error) (fun u => (u.vdev 1).state == .resetting && u.kills.map Kill.then_ == [2]),
      after (.registerWrite 1 0x2000 8 (2 ^ 64 - 1)) (ctxIn 1) (fun u => (u.ctx 1 0).rtroot == 2 ^ 48 - 2 ^ 9), after (.registerWrite 1 0x23C0 8 0) (ctxIn 1) (fun u => (u.ctx 1 15).rtroot == 0),
      after (.registerWrite 1 0x2020 8 (1 + 2 ^ 8 * (2 ^ 24 - 1) + 2 ^ 32 * 4095)) (ctxIn 1 |> fun s => s.setCtx 1 0 { s.ctx 1 0 with enable := true, schk := false })
        (fun u => (u.ctx 1 0).hangt == 2 ^ 24 - 1 && (u.ctx 1 0).tvec == 4095),
      after (.registerWrite 1 0x3010 8 4095) (stDev .running) (fun u => (u.vdev 1).verrvec == 4095), after (.registerWrite 1 0x3100 8 5) (stDev .running) (fun u => (u.vdev 1).nonce == 5),
      after (.registerWrite 1 192 4 65) (stQueue queue0) (fun u => (u.queue 1 3).state == .error),
      allTrue ([VState.configured, .resetting, .error].map fun v => after (.registerWrite 1 0x3010 8 4095) (stDev v) (fun u => (u.vdev 1).ignored == 1 && (u.vdev 1).verrvec == 0)),
      allTrue ([0, 1].map fun r => after (.acquire r) (stLock false 0) (fun u => u.holdsLock r && u.mgmt.lease == 2000) && after (.acquire r) (stLock true (1 - r)) (fun u => u.holdsLock (1 - r)) &&
        after (.renew r) (stLock true r) (fun u => u.mgmt.lease == 2000) && after (.renew r) (stLock true (1 - r)) (fun u => u.mgmt.lease == 9) &&
        after (.release r) (stLock true r) (fun u => !u.mgmt.held) && after (.release r) (stLock true (1 - r)) (fun u => u.mgmt.held) &&
        after (.powercapWrite r 1200) (stLock true r) (fun u => u.mgmt.cap == 1200) && after (.powercapWrite r 2800) (stLock true r) (fun u => u.mgmt.cap == 2800) &&
        after (.powercapWrite r 1199) (stLock true r) (fun u => u.mgmt.cap == 2800) && after (.powercapWrite r 2801) (stLock true r) (fun u => u.mgmt.cap == 2800) &&
        after (.powercapWrite r 1300) (stLock true (1 - r)) (fun u => u.mgmt.cap == 2800)),
      after .leaseExpiry (stLock true 0) (fun u => !u.mgmt.held && u.mgmt.lease == 0),
      after .featlock (stLock true 0) (fun u => u.mgmt.featLocked && u.mgmt.featEn == 0x7F && u.feature 5),
      after .featlock { stLock true 0 with mgmt := { (stLock true 0).mgmt with featReq := 0, grantClosed := true }, ports := [(3, { Port.down with st := .keying })] }
        (fun u => !u.feature 5 && (u.port 3).st == .down && (u.vdev 0).state == .running),
      after .featlock { st0 with mgmt := { st0.mgmt with featLocked := true } } (·.mgmt.featEn == st0.mgmt.featEn)] = true := by
  decide +kernel

/-- A mailbox of a requester with a command and its operands and bulk bytes, the lock held or not, in a booted package. -/
def stMb (r cmd : Nat) (args : List Nat) (bulk : List (BitVec 8) := []) (held : Bool := true) (s : State := stDev .running) : State :=
  let regs (t : Regs 64) : Regs 64 := ((List.range args.length).zip args).foldl (fun t x => t.set x.1 (BitVec.ofNat 64 x.2)) t
  let bytes (t : Regs 8) : Regs 8 := ((List.range bulk.length).zip bulk).foldl (fun t x => t.set x.1 x.2) t
  { s with mgmt := { s.mgmt with
    booted := true, held := held, owner := r, featLocked := true, grantClosed := true, running := [(3, [])],
    mbox := [(r, ⟨cmd, 77, regs [], 0, 0, 0, 0, [], bytes [], 0⟩)] } }

/-- A command that has been accepted and goes on. -/
def goingOn (r cmd : Nat) (s : State) : State := { s with mgmt := { s.mgmt with pending := [(r, cmd)] } }

/-- The command is answered with a result, in its mailbox and with its tag. -/
def answers (r result : Nat) (p : State → Bool) (u : State) : Bool := (u.mbox r).st == 2 && (u.mbox r).result == result && (u.mbox r).tagOut == 77 && p u

/-- ManagementCommandsComplete: every command of either requester without the lock. -/
theorem wit_commands_unlocked :
    allTrue ([0, 1].flatMap fun r => ([(.create r, 1), (.configure r, 2), (.start r, 3), (.stop r, 4), (.reset r, 5), (.destroy r, 6), (.profileRead r, 7), (.meterRead r, 8), (.ctxKill r, 9), (.s2map r, 0x10),
   (.s2unmap r, 0x11), (.waymapSet r, 0x18), (.profileSet r, 0x19), (.epBind r, 0x20), (.epUnbind r, 0x21), (.routeSet r, 0x22), (.pkgidSet r, 0x23), (.portKey r, 0x24),
   (.backingGrant r, 0x28), (.retireCore r, 0x30), (.retireRow r, 0x31), (.rebuildMirror r, 0x32), (.recoverBoundary r, 0x33), (.updateWrite r, 0x38), (.updateActivate r, 0x39),
   (.updateCommit r, 0x3A), (.errlogRead r, 0x40)] : List (Instr × Nat)).map fun x => !(stMb r x.2 [] [] false).holdsLock r && after x.1 (stMb r x.2 [] [] false) (answers r 2 fun _ => true)) = true := by
  decide +kernel

/-- The profile's bytes. -/
def profBytes : List (BitVec 8) := toBytes 128 prof1

/-- ManagementCommandsComplete: the lifecycle of devices 1, 2 and 1,024, by both requesters. -/
theorem wit_lifecycle :
    allTrue ([0, 1].flatMap fun r => [
      after (.create r) (stMb r 1 [1024] ((toBytes 128 (1 + 2 ^ 16 + 2 ^ 21 + 2 ^ 64 * 2 ^ 63)))) (answers r 0 fun u => (u.vdev 1024).state == .configured),
      after (.configure r) (stMb r 2 [1] profBytes true (stDev .configured)) (answers r 0 fun u => (u.vdev 1).state == .configured),
      after (.start r) (stMb r 3 [1] [] true (stDev .configured)) (answers r 0 fun u => (u.vdev 1).state == .running),
      after (.start r) (stMb r 3 [1] [] true (stDev .stopped)) (answers r 0 fun u => (u.vdev 1).state == .running),
      after (.stop r) (stMb r 4 [1]) (fun u => (u.mbox r).st == 1 && u.mgmt.pending == [(r, 4)] && (u.vdev 1).state == .stopped && u.agenda == u.preemptDevice 1),
      let s := { stMb r 4 [1] [] true (stDev .stopped) with teams := [] }; s.preemptDevice 1 == [] && after (.stop r) (goingOn r 4 s) (answers r 0 fun u => u.mgmt.pending.isEmpty),
      after (.reset r) (stMb r 5 [1] [] true (stDev .error)) (fun u => (u.vdev 1).state == .resetting && u.kills.map Kill.reply == [some r]),
      after (.destroy r) (stMb r 6 [1] [] true (stDev .stopped)) (fun u => (u.vdev 1).state == .resetting && u.kills.map Kill.then_ == [3]),
      after (.profileRead r) (stMb r 7 [1]) (answers r 0 fun u => (u.mbox r).bytes 0 128 == profBytes),
      after (.meterRead r) (stMb r 8 [1] [] true { stDev .running with vdevs := (stDev .running).vdevs.modify 1 fun d => { d with meters := [(4, 9)] } }) (answers r 0 fun u => (u.mbox r).res.get 4 == 9),
      after (.ctxKill r) (stMb r 9 [1, 15]) (fun u => u.kills.map Kill.victim == [⟨1, some 15⟩])]) = true := by
  decide +kernel

/-- Device 1 with no mapping, and with one of 2 MiB at GPA 65,536 in buffer 1. -/
def stMap (on : Bool) : State :=
  { stDev .running with
    bufs := [(0, ⟨true, true, 1, 1, 0, 1, 0⟩)] ++ (if on then [(1, ⟨true, true, 1, 1, 0, 1, 2 ^ 21⟩)] else []),
    vdevs := (stDev .running).vdevs.modify 1 fun d => { d with
      s2 := (0, ⟨true, true, true, false, 0, 0, 0⟩) :: (if on then (List.range 32).map fun n => (n + 1, ⟨n != 31, true, true, false, 1, n, 0⟩) else []), maps := if on then [(65536, (1, 1))] else [] } }

/-- ManagementCommandsComplete: S2MAP, S2UNMAP of a mapping whose granules are not resident, way maps and profiles in each phase. -/
theorem wit_layout :
    allTrue [after (.s2map 1) (stMb 1 0x10 [1, 65536, 1, 11, 2 ^ 21] [] true (stMap false)) (answers 1 0 fun u => (u.mbox 1).res.get 0 == 1 && u.bufs.find 1 == some ⟨true, true, 1, 1, 0, 1, 2 ^ 21⟩ &&
        (u.vdev 1).s2.find 32 == some ⟨true, true, true, false, 1, 31, 0⟩),
      let s := stMb 0 0x11 [1, 65536, 1] [] true (stMap true)
      let s' := { s with vdevs := s.vdevs.modify 1 fun d => { d with s2 := d.s2.map fun e => (e.1, if e.1 = 0 then e.2 else { e.2 with res := false }) } }
      (s'.guestOf 1 1 1 32).isNone && after (.s2unmap 0) s' (answers 0 0 fun u => (u.bufs.find 1).isNone && (u.vdev 1).s2.length == 1 && (u.vdev 1).maps.isEmpty),
      after (.waymapSet 0) (stMb 0 0x18 [1] (List.replicate 30 0 ++ [2, 0]) true (stDev .configured)) (fun u => u.mgmt.pending == [(0, 0x18)] && u.mgmt.inactive == 1 && u.mgmt.change.isSome && u.dies == st0.dies),
      after (.waymapSet 0) (goingOn 0 0x18 { stMb 0 0x18 [1] with mgmt := { (stMb 0 0x18 [1]).mgmt with img1 := 1, change := some (.wayMap 1 [], 0) } }) (fun u => u.mgmt.gen == 1 && u.mgmt.pending == [(0, 0x18)]),
      after (.waymapSet 0) (goingOn 0 0x18 { stMb 0 0x18 [1] with mgmt := { (stMb 0 0x18 [1]).mgmt with img1 := 1, gen := 1, change := some (.wayMap 1 [(0, 2)], 0) } })
        (answers 0 0 fun u => (u.die 1).ways == [(0, 2)] && u.mgmt.done == 1 && u.mgmt.change.isNone),
      after (.profileSet 1) (stMb 1 0x19 [15, 13 + 2 ^ 4 * 0x80 + 2 ^ 16 * 2 ^ 31 + 2 ^ 48 * 7] [] true (stDev .configured)) (fun u => u.mgmt.change == some (.profile 15 ⟨13, 0x80, 2 ^ 31, 7⟩, 1)),
      after (.profileSet 1) (goingOn 1 0x19 { stMb 1 0x19 [15] with mgmt := { (stMb 1 0x19 [15]).mgmt with img1 := 1, gen := 1, change := some (.profile 15 ⟨0, 1, 1, 0⟩, 1) } })
        (answers 1 0 fun u => u.profs.find 15 == some ⟨0, 1, 1, 0⟩)] = true := by
  decide +kernel

/-- An endpoint's entry: valid, device 1, context 0. -/
def epBytes : List (BitVec 8) := toBytes 8 (1 + 4 + 2 ^ 24 * 9) ++ toBytes 24 0

/-- ManagementCommandsComplete: the fabric's tables, the backing grant, rows, mirrors, the boundary, images, the error log and an undefined CMD. -/
theorem wit_tables :
    allTrue [(stMb 0 0x20 [4095] epBytes).feature 5, (((stMb 0 0x20 [4095] epBytes).mbox 0).endpoint true).isSome, (((stMb 0 0x20 [4095] epBytes).mbox 0).endpoint false).isSome,
      after (.epUnbind 1) (stMb 1 0x21 [3] [] true (withEp st0)) (answers 1 0 fun u => u.endpoints.isEmpty), after (.routeSet 0) (stMb 0 0x22 [65535, 65535]) (answers 0 0 fun u => u.routes == [(65535, 65535)]),
      after (.pkgidSet 0) (stMb 0 0x23 [65535] [] true { st0 with ports := [(3, { Port.down with st := .keying })] }) (answers 0 0 fun u => u.pkgId == 65535),
      let s := stMb 1 0x28 [2 ^ 16 + 2 ^ 8] (toBytes 8 (2 ^ 21) ++ toBytes 8 (2 ^ 23)); let s := { s with mgmt := { s.mgmt with grantClosed := false } }
      s.feature 4 && after (.backingGrant 1) s (answers 1 0 fun u => u.mgmt.ranges == [(2 ^ 21, 2 ^ 23)] && u.mgmt.grantClosed && (u.vdev 0).state == .running),
      let s := stMb 0 0x30 [63]; { s with mgmt := { s.mgmt with retired := [(2, coreDie 63, 0)] } }.mgmt.retired.contains (2, coreDie 63, 0),
      after (.retireRow 0) (stMb 0 0x31 [7 + 8 * 31 + 256 * 16383] [] true { State.reset with vdevs := [] }) (answers 0 0 fun u => (u.stack 7).retired == [65536 * 31 + 16383]),
      after (.rebuildMirror 0) (stMb 0 0x32 [2 + 256 * 8, 0] [] true (let s := st0; s.setStack 2 { s.stack 2 with treeBad := [(8, 0, true), (2, 5, false)] })) (answers 0 0 fun u => (u.stack 2).treeBad == [(2, 5, false)]),
      after (.rebuildMirror 0) (stMb 0 0x32 [2 + 256 * 2, 20] [] true (let s := st0; s.setStack 2 { s.stack 2 with treeBad := [(8, 0, true), (2, 5, false)] })) (answers 0 0 fun u => (u.stack 2).treeBad == [(8, 0, true)]),
      after (.recoverBoundary 1) (stMb 1 0x33 [] [] true { st0 with boundaryHeld := true }) (answers 1 0 fun u => !u.boundaryHeld),
      after (.recoverBoundary 1) (stMb 1 0x33 [] [] true { st0 with boundaryHeld := true, boundaryDown := true }) (answers 1 2 fun u => u.boundaryHeld),
      let s := stMb 0 0x38 [3, 0, 4] (List.replicate 4 7); let s := { s with mgmt := { s.mgmt with images := [(7, List.replicate 5 1)] } }
      s.activeSlot 3 == 0 && after (.updateWrite 0) s (answers 0 0 fun u => u.image 3 1 == [7, 7, 7, 7, 1]),
      let s := stMb 0 0x38 [1, 1024, 1] [7]; let s := { s with mgmt := { s.mgmt with images := [(3, List.replicate 1025 1)] } }
      after (.updateWrite 0) s (answers 0 0 fun u => u.image 1 1 == List.replicate 1024 1 ++ [7]),
      let s := stMb 0 0x39 [1]; let s := { s with mgmt := { s.mgmt with images := [(3, [])] } }
      !s.imageValid 1 (s.image 1 1) && after (.updateActivate 0) s (answers 0 1 fun u => u.activeSlot 1 == 0),
      let s := stMb 0 0x3A [2]; let s := { s with mgmt := { s.mgmt with images := [(4, image0 2)], svnMin := [(2, 2)] } }
      after (.updateCommit 0) s (answers 0 0 fun u => u.mgmt.svnMin.find 2 == some (max 2 (imageField (image0 2) 5 3))),
      after (.errlogRead 1) (stMb 1 0x40 [2 ^ 32 - 1]) (answers 1 0 fun u => (u.mbox 1).res.get 0 == 0 && (u.mbox 1).res.get 1 == 2 ^ 32 - 1),
      allTrue ([0, 0x12, 0x41, 65535].map fun c => after (.undefinedCommand 1) (stMb 1 c []) (answers 1 1 fun _ => true)),
      allTrue ([0, 7].map fun k => after (.watchdogExpiry k) (stMb 0 0 []) (fun u => u.errors == [.die 17 k 1] && u.mgmt.watchdogs.length == 1))] = true := by
  decide +kernel

/-- An image that is signed may be activated; a port in KEYING whose peer has another ID may be keyed: the hypotheses that rest on open values. -/
theorem wit_update (h : Config.imageSigned (image0 3) = true) (hp : Config.portPeer 15 ≠ 0) :
    (let s := stMb 0 0x39 [3]; { s with mgmt := { s.mgmt with images := [(7, image0 3)] } }).imageValid 3 (image0 3) = true ∧
    Config.portPeer 15 ≠ (stMb 0 0x24 [15]).pkgId := by
  refine ⟨?_, hp⟩
  unfold State.imageValid
  rw [h]
  decide +kernel

/-- A port that is UP. -/
def upPort : Port := { Port.down with st := .up, credits := [(0, 64), (1, 1)] }

/-- Endpoint 3 exports 2 MiB from an address on, with rights. -/
def withExport (base : Nat) (up r w a : Bool) (s : State := st0) : State := { s with endpoints := [(3, ⟨up, 1, 0, 15, 1, 0, r, w, a, base, 1⟩)] }

/-- Port 3 carries endpoint 3. -/
def stPort3 (p : Port) (s : State := st0) : State := { s with ports := [(3, p)], routes := [(1, 8)] }

/-- A write of device 1 through endpoint 3, sent and not yet answered. -/
def stOut : State :=
  { withExport 0 true true true true with flight := [⟨6, 0, 0, 0, 1, 0, 0, 0, 0x1000, .store, [(0, ⟨0, 0, 64, 4, [1, 2, 3, 4], []⟩, ⟨.peer (65536 + 3) 64, none, 0, 1, 0⟩)], none, true⟩] }

/-- A condition on port 3 after an event. -/
def portIs (q : Port → Bool) (u : State) : Bool := q (u.port 3)

/-- The latest answer to a peer. -/
def replied (ok : Bool) (data : List (BitVec 8)) (u : State) : Bool := u.replies.map (fun x => (x.ep, x.ok, x.data)) == [(3, ok, data)]

/-- A flit with a request, and one that carries credits. -/
def flit0 (n : Nat) : Flit := ⟨.request 6, n, 0⟩

/-- FabricAndHostEventsComplete: flits sent again, CREDIT, REQUEST and IDLE flits at the first and the last FSEQ; flits received good, bad and forged, also the last of
a key; credits up to their limit; a peer that no port reaches; requests to an endpoint that is not bound, not UP, without the right, beyond its end and of a context that is not
ACTIVE, and those that are performed; responses; the host port. -/
theorem wit_fabric :
    allTrue [after (.fabricFlitSend 3) (stPort3 { upPort with again := [flit0 5, flit0 6], retry := [flit0 5, flit0 6] }) (portIs fun p => p.again == [flit0 6] && p.tx.fseq == 0),
      ((stPort3 { upPort with nak := true }).port 3).owesCredit, after (.fabricFlitSend 3) (stPort3 { upPort with nak := true, tx := ⟨1, 0, 2 ^ 32 - 2⟩ }) (portIs fun p => p.tx.fseq == 2 ^ 32 - 1 && !p.nak && p.retry.length == 1),
      (stPort3 upPort stOut).requests == [(6, some 3)], !(stPort3 upPort stOut).isCarried 6, (stPort3 upPort stOut).portFor 3 == some 3,
      after (.fabricFlitSend 3) (stPort3 upPort stOut) (portIs fun p => p.tx.fseq == 1 && p.carried == [6] && p.credits.get 0 == 63 && p.retry == [flit0 0]),
      after (.fabricFlitSend 3) (stPort3 upPort) (portIs fun p => p.tx.fseq == 1 && p.retry.isEmpty),
      after (.fabricFlitReceive 3 true true) (stPort3 upPort) (portIs fun p => p.rx.fseq == 1 && p.received == 1),
      after (.fabricFlitReceive 3 true true) (stPort3 { upPort with rx := ⟨1, 0, 2 ^ 32 - 1⟩ }) (portIs fun p => p.rx.fseq == 0 && p.rx.keyStep == 1),
      after (.fabricFlitReceive 3 false true) (stPort3 upPort) (portIs fun p => p.nak && p.dropping), after (.fabricFlitReceive 3 true false) (stPort3 upPort) (portIs fun p => p.st == .failed),
      after (.creditFlit 3 (toBytes 228 (65535 + 2 ^ 32 * 5)) true) (stPort3 { upPort with retry := [flit0 5, flit0 6] }) (portIs fun p => p.credits.get 0 == 64 && p.credits.get 1 == 1 && p.retry == [flit0 6] && p.again == [flit0 6]),
      after (.creditFlit 3 (toBytes 228 (2 ^ 16 * 63 + 2 ^ 32 * (2 ^ 32 - 1))) false) (stPort3 { upPort with retry := [flit0 5] }) (portIs fun p => p.credits.get 1 == 64 && p.retry.isEmpty && p.again.isEmpty),
      after (.fabricRecal 3) st0 (· == st0), stOut.portFor 3 == none, stOut.locEndpoint (1, 0) ⟨.peer (65536 + 3) 64, none, 0, 1, 0⟩ == some 3, (stOut.ctx 1 0).state == 1,
      after (.fabricRouteTimeout 1 0) stOut (fun u => (u.ctx 1 0).cause == .remoteUnreachable),
      (st0.portFor 3).isNone, after (.peerRequest 3 0 64 8 []) st0 (replied false []), after (.peerRequest 3 0 0x1100 8 []) (withExport 0 false true true true) (replied false []),
      after (.peerRequest 3 0 0x1100 8 []) (withExport 0 true false true true) (replied false []), after (.peerRequest 3 1 0x1100 2 [7, 8]) (withExport 0 true true false true) (replied false []),
      after (.peerRequest 3 4 0x1100 8 (toBytes 8 1)) (withExport 0 true true true false) (replied false []), after (.peerRequest 3 0 (2 ^ 21 - 7) 8 []) (withExport 0 true true true true) (replied false []),
      after (.peerRequest 3 0 0x1100 8 []) (withExport 0 true true true true ((st0).setCtx 1 0 { st0.ctx 1 0 with state := 2 })) (replied false []),
      after (.peerRequest 3 0 0x1000 1 []) (withExport 0 true true false false) (replied true [0x0F]),
      after (.peerRequest 3 1 0x1100 2 [7, 8]) (withExport 0 true false true false) (fun u => replied true [] u && readCell u.mem (Place.host 0x1101).key == 8),
      after (.peerRequest 3 4 8 8 (toBytes 8 5)) (withExport 0 true false false true (withDev st0)) (replied true (toBytes 8 0)),
      after (.peerResponse 6 true []) stOut (fun u => u.flight.isEmpty), after (.peerResponse 6 false []) stOut (fun u => (u.groups.find 0).any fun g => g.imprecise.map Pending.cause == [.peerXlate]),
      after (.hostCompletion (2 ^ 58 - 1) 0 (List.replicate 64 7)) { st0 with hostBad := [(2 ^ 58 - 1, 4)] } (fun u => u.hostBad.isEmpty && readCell u.mem (Place.host (2 ^ 64 - 1)).key == 7),
      after (.hostCompletion 5 3 []) st0 (fun u => u.hostBad == [(5, 3)]), after (.hostCompletionTimeout 5) st0 (fun u => u.hostBad == [(5, 4)]),
      after (.hostPoisonedRequest 65535) st0 (fun u => u.errors == [.die 11 65535 0]),
      after (.hostMemoryWrite (2 ^ 64 - 2) [7, 8]) st0 (fun u => readCell u.mem (Place.host (2 ^ 64 - 1)).key == 8)] = true := by
  decide +kernel

/-- FabricAndHostEventsComplete: a device's measurements asked for, and another request, of a device's channel. -/
theorem wit_spdm : ([0x12, 0xE0] : List (BitVec 8)).getD 1 0 = 0xE0 ∧ ([0x12, 0x84] : List (BitVec 8)).getD 1 0 ≠ 0xE0 := by decide

/-- NaNResultsAreCanonical: a quiet and a signalling NaN among the operands. -/
theorem wit_nan :
    allTrue ([f32, f16, bf16].map fun f => f.isNaN f.nan && !f.isSNaN f.nan && f.isSNaN (f.nan - 2 ^ (f.mw - 1) + 1) &&
      (f.sumProd false 0 [[f.nan, 0], [0, 0]]).1 == f.nan && (f.sumProd true 3 [[f.nan - 2 ^ (f.mw - 1) + 1, 0]]).2 &&& flagNV == flagNV) = true := by
  decide +kernel

/-- RoundingIsNearestEven: a tie, and values on either side of one. -/
theorem wit_rounding :
    allTrue [toUnit .nearest false 3 0 1 == (2, true), toUnit .nearest true 5 (-1) 0 == (2, true), toUnit .nearest false 5 0 2 == (1, true), toUnit .nearest false 7 0 2 == (2, true),
      toUnit .nearest false 8 0 2 == (2, false)] = true := by decide +kernel

/-! ## The words of the opcode map (R56, R67 to R69), each written out field by field -/

/-- A word with no modifier word decodes to an instruction. -/
def dec (w : Word) (i : Tail → Instr) (s : BitVec 3) : Bool := match decodeWords [w] with
  | .ok (j, []) => j == i ⟨s, []⟩
  | _ => false

/-- A word followed by the ARITH word that names C = V9 decodes to an instruction with it. -/
def decC (w : Word) (i : Tail → Instr) (s : BitVec 3) : Bool := match decodeWords [w, 0b000_0_0_0_0_0_0_00_0_000000_0_0_000_0001001_0_0] with
  | .ok (j, []) => j == i ⟨s, [36]⟩
  | _ => false

theorem test_words_of_integer :
    allTrue [
      dec 0b0000000_0000000_0000000_0000000_100_0 (.nop) 4,
      dec 0b0000001_0000011_0000101_0000110_010_0 (.iadd 3 5 6) 2,
      dec 0b0000010_1100010_0100001_1111111_001_0 (.iaddImm 98 33 127) 1,
      dec 0b0000011_1000001_1000110_0010001_100_0 (.isub 65 70 17) 4,
      dec 0b0000100_0000011_0000101_1001000_010_0 (.imul 3 5 72) 2,
      dec 0b0000101_1100010_0100001_0000110_001_0 (.imulhiS32 98 33 6) 1,
      dec 0b0000110_1000001_1000110_0010001_100_0 (.imulhiN32 65 70 17) 4,
      decC 0b0000111_0000011_0000101_1001000_010_1 (.imad 3 5 72) 2,
      dec 0b0001000_1100010_0100001_0000110_001_0 (.iminS32 98 33 6) 1,
      dec 0b0001001_1000001_1000110_0010001_100_0 (.iminN32 65 70 17) 4,
      dec 0b0001010_0000011_0000101_1001000_010_0 (.imaxS32 3 5 72) 2,
      dec 0b0001011_1100010_0100001_0000110_001_0 (.imaxN32 98 33 6) 1,
      dec 0b0001100_1000001_1000110_0010001_100_0 (.csub 65 70 17) 4,
      dec 0b0001101_0000011_0000101_1001000_010_0 (.iadd64 3 5 72) 2,
      dec 0b0001110_1100010_0100001_0000110_001_0 (.lea 98 33 6) 1,
      dec 0b0001111_1000001_1000110_0010001_100_0 (.iand 65 70 17) 4,
      dec 0b0010000_0000011_0000101_1001000_010_0 (.ior 3 5 72) 2,
      dec 0b0010001_1100010_0100001_0000110_001_0 (.ixor 98 33 6) 1,
      dec 0b0010010_1000001_1000110_0010001_100_0 (.iandn 65 70 17) 4,
      dec 0b0010011_0000011_0000101_1001000_010_0 (.shl 3 5 72) 2,
      dec 0b0010100_1100010_0100001_0000110_001_0 (.shr 98 33 6) 1,
      dec 0b0010101_1000001_1000110_0010001_100_0 (.sar 65 70 17) 4,
      dec 0b0010110_0000011_0000101_1001000_010_0 (.rot 3 5 72) 2,
      dec 0b0010111_1100010_0100001_0010101_001_0 (.shlImm 98 33 21) 1,
      dec 0b0010111_1000001_1000110_0101010_100_0 (.shrImm 65 70 10) 4,
      dec 0b0010111_0000011_0000101_1000001_010_0 (.sarImm 3 5 1) 2,
      dec 0b0010111_1100010_0100001_1110101_001_0 (.rotImm 98 33 21) 1,
      dec 0b0011000_1000001_1000110_0000110_100_0 (.bfx 65 70 6) 4,
      decC 0b0011001_0000011_0000101_0010001_010_1 (.bfi 3 5 17) 2,
      dec 0b0011010_1100010_0100001_0000000_001_0 (.iabs 98 33) 1,
      dec 0b0011010_1000001_1000110_0000001_100_0 (.popc 65 70) 4,
      dec 0b0011010_0000011_0000101_0000010_010_0 (.clz 3 5) 2,
      dec 0b0011010_1100010_0100001_0000011_001_0 (.brev 98 33) 1] = true := by
  decide +kernel

theorem test_words_of_predicates_and_moves :
    allTrue [
      dec 0b0011011_1001101_1000110_1001000_100_0 (.isetp 9 5 70 72) 4,
      dec 0b0011100_0000101_0001101_0001110_010_0 (.pand 5 1 5 1 6) 2,
      dec 0b0011100_0001101_0001001_0001001_001_0 (.por 5 1 1 1 1) 1,
      dec 0b0011100_0010101_0001110_0001001_100_0 (.pxor 5 1 6 1 1) 4,
      dec 0b0011100_0011101_0001101_0000000_010_0 (.pnot 5 1 5) 2,
      decC 0b0011101_1000001_0100001_0000110_001_1 (.sel 65 33 6) 1,
      dec 0b0011110_0000011_1000110_0000000_100_0 (.mov 3 70) 4,
      dec 0b0011111_1100010_1000110_1000101_010_0 (.movi 98 9029) 2,
      dec 0b0100000_1000001_0000000_0000010_001_0 (.movhi 65 2) 1,
      dec 0b0100001_0000011_0000000_0000001_100_0 (.rdsp 3 1) 4,
      dec 0b0100010_0000000_0000101_0010101_010_0 (.wrsp 5 21) 2,
      dec 0b0100011_0000010_0100001_0010001_001_0 (.ixset 2 33 17) 1,
      dec 0b0100100_0000010_0000000_1001000_100_0 (.ixadd 2 72) 4] = true := by
  decide +kernel

theorem test_words_of_control :
    allTrue [
      dec 0b0100101_1010101_0101010_1010001_010_0 (.bra 1398097) 2,
      dec 0b0100110_0000000_1000110_0000000_001_0 (.brx 70) 1,
      dec 0b0100111_1111111_1111111_1111110_100_0 (.call 2097150) 4,
      dec 0b0101000_1010101_0101010_1010001_010_0 (.meet 1398097) 2,
      dec 0b0101001_1100010_0000000_0000000_001_0 (.meetx 98) 1,
      dec 0b0101001_0000000_0000101_0000001_100_0 (.meetr 5) 4,
      dec 0b0101011_0000000_0100001_0000000_010_0 (.ret 33) 2,
      dec 0b0101011_0000000_0000000_0000001_001_0 (.exit) 1,
      dec 0b0101011_0000000_0000000_0000010_100_0 (.yield) 4,
      dec 0b0101100_0000000_0000000_0000110_010_0 (.trap 6) 2,
      dec 0b0101101_0000000_0000000_0001001_001_0 (.brk 9) 1,
      dec 0b0101010_0000011_1011010_1010101_100_0 (.refill 3 5 2 341) 4] = true := by
  decide +kernel

theorem test_words_of_float_arithmetic :
    allTrue [
      dec 0b0110000_1000001_1000110_0000110_100_0 (.faddF32 65 70 6) 4,
      dec 0b0110001_0000011_0000101_0010001_010_0 (.faddF16 3 5 17) 2,
      dec 0b0110010_1100010_0100001_1001000_001_0 (.faddBf16 98 33 72) 1,
      dec 0b0110011_1000001_1000110_0000110_100_0 (.fsubF32 65 70 6) 4,
      dec 0b0110100_0000011_0000101_0010001_010_0 (.fsubF16 3 5 17) 2,
      dec 0b0110101_1100010_0100001_1001000_001_0 (.fsubBf16 98 33 72) 1,
      dec 0b0110110_1000001_1000110_0000110_100_0 (.fmulF32 65 70 6) 4,
      dec 0b0110111_0000011_0000101_0010001_010_0 (.fmulF16 3 5 17) 2,
      dec 0b0111000_1100010_0100001_1001000_001_0 (.fmulBf16 98 33 72) 1,
      decC 0b0111001_1000001_1000110_0000110_100_1 (.ffmaF32 65 70 6) 4,
      decC 0b0111010_0000011_0000101_0010001_010_1 (.ffmaF16 3 5 17) 2,
      decC 0b0111011_1100010_0100001_1001000_001_1 (.ffmaBf16 98 33 72) 1,
      dec 0b0111100_1000001_1000110_0000110_100_0 (.fminF32 65 70 6) 4,
      dec 0b0111101_0000011_0000101_0010001_010_0 (.fminF16 3 5 17) 2,
      dec 0b0111110_1100010_0100001_1001000_001_0 (.fminBf16 98 33 72) 1,
      dec 0b0111111_1000001_1000110_0000110_100_0 (.fmaxF32 65 70 6) 4,
      dec 0b1000000_0000011_0000101_0010001_010_0 (.fmaxF16 3 5 17) 2,
      dec 0b1000001_1100010_0100001_1001000_001_0 (.fmaxBf16 98 33 72) 1,
      dec 0b1000010_0110101_1000110_0000110_100_0 (.fsetpF32 6 5 70 6) 4,
      dec 0b1000011_1001101_0000101_0010001_010_0 (.fsetpF16 9 5 5 17) 2,
      dec 0b1000100_0110101_0100001_1001000_001_0 (.fsetpBf16 6 5 33 72) 1,
      dec 0b1000101_1000001_1000110_0000110_100_0 (.fdivF32 65 70 6) 4,
      dec 0b1000110_0000011_0000101_0010001_010_0 (.fdivF16 3 5 17) 2,
      dec 0b1000111_1100010_0100001_1001000_001_0 (.fdivBf16 98 33 72) 1,
      dec 0b1001000_1000001_1000110_0000110_100_0 (.padd2F16 65 70 6) 4,
      dec 0b1001001_0000011_0000101_0010001_010_0 (.padd2Bf16 3 5 17) 2,
      dec 0b1001010_1100010_0100001_1001000_001_0 (.pmul2F16 98 33 72) 1,
      dec 0b1001011_1000001_1000110_0000110_100_0 (.pmul2Bf16 65 70 6) 4,
      decC 0b1001100_0000011_0000101_0010001_010_1 (.pfma2F16 3 5 17) 2,
      decC 0b1001101_1100010_0100001_1001000_001_1 (.pfma2Bf16 98 33 72) 1] = true := by
  decide +kernel

theorem test_words_of_float_functions :
    allTrue [
      dec 0b1001110_1000001_1000110_0001000_100_0 (.frcp 65 70 2) 4,
      dec 0b1001110_0000011_0000101_0011000_010_0 (.frsq 3 5 2) 2,
      dec 0b1001110_1100010_0100001_0101000_001_0 (.fsqrt 98 33 2) 1,
      dec 0b1001110_1000001_1000110_0111000_100_0 (.fexp2 65 70 2) 4,
      dec 0b1001110_0000011_0000101_1001000_010_0 (.flog2 3 5 2) 2,
      dec 0b1001110_1100010_0100001_1011000_001_0 (.fsin 98 33 2) 1,
      dec 0b1001110_1000001_1000110_1101000_100_0 (.fcos 65 70 2) 4,
      dec 0b1001111_0000011_0000101_0100111_010_0 (.fcvt 3 5 9 3) 2,
      dec 0b1001111_1100010_0100001_1100011_001_0 (.frndF32 98 33 3) 1,
      dec 0b1001111_1000001_1000110_1100111_100_0 (.frndF16 65 70 3) 4,
      dec 0b1001111_0000011_0000101_1101011_010_0 (.frndBf16 3 5 3) 2,
      dec 0b1001111_0110101_0100001_1101100_001_0 (.fclassF32 6 5 33) 1,
      dec 0b1001111_1001101_1000110_1110000_100_0 (.fclassF16 9 5 70) 4,
      dec 0b1001111_0110101_0000101_1110100_010_0 (.fclassBf16 6 5 5) 2] = true := by
  decide +kernel

theorem test_words_of_cross_lane :
    allTrue [
      dec 0b1010000_1100010_0100001_0000110_001_0 (.xchIdx 98 33 6) 1,
      dec 0b1010001_1000001_1000110_0101010_100_0 (.xchUp 65 70 42) 4,
      dec 0b1010010_0000011_0000101_0000001_010_0 (.xchDown 3 5 1) 2,
      dec 0b1010011_1100010_0100001_0010101_001_0 (.xchXor 98 33 21) 1,
      dec 0b1010100_1000001_0001101_0000100_100_0 (.vote 65 1 5 4) 4,
      dec 0b1010101_0000011_1000110_0010001_010_0 (.bcast 3 70 17) 2,
      dec 0b1010110_1100010_0000101_0000001_001_0 (.bcastImm 98 5 1) 1,
      dec 0b1010111_1000001_0100001_1010000_100_0 (.gred 65 33 10) 4,
      dec 0b1011000_0000011_1000110_1010001_010_0 (.gscan 3 70 10 1) 2,
      dec 0b1011001_1100010_0000101_0000001_001_0 (.dualget 98 5 1) 1,
      dec 0b1011010_1000001_0100001_0010101_100_0 (.dualset 65 33 21) 4,
      dec 0b1011011_0000011_0000000_0000000_010_0 (.dualzero 3) 2] = true := by
  decide +kernel

theorem test_words_of_memory :
    allTrue [
      dec 0b1100000_1100010_1000110_0100010_001_0 (.ld 98 70 2 2) 1,
      dec 0b1100001_1000001_0000101_0100010_100_0 (.st 65 5 2 2) 4,
      dec 0b1100010_0000011_0100001_0101010_010_0 (.ldm 3 33 2 1 2) 2,
      dec 0b1100011_1100010_1000110_0101001_001_0 (.stm 98 70 2 1 1) 1,
      decC 0b1100100_1000001_0000101_1001000_100_1 (.atom 65 5 72) 4,
      decC 0b1100101_0000011_0100001_0000110_010_1 (.cas 3 33 6) 2,
      decC 0b1100110_1100010_1000110_0010001_001_1 (.cas128 98 70 17) 1,
      decC 0b1100111_0000000_0000000_0000000_100_1 (.fence) 4,
      dec 0b1100111_0000001_0000101_0000001_010_0 (.pref 1 5) 2] = true := by
  decide +kernel

theorem test_words_of_synchronization :
    allTrue [
      dec 0b1101000_0010101_0100001_0000000_001_0 (.bufdcl 21 33) 1,
      dec 0b1101000_0101010_0000001_0000001_100_0 (.bufset 42 1) 4,
      dec 0b1101000_1000001_1000110_0000010_010_0 (.bufq 65 70) 2,
      dec 0b1101001_0000011_0000101_0000000_001_0 (.barinit 3 5) 1,
      dec 0b1101001_1100010_0100001_0000001_100_0 (.barexp 98 33) 4,
      dec 0b1101001_1000001_1000110_0000010_010_0 (.bararv 65 70) 2,
      dec 0b1101001_0000011_0000101_0000011_001_0 (.barwait 3 5) 1,
      dec 0b1101001_1100010_0100001_0000100_100_0 (.bartest 98 33) 4,
      dec 0b1101001_0000000_0000000_0000101_010_0 (.tsync) 2,
      dec 0b1101001_1000001_1000110_0000110_001_0 (.cbararv 65 70) 1,
      dec 0b1101001_0000011_0000101_0000111_100_0 (.cbarwait 3 5) 4,
      dec 0b1101010_0000001_0100001_0000000_010_0 (.aqload 1 33) 2,
      dec 0b1101010_0000000_1000110_0000001_001_0 (.aqstart 70) 1,
      dec 0b1101010_0000000_0000101_0000010_100_0 (.aqstop 5) 4,
      dec 0b1101010_0000000_0100001_0000011_010_0 (.qflush 33) 2,
      dec 0b1101010_0000011_1000110_0000100_001_0 (.itempush 3 70) 1] = true := by
  decide +kernel

theorem test_words_of_matrix :
    allTrue [
      dec 0b1110000_1100010_0000000_0000000_100_0 (.mma 98) 4,
      dec 0b1110001_1000001_0000000_0000000_010_0 (.mmas 65) 2,
      dec 0b1110010_1010101_0000000_0000000_001_0 (.mmz 1 21) 1,
      dec 0b1110010_1101010_0000101_0000001_100_0 (.accld 1 42 5) 4,
      dec 0b1110010_0000001_0100001_0000010_010_0 (.accst 1 33) 2,
      dec 0b1110010_0000010_0101011_0000011_001_0 (.accmv 2 43) 1,
      dec 0b1110010_1000010_0101011_0000100_100_0 (.accadd 1 2 43) 4,
      dec 0b1110011_0000101_1000110_0000000_010_0 (.omset 5 70) 2,
      dec 0b1110100_0001010_0000101_0000000_001_0 (.mstcfg 10 5) 1,
      dec 0b1110100_0000001_0100001_0000001_100_0 (.msign 1 33) 4,
      dec 0b1110101_0000000_0000000_0000000_010_0 (.mmwait) 2,
      dec 0b1110101_0000011_0000001_0000001_001_0 (.mmstat 3 1) 1] = true := by
  decide +kernel

theorem test_words_of_copy :
    allTrue [
      decC 0b1111000_0000110_1000110_0000000_100_1 (.cpy 6 70) 4,
      decC 0b1111000_0001001_0000101_0000001_010_1 (.cpyt 9 5) 2,
      decC 0b1111000_0000110_0100001_0000010_001_1 (.cpyo 6 33) 1,
      decC 0b1111000_0001001_1000110_0000011_100_1 (.cpyg 9 70) 4,
      decC 0b1111000_0000110_0000101_0000100_010_1 (.cpys 6 5) 2,
      decC 0b1111000_0001001_0100001_0000101_001_1 (.cpyfill 9 33) 1,
      decC 0b1111000_0000110_1000110_0000110_100_1 (.cmcast 6 70) 4,
      dec 0b1111001_0001001_0000101_0000000_010_0 (.chwait 9 5) 2,
      dec 0b1111001_1100010_0010110_0000001_001_0 (.chstat 98 1 6) 1,
      dec 0b1111010_0010101_0100001_0000000_100_0 (.fmtset 21 33) 4,
      dec 0b1111010_1000001_0001010_0000001_010_0 (.fmtget 65 10) 2,
      decC 0b1111011_0001001_1000110_0000000_001_1 (.cpyp 9 70) 1,
      decC 0b1111011_0000110_0000101_0000001_100_1 (.psig 6 5) 4] = true := by
  decide +kernel

theorem test_words_of_near_bank :
    allTrue [
      dec 0b1111100_0000011_0100001_0000000_010_0 (.nbaxpy 3 33) 2,
      dec 0b1111100_1100010_1000110_0000001_001_0 (.nbscal 98 70) 1,
      dec 0b1111100_1000001_0000101_0000010_100_0 (.nbadd 65 5) 4,
      dec 0b1111100_0000011_0100001_0000011_010_0 (.nbmul 3 33) 2,
      dec 0b1111100_1100010_1000110_0000100_001_0 (.nbdot 98 70) 1,
      dec 0b1111100_1000001_0000101_0000101_100_0 (.nbgemv 65 5) 4,
      dec 0b1111100_0000011_0100001_0000110_010_0 (.nbcopy 3 33) 2,
      dec 0b1111100_1100010_1000110_0000111_001_0 (.nbred 98 70) 1,
      dec 0b1111100_1000001_0000101_0001000_100_0 (.nbfill 65 5) 4,
      dec 0b1111100_0000011_0100001_0001001_010_0 (.nbld 3 33) 2,
      dec 0b1111100_1100010_1000110_0001010_001_0 (.nbst 98 70) 1,
      decC 0b1111100_1000001_0000101_0001011_100_1 (.nbfence 65 5) 4] = true := by
  decide +kernel

theorem test_words_of_system :
    allTrue [
      dec 0b1111101_0000011_0100001_0000000_010_0 (.rnginit 3 33) 2,
      dec 0b1111101_1100010_1000110_0000001_001_0 (.grab 98 70) 1,
      dec 0b1111101_1000001_0000101_0000010_100_0 (.launch 65 5) 4,
      dec 0b1111101_0000000_0100001_0000011_010_0 (.join 33) 2,
      dec 0b1111101_0000011_1000110_0000100_001_0 (.lstat 3 70) 1,
      dec 0b1111101_0000000_0000101_0000101_100_0 (.sethdlr 5) 4,
      dec 0b1111101_0000000_0100001_0000110_010_0 (.trapret 33) 2,
      dec 0b1111101_1100010_1000110_0000111_001_0 (.rdcause 98 70) 1,
      dec 0b1111101_1000001_0000101_0001000_100_0 (.probe 65 5) 4,
      dec 0b1111101_0000011_0000000_0001001_010_0 (.seqnew 3) 2,
      dec 0b1111101_1100010_0100001_0001010_001_0 (.seqend 98 33) 1] = true := by
  decide +kernel

/-- R67 to R70: opcodes and selecting fields that the map does not list. -/
theorem test_words_undefined :
    allTrue ([0x2E, 0x2F, 0x5C, 0x5F, 0x6B, 0x6F, 0x76, 0x77, 0x7E, 0x7F].map fun op => decodeWords [BitVec.ofNat 32 (op * 2 ^ 25)] == .error .illegalOpcode) = true ∧
    allTrue ([(0x1A, 4), (0x29, 2), (0x2B, 3), (0x4E, 112), (0x4F, 120), (0x54, 5), (0x57, 88), (0x67, 2), (0x68, 3), (0x69, 8), (0x6A, 5), (0x72, 5), (0x74, 2), (0x75, 2), (0x78, 7),
      (0x79, 2), (0x7A, 2), (0x7B, 2), (0x7C, 12), (0x7D, 11)].map fun x => decodeWords [BitVec.ofNat 32 (x.1 * 2 ^ 25 + 16 * x.2)] == .error .illegalOpcode) = true := by
  decide +kernel

/-- R56, R68: a register field that is not used, and a reserved field, must be 0. -/
theorem test_words_reserved :
    allTrue [decodeWords [0b0000000_0000000_0000000_0000001_000_0] == .error (.illegalField (.nop t0)), decodeWords [0b0011110_0000011_0000101_0000001_000_0] == .error (.illegalField (.mov 3 5 t0)),
      decodeWords [0b1001110_0000011_0000101_000_00_01_000_0] == .error (.illegalField (.frcp 3 5 0 t0)), decodeWords [0b1100000_0000011_0000101_1_00_0100_000_0] == .error (.illegalField (.ld 3 5 0 4 t0)),
      decodeWords [0b0000001_0000011_0000001_0000010_100_1] == .error .truncated] = true := by
  decide +kernel

/-- R58 to R63: the fields of one modifier word of each kind; a second word of a kind, a reserved kind and a reserved bit. -/
theorem test_modifier_words :
    allTrue [Arith.of 0b000_1_0_0_1_1_0_10_1_101010_1_0_101_0001001_0_0 == ⟨true, false, false, true, true, false, 2, true, 0b101010, true, false, 5, 9⟩,
      (Mods.none.add 0b001_10_1000001_0000000000000000000_0).any (fun m => m.index == some (2, 65)), (Mods.none.add 0b010_0101_0001000_00000000000000000_0).any (fun m => m.dual == some (5, 8)),
      (Mods.none.add 0b011_011_110_0000000000000000000000_0).any (fun m => m.order == some (3, 6)), (Mods.none.add 0b100_1111111111111111111111111110_0).any (fun m => m.ext == some (-2)),
      ((Mods.none.add 0b001_10_1000001_0000000000000000000_0).bind fun m => m.add 0b001_00_0000000_0000000000000000000_0).isNone, (Mods.none.add 0b101_0000000000000000000000000000_0).isNone,
      (Mods.none.add 0b001_10_1000001_0000000000000000001_0).isNone, (Mods.none.add 0b011_101_000_0000000000000000000000_0).isNone] = true := by
  decide +kernel

/-! ## Terms that are not well formed: one for each check -/

/-- The chain of modifier words: one that says that another follows, one that follows none, and the word that is required. -/
theorem ill_tails :
    allTrue ([.iadd 3 1 2 ⟨0, [1]⟩, .iadd 3 1 2 ⟨0, [2, 2]⟩, .imad 3 1 2 t0, .sel 3 1 2 t0, .cas 3 1 2 t0, .fence t0, .cpy 1 2 t0, .nbfence 3 1 t0, .ffmaBf16 3 1 2 t0].map fun i => !Instr.wf i) = true := by
  decide +kernel

/-- Selecting fields. -/
theorem ill_fields :
    allTrue ([.fcvt 3 1 24 0 t0, .vote 3 0 0 5 t0, .gred 3 1 11 t0, .gscan 3 1 11 0 t0].map fun i => !Instr.wf i) = true := by decide +kernel

/-- Numbers of sub-cores, slots, streams, cores, devices, contexts, queues, channels, stacks, pairs and dies. -/
theorem ill_numbers :
    allTrue ([.runBegin 768, .loadReturn 12288 0, .storeFifoPerform 12288, .impreciseStoreTrap 12288, .streamFill 12288 0, .streamFill 0 8, .coalescerClose 64 0, .preempt 64 1 0, .preempt 0 1025 0,
      .preempt 0 1 16, .resume 64 1 0, .worldChange 64 0, .groupRetire 12288, .itemQueueGrab 64 0, .itemQueueGrab 0 192, .matrixStep 64 0, .matrixComplete 64 0, .copyRow 0 16, .copyComplete 0 16,
      .nbColumn 8 0, .nbColumn 0 2048, .walkStep 2 0, .clusterPlace 2, .queueSlotGrant 1025 0, .packetFetch 1025 0, .dispatch 1025 0, .write 1025 0, .signal 1025 0, .wait 1025 0, .waitReevaluate 1025 0,
      .writeSignal 1025 0, .fencePacket 1025 0, .indirect 1025 0, .sequenceEnd 1025 0, .sequenceDrainDone 12288, .kick 1025 0 0, .kick 1 0 (2 ^ 32), .queueSlotRelease 1025 0, .progressHang 1025 0,
      .progressHang 1 16, .nbQueueFailure 8 0, .nbQueueFailure 0 2048].map fun i => !Instr.wf i) = true := by decide +kernel

/-- Victims and the participants that take them. -/
theorem ill_victims :
    allTrue ([.coreKill 64 ⟨1, none⟩, .coreKill 0 ⟨1025, none⟩, .coreDrain 0 ⟨1, some 16⟩, .matrixKill 64 ⟨1, none⟩, .matrixDrain 64 ⟨1, none⟩, .casterKill 64 ⟨1, none⟩, .casterDrain 64 ⟨1, none⟩,
      .nearbankKill 2 ⟨1, none⟩, .nearbankDrain 2 ⟨1, none⟩, .walkerKill 2 ⟨1, none⟩, .walkerDrain 2 ⟨1, none⟩, .qslotKill ⟨1025, none⟩, .qslotDrain ⟨1, some 16⟩, .endpointKill ⟨1025, none⟩,
      .endpointDrain ⟨1, some 16⟩, .killAck 0 ⟨1025, none⟩, .killAckTimeout 0 ⟨1, some 16⟩].map fun i => !Instr.wf i) = true := by decide +kernel

/-- Requests of the Stack Port and commands of the engines: each field of the header, the lengths of data, and codes. -/
theorem ill_ports :
    allTrue ([.rd64 ⟨8, 0, 0, 0, 0, false⟩, .rd64 ⟨0, 1024, 0, 0, 0, false⟩, .rd256 ⟨0, 0, 2 ^ 40, 0, 0, false⟩, .rd256 ⟨0, 0, 0, 4096, 0, false⟩, .cfgrd ⟨0, 0, 0, 0, 2 ^ 59, false⟩, .wr64 ⟨0, 0, 0, 0, 0, false⟩ [] 0, .wr256 ⟨0, 0, 0, 0, 0, false⟩ [],
      .cfgwr ⟨0, 0, 0, 0, 0, false⟩ [], .nbcmd ⟨0, 0, 0, 0, 0, false⟩ [], .nbdrain ⟨8, 0, 0, 0, 0, false⟩, .patset ⟨⟨8, 0, 0, 0, 0, false⟩, List.replicate 32 0⟩, .patset ⟨⟨0, 0, 0, 0, 0, false⟩, []⟩, .stackPortBadcmd ⟨0, 0, 0, 0, 0, false⟩ 64, .stackPortBadcmd ⟨0, 0, 0, 0, 0, false⟩ 1, .rasread ⟨8, 0, 0, 0, 0, 0⟩,
      .patrol ⟨0, 65536, 0, 0, 0, 0⟩, .patstat ⟨8, 0, 0, 0, 0, 0⟩, .patstat ⟨0, 0, 0, 0, 1024, 0⟩, .patstat ⟨0, 0, 0, 0, 0, 4096⟩, .engstat ⟨8, 0, 0, 0, 0, 0⟩, .imgchunk ⟨0, 0, 0, 0, 0, 0⟩ [], .imgact ⟨8, 0, 0, 0, 0, 0⟩, .qreset ⟨8, 0, 0, 0, 0, 0⟩, .engcmdBadop ⟨0, 0, 0, 0, 0, 0⟩ 7, .engcmdBadop ⟨0, 0, 0, 0, 0, 0⟩ 256,
      .channelRecalibrate 8 0, .channelRecalibrate 0 32, .patrolRead 8, .baseDieEngineHang 8].map fun i => !Instr.wf i) = true := by decide +kernel

/-- Links, dies, registers, the lock, power, requesters and ports. -/
theorem ill_service :
    allTrue ([.rowLinkFlit 10 true, .linkRetrainTimeout 10, .linkRetrainDone 10, .ioLinkCut 2, .rowLinkRecal 10, .walkTimeout 2 0, .remoteTimeout 1025 0, .remoteTimeout 1 16, .compactWaitExpiry 64,
      .qctlReset 1025 0, .queueEnable 1025 0 true, .contextEnable 1025 0, .contextEnable 1 16, .contextTeardown 1025 0, .worldReportRequest 1025, .registerWrite 4096 0 1 0, .registerWrite 1 65536 1 0,
      .registerWrite 1 0 3 0, .registerWrite 1 2 4 0, .registerWrite 1 0 1 256, .functionLevelReset 1025, .bucketEmpty 1025, .bucketRecover 1025, .acquire 2, .renew 2, .release 2, .powercapWrite 2 1200,
      .powercapWrite 0 1199, .powercapWrite 0 2801, .fabricFlitSend 16, .fabricFlitReceive 16 true true, .creditFlit 16 [] false, .fabricRecal 16, .fabricRouteTimeout 1025 0, .fabricRouteTimeout 1 16,
      .peerRequest 0 16 0 0 [], .hostPoisonedRequest 65536, .hostMemoryWrite (2 ^ 64) [0], .spdmRequest 2 []].map fun i => !Instr.wf i) = true := by decide +kernel

/-- Requesters of management commands. -/
theorem ill_requesters :
    allTrue ([.create 2, .configure 2, .start 2, .stop 2, .reset 2, .destroy 2, .profileRead 2, .meterRead 2, .ctxKill 2, .s2map 2, .s2unmap 2, .waymapSet 2, .profileSet 2, .epBind 2, .epUnbind 2, .routeSet 2,
      .pkgidSet 2, .portKey 2, .backingGrant 2, .retireCore 2, .retireRow 2, .rebuildMirror 2, .recoverBoundary 2, .updateWrite 2, .updateActivate 2, .updateCommit 2, .errlogRead 2,
      .undefinedCommand 2].map fun i => !Instr.wf i) = true := by decide +kernel

end Sys2Proof.Tests
end

namespace Sys2Proof.Machine
open Sys2Proof

/-! ## The memory is left as it was: functions of the model that touch no byte of it -/

@[simp] theorem foldl_mem {α} (f : State → α → State) (hf : ∀ s x, (f s x).mem = s.mem) (xs : List α) (s : State) :
    (xs.foldl f s).mem = s.mem := by
  induction xs generalizing s with
  | nil => rfl
  | cons x xs ih => rw [List.foldl_cons, ih, hf]

@[simp] theorem ite_mem {c : Prop} [Decidable c] (s u : State) : (if c then s else u).mem = if c then s.mem else u.mem := apply_ite ..
@[simp] theorem State.draw_mem (s : State) : s.draw.2.mem = s.mem := rfl
@[simp] theorem State.setStack_mem (s : State) (n : Nat) (x : Stack) : (s.setStack n x).mem = s.mem := rfl

theorem eitherDie_mem {α : Type} (s : State) (w : Agent) {f : Agent → State × Except EngStop α} (h : ∀ w, (f w).1.mem = s.mem) :
    (eitherDie w f).1.mem = s.mem := by
  unfold eitherDie
  grind

@[simp] theorem State.interrupt_mem (s : State) (vd n : Nat) : (s.interrupt vd n).mem = s.mem := by
  obtain ⟨v, r, m, d, h⟩ := s.interrupt_rest vd n
  rw [h]

@[simp] theorem State.interruptField_mem (s : State) (vd f : Nat) : (s.interruptField vd f).mem = s.mem := by
  obtain ⟨v, r, m, d, h⟩ := s.interruptField_rest vd f
  rw [h]

/-- One change of several buffers. -/
@[simp] theorem State.modBufs_mem (l : List Nat) (f : Buffer → Buffer) (s : State) : (l.foldl (fun s k => s.modBuf k f) s).mem = s.mem := by
  refine foldl_mem _ (fun s k => ?_) _ _
  rfl

section
variable (s : State)

@[simp] theorem State.endRun_mem (core sc : Nat) : (s.endRun core sc).mem = s.mem := by
  unfold State.endRun
  split <;> simp

@[simp] theorem State.stopGroups_mem (slots : List Nat) : (s.stopGroups slots).mem = s.mem := by
  unfold State.stopGroups
  exact foldl_mem _ (fun s x => by split <;> simp) _ _

@[simp] theorem State.fence_mem (vd ctx : Nat) (c : Cause) : (s.fence vd ctx c).mem = s.mem := by simp [State.fence]

@[simp] theorem State.contain_mem (vd ctx : Nat) (c : Cause) (e : Engine) (addr : Nat) (met : Option (CoalRec × Nat × Nat)) :
    (s.contain vd ctx c e addr met).mem = s.mem := by simp [State.contain]

@[simp] theorem State.containAll_mem (vd : Nat) (c : Cause) (e : Engine) : (s.containAll vd c e).mem = s.mem := by simp [State.containAll]

@[simp] theorem State.reportNode_mem (st level n : Nat) (mirrored : Bool) (owners : List Nat) :
    (s.reportNode st level n mirrored owners).mem = s.mem := by simp [State.reportNode]

@[simp] theorem State.mirrorServed_mem (st spa : Nat) : (s.mirrorServed st spa).mem = s.mem := by
  unfold State.mirrorServed
  split
  · rfl
  · exact foldl_mem _ (fun s x => by simp) _ _

@[simp] theorem State.treeFailed_mem (st spa : Nat) : (s.treeFailed st spa).mem = s.mem := by
  unfold State.treeFailed
  dsimp only
  split_ifs
  · rfl
  · rfl
  · rw [State.reportNode_mem, foldl_mem _ (fun s o => by simp), State.setStack_mem]

@[simp] theorem State.recalibrate_mem (stack ch : Nat) : (s.recalibrate stack ch).mem = s.mem := by
  unfold State.recalibrate State.draw
  dsimp only
  split_ifs <;> simp

@[simp] theorem State.detect_mem (stack spa kind : Nat) : (s.detect stack spa kind).mem = s.mem := by
  unfold State.detect
  dsimp only
  split_ifs <;> simp

@[simp] theorem State.reportSlice_mem (core off : Nat) : (s.reportSlice core off).mem = s.mem := by simp [State.reportSlice]

@[simp] theorem State.sliceError_mem (core off n : Nat) (e : Engine) : (s.sliceError core off n e).mem = s.mem := by
  have hf (l : List Nat) (s : State) : (l.foldl (fun s w => s.reportSlice core (8 * w)) s).mem = s.mem := foldl_mem _ (fun s w => by simp) _ _
  unfold State.sliceError
  split
  · rfl
  · dsimp only
    split
    · rw [State.contain_mem, hf]
    · rw [hf]

@[simp] theorem State.detected_mem (c : Cause) (ps : List (Place × Nat)) : (s.detected c ps).mem = s.mem := by
  unfold State.detected
  exact foldl_mem _ (fun s x => by split <;> simp) _ _

@[simp] theorem State.addRecord_mem (core : Nat) (r : CoalRec) :
    (s.addRecord core r).mem = s.mem := by
  unfold State.addRecord
  dsimp only
  split <;> simp

@[simp] theorem State.coalesce_mem (core : Nat) (r : CoalRec) :
    (s.coalesce core r).1.mem = s.mem := by
  unfold State.coalesce
  dsimp only
  split <;> simp

@[simp] theorem State.containRecord_mem (core : Nat) (r : CoalRec) (e : Engine) (addr : Nat) :
    (s.containRecord core r e addr).mem = s.mem := by simp [State.containRecord]

@[simp] theorem State.containAccess_mem (slot vd ctx : Nat) (c : Cause) (e : Engine) (addr : Nat) (pc : BitVec 56) (replayed : Bool) :
    (s.containAccess slot vd ctx c e addr pc replayed).mem = s.mem := by
  unfold State.containAccess
  split <;> simp

@[simp] theorem State.containEngine_mem (core team vd ctx : Nat) (nums : List Nat) (c : Cause) (e : Engine) (addr : Nat) (pc : BitVec 56)
    (replayed : Bool) :
    (s.containEngine core team vd ctx nums c e addr pc replayed).mem = s.mem := by
  unfold State.containEngine
  dsimp only
  split <;> simp

@[simp] theorem State.containResident_mem (vd ctx : Nat) (c : Cause) :
    (s.containResident vd ctx c).mem = s.mem := by
  unfold State.containResident
  dsimp only
  split <;> simp

@[simp] theorem State.dropWalks_mem (die vd ctx ea : Nat) : (s.dropWalks die vd ctx ea).mem = s.mem := rfl
@[simp] theorem State.settleFailed_mem (team : Nat) : (s.settleFailed team).mem = s.mem := by simp [State.settleFailed]
@[simp] theorem State.discard_mem (core scope : Nat) : (s.discard core scope).mem = s.mem := by simp [State.discard]

@[simp] theorem State.clearKept_mem (slot : Nat) (n : Option Nat) : (s.clearKept slot n).mem = s.mem := by
  unfold State.clearKept
  split <;> simp

@[simp] theorem State.raise_mem (w : Site) (t : Trap) : (s.raise w t).mem = s.mem := by
  unfold State.raise
  grind [= State.detected_mem, = State.containRecord_mem, = State.clearKept_mem, = State.await_mem, = State.coalesce_mem,
    = State.endRun_mem, = State.dropWalks_mem]

@[simp] theorem State.suspendParked_mem (slot seq : Nat) : (s.suspendParked slot seq).mem = s.mem := by simp [State.suspendParked]
@[simp] theorem State.elapse_mem (slot : Nat) : (s.elapse slot).mem = s.mem := rfl

@[simp] theorem State.finish_mem (core sc : Nat) (w : Site) (stall : BitVec 3) (moved : BitVec 64) :
    (s.finish core sc w stall moved).mem = s.mem := by
  unfold State.finish
  dsimp only
  split <;> simp

@[simp] theorem State.unpop_mem (slot : Nat) (g : Group) : (s.unpop slot g).mem = s.mem := rfl
@[simp] theorem Issue.commit_mem (i : Issue) (lat : Option Nat) (cs : List RCell) : (i.commit s lat cs).mem = s.mem := rfl
@[simp] theorem State.fillWalk_mem (die : Nat) (w : Walk) (v : Nat) (bs : List (BitVec 8)) : (s.fillWalk die w v bs).mem = s.mem := rfl

@[simp] theorem State.fillCopies_mem (die : Nat) (x : Xlation) : (s.fillCopies die x).mem = s.mem := by
  unfold State.fillCopies
  exact foldl_mem _ (fun s c => by simp [State.draw]) _ _

@[simp] theorem State.scrubTags_mem (die : Nat) : (s.scrubTags die).mem = s.mem := by simp [State.scrubTags]

@[simp] theorem State.askPager_mem (vd ctx gpa : Nat) (waiter : Option (Nat × Nat)) :
    (s.askPager vd ctx gpa waiter).mem = s.mem := by
  unfold State.askPager
  dsimp only
  split <;> simp

theorem State.park_mem (die : Nat) (f : FaultSlot) (keep : Option Nat) {u : State} {y : Nat} (h : s.park die f keep = some (u, y)) :
    u.mem = s.mem := by
  unfold State.park at h
  grind [= State.askPager_mem, = State.setDie_mem]

@[simp] theorem State.touch_mem (vd g : Nat) : (s.touch vd g).mem = s.mem := by simp [State.touch]

@[simp] theorem State.used_mem (l : Loc) : (s.used l).mem = s.mem := by
  unfold State.used
  split <;> simp

@[simp] theorem State.walkStep_mem (die id : Nat) : (s.walkStep die id).mem = s.mem := by
  unfold State.walkStep State.draw
  dsimp only
  split
  · rfl
  split
  · rfl
  split
  · split <;> simp
  · split <;> simp
  · split
    · next h => simp [State.park_mem _ _ _ _ h]
    · simp
  · simp

@[simp] theorem State.startWalk_mem (die vd ctx ea : Nat) : (s.startWalk die vd ctx ea).1.mem = s.mem := by
  unfold State.startWalk
  grind [= State.scrubTags_mem, = State.setDie_mem]

@[simp] theorem State.walkOut_mem (die id : Nat) (a0 : Nat) : (s.walkOut die id a0).mem = s.mem := by
  induction a0 generalizing s with
  | zero => rfl
  | succ n ih => rw [State.walkOut, ih, State.walkStep_mem]

@[simp] theorem State.lookNow_mem (die vd ctx world : Nat) (k : Access) (ea : Nat) : (s.lookNow die vd ctx world k ea).1.mem = s.mem := by
  unfold State.lookNow
  grind [= State.startWalk_mem, = State.walkOut_mem, = State.dropWalks_mem]

@[simp] theorem State.keepXlations_mem (keep : Xlation → Bool) : (s.keepXlations keep).mem = s.mem := rfl
@[simp] theorem State.invalidate_mem (vd ctx : Nat) : (s.invalidate vd ctx).mem = s.mem := rfl
@[simp] theorem State.invalidateGranule_mem (vd g : Nat) : (s.invalidateGranule vd g).mem = s.mem := rfl

@[simp] theorem State.pagerRecord_mem (slot : Nat) (g : Group) (ea : Nat) (pc : BitVec 56) (replayed : Bool) :
    (s.pagerRecord slot g ea pc replayed).1.mem = s.mem := rfl

theorem State.parkCore_mem (slot : Nat) (g : Group) (e : Engine) (wr : Bool) (ea gpa : Nat) (pc : BitVec 56) (keep : Option Nat) {u : State}
    {y : Nat} (h : s.parkCore slot g e wr ea gpa pc keep = some (u, y)) :
    u.mem = s.mem := by
  unfold State.parkCore at h
  exact (State.park_mem _ _ _ _ h).trans (State.setCore_mem ..)

@[simp] theorem State.parkGroup_mem (slot : Nat) (g : Group) (e : Engine) (wr : Bool) (ea gpa : Nat) :
    (s.parkGroup slot g e wr ea gpa).mem = s.mem := by
  unfold State.parkGroup
  grind [State.parkCore_mem, = State.dropWalks_mem, = State.endRun_mem]

@[simp] theorem State.usedFetch_mem (slot : Nat) (g : Group) (pc : BitVec 56) (n : Nat) : (s.usedFetch slot g pc n).mem = s.mem := by
  unfold State.usedFetch
  exact foldl_mem _ (fun s x => by split <;> simp) _ _

@[simp] theorem State.modCluster_mem (c : Nat) (f : Cluster → Cluster) : (s.modCluster c f).mem = s.mem := rfl
@[simp] theorem State.moveStep_mem (taker giver : Nat) : (s.moveStep taker giver).mem = s.mem := by simp [State.moveStep]
@[simp] theorem State.moveSteps_mem (m : Nat) (cores : List Nat) : (s.moveSteps m cores).mem = s.mem := by simp [State.moveSteps]
@[simp] theorem State.lagArrive_mem (team key : Nat) : (s.lagArrive team key).mem = s.mem := rfl

@[simp] theorem State.lagEvent_mem (cl key : Nat) : (s.lagEvent cl key).mem = s.mem := by
  unfold State.lagEvent
  split <;> simp

@[simp] theorem State.lagFlip_mem (key : Nat) : (s.lagFlip key).mem = s.mem := by simp [State.lagFlip]

@[simp] theorem State.lagTsync_mem (team n : Nat) : (s.lagTsync team n).mem = s.mem := by
  unfold State.lagTsync
  dsimp only
  split <;> simp

@[simp] theorem State.dropL1_mem (p : Place) (n : Nat) : (s.dropL1 p n).mem = s.mem := rfl
@[simp] theorem State.dropPeerCopies_mem (p : Place) (n : Nat) : (s.dropPeerCopies p n).mem = s.mem := rfl
@[simp] theorem Issue.change_mem (i : Issue) (f : Group → Group) : (i.change s f).mem = s.mem := rfl

@[simp] theorem State.sendPeer_mem (slot tag : Nat) (parts : List (Nat × Acc × Loc)) (rmw : Bool) :
    (s.sendPeer slot tag parts rmw).mem = s.mem := rfl

@[simp] theorem State.dropPeer_mem (id : Nat) : (s.dropPeer id).mem = s.mem := rfl
@[simp] theorem State.fillPeer_mem (die : Nat) (parts : List (Nat × Acc × Loc)) (bs : List (BitVec 8)) :
    (s.fillPeer die parts bs).mem = s.mem := rfl
@[simp] theorem State.fillL1_mem (core : Nat) (here : Loc) (bs : List (BitVec 8)) : (s.fillL1 core here bs).mem = s.mem := rfl

theorem State.readCoherent_mem (core v : Nat) (l : Loc) (n : Nat) {u : State} {y : List (BitVec 8)} (h : s.readCoherent core v l n = .ok (u, y)) :
    u.mem = s.mem := by
  unfold State.readCoherent at h
  grind [= State.fillL1_mem, = State.setDie_mem]

theorem State.readHere_mem (slot : Nat) (g : Group) (seq v : Nat) (l : Loc) (n : Nat) {u : State} {y : List (BitVec 8)} {z : List Nat}
    (h : s.readHere slot g seq v l n = .ok (u, y, z)) :
    u.mem = s.mem := by
  unfold State.readHere at h
  grind [State.readCoherent_mem]

@[simp] theorem Issue.enterLoad_mem (i : Issue) (ty : Nat) (accs : List (Acc × Dest)) (locs : List Loc) (got : Table (List (BitVec 8)))
    (pp : Nat) (deferred : Bool) :
    (i.enterLoad s ty accs locs got pp deferred).mem = s.mem := rfl

theorem State.readAcc_mem (slot : Nat) (g : Group) (ld : Load) (v n : Nat) (a : Acc) {u : State} {y : List (BitVec 8)} {z : List Nat}
    (h : s.readAcc slot g ld v n a = .ok (u, y, z)) :
    u.mem = s.mem := by
  unfold State.readAcc at h
  grind [State.readHere_mem]

theorem State.readHalf_mem (slot : Nat) (g : Group) (ld : Load) {u : State} (h : s.readHalf slot g ld = some u) : u.mem = s.mem := by
  unfold State.readHalf at h
  grind [State.readHere_mem]

theorem State.readAccs_mem (slot : Nat) (g : Group) (ld : Load) (v : Nat) (a0 : Nat) (a1 : List (Acc × Dest)) {u : State} {y : List RCell}
    {z : List Nat} (h : s.readAccs slot g ld v a0 a1 = .ok (u, y, z)) :
    u.mem = s.mem := by
  induction a1 generalizing s a0 u y z with
  | nil => simp_all [State.readAccs]
  | cons p ps ih =>
    unfold State.readAccs at h
    grind [State.readAcc_mem, = State.used_mem]

@[simp] theorem State.tsyncRelease_mem (team : Nat) : (s.tsyncRelease team).mem = s.mem := by simp [State.tsyncRelease]

@[simp] theorem State.updateCopies_mem (core : Nat) (p : Nat × Acc × Loc) :
    (s.updateCopies core p).mem = s.mem := by
  unfold State.updateCopies
  dsimp only
  split <;> simp

@[simp] theorem State.forgetCopies_mem (core : Nat) (p : Nat × Acc × Loc) : (s.forgetCopies core p).mem = s.mem := rfl

@[simp] theorem Issue.enterFifo_mem (i : Issue) (kind : FifoKind) (accs : List Acc) (locs : List Loc) (load : Option Nat) (seq : Nat) :
    (i.enterFifo s kind accs locs load seq).mem = s.mem := rfl

@[simp] theorem State.putInFlight_mem (slot : Nat) (g : Group) (e : FifoEntry) (parts : List (Nat × Acc × Loc)) :
    (s.putInFlight slot g e parts).mem = s.mem := by
  unfold State.putInFlight
  split <;> simp

@[simp] theorem State.landFlight_mem (id : Nat) : (s.landFlight id).mem = s.mem := rfl

@[simp] theorem State.peerTouched_mem (core : Nat) (kind : FifoKind) (parts : List (Nat × Acc × Loc)) (olds : Table (List (BitVec 8))) :
    (s.peerTouched core kind parts olds).mem = s.mem := by
  unfold State.peerTouched
  exact foldl_mem _ (fun s x => by split <;> simp) _ _

@[simp] theorem Issue.setBuf_mem (i : Issue) (n : Nat) (b : Option Buffer) : (i.setBuf s n b).mem = s.mem := rfl
@[simp] theorem Issue.writeOnce_mem (i : Issue) (d : RegField) (ws : List Word) : (i.writeOnce s d ws).mem = s.mem := rfl
@[simp] theorem State.afterBarrier_mem (i : Issue) : (s.afterBarrier i).mem = s.mem := by simp [State.afterBarrier]

@[simp] theorem State.agentLoc_mem (w : Agent) (k : Access) (ea : Nat) : (s.agentLoc w k ea).1.mem = s.mem := by
  unfold State.agentLoc
  grind [= State.lookNow_mem, = State.used_mem, = State.dropWalks_mem]

@[simp] theorem State.agentLocs_mem (w : Agent) (k : Access) (a0 : List (Nat × Nat)) : (s.agentLocs w k a0).1.mem = s.mem := by
  induction a0 generalizing s with
  | nil => rfl
  | cons p ps ih =>
    unfold State.agentLocs
    grind [= State.agentLoc_mem]

@[simp] theorem State.agentPeers_mem (w : Agent) (ls : List (Nat × Nat × Loc)) : (s.agentPeers w ls).1.mem = s.mem := by
  unfold State.agentPeers
  dsimp only
  split
  · refine foldl_mem _ (fun s x => ?_) _ _
    rfl
  · split
    · rfl
    · split <;> rfl

@[simp] theorem State.agentRead_mem (w : Agent) (ea n : Nat) : (s.agentRead w ea n).1.mem = s.mem := by
  unfold State.agentRead
  grind [State.agentLocs_mem, State.agentPeers_mem, = State.detected_mem]

theorem State.agentPark_mem (w : Agent) (write : Bool) (ea gpa : Nat) (keep : Option Nat) {u : State} {y : Nat}
    (h : s.agentPark w write ea gpa keep = some (u, y)) :
    u.mem = s.mem := by
  unfold State.agentPark at h
  grind [State.park_mem]

@[simp] theorem State.rowLocs_mem (w : Agent) (team : Nat) (u : Option BufUse) (k : Access) (ea n : Nat) :
    (s.rowLocs w team u k ea n).1.mem = s.mem := by
  unfold State.rowLocs
  grind [= State.agentLocs_mem]

@[simp] theorem State.rowsLocs_mem (w : Agent) (team : Nat) (u : Option BufUse) (k : Access) (a0 : List (Nat × Nat)) :
    (s.rowsLocs w team u k a0).1.mem = s.mem := by
  induction a0 generalizing s with
  | nil => rfl
  | cons p ps ih =>
    unfold State.rowsLocs
    grind [= State.rowLocs_mem]

@[simp] theorem State.readRows_mem (w : Agent) (rows : List (List (Nat × Nat × Loc))) : (s.readRows w rows).1.mem = s.mem := by
  unfold State.readRows
  grind [= State.agentPeers_mem]

@[simp] theorem State.unitRead_mem (w : Agent) (team : Nat) (u : Option BufUse) (rows : List (Nat × Nat)) :
    (s.unitRead w team u rows).1.mem = s.mem := by
  unfold State.unitRead
  grind [= State.rowsLocs_mem, = State.readRows_mem]

@[simp] theorem State.keepFor_mem (team : Nat) (signers : List Nat) (k : Kept) : (s.keepFor team signers k).mem = s.mem := rfl

@[simp] theorem State.enqueueOp_mem (core : Nat) (o : MatrixOp) : (s.enqueueOp core o).mem = s.mem := by
  unfold State.enqueueOp
  split <;> simp

@[simp] theorem Issue.issueOp_mem (i : Issue) (kind : MatKind) (q : BitVec 128) (maps : List (BitVec 128)) :
    (i.issueOp s kind q maps).mem = s.mem := by simp [Issue.issueOp]

@[simp] theorem State.musterIssue_mem (core team m : Nat) (x : Muster) : (s.musterIssue core team m x).mem = s.mem := by simp [State.musterIssue]
@[simp] theorem State.musterRetire_mem (team num : Nat) : (s.musterRetire team num).mem = s.mem := by simp [State.musterRetire]

@[simp] theorem State.sparseMaps_mem (w : Agent) (o : MatrixOp) (offA offB : Int) : (s.sparseMaps w o offA offB).1.mem = s.mem := by
  unfold State.sparseMaps
  grind [= State.unitRead_mem]

@[simp] theorem State.putPlane_mem (team tile j : Nat) (p : List Word) (fl : BitVec 6) : (s.putPlane team tile j p fl).mem = s.mem := rfl

@[simp] theorem State.denseStep_mem (w : Agent) (o : MatrixOp) : (s.denseStep w o).1.mem = s.mem := by
  unfold State.denseStep
  grind [State.rowsLocs_mem, State.readRows_mem, = State.putPlane_mem]

@[simp] theorem State.packedLocs_mem (w : Agent) (team : Nat) (a0 : List (Nat × Nat)) : (s.packedLocs w team a0).1.mem = s.mem := by
  induction a0 generalizing s with
  | nil => rfl
  | cons p ps ih =>
    unfold State.packedLocs
    grind [= State.rowLocs_mem]

@[simp] theorem State.sparseStep_mem (w : Agent) (o : MatrixOp) : (s.sparseStep w o).1.mem = s.mem := by
  unfold State.sparseStep
  grind [State.sparseMaps_mem, State.packedLocs_mem, State.readRows_mem, = State.putPlane_mem]

@[simp] theorem State.putOp_mem (core : Nat) (o : MatrixOp) : (s.putOp core o).mem = s.mem := rfl

@[simp] theorem State.failOp_mem (core : Nat) (o : MatrixOp) (c : Cause) (ea : Nat) : (s.failOp core o c ea).mem = s.mem := by
  unfold State.failOp
  dsimp only
  rw [State.settleFailed_mem, foldl_mem _ (fun s y => by simp)]
  rfl

@[simp] theorem State.assayStep_mem (core : Nat) (w : Agent) (o : MatrixOp) : (s.assayStep core w o).mem = s.mem := by simp [State.assayStep]
@[simp] theorem State.modBuf_mem (key : Nat) (f : Buffer → Buffer) : (s.modBuf key f).mem = s.mem := rfl
@[simp] theorem Issue.acceptCmd_mem (i : Issue) (ch : Nat) (c : CopyCmd) : (i.acceptCmd s ch c).mem = s.mem := rfl

@[simp] theorem State.copyIndex_mem (w : Agent) (team : Nat) (c : CopyCmd) (g : CopyGeo) : (s.copyIndex w team c g).1.mem = s.mem := by
  unfold State.copyIndex
  grind [= State.unitRead_mem]

@[simp] theorem State.copyBytes_mem (w : Agent) (team : Nat) (u : Option BufUse) (rows : List (Nat × Nat)) (got : List (BitVec 8)) :
    (s.copyBytes w team u rows got).1.mem = s.mem := by
  unfold State.copyBytes
  grind [= State.rowsLocs_mem, = State.readRows_mem]

@[simp] theorem State.copySource_mem (w : Agent) (team : Nat) (c : CopyCmd) (g : CopyGeo) (ts : Nat) (idx : List Int) :
    (s.copySource w team c g ts idx).1.mem = s.mem := by
  unfold State.copySource
  grind [= State.readRows_mem, = State.copyBytes_mem]

@[simp] theorem State.putChan_mem (team ch : Nat) (x : Channel) : (s.putChan team ch x).mem = s.mem := rfl
@[simp] theorem State.putCmd_mem (team ch : Nat) (c : CopyCmd) : (s.putCmd team ch c).mem = s.mem := rfl

@[simp] theorem State.freeBufs_mem (c : CopyCmd) : (s.freeBufs c).mem = s.mem := by
  unfold State.freeBufs
  split <;> simp

@[simp] theorem State.failChan_mem (team ch : Nat) (pc : BitVec 56) (replayed : Bool) (c : Cause) (ea : Nat) :
    (s.failChan team ch pc replayed c ea).mem = s.mem := by simp [State.failChan]

@[simp] theorem State.containCopy_mem (team : Nat) (c : CopyCmd) (w : Agent) (cc : Cause) (ea : Nat) :
    (s.containCopy team c w cc ea).mem = s.mem := by simp [State.containCopy]

@[simp] theorem State.rowDone_mem (team ch : Nat) (c : CopyCmd) (g : CopyGeo) (k : Nat) (idx : List Int) (fl : BitVec 6) :
    (s.rowDone team ch c g k idx fl).mem = s.mem := by
  unfold State.rowDone
  dsimp only
  split <;> split <;> simp

@[simp] theorem State.rowParts_mem (w : Agent) (team : Nat) (c : CopyCmd) (g : CopyGeo) (ts : Nat) : (s.rowParts w team c g ts).1.mem = s.mem := by
  unfold State.rowParts
  grind [= State.copyIndex_mem, = State.copySource_mem]

@[simp] theorem State.setOwned_mem (team : Nat) (st : OwnState) : (s.setOwned team st).mem = s.mem := rfl
@[simp] theorem State.chargeSpill_mem (vd : Nat) : (s.chargeSpill vd).mem = s.mem := by simp [State.chargeSpill]

@[simp] theorem State.spillGroup_mem (slot : Nat) : (s.spillGroup slot).mem = s.mem := by
  unfold State.spillGroup
  split <;> simp

@[simp] theorem State.takeBlocks_mem (core sub base n team : Nat) : (s.takeBlocks core sub base n team).mem = s.mem := rfl
@[simp] theorem State.receive_mem (slot : Nat) (g : Group) : (s.receive slot g).mem = s.mem := by simp [State.receive]

theorem State.bindQueues_mem (core grid : Nat) {u : State} (h : s.bindQueues core grid = some u) : u.mem = s.mem := by
  unfold State.bindQueues at h
  dsimp only at h
  split at h
  · exact absurd h (by simp)
  · obtain rfl := Option.some.inj h
    refine foldl_mem _ (fun s q => ?_) _ _
    split
    · split <;> simp
    · simp

theorem State.seatGroups_mem (core team : Nat) (g : Grid) (a0 : Nat) (a1 : List Nat) {u : State} {y : List Nat}
    (h : s.seatGroups core team g a0 a1 = some (u, y)) :
    u.mem = s.mem := by
  induction a1 generalizing s a0 u y with
  | nil => simp_all [State.seatGroups]
  | cons m ms ih =>
    unfold State.seatGroups at h
    split at h
    · exact absurd h (by simp)
    · obtain ⟨r, hr, h⟩ := Option.map_eq_some_iff.1 h
      obtain ⟨rfl, -⟩ := Prod.mk.inj h
      simpa using ih _ _ hr

@[simp] theorem State.freeBlocks_mem (slot : Nat) (g : Group) : (s.freeBlocks slot g).mem = s.mem := rfl
@[simp] theorem State.freeFaults_mem (core vd ctx : Nat) : (s.freeFaults core vd ctx).mem = s.mem := rfl

@[simp] theorem State.holdGroup_mem (slot : Nat) : (s.holdGroup slot).mem = s.mem := by
  unfold State.holdGroup
  grind [= State.endRun_mem, = State.setCore_mem]

@[simp] theorem State.holdTeam_mem (team : Nat) : (s.holdTeam team).mem = s.mem := by simp [State.holdTeam]

theorem State.returnBlocks_mem (slot : Nat) (g : Group) {u : State} {y : Nat} (h : s.returnBlocks slot g = some (u, y)) : u.mem = s.mem := by
  unfold State.returnBlocks at h
  dsimp only at h
  split at h
  · simp_all
  · obtain ⟨b, -, h⟩ := Option.map_eq_some_iff.1 h
    obtain ⟨rfl, -⟩ := Prod.mk.inj h
    simp

theorem State.returnGroup_mem (team slot : Nat) {u : State} (h : s.returnGroup team slot = some u) : u.mem = s.mem := by
  unfold State.returnGroup at h
  split at h
  · split_ifs at h
    · obtain ⟨r, hr, rfl⟩ := Option.map_eq_some_iff.1 h
      exact (State.returnBlocks_mem _ _ _ hr : r.1.mem = _)
    · split at h
      · exact absurd h (by simp)
      · obtain ⟨r, hr, rfl⟩ := Option.map_eq_some_iff.1 h
        simpa using (State.returnBlocks_mem _ _ _ hr : r.1.mem = _)
  · split at h
    · simp_all
    · obtain ⟨r, hr, rfl⟩ := Option.map_eq_some_iff.1 h
      simpa using (State.returnBlocks_mem _ _ _ hr : r.1.mem = _)

@[simp] theorem State.compactSub_mem (core sub : Nat) : (s.compactSub core sub).mem = s.mem := by
  unfold State.compactSub
  dsimp only
  rw [foldl_mem _ (fun s m => by split <;> simp), State.setCore_mem, foldl_mem _ (fun s g => by simp)]

theorem State.readParts_mem (slot : Nat) (g : Group) (v : Nat) (got : Table (List (BitVec 8))) (a0 : List (Nat × Acc × Loc)) {u : State}
    {y : List (List (BitVec 8))} {z : List Nat} (h : s.readParts slot g v got a0 = .ok (u, y, z)) :
    u.mem = s.mem := by
  induction a0 generalizing s u y z with
  | nil => simp_all [State.readParts]
  | cons p ps ih =>
    unfold State.readParts at h
    grind [State.readHere_mem]

@[simp] theorem State.forgetStreams_mem (slot : Nat) (named : Nat → Bool) : (s.forgetStreams slot named).mem = s.mem := rfl
@[simp] theorem State.setStream_mem (slot r : Nat) (f : Stream → Stream) : (s.setStream slot r f).mem = s.mem := rfl

theorem State.readEntry_mem (slot : Nat) (g : Group) (v : Nat) (vals : Table (List (BitVec 8))) (parts : List (Nat × Acc × Loc)) {u : State}
    {y : List (List (BitVec 8))} {z : List Nat} (h : s.readEntry slot g v vals parts = .ok (u, y, z)) :
    u.mem = s.mem := by
  unfold State.readEntry at h
  grind [State.readParts_mem]

@[simp] theorem State.stopStream_mem (slot r : Nat) (g : Group) (c : Cause) (ea : DWord) :
    (s.stopStream slot r g c ea).mem = s.mem := by simp [State.stopStream]

@[simp] theorem State.setRange_mem (die vd n : Nat) (x : Nat × Nat × Nat × Nat) : (s.setRange die vd n x).mem = s.mem := rfl
@[simp] theorem State.setItemQueue_mem (team q : Nat) (x : ItemQueue) : (s.setItemQueue team q x).mem = s.mem := rfl
@[simp] theorem State.deliver_mem (core : Nat) (r : CoalRec) : (s.deliver core r).mem = s.mem := rfl
@[simp] theorem State.dropRecord_mem (core seq : Nat) : (s.dropRecord core seq).mem = s.mem := rfl

@[simp] theorem State.enterGrid_mem (vd ctx die : Nat) (record : List (BitVec 8)) (parent : Option Nat) (queue : Option (Nat × Nat))
    (launcher : Option (Nat × After)) :
    (s.enterGrid vd ctx die record parent queue launcher).2.2.mem = s.mem := rfl

@[simp] theorem State.placeCluster_mem (grid : Nat) (cores : List Nat) : (s.placeCluster grid cores).mem = s.mem := by
  unfold State.placeCluster
  refine foldl_mem _ (fun s x => ?_) _ _
  grind [= State.setTeam_mem, = State.setGrid_mem]

@[simp] theorem State.readFormats_mem (w : Agent) (a0 : List Nat) : (s.readFormats w a0).1.mem = s.mem := by
  induction a0 generalizing s with
  | nil => rfl
  | cons p ps ih =>
    unfold State.readFormats
    grind [= State.agentRead_mem]

theorem State.beginSpills_mem (given : State) (core team : Nat) {u : State} (h : s.beginSpills given core team = some u) : u.mem = s.mem := by
  unfold State.beginSpills at h
  grind [= State.setCore_mem]

@[simp] theorem State.releaseQueues_mem (core grid : Nat) : (s.releaseQueues core grid).mem = s.mem := by simp [State.releaseQueues]

theorem State.seatAway_mem (core team : Nat) (a0 : List (Nat × Group)) {u : State} {y : List (Nat × Nat)}
    (h : s.seatAway core team a0 = some (u, y)) :
    u.mem = s.mem := by
  induction a0 generalizing s u y with
  | nil => simp_all [State.seatAway]
  | cons p ps ih =>
    unfold State.seatAway at h
    dsimp only at h
    split at h
    · exact absurd h (by simp)
    · obtain ⟨r, hr, h⟩ := Option.map_eq_some_iff.1 h
      obtain ⟨rfl, -⟩ := Prod.mk.inj h
      simpa using ih _ hr

@[simp] theorem State.moveQueues_mem (team core : Nat) : (s.moveQueues team core).mem = s.mem := rfl

@[simp] theorem State.yieldJoined_mem (place : Nat) : (s.yieldJoined place).mem = s.mem := by
  unfold State.yieldJoined
  split <;> simp

@[simp] theorem State.returnRecords_mem (core vd ctx : Nat) : (s.returnRecords core vd ctx).mem = s.mem := by simp [State.returnRecords]
@[simp] theorem State.compactIdle_mem (core : Nat) : (s.compactIdle core).mem = s.mem := by simp [State.compactIdle]

@[simp] theorem Issue.nbEnter_mem (i : Issue) (fn : Nat) (accs : List (Acc × Loc)) (load : Option Nat) :
    (i.nbEnter s fn accs load).mem = s.mem := by simp [Issue.nbEnter]

@[simp] theorem State.respond_mem (stack tag status : Nat) (data : List (BitVec 8)) : (s.respond stack tag status data).mem = s.mem := rfl
@[simp] theorem State.answerDrain_mem (h : PortHdr) : (s.answerDrain h).mem = s.mem := by simp [State.answerDrain]
@[simp] theorem State.putNb_mem (c : NbCmd) : (s.putNb c).mem = s.mem := rfl
@[simp] theorem State.nbPop_mem (stack pair : Nat) : (s.nbPop stack pair).mem = s.mem := rfl
@[simp] theorem State.nbDone_mem (stack pair : Nat) (c : NbCmd) : (s.nbDone stack pair c).mem = s.mem := rfl

@[simp] theorem State.nbError_mem (stack pair : Nat) (c : NbCmd) (e : Cause) (read : List (Place × Nat)) :
    (s.nbError stack pair c e read).mem = s.mem := by simp [State.nbError]

@[simp] theorem State.nbOverflow_mem (c : NbCmd) : (s.nbOverflow c).mem = s.mem := rfl
@[simp] theorem State.nbClear_mem (stack p0 n : Nat) : (s.nbClear stack p0 n).mem = s.mem := by simp [State.nbClear]
@[simp] theorem State.setKey_mem (n : Nat) (k : KeySlot) : (s.setKey n k).mem = s.mem := rfl
@[simp] theorem State.drawKey_mem : (s.drawKey).2.mem = s.mem := rfl
@[simp] theorem State.openKey_mem (n world : Nat) (st : KeyState) : (s.openKey n world st).mem = s.mem := rfl
@[simp] theorem State.guardRow_mem (vd : Nat) : (s.guardRow vd).mem = s.mem := by simp [State.guardRow]

theorem State.placeBacking_mem (vd g : Nat) (keyed : Bool) {y : Backed} {u : State} (h : s.placeBacking vd g keyed = some (y, u)) :
    u.mem = s.mem := by
  unfold State.placeBacking at h
  grind [= State.setVdev_mem, Option.map_eq_some_iff]

@[simp] theorem State.dropFrame_mem (ps : List Place) : (s.dropFrame ps).mem = s.mem := rfl
@[simp] theorem State.clearBlocks_mem (buf o : Nat) : (s.clearBlocks buf o).mem = s.mem := by simp [State.clearBlocks]

@[simp] theorem State.checkFrame_mem (vd : Nat) (ps : List Place) (blocks : List (Nat × Nat)) :
    (s.checkFrame vd ps blocks).mem = s.mem := by simp [State.checkFrame]

@[simp] theorem State.putReq_mem (r : PagerReq) : (s.putReq r).mem = s.mem := rfl
@[simp] theorem State.dropReq_mem (r : PagerReq) : (s.dropReq r).mem = s.mem := rfl

@[simp] theorem State.replayAll_mem (r : PagerReq) : (s.replayAll r).mem = s.mem := by
  unfold State.replayAll
  refine foldl_mem _ (fun s x => ?_) _ _
  grind [= State.setDie_mem, = State.dropReq_mem]

@[simp] theorem State.failReq_mem (r : PagerReq) (c : Cause) (all : Bool) : (s.failReq r c all).mem = s.mem := by
  unfold State.failReq
  dsimp only
  rw [foldl_mem _ (fun s x => by split <;> simp), foldl_mem _ (fun s w => by simp), apply_ite State.mem, State.dropReq_mem, State.putReq_mem,
    ite_self, foldl_mem _ (fun s w => by split <;> simp)]

@[simp] theorem State.beginFill_mem (r : PagerReq) (f : Nat × Nat) : (s.beginFill r f).mem = s.mem := rfl

theorem State.victimOf_mem (vd : Nat) {y : Nat} {z : S2Leaf} {w' : Backed} {u : State} (h : s.victimOf vd = some (y, z, w', u)) :
    u.mem = s.mem := by
  unfold State.victimOf at h
  dsimp only at h
  split at h
  · exact absurd h (by simp)
  · obtain ⟨g, -, h⟩ := List.exists_of_findSome?_eq_some h
    obtain ⟨f, -, h⟩ := Option.bind_eq_some_iff.1 h
    split at h
    · exact absurd h (by simp)
    · obtain ⟨b, hb, h⟩ := Option.map_eq_some_iff.1 h
      simp only [Prod.mk.injEq] at h
      obtain ⟨-, -, -, rfl⟩ := h
      exact State.placeBacking_mem _ _ _ _ hb

@[simp] theorem State.resident_mem (vd g buf o : Nat) (f : S2Leaf) : (s.resident vd g buf o f).mem = s.mem := rfl

@[simp] theorem State.packetRead_mem (w : Agent) (ea n : Nat) :
    (s.packetRead w ea n).1.mem = s.mem := eitherDie_mem s _ fun w => s.agentRead_mem w ea n

@[simp] theorem State.packetLoc_mem (w : Agent) (k : Access) (ea : Nat) :
    (s.packetLoc w k ea).1.mem = s.mem := eitherDie_mem s _ fun w => s.agentLoc_mem w k ea

@[simp] theorem State.onQueue_mem (vd q : Nat) (f : Queue → Queue) : (s.onQueue vd q f).mem = s.mem := rfl

@[simp] theorem State.raiseEvec_mem (vd q : Nat) : (s.raiseEvec vd q).mem = s.mem := by
  unfold State.raiseEvec
  dsimp only
  split <;> simp

@[simp] theorem State.parkPacket_mem (vd q : Nat) (w : Agent) (wr : Bool) (ea gpa : Nat) : (s.parkPacket vd q w wr ea gpa).mem = s.mem := by
  unfold State.parkPacket
  grind [= State.onQueue_mem, State.agentPark_mem]

@[simp] theorem State.ignoreWrite_mem (vd : Nat) : (s.ignoreWrite vd).mem = s.mem := by simp [State.ignoreWrite]
@[simp] theorem State.fenceInval_mem (vd ctx : Nat) : (s.fenceInval vd ctx).mem = s.mem := rfl

@[simp] theorem State.settleQueue_mem (vd q : Nat) : (s.settleQueue vd q).mem = s.mem := by
  unfold State.settleQueue
  dsimp only
  split
  · rfl
  · rw [foldl_mem _ (fun s p => by split <;> simp), State.setQueue_mem]

@[simp] theorem State.endGrid_mem (n : Nat) : (s.endGrid n).mem = s.mem := by
  unfold State.endGrid
  dsimp only
  split <;> simp

@[simp] theorem State.discardGrids_mem (v : Victim) : (s.discardGrids v).mem = s.mem := rfl
@[simp] theorem State.sendKill_mem (v : Victim) (parts : List Nat) : (s.sendKill v parts).mem = s.mem := rfl
@[simp] theorem State.startKill_mem (v : Victim) (then_ : Nat) (reply : Option Nat) : (s.startKill v then_ reply).mem = s.mem := rfl
@[simp] theorem State.answerPeer_mem (ep : Nat) (ok : Bool) (data : List (BitVec 8)) : (s.answerPeer ep ok data).mem = s.mem := rfl
@[simp] theorem State.liftRefusals_mem (v : Victim) : (s.liftRefusals v).mem = s.mem := rfl
@[simp] theorem State.containVictim_mem (v : Victim) (c : Cause) : (s.containVictim v c).mem = s.mem := by simp [State.containVictim]

@[simp] theorem State.chooseSave_mem (vd : Nat) : (s.chooseSave vd).mem = s.mem := by
  unfold State.chooseSave
  split <;> simp

@[simp] theorem State.endKeys_mem (vd : Nat) : (s.endKeys vd).mem = s.mem := by simp [State.endKeys]
@[simp] theorem State.mgmtDone_mem (r result cause : Nat) : (s.mgmtDone r result cause).mem = s.mem := by simp [State.mgmtDone]
@[simp] theorem State.refill_mem (vd : Nat) : (s.refill vd).mem = s.mem := by simp [State.refill]
@[simp] theorem State.charge_mem (vd u : Nat) : (s.charge vd u).mem = s.mem := rfl
@[simp] theorem State.updateEligible_mem (v : Frac) (vd : Nat) : (s.updateEligible v vd).mem = s.mem := by simp [State.updateEligible]
@[simp] theorem State.closeSlice_mem (vd u : Nat) : (s.closeSlice vd u).mem = s.mem := by simp [State.closeSlice]
@[simp] theorem State.setLink_mem (n : Nat) (l : Link) : (s.setLink n l).mem = s.mem := rfl
@[simp] theorem State.countResend_mem (link : Nat) (l : Link) : (s.countResend link l).mem = s.mem := by simp [State.countResend]
@[simp] theorem State.linkDown_mem (cs : List (Nat × Nat)) : (s.linkDown cs).mem = s.mem := by simp [State.linkDown]
@[simp] theorem State.boundaryGoesDown_mem : (s.boundaryGoesDown).mem = s.mem := by simp [State.boundaryGoesDown]
@[simp] theorem State.cutDie_mem (die : Nat) : (s.cutDie die).mem = s.mem := by simp [State.cutDie]
@[simp] theorem State.setMbox_mem (r : Nat) (m : Mbox) : (s.setMbox r m).mem = s.mem := rfl
@[simp] theorem State.unpend_mem (r cmd : Nat) : (s.unpend r cmd).mem = s.mem := rfl
@[simp] theorem State.settleFunction0_mem : (s.settleFunction0).mem = s.mem := by simp [State.settleFunction0]
@[simp] theorem State.drawClock_mem (die : Nat) : (s.drawClock die).mem = s.mem := rfl

@[simp] theorem State.claimPool_mem (vd : Nat) : (s.claimPool vd).mem = s.mem := by
  unfold State.claimPool
  exact foldl_mem _ (fun s n => by simp) _ _

@[simp] theorem State.setRemap_mem (vd : Nat) (on : Bool) : (s.setRemap vd on).mem = s.mem := rfl
@[simp] theorem State.partWays_mem : (s.partWays).mem = s.mem := rfl
@[simp] theorem State.setUp_mem (vd : Nat) (d : VDev) (st : VState) : (s.setUp vd d st).mem = s.mem := by simp [State.setUp]
@[simp] theorem State.beginReset_mem (vd then_ : Nat) (reply : Option Nat) : (s.beginReset vd then_ reply).mem = s.mem := rfl
@[simp] theorem State.setPort_mem (n : Nat) (p : Port) : (s.setPort n p).mem = s.mem := rfl

@[simp] theorem State.giveRows_mem (p : Profile) (row n dom : Nat) : (s.giveRows p row n dom).mem = s.mem := by
  unfold State.giveRows
  refine foldl_mem _ (fun s x => ?_) _ _
  grind [= State.setStack_mem]

@[simp] theorem State.withdraw_mem (vd g n : Nat) : (s.withdraw vd g n).mem = s.mem := by
  unfold State.withdraw
  exact (foldl_mem _ (fun s c => by simp) _ _).trans (s.setVdev_mem ..)

@[simp] theorem State.setMoving_mem (vd g : Nat) (on : Bool) : (s.setMoving vd g on).mem = s.mem := rfl
@[simp] theorem State.rowRetired_mem (st key : Nat) : (s.rowRetired st key).mem = s.mem := rfl

@[simp] theorem State.push_mem (a0 : LayoutChange) : (s.push a0).mem = s.mem := by
  unfold State.push
  split <;> simp

@[simp] theorem State.runImage_mem (kind : Nat) (img : List (BitVec 8)) : (s.runImage kind img).mem = s.mem := by
  unfold State.runImage
  dsimp only
  split
  · rfl
  · exact foldl_mem _ (fun s n => by simp) _ _

@[simp] theorem State.restartKills_mem : (s.restartKills).mem = s.mem := by simp [State.restartKills]

@[simp] theorem State.recoverLayout_mem : (s.recoverLayout).mem = s.mem := by
  unfold State.recoverLayout
  dsimp only
  split <;> simp

@[simp] theorem State.restartCrucible_mem : (s.restartCrucible).mem = s.mem := by simp [State.restartCrucible]

@[simp] theorem State.drawBytes_mem (a0 : Nat) : (s.drawBytes a0).1.mem = s.mem := by
  induction a0 generalizing s with
  | zero => rfl
  | succ n ih => simp [State.drawBytes, ih]

@[simp] theorem State.reportBytes_mem (seq : Nat) (a0 : Report) : (s.reportBytes seq a0).1.mem = s.mem := by
  unfold State.reportBytes
  split <;> simp

@[simp] theorem State.readReports_mem (a0 : Nat) (a1 : List Report) (a2 : Nat) : (s.readReports a0 a1 a2).1.mem = s.mem := by
  induction a1 generalizing s a0 a2 with
  | nil => rfl
  | cons r rs ih =>
    unfold State.readReports
    dsimp only
    split
    · split <;> simp
    · simp [ih]

theorem State.bootImage_mem (kind : Nat) {u : State} (h : s.bootImage kind = some u) : u.mem = s.mem := by
  unfold State.bootImage at h
  grind [= State.runImage_mem, = State.report_mem]

@[simp] theorem State.discover_mem : (s.discover).mem = s.mem := by
  unfold State.discover
  rw [foldl_mem _ (fun s n => by simp), foldl_mem _ (fun s x => by simp)]

@[simp] theorem State.countResends_mem (port n : Nat) : (s.countResends port n).mem = s.mem := by simp [State.countResends]
@[simp] theorem State.signReport_mem (vd : Nat) : (s.signReport vd).mem = s.mem := rfl
@[simp] theorem Issue.onGroup_mem (i : Issue) (f : Group → Group) : (i.onGroup s f).mem = s.mem := rfl
@[simp] theorem Issue.transfer_mem (i : Issue) (target : Nat → BitVec 56) : (i.transfer s target).1.mem = s.mem := rfl
@[simp] theorem State.ticked_mem : (s.ticked).mem = s.mem := rfl
@[simp] theorem State.rotated_mem : (s.rotated).mem = s.mem := rfl

end

end Sys2Proof.Machine

namespace Sys2Proof.Machine
open Sys2Proof

/-! ## What containing contexts and reporting errors keep (R9, R10, R309) -/

theorem Table.mem_of_find {α : Type} {t : Table α} {i : Nat} {x : α} (h : Table.find t i = some x) : (i, x) ∈ t := by
  induction t with
  | nil => simp at h
  | cons kv t ih =>
    obtain ⟨k, v⟩ := kv
    rw [Table.find_cons] at h
    split at h
    · next hi => obtain rfl := Option.some.inj h; simp [hi]
    · exact List.mem_cons_of_mem _ (ih h)

/-- A group as it was, as far as its team and its being stopped go. -/
structure Group.Stays (g g' : Group) : Prop where
  team : g'.team = g.team
  stopped : g.stopped = true → g'.stopped = true

/-- What containing contexts and reporting errors keep of a state: who owns what, the records of the cores, the reports made, the contexts
in ERROR and the groups that are stopped. -/
structure Contains (s u : State) : Prop where
  teams : u.teams = s.teams
  grids : u.grids = s.grids
  coal : ∀ k, (u.core k).coal = (s.core k).coal
  errors : ∀ x ∈ s.errors, x ∈ u.errors
  ctx : ∀ v c, (s.ctx v c).state = 2 → u.ctx v c = s.ctx v c
  groups : ∀ n g', u.groups.find n = some g' → ∃ g, s.groups.find n = some g ∧ g.Stays g'

theorem Group.Stays.refl (g : Group) : g.Stays g := ⟨rfl, id⟩

theorem Contains.refl (s : State) : Contains s s :=
  ⟨rfl, rfl, fun _ => rfl, fun _ => id, fun _ _ _ => rfl, fun _ g h => ⟨g, h, .refl g⟩⟩

theorem Contains.trans {s u w : State} (h : Contains s u) (h' : Contains u w) : Contains s w where
  teams := h'.teams.trans h.teams
  grids := h'.grids.trans h.grids
  coal k := (h'.coal k).trans (h.coal k)
  errors x hx := h'.errors x (h.errors x hx)
  ctx v c hc := (h'.ctx v c (by rw [h.ctx v c hc]; exact hc)).trans (h.ctx v c hc)
  groups n g'' hg := by
    obtain ⟨g', hg', a⟩ := h'.groups n g'' hg
    obtain ⟨g, hg, b⟩ := h.groups n g' hg'
    exact ⟨g, hg, a.team.trans b.team, fun hs => a.stopped (b.stopped hs)⟩

theorem Contains.foldl {α : Type} {f : State → α → State} (hf : ∀ s x, Contains s (f s x)) (l : List α) (s : State) :
    Contains s (l.foldl f s) := by
  induction l generalizing s with
  | nil => exact .refl s
  | cons x xs ih => exact (hf s x).trans (ih _)

/-- A change of none of these parts. -/
theorem Contains.of_same {s u : State} (ht : u.teams = s.teams) (hn : u.grids = s.grids) (hc : u.cores = s.cores) (he : u.errors = s.errors)
    (hv : u.vdevs = s.vdevs) (hg : u.groups = s.groups) : Contains s u :=
  ⟨ht, hn, fun k => by unfold State.core; rw [hc], fun x => by rw [he]; exact id, fun v c _ => by unfold State.ctx State.vdev; rw [hv],
    fun n g h => ⟨g, hg ▸ h, .refl g⟩⟩

theorem Contains.owner {s u : State} (h : Contains s u) (g : Group) : u.owner g = s.owner g := by
  simp only [State.owner, State.gridOf, State.grid, State.team, h.teams, h.grids]

theorem State.vdev_setVdev (s : State) (v w : Nat) (x : VDev) : (s.setVdev v x).vdev w = if w = v then x else s.vdev w :=
  Table.getD_put s.vdevs v w VDev.absent x

theorem State.ctx_setCtx (s : State) (v c w d : Nat) (x : Ctx) :
    (s.setCtx v c x).ctx w d = if w = v ∧ d = c then x else s.ctx w d := by
  unfold State.ctx State.setCtx
  rw [State.vdev_setVdev]
  by_cases h : w = v
  · subst h
    simp [Table.getD_put]
  · simp [h]

/-- A change of one group that keeps its team and its being stopped. -/
theorem Contains.modify (s : State) (n : Nat) (f : Group → Group) (hf : ∀ g : Group, g.Stays (f g)) :
    Contains s { s with groups := s.groups.modify n f } :=
  { Contains.refl s with
    groups := fun m g' h => by
      rw [Table.find_modify] at h
      split at h
      · obtain ⟨g, hg, rfl⟩ := Option.map_eq_some_iff.1 h
        exact ⟨g, hg, hf g⟩
      · exact ⟨g', h, .refl g'⟩ }

theorem Contains.setCore (s : State) (c : Nat) (x : Core) (hx : x.coal = (s.core c).coal) : Contains s (s.setCore c x) :=
  { Contains.refl s with
    coal := fun k => by
      rw [State.core_setCore]
      split
      · next h => rw [hx, h]
      · rfl }

/-- A change of a device that keeps its contexts. -/
theorem State.ctx_setVdev (s : State) (v w c : Nat) (x : VDev) (hx : x.ctxs = (s.vdev v).ctxs) : (s.setVdev v x).ctx w c = s.ctx w c := by
  unfold State.ctx
  rw [State.vdev_setVdev]
  split
  · next h => rw [hx, h]
  · rfl

section
variable (s : State)

theorem contains_endRun (core sc : Nat) : Contains s (s.endRun core sc) := by
  unfold State.endRun
  split
  · exact .refl s
  · next r _ =>
    have h := Contains.setCore s core { s.core core with runs := (s.core core).runs.del sc } rfl
    exact h.trans (.modify _ r.slot (fun g => { g with hazards := [] }) fun g => ⟨rfl, id⟩)

/-- One step of `State.stopGroups`. -/
def State.stopGroup (slot : Nat) : State :=
  let s := match (s.core (slotCore slot)).runs.find (slotSub slot) with
    | some r => if r.slot = slot then s.endRun (slotCore slot) (slotSub slot) else s
    | none => s
  { s with groups := s.groups.modify slot fun g => { g with stopped := true } }

theorem stopGroups_eq (l : List Nat) : s.stopGroups l = l.foldl State.stopGroup s := rfl

theorem contains_stopGroup (slot : Nat) : Contains s (s.stopGroup slot) := by
  unfold State.stopGroup
  refine .trans ?_ (.modify _ slot (fun g => { g with stopped := true }) fun g => ⟨rfl, fun _ => rfl⟩)
  split
  · split
    · exact contains_endRun s _ _
    · exact .refl s
  · exact .refl s

theorem contains_stopGroups (l : List Nat) : Contains s (s.stopGroups l) := by
  rw [stopGroups_eq]
  exact .foldl contains_stopGroup l s

theorem stopGroup_stopped (slot : Nat) (g : Group) (h : (s.stopGroup slot).groups.find slot = some g) : g.stopped = true := by
  rw [State.stopGroup, Table.find_modify, if_pos rfl] at h
  obtain ⟨_, _, rfl⟩ := Option.map_eq_some_iff.1 h
  rfl

/-- Every group named is stopped. -/
theorem stopGroups_stopped (l : List Nat) (n : Nat) (hn : n ∈ l) (g : Group) (h : (s.stopGroups l).groups.find n = some g) :
    g.stopped = true := by
  induction l generalizing s with
  | nil => cases hn
  | cons x xs ih =>
    rcases List.mem_cons.1 hn with rfl | hn
    · obtain ⟨g₀, h₀, hs⟩ := (contains_stopGroups (s.stopGroup n) xs).groups n g h
      exact hs.stopped (stopGroup_stopped s n g₀ h₀)
    · exact ih (s.stopGroup x) hn h

theorem ctx_of_vdevs {u : State} (h : u.vdevs = s.vdevs) (v c : Nat) : u.ctx v c = s.ctx v c := by
  unfold State.ctx State.vdev
  rw [h]

/-- An interrupt that is left pending. -/
theorem pend_ctx (vd v c : Nat) (m : Regs 64) (l : List Nat) :
    (State.setVdev { s with remap := m } vd { s.vdev vd with msixPending := l }).ctx v c = s.ctx v c :=
  State.ctx_setVdev s vd v c { s.vdev vd with msixPending := l } rfl

theorem interrupt_ctx (vd n v c : Nat) : (s.interrupt vd n).ctx v c = s.ctx v c := by
  unfold State.interrupt
  dsimp only
  split
  · rfl
  · split
    · exact pend_ctx s vd v c _ _
    · refine ctx_of_vdevs s ?_ v c
      rfl

theorem report_ctx (x : Report) (v c : Nat) : (s.report x).ctx v c = s.ctx v c := by
  have h (l : List Nat) (s : State) : (l.foldl (fun s d => s.interruptField d (s.vdev d).verrvec) s).ctx v c = s.ctx v c := by
    induction l generalizing s with
    | nil => rfl
    | cons d ds ih =>
      rw [List.foldl_cons, ih, State.interruptField]
      split
      · rfl
      · exact interrupt_ctx s _ _ v c
  unfold State.report
  exact h _ _

theorem contains_report (x : Report) : Contains s (s.report x) where
  teams := s.report_teams x
  grids := s.report_grids x
  coal k := by rw [State.core, s.report_cores x]; rfl
  errors y hy := by rw [s.report_errors x]; exact List.mem_append_left _ hy
  ctx v c _ := report_ctx s x v c
  groups n g h := ⟨g, s.report_groups x ▸ h, .refl g⟩

theorem contains_setCtx (vd ctx : Nat) (x : Ctx) (h : (s.ctx vd ctx).state ≠ 2) : Contains s (s.setCtx vd ctx x) :=
  { Contains.refl s with
    ctx := fun v c hc => by
      rw [State.ctx_setCtx, if_neg]
      rintro ⟨rfl, rfl⟩
      exact h hc }

/-- The first step of `State.fence`: the context enters ERROR with the cause, unless it is there already. -/
def State.enterError (vd ctx : Nat) (c : Cause) : State :=
  if (s.ctx vd ctx).state = 2 then s else s.setCtx vd ctx { s.ctx vd ctx with state := 2, cause := c }

theorem contains_enterError (vd ctx : Nat) (c : Cause) : Contains s (s.enterError vd ctx c) := by
  unfold State.enterError
  split
  · exact .refl s
  · next h => exact contains_setCtx s vd ctx _ h

theorem enterError_state (vd ctx : Nat) (c : Cause) : ((s.enterError vd ctx c).ctx vd ctx).state = 2 := by
  unfold State.enterError
  split
  · assumption
  · simp [State.ctx_setCtx]

theorem enterError_cause (vd ctx : Nat) (c : Cause) (h : (s.ctx vd ctx).state ≠ 2) : ((s.enterError vd ctx c).ctx vd ctx).cause = c := by
  simp [State.enterError, h, State.ctx_setCtx]

/-- The last two steps of `State.fence`: the context's groups stop, and its queues enter ERROR. -/
theorem contains_fence_rest (vd ctx : Nat) (c : Cause) :
    Contains ((s.enterError vd ctx c).stopGroups ((s.enterError vd ctx c).victimSlots ⟨vd, some ctx⟩)) (s.fence vd ctx c) :=
  { Contains.refl _ with ctx := fun v d _ => State.ctx_setVdev _ vd v d _ rfl }

theorem contains_enterError_fence (vd ctx : Nat) (c : Cause) : Contains (s.enterError vd ctx c) (s.fence vd ctx c) :=
  (contains_stopGroups _ _).trans (contains_fence_rest s vd ctx c)

theorem contains_fence (vd ctx : Nat) (c : Cause) : Contains s (s.fence vd ctx c) :=
  (contains_enterError s vd ctx c).trans (contains_enterError_fence s vd ctx c)

theorem contains_contain (vd ctx : Nat) (c : Cause) (e : Engine) (addr : Nat) (met : Option (CoalRec × Nat × Nat)) :
    Contains s (s.contain vd ctx c e addr met) :=
  (contains_report s _).trans (contains_fence _ vd ctx c)

theorem Contains.ite {s u w : State} {p : Prop} [Decidable p] (h : Contains s u) (h' : Contains s w) : Contains s (if p then u else w) := by
  split
  · exact h
  · exact h'

theorem contains_containAll (vd : Nat) (c : Cause) (e : Engine) : Contains s (s.containAll vd c e) := by
  unfold State.containAll
  refine .foldl (fun s x => ?_) _ s
  exact contains_contain s vd x.1 c e 0 none

theorem contains_setStack (n : Nat) (x : Stack) : Contains s (s.setStack n x) := .of_same rfl rfl rfl rfl rfl rfl

theorem contains_reportNode (st level n : Nat) (mirrored : Bool) (owners : List Nat) : Contains s (s.reportNode st level n mirrored owners) :=
  contains_report s _

theorem contains_treeFailed (st spa : Nat) : Contains s (s.treeFailed st spa) := by
  unfold State.treeFailed
  refine .ite (.refl s) (.ite (.refl s) ?_)
  exact ((contains_setStack s st _).trans (.foldl (fun s o => contains_containAll s o _ _) _ _)).trans (contains_reportNode _ _ _ _ _ _)

theorem contains_recalibrate (stack ch : Nat) : Contains s (s.recalibrate stack ch) := by
  have h : Contains s (s.draw.2.setStack stack { s.draw.2.stack stack with chanErrors := (s.draw.2.stack stack).chanErrors.del ch }) :=
    .of_same rfl rfl rfl rfl rfl rfl
  unfold State.recalibrate
  exact .ite h ((h.trans (contains_setStack _ stack _)).trans (contains_report _ _))

theorem contains_detect (stack spa kind : Nat) : Contains s (s.detect stack spa kind) := by
  unfold State.detect
  have h := contains_setStack s stack
  refine .ite (.trans ?_ (contains_recalibrate _ _ _)) ?_
  · exact .ite ((h _).trans (contains_report _ _)) (h _)
  · exact .ite ((h _).trans (contains_report _ _)) (h _)

theorem contains_reportSlice (core off : Nat) : Contains s (s.reportSlice core off) := by
  unfold State.reportSlice
  dsimp only
  split
  · refine .trans (.setCore s core { s.core core with sramErrors := (s.core core).sramErrors + 1 } ?_) (contains_report _ _)
    rfl
  · exact contains_report s _

theorem contains_detected (c : Cause) (ps : List (Place × Nat)) : Contains s (s.detected c ps) := by
  unfold State.detected
  refine .foldl (fun s p => ?_) ps s
  split
  · refine .ite (contains_treeFailed s _ _) (.ite (.refl s) (.foldl (fun s a => ?_) _ s))
    exact .ite (contains_detect s _ _ _) (.refl s)
  · exact .ite (.refl s) (.foldl (fun s w => contains_reportSlice s _ _) _ s)
  · exact .refl s

end

/-! ## Records (R151) -/

/-- Two records of one event, as far as they merge. -/
structure CoalRec.Same (x r : CoalRec) : Prop where
  deliver : x.deliver = r.deliver
  cause : x.cause = r.cause
  vdev : x.vdev = r.vdev
  ctx : x.ctx = r.ctx
  key : CoalRec.mergeKey x.addr x.pc = CoalRec.mergeKey r.addr r.pc

theorem mergesInto_some {k : Core} {r x : CoalRec} (h : k.mergesInto r = some x) : x ∈ k.coal ∧ x.Same r := by
  have h' := List.find?_some h
  simp only [Bool.and_eq_true, beq_iff_eq, decide_eq_true_eq] at h'
  obtain ⟨⟨⟨⟨hd, hv⟩, hx⟩, hc⟩, hk⟩ := h'
  exact ⟨List.mem_of_find?_eq_some h, hd, hc, hv, hx, hk⟩

/-- A record that is open keeps the next one from closing the oldest. -/
theorem coalFull_eq_false {k : Core} {r : CoalRec} (h : k.coal.length < 8 ∨ ∃ x ∈ k.coal, x.Same r) : k.coalFull r = false := by
  unfold Core.coalFull
  rcases h with h | ⟨x, hx, h⟩
  · simp [Nat.not_le.2 h]
  · have hf : (k.mergesInto r).isSome := by
      refine List.find?_isSome.2 ⟨x, hx, ?_⟩
      simp [h.deliver, h.cause, h.vdev, h.ctx, h.key]
    obtain ⟨y, hy⟩ := Option.isSome_iff_exists.1 hf
    simp [hy]

/-- Coalescing changes the open records, and asks for the oldest to close. -/
theorem coalesce_frame (s : State) (core : Nat) (r : CoalRec) :
    ∃ a k, (s.coalesce core r).1 = { s with cores := s.cores.put core k, agenda := a } ∧ k.runs = (s.core core).runs := by
  unfold State.coalesce
  dsimp only
  split
  · exact ⟨_, _, rfl, rfl⟩
  · unfold State.addRecord
    dsimp only
    split
    · split
      · exact ⟨_, _, rfl, rfl⟩
      · exact ⟨_, _, rfl, rfl⟩
    · exact ⟨_, _, rfl, rfl⟩

theorem addRecord_cores (s : State) (core : Nat) (r : CoalRec) :
    (s.addRecord core r).cores = s.cores.put core { s.core core with
      coal := (s.core core).coal ++ [{ r with seq := (s.core core).recSeq, opened := s.gtime }],
      recSeq := ((s.core core).recSeq + 1) % 2 ^ 32 } := by
  unfold State.addRecord
  dsimp only
  split
  · split
    · rfl
    · rfl
  · rfl

theorem addRecord_coal (s : State) (core : Nat) (r : CoalRec) :
    ((s.addRecord core r).core core).coal = (s.core core).coal ++ [{ r with seq := (s.core core).recSeq, opened := s.gtime }] := by
  rw [State.core, addRecord_cores, Table.getD_put, if_pos rfl]

/-- The event is in an open record of the core, its own or one that was open. -/
theorem coalesce_record (s : State) (core : Nat) (r : CoalRec) :
    ∃ x ∈ ((s.coalesce core r).1.core core).coal, x.Same r ∧ (∀ n ∈ r.groups, n ∈ x.groups) ∧
      (x.kind = r.kind ∨ ∃ y ∈ (s.core core).coal, y.seq = x.seq) := by
  unfold State.coalesce
  dsimp only
  split
  · next x hx =>
    obtain ⟨hm, hd, hc, hv, hx', hk⟩ := mergesInto_some hx
    rw [State.core_setCore_self]
    refine ⟨_, List.mem_map_of_mem hm, ?_⟩
    rw [if_pos rfl]
    exact ⟨⟨hd, hc, hv, hx', hk⟩, fun n hn => List.mem_append_right _ hn, .inr ⟨x, hm, rfl⟩⟩
  · rw [addRecord_coal]
    exact ⟨_, List.mem_append_right _ (List.mem_singleton.2 rfl), ⟨rfl, rfl, rfl, rfl, rfl⟩, fun _ => id, .inl rfl⟩

/-! ## Containing a context (R9, R10) -/

section
variable (s : State) (vd ctx : Nat) (c : Cause) (e : Engine) (addr : Nat) (met : Option (CoalRec × Nat × Nat))

/-- Containing a context puts it in ERROR, with the cause unless it is there already. -/
theorem contain_ctx : ((s.contain vd ctx c e addr met).ctx vd ctx).state = 2 ∧
    ((s.ctx vd ctx).state ≠ 2 → ((s.contain vd ctx c e addr met).ctx vd ctx).cause = c) := by
  have hs := enterError_state (s.report (.context c vd ctx e addr met)) vd ctx c
  have h := (contains_enterError_fence (s.report (.context c vd ctx e addr met)) vd ctx c).ctx vd ctx hs
  unfold State.contain
  rw [h]
  refine ⟨hs, fun hne => enterError_cause _ vd ctx c ?_⟩
  rwa [report_ctx]

theorem contain_reports : Report.context c vd ctx e addr met ∈ (s.contain vd ctx c e addr met).errors :=
  (contains_fence _ vd ctx c).errors _ (by simp)

/-- A context that is contained has every group of it stopped. -/
theorem fence_stops (n : Nat) (g' : Group) (hg : (s.fence vd ctx c).groups.find n = some g') (ho : s.owner g' = (vd, ctx)) :
    g'.stopped = true := by
  obtain ⟨g₁, h₁, hs₁⟩ := (contains_fence_rest s vd ctx c).groups n g' hg
  obtain ⟨g₀, h₀, hs₀⟩ := (contains_stopGroups _ _).groups n g₁ h₁
  have hown : (s.enterError vd ctx c).owner g₀ = (vd, ctx) := by
    rw [(contains_enterError s vd ctx c).owner, State.owner, ← hs₀.team, ← hs₁.team]
    exact ho
  have hn : n ∈ (s.enterError vd ctx c).victimSlots ⟨vd, some ctx⟩ := by
    refine List.mem_map.2 ⟨(n, g₀), List.mem_filter.2 ⟨Table.mem_of_find h₀, ?_⟩, rfl⟩
    simp [victimHits, hown]
  exact hs₁.stopped (stopGroups_stopped _ _ n hn g₁ h₁)

theorem contain_stops (n : Nat) (g' : Group) (hg : (s.contain vd ctx c e addr met).groups.find n = some g') (ho : s.owner g' = (vd, ctx)) :
    g'.stopped = true :=
  fence_stops (s.report (.context c vd ctx e addr met)) vd ctx c n g' hg (by rw [(contains_report s _).owner]; exact ho)

end

/-! ## Taking an exception (O11) -/

theorem clearKept_none (s : State) (slot : Nat) : s.clearKept slot none = s := by
  unfold State.clearKept
  rfl

/-- The record that `State.raise` makes of an exception. -/
def State.raiseRecord (s : State) (w : Site) (t : Trap) (g : Group) : CoalRec :=
  { s.recordOf w.slot g t.cause t.addr w.pc (g.replay.isSome || t.replayed) false true with excs := t.excs }

/-- What `State.raise` keeps of a trap for the group's trap state. -/
def State.pendingOf (s : State) (w : Site) (t : Trap) (g : Group) : Pending :=
  { cause := t.cause, addr := t.addr, replayed := g.replay.isSome || t.replayed, pc := w.pc,
    tpc := if t.after then w.pc + BitVec.ofNat 56 (4 * w.len) else w.pc,
    hdr := if w.clause.2 = 0 then none else if t.after then clauseOn w.clause w.len else some w.clause,
    lanes := t.lanes.getD w.act, aux := t.aux, set := w.set, gen := (s.raiseRecord w t g).gen, excs := t.excs }

/-- A group suspended for its trap. -/
def Group.trapped (g : Group) (p : Pending) (flags : Word) : Group :=
  { g with wait := some .trap, pending := some p, replay := none, fpx := g.fpx ||| flags }

/-- Forget the ended walks of the address that a trap carries, if it carries one. -/
def State.dropWalksOf (s : State) (core : Nat) (r : CoalRec) (addr : Option DWord) : State :=
  match addr with
  | some a => s.dropWalks (coreDie core) r.vdev r.ctx a.toNat
  | none => s

section
variable (s : State) (w : Site) (t : Trap) (g : Group)

/-- A trap that contains its context. -/
theorem raise_contains (hg : s.groups.find w.slot = some g) (hk : t.cause.kind = .F ∨ g.trap.active = true) (hc : t.clears = none) :
    s.raise w t = (s.containRecord (slotCore w.slot) (s.raiseRecord w t g) t.eng (t.addr.getD 0).toNat).detected t.cause t.read := by
  unfold State.raise
  simp only [hg, hc, clearKept_none]
  rw [if_pos (by simpa using hk)]
  rfl

/-- A trap that is delivered. -/
theorem raise_delivers (hg : s.groups.find w.slot = some g) (hk : t.cause.kind = .T) (ha : g.trap.active = false) (hc : t.clears = none)
    (hl : t.leave = false) (hf : (s.core (slotCore w.slot)).coalFull (s.raiseRecord w t g) = false) :
    s.raise w t =
      let u := ((s.coalesce (slotCore w.slot) (s.raiseRecord w t g)).1.endRun (slotCore w.slot) (slotSub w.slot)).dropWalksOf
        (slotCore w.slot) (s.raiseRecord w t g) t.addr
      { u with groups := u.groups.modify w.slot fun g' => g'.trapped (s.pendingOf w t g) (t.flags.setWidth 32) } := by
  unfold State.raise
  simp only [hg, hc, hl, hk, ha, clearKept_none]
  rw [if_neg (by simp), if_neg (by rw [← State.raiseRecord, hf]; simp)]
  rfl

/-- A trap leaves every register as it was. -/
theorem Group.valueAt_trapped (p : Pending) (flags : Word) (hz : List Hazard) (c : RCell) :
    (Group.trapped { g with hazards := hz } p flags).valueAt c = g.valueAt c := by
  cases c <;> rfl

end

theorem endRun_runs (s : State) (core sc : Nat) : ((s.endRun core sc).core core).runs.find sc = none := by
  unfold State.endRun
  split
  · assumption
  · exact (congrArg (fun k : Core => k.runs.find sc) (State.core_setCore_self s core _)).trans (Table.find_del_self _ _)

/-- The end of a run changes its own group alone. -/
theorem endRun_groups_ne (s : State) (core sc n : Nat) (h : ∀ r, (s.core core).runs.find sc = some r → r.slot ≠ n) :
    (s.endRun core sc).groups.find n = s.groups.find n := by
  unfold State.endRun
  split
  · rfl
  · next r hr =>
    dsimp only
    rw [Table.find_modify, if_neg (Ne.symm (h r hr))]
    rfl

/-- The end of a run leaves nothing of a group different but its hazards. -/
theorem endRun_groups (s : State) (core sc n : Nat) (g : Group) (hg : s.groups.find n = some g) :
    ∃ hz, (s.endRun core sc).groups.find n = some { g with hazards := hz } := by
  unfold State.endRun
  split
  · exact ⟨g.hazards, hg⟩
  · next r hr =>
    dsimp only
    rw [Table.find_modify, State.setCore_groups, hg]
    split
    · exact ⟨[], rfl⟩
    · exact ⟨g.hazards, rfl⟩

theorem dropWalksOf_frame (s : State) (core : Nat) (r : CoalRec) (addr : Option DWord) : ∃ d, s.dropWalksOf core r addr = { s with dies := d } := by
  cases addr with
  | none => exact ⟨_, rfl⟩
  | some a => exact ⟨_, rfl⟩

/-- A trap that is delivered suspends its group and ends its run. -/
theorem raise_suspends {s : State} {w : Site} {t : Trap} {g : Group} (hg : s.groups.find w.slot = some g) (hk : t.cause.kind = .T)
    (ha : g.trap.active = false) (hc : t.clears = none) (hl : t.leave = false)
    (hf : (s.core (slotCore w.slot)).coalFull (s.raiseRecord w t g) = false) :
    let u := s.raise w t
    (∀ n, n ≠ w.slot → (∀ r, (s.core (slotCore w.slot)).runs.find (slotSub w.slot) = some r → r.slot ≠ n) →
      u.groups.find n = s.groups.find n) ∧
    (u.core (slotCore w.slot)).runs.find (slotSub w.slot) = none ∧
    (u.core (slotCore w.slot)).coal = ((s.coalesce (slotCore w.slot) (s.raiseRecord w t g)).1.core (slotCore w.slot)).coal ∧
    ∃ hz, u.groups.find w.slot = some (Group.trapped { g with hazards := hz } (s.pendingOf w t g) (t.flags.setWidth 32)) := by
  intro u
  have hu : u = _ := raise_delivers s w t g hg hk ha hc hl hf
  obtain ⟨a, k, hk, hr⟩ := coalesce_frame s (slotCore w.slot) (s.raiseRecord w t g)
  have hgroups : (s.coalesce (slotCore w.slot) (s.raiseRecord w t g)).1.groups = s.groups := by rw [hk]
  have hcore : (s.coalesce (slotCore w.slot) (s.raiseRecord w t g)).1.core (slotCore w.slot) = k := by
    rw [hk]; exact State.core_setCore_self s _ k
  generalize (s.coalesce (slotCore w.slot) (s.raiseRecord w t g)).1 = v at hu hgroups hcore ⊢
  obtain ⟨d, hd⟩ := dropWalksOf_frame (v.endRun (slotCore w.slot) (slotSub w.slot)) (slotCore w.slot) (s.raiseRecord w t g) t.addr
  rw [hd] at hu
  rw [hu]
  refine ⟨fun n hn hrun => ?_, endRun_runs v _ _, (contains_endRun v _ _).coal _, ?_⟩
  · dsimp only
    rw [Table.find_modify, if_neg hn, endRun_groups_ne v _ _ n (by rw [hcore, hr]; exact hrun), hgroups]
  · obtain ⟨hz, h⟩ := endRun_groups v (slotCore w.slot) (slotSub w.slot) w.slot g (by rw [hgroups]; exact hg)
    refine ⟨hz, ?_⟩
    dsimp only
    rw [Table.find_modify, if_pos rfl, h]
    rfl

/-- A record that a core makes of an access contains its context. -/
theorem containRecord_contains (s : State) (core : Nat) (r : CoalRec) (e : Engine) (addr : Nat) :
    ∃ met, s.containRecord core r e addr = (s.coalesce core { r with deliver := false }).1.contain r.vdev r.ctx r.cause e addr met :=
  ⟨_, rfl⟩

/-- Settles O11: a delivered trap suspends its group after its record is coalesced; any other contains the context, and what follows
(`State.detected`) keeps what containing did. -/
theorem takingAnException : Obligations.TakingAnException := by
  unfold Obligations.TakingAnException
  intro s w t g hg
  constructor
  · intro hk ha hc hl hopen u
    have hf : (s.core (slotCore w.slot)).coalFull (s.raiseRecord w t g) = false := by
      refine coalFull_eq_false (hopen.imp_right ?_)
      rintro ⟨x, hx, hd, hcause, hv, hctx, hkey⟩
      exact ⟨x, hx, hd, hcause, hv, hctx, hkey⟩
    obtain ⟨hothers, hrun, hcoal, hz, hself⟩ := raise_suspends hg hk ha hc hl hf
    obtain ⟨x, hx, hsame, hin, hkind⟩ := coalesce_record s (slotCore w.slot) (s.raiseRecord w t g)
    refine ⟨State.raise_mem s w t, hothers, hrun, ⟨x, by rw [hcoal]; exact hx, hsame.deliver, ?_, hsame.cause,
      hin _ (by exact List.mem_singleton.2 rfl), hsame.vdev, hsame.ctx, hsame.key⟩,
      _, _, hself, g.valueAt_trapped _ _ hz, rfl, rfl, rfl, rfl, rfl, rfl, rfl, rfl, rfl, rfl, rfl, rfl, rfl⟩
    exact hkind.imp_left fun h => h.trans hk
  · intro hk hc u own
    obtain ⟨met, hm⟩ := containRecord_contains s (slotCore w.slot) (s.raiseRecord w t g) t.eng (t.addr.getD 0).toNat
    have hu : u = _ := raise_contains s w t g hg hk hc
    obtain ⟨x, hx, hsame, hin, -⟩ := coalesce_record s (slotCore w.slot) { s.raiseRecord w t g with deliver := false }
    obtain ⟨a, k, hv, -⟩ := coalesce_frame s (slotCore w.slot) { s.raiseRecord w t g with deliver := false }
    rw [hm] at hu
    generalize (s.coalesce (slotCore w.slot) { s.raiseRecord w t g with deliver := false }).1 = v at hu hx hv
    have hctx (i j : Nat) : v.ctx i j = s.ctx i j := ctx_of_vdevs s (by rw [hv]) i j
    have howner (g' : Group) : v.owner g' = s.owner g' := by rw [hv]; rfl
    have hcon := contain_ctx v own.1 own.2 t.cause t.eng (t.addr.getD 0).toNat met
    have hrep := contain_reports v own.1 own.2 t.cause t.eng (t.addr.getD 0).toNat met
    have hstop := contain_stops v own.1 own.2 t.cause t.eng (t.addr.getD 0).toNat met
    have hkeep := contains_contain v own.1 own.2 t.cause t.eng (t.addr.getD 0).toNat met
    have hdet : Contains (v.contain own.1 own.2 t.cause t.eng (t.addr.getD 0).toNat met) u := by
      rw [hu]
      exact contains_detected _ t.cause t.read
    obtain ⟨herror, hcause⟩ := hcon
    have hlast := hdet.ctx own.1 own.2 herror
    refine ⟨hlast ▸ herror, fun h => ?_, fun h => ?_, State.raise_mem s w t, ⟨met, hdet.errors _ hrep⟩, fun n g' hn ho => ?_,
      x, ?_, hsame.deliver, hsame.cause, hin _ (by exact List.mem_singleton.2 rfl)⟩
    · rw [hlast, hcause (by rw [hctx]; exact h)]
    · rw [hlast, hkeep.ctx _ _ (by rw [hctx]; exact h), hctx]
    · obtain ⟨g₁, h₁, hs⟩ := hdet.groups n g' hn
      refine hs.stopped (hstop n g₁ h₁ ?_)
      rw [howner, ← ho, State.owner, State.owner, hs.team]
    · rw [hdet.coal, hkeep.coal]
      exact hx

end Sys2Proof.Machine

namespace Sys2Proof.Machine
open Sys2Proof

/-! ## Waits -/

/-- `P` holds of the memory in which a wait goes on. -/
def Stop.Holds (P : List Host.Cell → Prop) : Stop → Prop
  | .trap _ => True
  | .wait u _ => P u.mem

/-- `Q` holds of a decision's value, and `P` of the memory in which it waits. -/
def Answers {α : Type} (P : List Host.Cell → Prop) (Q : α → Prop) : Except Stop α → Prop
  | .ok a => Q a
  | .error e => e.Holds P

/-- `P` holds of the memory in which a decision waits. -/
abbrev Checks {α : Type} (P : List Host.Cell → Prop) (x : Except Stop α) : Prop := Answers P (fun _ => True) x

section
variable {α β : Type} {P : List Host.Cell → Prop} {Q : α → Prop} {R : β → Prop}

@[simp] theorem holds_trap (t : Trap) : (Stop.trap t).Holds P := trivial
@[simp] theorem holds_wait (u : State) (deps : List Instr) : (Stop.wait u deps).Holds P ↔ P u.mem := Iff.rfl
@[simp] theorem answers_ok (a : α) : Answers P Q (.ok a) ↔ Q a := Iff.rfl
@[simp] theorem answers_error (e : Stop) : Answers P Q (.error e) ↔ e.Holds P := Iff.rfl
@[simp] theorem answers_trapE (c : Cause) : Answers P Q (trapE c) := trivial
@[simp] theorem answers_trapR (c : Cause) (f : RegField) : Answers P Q (trapR c f) := trivial
@[simp] theorem answers_trapA (c : Cause) (a : DWord) : Answers P Q (trapA c a) := trivial

theorem Answers.bind {x : Except Stop α} {f : α → Except Stop β} (h : Answers P Q x) (hf : ∀ a, Q a → Answers P R (f a)) :
    Answers P R (x >>= f) := by
  cases x with
  | ok a => exact hf a h
  | error e => exact h

/-- After a check, whatever it answers. -/
theorem Answers.seq {x : Except Stop α} {f : α → Except Stop β} (h : Checks P x) (hf : ∀ a, Answers P R (f a)) : Answers P R (x >>= f) :=
  h.bind fun a _ => hf a

theorem Answers.map {x : Except Stop α} {f : α → β} (h : Answers P Q x) (hf : ∀ a, Q a → R (f a)) : Answers P R (x.map f) := by
  cases x with
  | ok a => exact hf a h
  | error e => exact h

theorem Answers.ite {c : Prop} [Decidable c] {x y : Except Stop α} (hx : Answers P Q x) (hy : Answers P Q y) :
    Answers P Q (if c then x else y) := by split <;> assumption

/-- A decision that answers has had the value that was claimed. -/
theorem Answers.ok {x : Except Stop α} {a : α} (h : Answers P Q x) (hx : x = .ok a) : Q a := by subst hx; exact h

/-- A decision that waits does so in a memory that was claimed. -/
theorem Answers.error {x : Except Stop α} {e : Stop} (h : Answers P Q x) (hx : x = .error e) : e.Holds P := by subst hx; exact h

theorem checks_allOk {f : α → Except Stop Unit} (h : ∀ a, Checks P (f a)) (xs : List α) : Checks P (allOk f xs) := by
  induction xs with
  | nil => trivial
  | cons x xs ih =>
    unfold allOk
    split
    · next hx => exact (h x).error hx
    · exact ih

theorem checks_collect {f : α → Except Stop β} (h : ∀ a, Checks P (f a)) (xs : List α) : Checks P (collect f xs) := by
  induction xs with
  | nil => trivial
  | cons x xs ih =>
    unfold collect
    split
    · next hx => exact (h x).error hx
    · split
      · next hx => exact ih.error hx
      · trivial

/-! ### Checks that never wait -/

@[simp] theorem checks_require (b : Bool) (c : Cause) : Checks P (require b c) := by unfold require; split <;> simp
@[simp] theorem checks_requireA (b : Bool) (c : Cause) (a : DWord) : Checks P (requireA b c a) := by unfold requireA; split <;> simp
@[simp] theorem checks_refuseIf (b : Bool) (c : Cause) : Checks P (refuseIf b c) := by unfold refuseIf; split <;> simp
@[simp] theorem Issue.checks_checkField (i : Issue) (o : Opnd) : Checks P (i.checkField o) := by
  unfold Issue.checkField
  split_ifs <;> simp
@[simp] theorem Issue.checks_checkDest (r : DestRule) (d : Option Opnd) (srcs : List Opnd) : Checks P (Issue.checkDest r d srcs) := by
  unfold Issue.checkDest
  grind [answers_ok, answers_trapR]
@[simp] theorem Issue.checks_checkRange (i : Issue) (o : Opnd) : Checks P (i.checkRange o) := by
  unfold Issue.checkRange
  dsimp only
  split_ifs <;> simp
@[simp] theorem Issue.checks_checkIndex (i : Issue) (o : Opnd) : Checks P (i.checkIndex o) := by
  unfold Issue.checkIndex
  split
  · simp
  · dsimp only
    split <;> simp
@[simp] theorem Issue.checks_checkResidue (i : Issue) (srcs : List Opnd) (reads : List RegName) (b : Bool) :
    Checks P (i.checkResidue srcs reads b) := by
  unfold Issue.checkResidue
  split
  · simp
  · exact .ite (answers_trapR ..) trivial
@[simp] theorem Issue.checks_checkOperands (i : Issue) (r : DestRule) (d : Option Opnd) (srcs : List Opnd) :
    Checks P (i.checkOperands r d srcs) :=
  .seq (checks_allOk (by simp) _) fun _ => .seq (by simp) fun _ => .seq (checks_allOk (by simp) _) fun _ => checks_allOk (by simp) _
@[simp] theorem checks_dualOf (cls : OpClass) (a : Accept) (k : Nat) (wide on : Bool) (m : Mods) : Checks P (dualOf cls a k wide on m) := by
  unfold dualOf
  split
  · simp
  · dsimp only
    split_ifs <;> simp
@[simp] theorem checks_checkHazards (s : State) (g : Group) (reads all : List RegName) : Checks P (checkHazards s g reads all) := by
  unfold checkHazards checkStall
  split
  · simp
  · split
    · split <;> simp
    · simp
@[simp] theorem Group.checks_checkControl (g : Group) (ls : List Nat) : Checks P (g.checkControl ls) := by
  unfold Group.checkControl
  split <;> simp
@[simp] theorem checks_alignOk (accs : List Acc) : Checks P (alignOk accs) := by
  unfold alignOk checkAccs
  split <;> simp
@[simp] theorem Issue.checks_strideOk (i : Issue) (s : State) (ts : List Nat) : Checks P (i.strideOk s ts) := by
  unfold Issue.strideOk
  split <;> simp
@[simp] theorem Issue.checks_runOk (i : Issue) (d : RegField) (n : Nat) (b : Bool) : Checks P (i.runOk d n b) := by
  unfold Issue.runOk
  dsimp only
  split <;> simp
@[simp] theorem checks_orOverflow (ea : DWord) (r : Option Barrier) : Checks P (orOverflow ea r) := by
  unfold orOverflow
  split <;> simp
@[simp] theorem checks_barAlign (off : Nat) : Checks P (barAlign off) := by
  unfold barAlign
  split <;> simp
@[simp] theorem checks_checkShape (k : CopyKind) (ctl : BitVec 28) (g : CopyGeo) : Checks P (checkShape k ctl g) := checks_refuseIf ..

variable (s : State)

@[simp] theorem State.checks_windowOk (team : Nat) (u : BufUse) (accs : List Acc) : Checks P (s.windowOk team u accs) := by
  unfold State.windowOk
  refine checks_allOk (fun c => ?_) _
  split <;> simp
@[simp] theorem State.checks_bufGranted (i : Issue) (n : Nat) : Checks P (s.bufGranted i n) := by
  unfold State.bufGranted
  split <;> simp
@[simp] theorem State.checks_barrierLoc (i : Issue) (u : BufUse) (ea : DWord) : Checks P (s.barrierLoc i u ea) := by
  unfold State.barrierLoc
  split_ifs
  · simp
  · simp
  · split
    · simp
    · split <;> simp
@[simp] theorem State.checks_spansOk (team : Nat) (l : List (Nat × Nat)) : Checks P (s.spansOk team l) := by
  unfold State.spansOk
  split <;> simp
@[simp] theorem State.checks_barRange (team off : Nat) : Checks P (s.barRange team off) := by
  unfold State.barRange
  split <;> simp
@[simp] theorem State.checks_operandsOk (team : Nat) (q : BitVec 128) (maps : List (BitVec 128)) : Checks P (s.operandsOk team q maps) :=
  .seq (checks_allOk (fun _ => .seq (by simp) fun _ => by simp) _) fun _ => checks_allOk (by simp) _
@[simp] theorem State.checks_checkOp (i : Issue) (q : BitVec 128) (sp : Option Bool) : Checks P (s.checkOp i q sp) :=
  .seq (by simp) fun _ => .seq (by simp) fun _ => .seq (by simp) fun _ => .seq (by simp) fun _ => .seq (by simp) fun _ =>
    .seq (by simp) fun _ => .seq (by simp) fun _ => .seq (by simp) fun _ => trivial
@[simp] theorem State.checks_tileOk (i : Issue) (n : Nat) : Checks P (s.tileOk i n) := checks_refuseIf ..
@[simp] theorem State.checks_checkQuad (i : Issue) (q : BitVec 128) (b : Bool) : Checks P (s.checkQuad i q b) :=
  .seq (by simp) fun _ => .seq (by simp) fun _ => .seq (by simp) fun _ => .seq (by simp) fun _ => .seq (by simp) fun _ => by simp
@[simp] theorem State.checks_chanOk (i : Issue) (ch : Nat) : Checks P (s.chanOk i ch) := checks_refuseIf ..
@[simp] theorem State.checks_chanGranted (i : Issue) (ch : Nat) : Checks P (s.chanGranted i ch) := checks_refuseIf ..
@[simp] theorem State.checks_checkEndpoint (i : Issue) (k : CopyKind) : Checks P (s.checkEndpoint i k) := by
  unfold State.checkEndpoint
  dsimp only
  split <;> simp
@[simp] theorem State.checks_checkCopy (i : Issue) (k : CopyKind) (ctl : BitVec 28) (g : CopyGeo) : Checks P (s.checkCopy i k ctl g) := by
  unfold State.checkCopy
  refine .seq (by simp) fun _ => .seq (by simp) fun _ => .seq (by simp) fun _ => .seq (by simp) fun _ => .seq (by simp) fun _ =>
    .seq (by simp) fun _ => ?_
  split
  · split
    · simp
    · exact checks_allOk (by simp) _
  · simp
@[simp] theorem State.checks_copyBufs (i : Issue) (k : CopyKind) (g : CopyGeo) : Checks P (s.copyBufs i k g) := by
  unfold State.copyBufs
  dsimp only
  split_ifs <;> simp

end

end Sys2Proof.Machine

namespace Sys2Proof.Machine
open Sys2Proof

/-! ## Decisions that wait in the memory they are given -/

/-- `P` holds of the memory in which a read of peers goes on. -/
@[simp] def PeerRead.Holds (P : List Host.Cell → Prop) : PeerRead → Prop
  | .wait u => P u.mem
  | .nack => True
  | .got u _ _ => P u.mem

section
variable {P : List Host.Cell → Prop} {s : State} (h : P s.mem)
include h

theorem State.suspendOn_holds (slot : Nat) (w : WaitCond) : (s.suspendOn slot w).Holds P := by simpa [State.suspendOn]

theorem Issue.suspend_holds (i : Issue) (w : WaitCond) : (i.suspend s w).Holds P := State.suspendOn_holds h ..

theorem popOne_answers (slot : Nat) (g : Group) (f : RegField) : Checks P (popOne s slot g f) := by
  unfold popOne
  dsimp only
  split
  · trivial
  · split
    · split
      · split <;> simpa
      · simpa
    · split <;> simp

theorem popAll_answers (slot : Nat) (g : Group) (os : List Opnd) : Checks P (popAll s slot g os) := by
  induction os generalizing g with
  | nil => trivial
  | cons o os ih =>
    unfold popAll
    exact .ite (.seq (popOne_answers h ..) fun _ => .seq (ih _) fun _ => trivial) (ih _)

theorem checkPending_answers (slot : Nat) (g : Group) (names : List RegName) : Checks P (checkPending s slot g names) := by
  unfold checkPending
  split
  · simpa
  · trivial

theorem State.waitWalk_holds (slot : Nat) (g : Group) (ea : Nat) : (s.waitWalk slot g ea).Holds P := by
  have hw := s.startWalk_mem (coreDie (slotCore slot)) (s.owner g).1 (s.owner g).2 ea
  unfold State.waitWalk
  dsimp only
  split
  · next u id hu =>
    rw [hu] at hw
    rw [← hw] at h
    split
    · split <;> simpa
    · simpa
  · next u hu =>
    rw [hu] at hw
    rw [← hw] at h
    simpa

theorem State.groupLoc_answers (slot : Nat) (g : Group) (e : Engine) (k : Access) (ea : Nat) : Checks P (s.groupLoc slot g e k ea) := by
  unfold State.groupLoc
  dsimp only
  split
  · trivial
  · simpa
  · trivial
  · exact State.waitWalk_holds h ..

theorem State.fetch_answers (slot : Nat) (g : Group) (pc : BitVec 56) : Checks P (s.fetch slot g pc) := by
  unfold State.fetch
  dsimp only
  split
  · simp
  · split
    · next he => exact (State.groupLoc_answers h slot g _ _ _).error he
    · split <;> trivial

theorem State.fetchWords_answers (slot : Nat) (g : Group) (pc : BitVec 56) (n : Nat) : Checks P (s.fetchWords slot g pc n) :=
  checks_collect (fun _ => State.fetch_answers h ..) _

theorem State.fetchChain_answers (slot : Nat) (g : Group) (pc : BitVec 56) (n : Nat) : Checks P (s.fetchChain slot g pc n) := by
  induction n generalizing pc with
  | zero => trivial
  | succ n ih =>
    unfold State.fetchChain
    split
    · next he => exact (State.fetch_answers h slot g _).error he
    · exact .ite ((ih _).map fun _ _ => trivial) trivial

theorem State.chanFree_answers (slot : Nat) (g : Group) (ch : Nat) : Checks P (s.chanFree slot g ch) := by
  unfold State.chanFree
  split
  · exact State.suspendOn_holds h ..
  · trivial

theorem State.looseRoom_answers (slot : Nat) (g : Group) (w : Word) : Checks P (s.looseRoom slot g w) := .ite (State.chanFree_answers h ..) trivial

theorem State.nextInstr_answers (r : Run) (g : Group) : Checks P (s.nextInstr r g) := by
  have hl (b : Bool) (w : Word) : Checks P (if b then (s.looseRoom r.slot g w).bind fun _ => (trapE .illegalField : Except Stop Instr)
      else trapE .classMismatch) :=
    .ite (.seq (State.looseRoom_answers h ..) fun _ => answers_trapE _) (answers_trapE _)
  unfold State.nextInstr
  refine .seq (by simp) fun _ => .seq (by simp) fun _ => .seq (State.fetchChain_answers h ..) fun ws => ?_
  cases decodeWords ws with
  | ok i => trivial
  | error e => cases e with
    | illegalOpcode => trivial
    | illegalField i => exact hl ..
    | truncated =>
      refine .ite (answers_trapE _) ?_
      split
      · simp
      · exact hl ..

theorem State.locate_answers (i : Issue) (k : Access) (u : BufUse) (accs : List Acc) : Checks P (s.locate i k u accs) :=
  .seq (by simp) fun _ => .seq (by simp) fun _ => checks_collect (fun _ => .ite ((answers_ok _).2 trivial) (State.groupLoc_answers h ..)) _

theorem State.waitFifo_holds (slot : Nat) (g : Group) : (s.waitFifo slot g).Holds P := by
  unfold State.waitFifo
  split
  · split
    · split <;> simpa
    · simpa
  · simpa

theorem State.waitLoad_holds (slot : Nat) (g : Group) (l : Load) : (s.waitLoad slot g l).Holds P := by
  unfold State.waitLoad
  split
  · exact State.waitFifo_holds h ..
  · simpa

theorem State.afterAcquires_answers (i : Issue) : Checks P (s.afterAcquires i) := by
  unfold State.afterAcquires
  split
  · exact State.waitLoad_holds h ..
  · trivial

theorem State.readsFixed_answers (i : Issue) : Checks P (s.readsFixed i) := by
  unfold State.readsFixed
  split
  · trivial
  · exact State.waitLoad_holds h ..

theorem State.writesDone_answers (i : Issue) (scope : Nat) (sc : Bool) : Checks P (s.writesDone i scope sc) := by
  unfold State.writesDone
  split
  · exact State.waitFifo_holds h ..
  · split
    · simpa
    · split
      · trivial
      · simpa

theorem State.fifoRoom_answers (i : Issue) : Checks P (s.fifoRoom i) := by
  unfold State.fifoRoom
  split
  · simpa
  · trivial

theorem State.queueRoom_answers (i : Issue) : Checks P (s.queueRoom i) := by
  unfold State.queueRoom
  split
  · exact Issue.suspend_holds h ..
  · trivial

theorem State.nbRoom_answers (i : Issue) : Checks P (s.nbRoom i) := by
  unfold State.nbRoom
  split
  · exact Issue.suspend_holds h ..
  · trivial

theorem State.beforePeer_answers (i : Issue) : Checks P (s.beforePeer i) :=
  .seq (State.readsFixed_answers h i) fun _ => .ite (State.waitFifo_holds h ..) (.ite (State.writesDone_answers h ..) trivial)

theorem State.ownWritesDone_answers (i : Issue) (p : Place) : Checks P (s.ownWritesDone i p) := by
  unfold State.ownWritesDone
  dsimp only
  split
  · exact State.waitFifo_holds h ..
  · split
    · simpa
    · trivial

theorem State.barrierReady_answers (i : Issue) (u : BufUse) (a : RegField) : Checks P (s.barrierReady i u a) := by
  unfold State.barrierReady
  refine .seq (State.readsFixed_answers h i) fun _ => .seq (by simp) fun p => ?_
  exact .ite (.seq (State.writesDone_answers h ..) fun _ => trivial) (.seq (State.ownWritesDone_answers h ..) fun _ => trivial)

theorem State.ccLoc_answers (slot : Nat) (g : Group) (k : Access) (ea : DWord) : Checks P (s.ccLoc slot g k ea) := by
  unfold State.ccLoc
  dsimp only
  split
  · simp
  · split
    · simpa
    · simp
    · exact State.waitWalk_holds h ..
    · split
      · simp
      · split
        · simpa
        · simp
        · split
          · split <;> simp
          · simp

theorem State.nbLanes_answers (i : Issue) (k : Access) (accs : List Acc) : Checks P (s.nbLanes i k accs) :=
  .seq (by simp) fun _ => checks_collect (fun _ => State.ccLoc_answers h ..) _

theorem State.replayLocs_answers (slot : Nat) (g : Group) (ld : Load) : Checks P (s.replayLocs slot g ld) :=
  checks_collect (fun _ => .ite ((answers_ok _).2 trivial) (State.groupLoc_answers h ..)) _

/-! ### Decisions that answer a state -/

theorem prepare_answers (f : Form) (t : Tail) (r : Run) (g : Group) (hf : ∀ s slot g, P s.mem → Checks P (f.first s slot g))
    (hp : ∀ i, Checks P (f.pre i)) : Answers P (fun x => P x.2.mem) (prepare f t s r g) := by
  unfold prepare
  refine .seq (by simp) fun _ => .seq (by simp) fun _ => .seq (hf _ _ _ h) fun _ => .seq (by simp) fun _ => .seq (by simp) fun _ =>
    .seq (by simp) fun _ => .seq (by simp) fun _ => .seq (hp _) fun _ => .seq (checkPending_answers h ..) fun _ =>
    .seq (popAll_answers h ..) fun _ => .seq (by simp) fun _ => ?_
  simpa

theorem floatFlags_answers (i : Issue) (once : Bool) (rs : List (List Nat × BitVec 6 × BitVec 6)) :
    Answers P (fun u => P u.mem) (floatFlags i once rs s) := by
  unfold floatFlags
  dsimp only
  split
  · trivial
  · exact h

theorem State.askPeer_answers (i : Issue) (parts : List (Nat × Acc × Loc)) : Answers P (fun x => P x.1.mem) (s.askPeer i parts) := by
  unfold State.askPeer
  split
  · exact h
  · split
    · simpa
    · split
      · exact h
      · simp
      · simpa

theorem State.readPeer_holds (slot tag : Nat) (parts : List (Nat × Acc × Loc)) : (s.readPeer slot tag parts).Holds P := by
  unfold State.readPeer
  dsimp only
  split
  · exact h
  · grind [PeerRead.Holds, State.draw_mem, = State.dropPeer_mem, = State.fillPeer_mem, = State.sendPeer_mem]

theorem State.peerValues_answers (i : Issue) (parts : List (Nat × Acc × Loc)) : Answers P (fun x => P x.1.mem) (s.peerValues i parts) := by
  have hr := State.readPeer_holds h i.site.slot i.g.seq (peerParts parts)
  unfold State.peerValues
  dsimp only
  split
  · exact h
  · split
    · simp_all
    · simp
    · split <;> simp_all

theorem storeBody_answers (i : Issue) (d a : RegField) (size n words : Nat) (float : Bool) :
    Answers P (fun x => P x.1.mem) (storeBody i s d a size n words float) := by
  unfold storeBody
  refine .seq (State.afterAcquires_answers h i) fun _ => .seq (by simp) fun _ => .seq (by simp) fun _ => .seq (by simp) fun _ =>
    .seq (State.fifoRoom_answers h i) fun _ => .ite h ?_
  simpa

theorem rmwBody_answers (i : Issue) (kind : FifoKind) (ty : Nat) (bad hostOk : Bool) (pp : Nat) (accs : List Acc) (dests : List Dest) :
    Answers P (fun x => P x.1.mem) (rmwBody i s kind ty bad hostOk pp accs dests) := by
  have hr (parts : List (Nat × Acc × Loc)) (c : Cause) (f : Loc → Bool) :
      Checks P (match parts.find? fun p => f p.2.2 with | some p => trapA c p.2.1.ea | none => .ok () : Except Stop Unit) := by
    split <;> simp
  unfold rmwBody
  refine .seq (State.afterAcquires_answers h i) fun _ => .seq (State.locate_answers h ..) fun locs =>
    .seq (hr _ .writeReadonly fun l => attrHostCache l.attr) fun _ => .seq (hr _ .atomicType fun l => bad || atomRefused hostOk l) fun _ =>
    .seq (State.fifoRoom_answers h i) fun _ => ?_
  have hb (peers : List (Nat × Acc × Loc)) := (State.askPeer_answers h i peers)
  dsimp only
  split
  · refine .seq (State.beforePeer_answers h i) fun _ => .bind (hb _) fun x hx => .ite (by simpa) ?_
    split <;> simpa
  · refine .bind (hb _) fun x hx => .ite (by simpa) ?_
    split <;> simpa

theorem State.prefetch_answers (i : Issue) (level ea : Nat) : Answers P (fun u => P u.mem) (s.prefetch i level ea) := by
  have hw := s.startWalk_mem (coreDie (slotCore i.site.slot)) (s.owner i.g).1 (s.owner i.g).2 ea
  unfold State.prefetch
  dsimp only
  grind [answers_ok, answers_error, holds_wait, = State.dropWalks_mem, = State.askPager_mem, = State.fillL1_mem]

theorem awaitPhase_answers (i : Issue) (p : Place) (token : Word) : Answers P (fun u => P u.mem) (awaitPhase i s p token) :=
  .ite (Issue.suspend_holds h ..) h

theorem Issue.acceptCopy_answers (i : Issue) (kind : CopyKind) (ch : Nat) (a : RegField) :
    Answers P (fun x => P x.1.mem) (i.acceptCopy s kind ch a) := by
  unfold Issue.acceptCopy
  refine .seq (by simp) fun _ => .seq (by simp) fun _ => .seq (by simp) fun _ => .seq (by simp) fun _ => .seq (by simp) fun _ =>
    .seq (by simp) fun _ => .seq (by simp) fun x => .seq (by simp) fun _ => ?_
  dsimp only
  rw [answers_ok, State.modBufs_mem]
  split <;> simpa

theorem State.loadNow_answers (i : Issue) (eas : List DWord) (n : Nat) : Answers P (fun x => P x.1.mem) (s.loadNow i eas n) := by
  unfold State.loadNow
  refine .seq (State.readsFixed_answers h i) fun _ => .seq (State.locate_answers h ..) fun locs =>
    .bind (State.peerValues_answers h ..) fun x hx => ?_
  dsimp only
  split
  · simp
  · exact hx
  · next hr => simpa [State.readParts_mem _ _ _ _ _ _ hr] using hx

theorem State.loadRecord_answers (i : Issue) (ea : DWord) : Answers P (fun x => P x.1.mem) (s.loadRecord i ea) :=
  (State.loadNow_answers h ..).map fun _ hx => hx

end

@[simp] theorem State.replayLoad_mem (s : State) (slot : Nat) (g : Group) (ld : Load) : (s.replayLoad slot g ld).mem = s.mem := by
  have hr := State.replayLocs_answers (P := (· = s.mem)) rfl slot g ld
  unfold State.replayLoad
  split
  · rfl
  · next he => simpa using hr.error he
  · rfl

end Sys2Proof.Machine

namespace Sys2Proof.Machine
open Sys2Proof

/-! ## Outcomes -/

/-- `P` holds of the memory of the next state, if there is one. -/
def Next (P : List Host.Cell → Prop) : Host.Outcome State Fault Refusal → Prop
  | .next u => P u.mem
  | _ => True

section
variable {P : List Host.Cell → Prop}

@[simp] theorem next_next (u : State) : Next P (.next u) ↔ P u.mem := Iff.rfl
@[simp] theorem next_refused (r : Refusal) : Next P (.refused r) := trivial
@[simp] theorem next_fault (f : Fault) : Next P (.fault f) := trivial

theorem Next.ite {c : Prop} [Decidable c] {x y : Host.Outcome State Fault Refusal} (hx : Next P x) (hy : Next P y) :
    Next P (if c then x else y) := by split <;> assumption

theorem Next.of_eq {x : Host.Outcome State Fault Refusal} {u : State} (h : Next P x) (hx : x = .next u) : P u.mem := by subst hx; exact h

/-- A fold of decisions that each keep `P`. -/
theorem foldE_answers {α : Type} {f : State → α → Except Stop State} (hf : ∀ s a, P s.mem → Answers P (fun u => P u.mem) (f s a))
    (xs : List α) {s : State} (h : P s.mem) : Answers P (fun u => P u.mem) (foldE f s xs) := by
  induction xs generalizing s with
  | nil => exact h
  | cons x xs ih =>
    unfold foldE
    split
    · next hx => exact (hf s x h).error hx
    · next hx => exact ih ((hf s x h).ok hx)

/-- A form whose own checks, and whose wait before them, keep `P`. -/
structure Form.Keeps (P : List Host.Cell → Prop) (f : Form) : Prop where
  first : ∀ u slot g, P u.mem → Checks P (f.first u slot g)
  pre : ∀ i, Checks P (f.pre i)

section
variable {cls : OpClass} {acc : Accept} {dst : Option Opnd} {srcs : List Opnd} {reads writes : List RegName} {regC : Bool} {rule : DestRule}
  {bad : Mods → Bool}

theorem Form.Keeps.plain : Form.Keeps P ⟨cls, acc, dst, srcs, reads, writes, regC, rule, bad, fun _ => .ok (), fun _ _ _ => .ok ()⟩ :=
  ⟨fun _ _ _ _ => trivial, fun _ => trivial⟩

theorem Form.Keeps.checking {pre : Issue → Except Stop Unit} (hp : ∀ i, Checks P (pre i)) :
    Form.Keeps P ⟨cls, acc, dst, srcs, reads, writes, regC, rule, bad, pre, fun _ _ _ => .ok ()⟩ :=
  ⟨fun _ _ _ _ => trivial, hp⟩

theorem Form.Keeps.waiting {first : State → Nat → Group → Except Stop Unit} (hf : ∀ u slot g, P u.mem → Checks P (first u slot g)) :
    Form.Keeps P ⟨cls, acc, dst, srcs, reads, writes, regC, rule, bad, fun _ => .ok (), first⟩ :=
  ⟨hf, fun _ => trivial⟩

end

/-- A word's outcome, from that of its body. -/
theorem issue_next {f : Form} {t : Tail} {s : State} {body : Issue → State → Except Stop (State × BitVec 64)} (h : P s.mem)
    (hf : f.Keeps P) (hb : ∀ i u, P u.mem → Answers P (fun x => P x.1.mem) (body i u)) : Next P (issue f t s body) := by
  unfold issue
  split
  · trivial
  · next core sc r g₀ _ =>
    have hx := (prepare_answers h f t r (f.arrive t s r g₀) hf.first hf.pre).bind fun x hx => (hb x.1 x.2 hx).map (f := fun y => (x.1.site, y))
      (R := fun z => P z.2.1.mem) fun y hy => hy
    dsimp only
    split
    · next he => simpa using hx.ok he
    · simpa
    · next he => simpa using hx.error he

end

section
variable {P : List Host.Cell → Prop} {s : State} (h : P s.mem)
include h

/-! ## Words that compute on lanes -/

theorem laneInstr_next {f : Form} (hf : f.Keeps P) (lat : Option Nat) (t : Tail) (comp : Issue → Nat → List (List DWord) → LaneRes) :
    Next P (laneInstr f lat t s comp) := by
  refine issue_next h hf fun i u hu => ?_
  split
  · exact hu
  · simpa

theorem floatInstr_next {f : Form} (hf : f.Keeps P) (lat : Option Nat) (t : Tail) (comp : Issue → Nat → List (List DWord) → LaneRes) :
    Next P (floatInstr f lat t s comp) := by
  refine issue_next h hf fun i u hu => ?_
  split
  · exact hu
  · dsimp only
    split
    · next he => exact (floatFlags_answers hu i _ _).error he
    · next he => simpa using (floatFlags_answers hu i _ _).ok he

theorem arithInstr_next (op : FOp) (f : Fmt) (lat : Option Nat) (d a b : RegField) (t : Tail) : Next P (arithInstr op f lat d a b t s) := by
  unfold arithInstr
  exact floatInstr_next h .plain ..

theorem pickInstr_next (larger : Bool) (f : Fmt) (d a b : RegField) (t : Tail) : Next P (pickInstr larger f d a b t s) := by
  unfold pickInstr
  exact floatInstr_next h .plain ..

theorem packedInstr_next (op : FOp) (f : Fmt) (d a b : RegField) (t : Tail) : Next P (packedInstr op f d a b t s) := by
  unfold packedInstr
  exact floatInstr_next h .plain ..

theorem fnInstr_next (fn : Fn) (d a : RegField) (ty : BitVec 2) (t : Tail) : Next P (fnInstr fn d a ty t s) := by
  unfold fnInstr
  exact floatInstr_next h .plain ..

theorem rndInstr_next (f : Fmt) (d a : RegField) (r : BitVec 2) (t : Tail) : Next P (rndInstr f d a r t s) := by
  unfold rndInstr
  exact floatInstr_next h .plain ..

theorem execFcvt_next (d a : RegField) (c : BitVec 5) (r : BitVec 2) (t : Tail) : Next P (execFcvt d a c r t s) := by
  unfold execFcvt
  dsimp only
  split
  · exact floatInstr_next h .plain ..
  · split
    · exact floatInstr_next h .plain ..
    · exact floatInstr_next h .plain ..

theorem setpInstr_next (f : Fmt) (c : BitVec 4) (p : BitVec 3) (a b : RegField) (t : Tail) : Next P (setpInstr f c p a b t s) := by
  unfold setpInstr
  refine issue_next h .plain fun i u hu => ?_
  dsimp only
  split
  · next he => exact (floatFlags_answers hu i _ _).error he
  · next he => simpa using (floatFlags_answers hu i _ _).ok he

theorem classInstr_next (f : Fmt) (c : BitVec 4) (p : BitVec 3) (a : RegField) (t : Tail) : Next P (classInstr f c p a t s) := by
  unfold classInstr
  refine issue_next h .plain fun i u hu => ?_
  simpa

theorem intInstr_next (lat : Nat) (acc : Accept) (d : RegField) (srcs : List RegField) (t : Tail) (f : Arith → List (List DWord) → Word) :
    Next P (intInstr lat acc d srcs t s f) := by
  unfold intInstr
  exact laneInstr_next h .plain ..

theorem xchInstr_next (more : List RegField) (source : Nat → List (List DWord) → Int) (d a : RegField) (t : Tail) :
    Next P (xchInstr more source d a t s) := by
  unfold xchInstr
  exact laneInstr_next h .plain ..

theorem predInstr_next (f : Bool → Bool → Bool) (p : BitVec 3) (n : BitVec 1) (a : BitVec 3) (g : BitVec 1) (b : BitVec 3) (t : Tail) :
    Next P (predInstr f p n a g b t s) := by
  unfold predInstr
  refine issue_next h .plain fun i u hu => ?_
  simpa

theorem execIsetp_next (c : BitVec 4) (p : BitVec 3) (a b : RegField) (t : Tail) : Next P (execIsetp c p a b t s) := by
  unfold execIsetp
  refine issue_next h .plain fun i u hu => ?_
  simpa

theorem execMovhi_next (d : RegField) (l : BitVec 14) (t : Tail) : Next P (execMovhi d l t s) := by
  unfold execMovhi
  refine issue_next h .plain fun i u hu => ?_
  simpa

theorem execWrsp_next (a n : RegField) (t : Tail) : Next P (execWrsp a n t s) := by
  unfold execWrsp
  refine issue_next h .plain fun i u hu => ?_
  exact hu

theorem execIxset_next (k : BitVec 2) (a b : RegField) (t : Tail) : Next P (execIxset k a b t s) := by
  unfold execIxset
  refine issue_next h (.checking fun i => ?_) fun i u hu => by simpa
  dsimp only
  split <;> simp

theorem execIxadd_next (k : BitVec 2) (b : RegField) (t : Tail) : Next P (execIxadd k b t s) := by
  unfold execIxadd
  refine issue_next h .plain fun i u hu => ?_
  simpa

theorem execDualset_next (d a n : RegField) (t : Tail) : Next P (execDualset d a n t s) := by
  unfold execDualset
  refine issue_next h .plain fun i u hu => ?_
  simpa

theorem execDualzero_next (d : RegField) (t : Tail) : Next P (execDualzero d t s) := by
  unfold execDualzero
  refine issue_next h .plain fun i u hu => ?_
  simpa

theorem execGred_next (d a : RegField) (f : BitVec 4) (t : Tail) : Next P (execGred d a f t s) := by
  unfold execGred
  refine issue_next h .plain fun i u hu => ?_
  have hr (i : Issue) (rs : List (List Nat × BitVec 6 × BitVec 6)) := floatFlags_answers hu i false rs
  dsimp only
  split
  · next he => exact (hr _ _).error he
  · next he =>
    split
    · simpa using (hr _ _).ok he
    · exact (hr _ _).ok he

theorem execGscan_next (d a : RegField) (f : BitVec 4) (e : BitVec 1) (t : Tail) : Next P (execGscan d a f e t s) := by
  unfold execGscan
  refine issue_next h .plain fun i u hu => ?_
  dsimp only
  split
  · next he => exact (floatFlags_answers hu i _ _).error he
  · next he => simpa using (floatFlags_answers hu i _ _).ok he

/-! ## Control words -/

theorem execNop_next (t : Tail) : Next P (execNop t s) := by
  unfold execNop
  refine issue_next h .plain fun _ _ hu => ?_
  exact hu

theorem execBra_next (o : BitVec 21) (t : Tail) : Next P (execBra o t s) := by
  unfold execBra
  refine issue_next h .plain fun i u hu => ?_
  simpa

theorem branchReg_next (a : RegField) (t : Tail) : Next P (branchReg a t s) := by
  unfold branchReg
  refine issue_next h .plain fun i u hu => ?_
  exact .ite (answers_trapE _) (by simpa)

theorem execCall_next (o : BitVec 21) (t : Tail) : Next P (execCall o t s) := by
  unfold execCall
  refine issue_next h .plain fun i u hu => ?_
  simpa

theorem execMeet_next (o : BitVec 21) (t : Tail) : Next P (execMeet o t s) := by
  unfold execMeet
  refine issue_next h .plain fun i u hu => ?_
  simpa

theorem execMeetx_next (d : RegField) (t : Tail) : Next P (execMeetx d t s) := by
  unfold execMeetx
  refine issue_next h (.checking fun i => ?_) fun i u hu => by simpa
  split <;> simp

theorem execMeetr_next (a : RegField) (t : Tail) : Next P (execMeetr a t s) := by
  unfold execMeetr
  refine issue_next h .plain fun i u hu => ?_
  exact .ite (answers_trapR ..) (by simpa)

theorem execExit_next (t : Tail) : Next P (execExit t s) := by
  unfold execExit
  refine issue_next h .plain fun i u hu => ?_
  simpa

theorem execYield_next (t : Tail) : Next P (execYield t s) := by
  unfold execYield
  refine issue_next h .plain fun i u hu => ?_
  simpa

theorem trapInstr_next (c : Cause) (after : Bool) (code : BitVec 14) (t : Tail) : Next P (trapInstr c after code t s) := by
  unfold trapInstr
  refine issue_next h .plain fun i u hu => ?_
  exact .ite hu trivial

end

end Sys2Proof.Machine

namespace Sys2Proof.Machine
open Sys2Proof

section
variable {P : List Host.Cell → Prop} {s : State} (h : P s.mem)
include h

/-! ## Memory words -/

theorem loadInstr_next (d a : RegField) (hint ty n : Nat) (badTy : Bool) (width : Nat) (index : Bool) (t : Tail) :
    Next P (loadInstr d a hint ty n badTy width index t s) := by
  unfold loadInstr
  refine issue_next h .plain fun i u hu => .seq (State.afterAcquires_answers hu i) fun _ => .seq (by simp) fun _ =>
    .seq (State.locate_answers hu ..) fun _ => .bind (State.peerValues_answers hu ..) fun x hx => .ite hx ?_
  simpa

theorem execLdm_next (d a : RegField) (b : BitVec 2) (f : BitVec 1) (n : BitVec 3) (t : Tail) : Next P (execLdm d a b f n t s) := by
  unfold execLdm
  refine issue_next h (.checking fun i => by simp) fun i u hu => .seq (State.afterAcquires_answers hu i) fun _ => .seq (by simp) fun _ =>
    .seq (State.locate_answers hu ..) fun _ => .bind (State.peerValues_answers hu ..) fun x hx => .ite hx ?_
  simpa

theorem execSt_next (d a : RegField) (b : BitVec 2) (ty : BitVec 4) (t : Tail) : Next P (execSt d a b ty t s) := by
  unfold execSt
  exact issue_next h .plain fun i u hu => storeBody_answers hu ..

theorem execStm_next (d a : RegField) (b : BitVec 2) (f : BitVec 1) (n : BitVec 3) (t : Tail) : Next P (execStm d a b f n t s) := by
  unfold execStm
  exact issue_next h (.checking fun i => by simp) fun i u hu => storeBody_answers hu ..

theorem execAtom_next (d a b : RegField) (t : Tail) : Next P (execAtom d a b t s) := by
  unfold execAtom
  exact issue_next h .plain fun i u hu => .seq (by simp) fun _ => .seq (by simp) fun _ => rmwBody_answers hu ..

theorem casInstr_next (d a b : RegField) (index : Bool) (ty size w : Nat) (floatTy badTy : Bool) (t : Tail) :
    Next P (casInstr d a b index ty size w floatTy badTy t s) := by
  unfold casInstr
  exact issue_next h .plain fun i u hu => rmwBody_answers hu ..

theorem execFence_next (t : Tail) : Next P (execFence t s) := by
  unfold execFence
  refine issue_next h .plain fun i u hu => .seq (State.afterAcquires_answers hu i) fun _ => .seq (State.readsFixed_answers hu i) fun _ => ?_
  have hd : P (if acquires i.mods.flavour.1 then u.discard (slotCore i.site.slot) i.mods.flavour.2 else u).mem := by
    split
    · simpa
    · exact hu
  exact .ite (.seq (State.writesDone_answers hu ..) fun _ => hd) hd

theorem execPref_next (l : BitVec 2) (a : RegField) (t : Tail) : Next P (execPref l a t s) := by
  unfold execPref
  refine issue_next h .plain fun i u hu => .seq (State.afterAcquires_answers hu i) fun _ => .seq (by simp) fun _ =>
    .bind (foldE_answers (fun v x hv => ?_) _ hu) fun v hv => hv
  exact .ite hv (State.prefetch_answers hv ..)

theorem execBufdcl_next (n : BitVec 6) (a : RegField) (t : Tail) : Next P (execBufdcl n a t s) := by
  unfold execBufdcl
  refine issue_next h .plain fun i u hu => .seq (State.afterAcquires_answers hu i) fun _ => .seq (by simp) fun _ => .seq (by simp) fun _ =>
    .seq (by simp) fun _ => .seq (by simp) fun _ => .seq (by simp) fun _ => ?_
  simpa

theorem execBufset_next (n : BitVec 6) (e : BitVec 2) (t : Tail) : Next P (execBufset n e t s) := by
  unfold execBufset
  refine issue_next h .plain fun i u hu => .seq (State.afterAcquires_answers hu i) fun _ => .seq (by simp) fun _ => ?_
  split
  · simp
  · exact .ite (answers_trapE _) (by simpa)

theorem execBufq_next (d a : RegField) (t : Tail) : Next P (execBufq d a t s) := by
  unfold execBufq
  refine issue_next h .plain fun i u hu => .seq (State.afterAcquires_answers hu i) fun _ => .seq (by simp) fun _ => ?_
  simpa

/-! ## Barriers -/

theorem barSource_next (d a : RegField) (flavs : List Nat) (b : BufUse) (t : Tail)
    (body : Issue → State → DWord → Place → Word → Except Stop State)
    (hb : ∀ i u ea p w, P u.mem → Answers P (fun u => P u.mem) (body i u ea p w)) : Next P (barSource d a flavs b t s body) := by
  unfold barSource
  refine issue_next h .plain fun i u hu => .seq (State.barrierReady_answers hu ..) fun x => .bind (hb _ _ _ _ _ hu) fun v hv => ?_
  simpa

theorem barDest_next (d a : RegField) (flavs : List Nat) (b : BufUse) (t : Tail) (body : Issue → State → DWord → Place → Except Stop State)
    (hb : ∀ i u ea p, P u.mem → Answers P (fun u => P u.mem) (body i u ea p)) : Next P (barDest d a flavs b t s body) := by
  unfold barDest
  refine issue_next h .plain fun i u hu => .seq (State.barrierReady_answers hu ..) fun x => .bind (hb _ _ _ _ hu) fun v hv => ?_
  simpa

theorem execTsync_next (t : Tail) : Next P (execTsync t s) := by
  unfold execTsync
  refine issue_next h .plain fun i u hu => .seq (State.readsFixed_answers hu i) fun _ => .seq (State.writesDone_answers hu ..) fun _ => ?_
  simpa

/-! ## Matrix words -/

theorem mmInstr_next (sp : Bool) (d : RegField) (t : Tail) : Next P (mmInstr sp d t s) := by
  unfold mmInstr
  refine issue_next h .plain fun i u hu => .seq (by simp) fun _ => .seq (State.queueRoom_answers hu i) fun _ => ?_
  simpa

theorem execMmz_next (g : BitVec 1) (n : BitVec 6) (t : Tail) : Next P (execMmz g n t s) := by
  unfold execMmz
  refine issue_next h .plain fun i u hu => .seq (by simp) fun _ => .seq (State.queueRoom_answers hu i) fun _ => ?_
  simpa

theorem execAccld_next (g : BitVec 1) (n : BitVec 6) (a : RegField) (t : Tail) : Next P (execAccld g n a t s) := by
  unfold execAccld
  refine issue_next h .plain fun i u hu => .seq (by simp) fun _ => .seq (by simp) fun _ => .seq (State.queueRoom_answers hu i) fun _ => ?_
  simpa

theorem execAccst_next (n : BitVec 6) (a : RegField) (t : Tail) : Next P (execAccst n a t s) := by
  unfold execAccst
  refine issue_next h .plain fun i u hu => .seq (by simp) fun _ => .seq (by simp) fun _ => .seq (State.queueRoom_answers hu i) fun _ => ?_
  simpa

theorem execAccmv_next (x y : BitVec 6) (t : Tail) : Next P (execAccmv x y t s) := by
  unfold execAccmv
  refine issue_next h .plain fun i u hu => .seq (by simp) fun _ => .seq (by simp) fun _ => .seq (State.queueRoom_answers hu i) fun _ => ?_
  simpa

theorem execAccadd_next (g : BitVec 1) (x y : BitVec 6) (t : Tail) : Next P (execAccadd g x y t s) := by
  unfold execAccadd
  refine issue_next h .plain fun i u hu => .seq (by simp) fun _ => .seq (by simp) fun _ => .seq (by simp) fun _ =>
    .seq (State.queueRoom_answers hu i) fun _ => ?_
  simpa

theorem execOmset_next (n : BitVec 4) (a : RegField) (t : Tail) : Next P (execOmset n a t s) := by
  unfold execOmset
  refine issue_next h .plain fun i u hu => .seq (by simp) fun _ => ?_
  simpa

theorem execMstcfg_next (m : BitVec 4) (a : RegField) (t : Tail) : Next P (execMstcfg m a t s) := by
  unfold execMstcfg
  refine issue_next h .plain fun i u hu => .seq (by simp) fun _ => ?_
  simpa

theorem execMsign_next (m : BitVec 4) (a : RegField) (t : Tail) : Next P (execMsign m a t s) := by
  unfold execMsign
  refine issue_next h .plain fun i u hu => .seq (by simp) fun _ => .seq (by simp) fun _ => .ite ?_ ?_
  · refine .seq (State.queueRoom_answers hu i) fun _ => ?_
    simpa
  · simpa

theorem execMmwait_next (t : Tail) : Next P (execMmwait t s) := by
  unfold execMmwait
  refine issue_next h .plain fun i u hu => .ite (Issue.suspend_holds hu ..) ?_
  split
  · simp
  · simpa

theorem execMmstat_next (d : RegField) (c : BitVec 1) (t : Tail) : Next P (execMmstat d c t s) := by
  unfold execMmstat
  refine issue_next h .plain fun i u hu => ?_
  dsimp only
  rw [answers_ok, Issue.writeOnce_mem]
  split
  · simpa
  · exact hu

/-! ## Copy words -/

theorem copyWord_next {kind : CopyKind} {ch : Nat} {a : RegField} {t : Tail} (kindOf : Issue → CopyKind) :
    Next P (issue (copyForm kind ch a) t s fun i u => i.acceptCopy u (kindOf i) ch a) :=
  issue_next h (.waiting fun _ _ _ hu => State.chanFree_answers hu ..) fun _ _ hu => Issue.acceptCopy_answers hu ..

theorem execPsig_next (c : BitVec 4) (a : RegField) (t : Tail) : Next P (execPsig c a t s) := by
  unfold execPsig
  refine issue_next h (.waiting fun _ _ _ hu => State.chanFree_answers hu ..) fun i u hu => .seq (by simp) fun _ => .seq (by simp) fun _ =>
    .seq (by simp) fun _ => ?_
  simpa

theorem execChwait_next (c : BitVec 4) (a : RegField) (t : Tail) : Next P (execChwait c a t s) := by
  unfold execChwait
  refine issue_next h .plain fun i u hu => .seq (by simp) fun _ => ?_
  dsimp only
  split
  · simp
  · refine .ite ?_ (Issue.suspend_holds hu ..)
    simpa

theorem execChstat_next (d : RegField) (l : BitVec 1) (c : BitVec 4) (t : Tail) : Next P (execChstat d l c t s) := by
  unfold execChstat
  refine issue_next h .plain fun i u hu => .seq (by simp) fun _ => ?_
  dsimp only
  rw [answers_ok, Issue.writeOnce_mem]
  split
  · simpa
  · exact hu

theorem execFmtset_next (n : BitVec 5) (a : RegField) (t : Tail) : Next P (execFmtset n a t s) := by
  unfold execFmtset
  refine issue_next h .plain fun i u hu => .seq (by simp) fun _ => ?_
  simpa

theorem execFmtget_next (d : RegField) (n : BitVec 5) (t : Tail) : Next P (execFmtget d n t s) := by
  unfold execFmtget
  refine issue_next h .plain fun i u hu => .seq (by simp) fun _ => ?_
  simpa

/-! ## Streams and item queues -/

theorem execAqload_next (n : BitVec 4) (a : RegField) (t : Tail) : Next P (execAqload n a t s) := by
  unfold execAqload
  refine issue_next h .plain fun i u hu => .seq (State.afterAcquires_answers hu i) fun _ => .seq (by simp) fun _ =>
    .bind (State.loadNow_answers hu ..) fun x hx => ?_
  dsimp only
  split
  · simp
  · simpa

theorem maskInstr_next (a : RegField) (t : Tail) (body : Issue → State → Word → Except Stop State)
    (hb : ∀ i u m, P u.mem → Answers P (fun u => P u.mem) (body i u m)) : Next P (maskInstr a t s body) := by
  unfold maskInstr
  exact issue_next h .plain fun i u hu => (hb _ _ _ hu).map fun _ hv => hv

theorem execAqstart_next (a : RegField) (t : Tail) : Next P (execAqstart a t s) := by
  unfold execAqstart
  refine maskInstr_next h _ _ _ fun i u m hu => .seq (State.afterAcquires_answers hu i) fun _ => .seq (by simp) fun _ =>
    .seq (checks_allOk (fun j => ?_) _) fun _ => ?_
  · split
    · exact State.writesDone_answers hu ..
    · simp
  · simpa

theorem execItempush_next (q : BitVec 2) (a : RegField) (t : Tail) : Next P (execItempush q a t s) := by
  unfold execItempush
  refine issue_next h .plain fun i u hu => ?_
  dsimp only
  split
  · simp
  · refine .ite (answers_trapE _) (.ite (Issue.suspend_holds hu ..) (.ite ?_ ?_))
    · simpa
    · simpa

theorem execRefill_next (d : RegField) (p : BitVec 3) (q : BitVec 2) (x : BitVec 9) (t : Tail) : Next P (execRefill d p q x t s) := by
  unfold execRefill
  refine issue_next h .plain fun i u hu => ?_
  dsimp only
  split
  · simp
  · simpa

/-! ## System words -/

theorem execSethdlr_next (a : RegField) (t : Tail) : Next P (execSethdlr a t s) := by
  unfold execSethdlr
  exact issue_next h .plain fun i u hu => .ite (answers_trapE _) (by simpa)

theorem execTrapret_next (a : RegField) (t : Tail) : Next P (execTrapret a t s) := by
  unfold execTrapret
  exact issue_next h .plain fun i u hu => .ite (answers_trapE _) (.ite (answers_trapE _) (by simpa))

theorem execRdcause_next (d a : RegField) (t : Tail) : Next P (execRdcause d a t s) := by
  unfold execRdcause
  refine issue_next h .plain fun i u hu => ?_
  simpa

theorem execProbe_next (d a : RegField) (t : Tail) : Next P (execProbe d a t s) := by
  unfold execProbe
  exact issue_next h .plain fun i u hu => .ite (by simpa) (by simpa)

theorem execRnginit_next (d a : RegField) (t : Tail) : Next P (execRnginit d a t s) := by
  unfold execRnginit
  refine issue_next h .plain fun i u hu => ?_
  dsimp only
  split
  · simp
  · exact .ite (answers_trapE _) (by simpa)

theorem execGrab_next (d a : RegField) (t : Tail) : Next P (execGrab d a t s) := by
  unfold execGrab
  refine issue_next h .plain fun i u hu => ?_
  dsimp only
  split
  · simp
  · simpa

theorem execLaunch_next (d a : RegField) (t : Tail) : Next P (execLaunch d a t s) := by
  unfold execLaunch
  refine issue_next h .plain fun i u hu => .seq (State.afterAcquires_answers hu i) fun _ => .seq (by simp) fun _ =>
    .bind (State.loadRecord_answers hu ..) fun x hx => ?_
  dsimp only
  split
  · simp
  · exact .ite (answers_trapE _) (by simpa)

theorem execJoin_next (a : RegField) (t : Tail) : Next P (execJoin a t s) := by
  unfold execJoin
  refine issue_next h .plain fun i u hu => .ite (answers_trapE _) (.ite (Issue.suspend_holds hu ..) ?_)
  split
  · simp
  · simpa

theorem execLstat_next (d a : RegField) (t : Tail) : Next P (execLstat d a t s) := by
  unfold execLstat
  refine issue_next h .plain fun i u hu => ?_
  have hg (lo hi : Nat) : Answers P (fun x => P x.1.mem) (.ok (i.writeOnce u d [BitVec.ofNat 32 lo, BitVec.ofNat 32 hi], (0 : BitVec 64))) := by
    simpa
  dsimp only
  split
  · exact hg _ _
  · exact hg _ _
  · split
    · simp
    · exact hg _ _
  · split
    · simp
    · exact hg _ _
  · exact hg _ _
  · simp

theorem execSeqnew_next (d : RegField) (t : Tail) : Next P (execSeqnew d t s) := by
  unfold execSeqnew
  refine issue_next h .plain fun i u hu => ?_
  dsimp only
  split
  · simpa
  · refine .ite ?_ ?_
    · exact hu
    · simpa

theorem execSeqend_next (d a : RegField) (t : Tail) : Next P (execSeqend d a t s) := by
  unfold execSeqend
  refine issue_next h .plain fun i u hu => .seq (by simp) fun _ => .ite (.ite (Issue.suspend_holds hu ..) (by simpa)) ?_
  refine .seq (by simp) fun _ => .ite ?_ (by simpa)
  exact .seq (State.afterAcquires_answers hu i) fun _ => .seq (State.readsFixed_answers hu i) fun _ =>
    .seq (State.writesDone_answers hu ..) fun _ => Issue.suspend_holds (s := u.setKey _ _) hu ..

/-! ## Near-bank words -/

theorem nbInstr_next (fn : Nat) (d a : RegField) (t : Tail) : Next P (nbInstr fn d a t s) := by
  unfold nbInstr
  exact issue_next h .plain fun i u hu => .seq (by simp) fun _ => .seq (by simp) fun _ => .seq (by simp) fun _ => .seq (by simp) fun _ =>
    .seq (by simp) fun _ => .seq (by simp) fun _ => .seq (checks_collect (fun _ => (State.ccLoc_answers hu ..).map fun _ _ => trivial) _) fun _ =>
    .seq (by simp) fun _ => .seq (State.nbRoom_answers hu i) fun _ => hu

theorem execNbld_next (d a : RegField) (t : Tail) : Next P (execNbld d a t s) := by
  unfold execNbld
  exact issue_next h .plain fun i u hu => .seq (State.afterAcquires_answers hu i) fun _ => .seq (State.nbLanes_answers hu ..) fun _ =>
    .ite hu (by simpa)

theorem execNbst_next (d a : RegField) (t : Tail) : Next P (execNbst d a t s) := by
  unfold execNbst
  exact issue_next h .plain fun i u hu => .seq (State.afterAcquires_answers hu i) fun _ => .seq (State.nbLanes_answers hu ..) fun _ =>
    .seq (State.nbRoom_answers hu i) fun _ => .ite hu (by simpa)

theorem execNbfence_next (d a : RegField) (t : Tail) : Next P (execNbfence d a t s) := by
  unfold execNbfence
  refine issue_next h .plain fun i u hu => .seq (State.afterAcquires_answers hu i) fun _ => .seq (by simp) fun _ =>
    .seq (State.ccLoc_answers hu ..) fun _ => ?_
  extract_lets stack drain waiting last flights
  have hlast : Answers P (fun x => P x.1.mem) (last ()) := by
    refine .ite ?_ hu
    split
    · refine .ite ?_ (Issue.suspend_holds hu ..)
      rw [answers_ok]
      split
      · exact hu
      · exact hu
    · exact Issue.suspend_holds (s := waiting) hu ..
  refine .ite ?_ hlast
  have hflights : Answers P (fun x => P x.1.mem) (flights ()) := by
    simp only [flights]
    split
    · exact hu
    · exact hlast
  exact .ite hflights (State.waitFifo_holds hu ..)

end

end Sys2Proof.Machine

namespace Sys2Proof.Machine
open Sys2Proof

/-! ## The canonical form of memory -/

/-- The canonical form of a memory (log 3). -/
def Canonical (m : List Host.Cell) : Prop := Memory.wf m = true

theorem Canonical.writeCells {m : List Host.Cell} (h : Canonical m) (k : Nat) (bs : List (BitVec 8)) : Canonical (writeCells m k bs) :=
  memWf_writeCells m k bs h

theorem Canonical.zeroCells {m : List Host.Cell} (h : Canonical m) (k n : Nat) : Canonical (zeroCells m k n) := memWf_zeroCells m k n h

theorem Canonical.moveCells {m : List Host.Cell} (h : Canonical m) (a b n : Nat) : Canonical (moveCells m a b n) := memWf_moveCells m a b n h

theorem Canonical.writeCell {m : List Host.Cell} (h : Canonical m) (k : Nat) (b : BitVec 8) : Canonical (writeCell m k b) :=
  memWf_writeCell m k b h

theorem Canonical.filter {m : List Host.Cell} (h : Canonical m) (p : Host.Cell → Bool) : Canonical (m.filter p) := memWf_filter m p h

theorem Canonical.foldl {α : Type} {f : List Host.Cell → α → List Host.Cell} {m : List Host.Cell} (h : Canonical m)
    (hf : ∀ m x, Canonical m → Canonical (f m x)) (xs : List α) : Canonical (xs.foldl f m) := memWf_foldl f hf xs m h

/-- A fold of steps that each keep `P`. -/
theorem foldl_keeps {α : Type} {P : List Host.Cell → Prop} {f : State → α → State} (hf : ∀ s x, P s.mem → P (f s x).mem) (xs : List α)
    {s : State} (h : P s.mem) : P (xs.foldl f s).mem := by
  induction xs generalizing s with
  | nil => exact h
  | cons x xs ih => exact ih (hf s x h)

/-- A fold of decisions that each keep `P`. -/
theorem foldE_keeps {α ε : Type} {P : List Host.Cell → Prop} {f : State → α → Except ε State}
    (hf : ∀ s x u, P s.mem → f s x = .ok u → P u.mem) (xs : List α) {s v : State} (h : P s.mem) (hv : foldE f s xs = .ok v) : P v.mem := by
  induction xs generalizing s with
  | nil =>
    obtain rfl := Except.ok.inj hv
    exact h
  | cons x xs ih =>
    unfold foldE at hv
    split at hv
    · cases hv
    · next hx => exact ih (hf s x _ h hx) hv

/-- A fold of steps that each keep `P`, as long as none of them fails. -/
theorem foldBind_keeps {α : Type} {P : List Host.Cell → Prop} {f : State → α → Option State}
    (hf : ∀ s x u, P s.mem → f s x = some u → P u.mem) (xs : List α) {s v : State} (h : P s.mem)
    (hv : xs.foldl (fun r x => r.bind fun s => f s x) (some s) = some v) : P v.mem := by
  have hn (l : List α) : l.foldl (fun r x => r.bind fun s => f s x) none = none := by
    induction l with
    | nil => rfl
    | cons x xs ih => exact ih
  induction xs generalizing s with
  | nil =>
    obtain rfl := Option.some.inj hv
    exact h
  | cons x xs ih =>
    rw [List.foldl_cons, Option.bind_some] at hv
    cases hx : f s x with
    | none => simp [hx, hn] at hv
    | some u => exact ih (hf s x u h hx) (hx ▸ hv)

theorem map_ok {ε α β : Type} {x : Except ε α} {f : α → β} {y : β} (h : x.map f = .ok y) : ∃ a, x = .ok a ∧ f a = y := by
  cases x with
  | error e => cases h
  | ok a => exact ⟨a, rfl, Except.ok.inj h⟩

section
variable {s : State} (h : Canonical s.mem)
include h

/-! ### Writes -/

@[simp] theorem State.sealLine_canonical (st line : Nat) (u : KeyUse) (b : CtrBlock) (pt : List (BitVec 8)) :
    Canonical (s.sealLine st line u b pt).mem := h.writeCells ..

theorem State.writeDram_canonical (st spa : Nat) (bs : List (BitVec 8)) (dom : Nat) (key : Option KeyUse) {v : State}
    (hv : s.writeDram st spa bs dom key = .ok v) : Canonical v.mem := by
  unfold State.writeDram at hv
  obtain ⟨_, _, hv⟩ := bind_ok hv
  split at hv
  · obtain ⟨_, _, hv⟩ := bind_ok hv
    obtain ⟨_, _, hv⟩ := bind_ok hv
    dsimp only at hv
    obtain ⟨_, _, hv⟩ := bind_ok hv
    obtain rfl := Except.ok.inj hv
    refine State.sealLine_canonical ?_ ..
    exact foldl_keeps (fun s x hs => State.sealLine_canonical hs ..) _ h
  · dsimp only at hv
    split at hv
    · obtain rfl := Except.ok.inj hv
      exact h.writeCells ..
    · obtain rfl := Except.ok.inj hv
      exact h.writeCells ..

@[simp] theorem State.writeSlice_canonical (core off : Nat) (bs : List (BitVec 8)) : Canonical (s.writeSlice core off bs).mem := by
  unfold State.writeSlice
  dsimp only
  rw [ite_mem]
  exact Canonical.writeCells (by split <;> exact h) ..

theorem State.writeLoc_canonical (l : Loc) (bs : List (BitVec 8)) {v : State} (hv : s.writeLoc l bs = .ok v) : Canonical v.mem := by
  unfold State.writeLoc at hv
  split at hv
  · exact State.writeDram_canonical h _ _ _ _ _ hv
  · obtain rfl := Except.ok.inj hv
    exact State.writeSlice_canonical h ..
  · obtain rfl := Except.ok.inj hv
    exact h.writeCells ..

theorem State.performPart_canonical (k : FifoKind) (p : Nat × Acc × Loc) {v : State} {olds : Table (List (BitVec 8))}
    (hv : s.performPart k p = .ok (v, olds)) : Canonical v.mem := by
  unfold State.performPart at hv
  have hw (bs : List (BitVec 8)) (t : Table (List (BitVec 8))) (hm : (s.writeLoc p.2.2 bs).map (fun s => (s, t)) = .ok (v, olds)) :
      Canonical v.mem := by
    obtain ⟨u, hl, hu⟩ := map_ok hm
    obtain ⟨rfl, -⟩ := Prod.mk.inj hu
    exact State.writeLoc_canonical h _ _ hl
  split at hv
  · exact hw _ _ hv
  · split at hv
    · cases hv
    · split at hv
      · obtain ⟨rfl, -⟩ := Prod.mk.inj (Except.ok.inj hv)
        exact h
      · exact hw _ _ hv

omit h in
theorem State.performParts_canonical (k : FifoKind) (ps : List (Nat × Acc × Loc)) {s : State} (h : Canonical s.mem) {v : State}
    {olds : Table (List (BitVec 8))} (hv : s.performParts k ps = .ok (v, olds)) : Canonical v.mem := by
  induction ps generalizing s v olds with
  | nil =>
    obtain ⟨rfl, -⟩ := Prod.mk.inj (Except.ok.inj hv)
    exact h
  | cons p ps ih =>
    unfold State.performParts at hv
    split at hv
    · cases hv
    · next u _ hp =>
      split at hv
      · cases hv
      · next hq =>
        obtain ⟨rfl, -⟩ := Prod.mk.inj (Except.ok.inj hv)
        exact ih (by rw [State.used_mem]; exact State.performPart_canonical h _ _ hp) hq

@[simp] theorem State.leaveFifo_canonical (slot : Nat) (g : Group) (e : FifoEntry) (parts : List (Nat × Acc × Loc)) :
    Canonical (s.leaveFifo slot g e parts).mem := by
  unfold State.leaveFifo
  dsimp only
  split
  · simpa
  · next hp =>
    have hu := State.performParts_canonical _ _ h hp
    simp only [State.tsyncRelease_mem, State.putInFlight_mem, ite_mem]
    rw [foldl_mem _ (fun s x => s.updateCopies_mem _ _)]
    simpa

/-! ### Barriers -/

@[simp] theorem State.setBarrier_canonical (p : Place) (b : Barrier) : Canonical (s.setBarrier p b).mem := by
  unfold State.setBarrier
  dsimp only
  rw [ite_mem, State.lagFlip_mem, ite_self]
  split
  · exact State.writeSlice_canonical h ..
  · exact h.writeCells ..

@[simp] theorem State.counted_canonical (p : Place) (n : Nat) : Canonical (s.counted p n).1.mem := by
  unfold State.counted
  split
  · split <;> simpa
  · dsimp only
    split <;> simp [h]

theorem State.teamMark_canonical (team key num : Nat) (p : Place) {v : State} (hv : s.teamMark team key num p = some v) : Canonical v.mem := by
  unfold State.teamMark at hv
  dsimp only at hv
  split at hv
  · obtain ⟨b, _, rfl⟩ := Option.map_eq_some_iff.1 hv
    exact State.setBarrier_canonical (by simpa) ..
  · obtain rfl := Option.some.inj hv
    simpa

@[simp] theorem State.settleMarks_canonical (team : Nat) : Canonical (s.settleMarks team).mem := by
  unfold State.settleMarks
  refine foldl_keeps (fun u m hu => ?_) _ h
  split
  · split
    · next p _ =>
      cases hm : u.teamMark team m.1 (m.2.headD 0) p with
      | none => exact hu
      | some v => exact State.teamMark_canonical hu _ _ _ _ hm
    · exact hu
  · exact hu

@[simp] theorem State.countFor_canonical (team off n : Nat) : Canonical (s.countFor team off n).1.mem := by
  unfold State.countFor
  split
  · exact h
  · split <;> simp [h]

/-! ### Engines -/

theorem State.writePiece_canonical (w : Agent) (l : Loc) (ea : Nat) (bs : List (BitVec 8)) {v : State}
    (hv : s.writePiece w l ea bs = .ok v) : Canonical v.mem := by
  unfold State.writePiece at hv
  split at hv
  · obtain rfl := Except.ok.inj hv
    exact h
  · split at hv
    · cases hv
    · next hl =>
      obtain rfl := Except.ok.inj hv
      rw [State.dropL1_mem]
      exact State.writeLoc_canonical h _ _ hl

omit h in
theorem State.writePieces_canonical (w : Agent) (ps : List (Nat × Nat × Loc)) (bs : List (BitVec 8)) {s : State} (h : Canonical s.mem)
    {v : State} (hv : s.writePieces w ps bs = .ok v) : Canonical v.mem := by
  induction ps generalizing s bs with
  | nil =>
    obtain rfl := Except.ok.inj hv
    exact h
  | cons p ps ih =>
    unfold State.writePieces at hv
    split at hv
    · cases hv
    · next hp => exact ih _ (State.writePiece_canonical h _ _ _ _ hp) hv

@[simp] theorem State.agentWrite_canonical (w : Agent) (ea : Nat) (bs : List (BitVec 8)) : Canonical (s.agentWrite w ea bs).1.mem := by
  unfold State.agentWrite
  grind [State.agentLocs_mem, = State.detected_mem, State.writePieces_canonical]

@[simp] theorem State.unitWrite_canonical (w : Agent) (team : Nat) (u : Option BufUse) (ea : Nat) (bs : List (BitVec 8)) :
    Canonical (s.unitWrite w team u ea bs).1.mem := by
  unfold State.unitWrite
  grind [State.rowLocs_mem, State.writePieces_canonical]

@[simp] theorem State.tileStep_canonical (w : Agent) (o : MatrixOp) (tile : Nat) (load : Bool) : Canonical (s.tileStep w o tile load).1.mem := by
  unfold State.tileStep
  grind [State.unitRead_mem, = State.setTeam_mem, State.unitWrite_canonical]

@[simp] theorem State.opStep_canonical (w : Agent) (o : MatrixOp) : Canonical (s.opStep w o).1.mem := by
  unfold State.opStep
  dsimp only
  split
  · split <;> simpa
  all_goals simp [h]

theorem State.copyWrite_canonical (w : Agent) (team : Nat) (c : CopyCmd) (parts : List (Nat × List (BitVec 8))) :
    Canonical (s.copyWrite w team c parts).1.mem := by
  unfold State.copyWrite
  grind [State.rowsLocs_mem, State.writePieces_canonical]

end

end Sys2Proof.Machine

namespace Sys2Proof.Machine
open Sys2Proof

section
variable {s : State} (h : Canonical s.mem)
include h

/-! ### Scratch units, teams and clusters -/

@[simp] theorem State.fillUnit_canonical (core unit : Nat) (bs : Table (BitVec 8)) : Canonical (s.fillUnit core unit bs).mem :=
  h.foldl (fun _ _ hm => hm.writeCell ..) _

@[simp] theorem State.zeroUnit_canonical (core unit : Nat) : Canonical (s.zeroUnit core unit).mem := by
  unfold State.zeroUnit
  dsimp only
  refine Canonical.zeroCells ?_ ..
  split <;> simpa

@[simp] theorem State.spillUnit_canonical (core unit : Nat) : Canonical (s.spillUnit core unit).mem := by
  unfold State.spillUnit
  split
  · exact h
  · refine State.zeroUnit_canonical ?_ ..
    rw [State.setCore_mem]
    split <;> simpa

@[simp] theorem State.checkFree_canonical (core unit : Nat) : Canonical (s.checkFree core unit).mem := by
  unfold State.checkFree
  split
  · exact h
  · refine State.zeroUnit_canonical ?_ ..
    rw [foldl_mem _ fun s x => s.reportSlice_mem ..]
    exact h

theorem State.takeUnits_canonical (core team n : Nat) {v : State} {us : List Nat} (hv : s.takeUnits core team n = some (v, us)) :
    Canonical v.mem := by
  unfold State.takeUnits at hv
  dsimp only at hv
  split at hv
  · cases hv
  · obtain ⟨rfl, -⟩ := Prod.mk.inj (Option.some.inj hv)
    rw [State.setCore_mem]
    refine foldl_keeps (fun u x hu => ?_) _ h
    split
    · exact State.checkFree_canonical hu ..
    · exact State.spillUnit_canonical hu ..

theorem State.takeResources_canonical (core team grid : Nat) {v : State} (hv : s.takeResources core team grid = some v) : Canonical v.mem := by
  unfold State.takeResources at hv
  dsimp only at hv
  split at hv
  · cases hv
  · split at hv
    · cases hv
    · next hb =>
      split at hv
      · cases hv
      · next hu =>
        have hc := State.takeUnits_canonical (by rw [State.bindQueues_mem _ _ _ hb]; exact h) _ _ _ hu
        split at hv
        · cases hv
        · next hs =>
          obtain rfl := Option.some.inj hv
          rw [State.setTeam_mem, State.seatGroups_mem _ _ _ _ _ _ hs]
          exact hc

@[simp] theorem State.freeTeam_canonical (team : Nat) : Canonical (s.freeTeam team).mem := by
  unfold State.freeTeam
  dsimp only
  rw [State.setCore_mem]
  exact foldl_keeps (fun u x hu => State.zeroUnit_canonical hu ..) _ h

theorem State.returnUnits_canonical (team : Nat) {v : State} (hv : s.returnUnits team = some v) : Canonical v.mem := by
  unfold State.returnUnits at hv
  obtain ⟨⟨u, us⟩, hu, rfl⟩ := Option.map_eq_some_iff.1 hv
  rw [State.setTeam_mem]
  exact foldl_keeps (fun u x hu => State.fillUnit_canonical hu ..) _ (State.takeUnits_canonical h _ _ _ hu)

@[simp] theorem State.finishSpills_canonical (team : Nat) : Canonical (s.finishSpills team).mem := by
  unfold State.finishSpills
  dsimp only
  rw [ite_mem, State.setCore_mem, ite_self]
  exact foldl_keeps (fun u x hu => State.spillUnit_canonical hu ..) _ h

theorem State.returnTeam_canonical (team : Nat) {v : State} (hv : s.returnTeam team = some v) : Canonical v.mem := by
  unfold State.returnTeam at hv
  dsimp only at hv
  have hf := State.finishSpills_canonical h team
  split at hv
  · cases hv
  · split at hv
    · cases hv
    · next hb =>
      rw [← State.bindQueues_mem _ _ _ hb] at hf
      split at hv
      · cases hv
      · next hr =>
        obtain ⟨w, hw, rfl⟩ := Option.map_eq_some_iff.1 hv
        rw [State.setOwned_mem, State.setTeam_mem]
        refine foldBind_keeps (fun u x w hu hx => ?_) _ (State.returnUnits_canonical hf _ hr) hw
        rwa [State.returnGroup_mem _ _ _ hx]

@[simp] theorem State.spillTeam_canonical (team : Nat) : Canonical (s.spillTeam team).mem := by
  unfold State.spillTeam
  refine foldl_keeps (fun u x hu => State.spillUnit_canonical hu ..) _ (foldl_keeps (fun u x hu => ?_) _ h)
  split
  · split <;> simpa
  · exact hu

@[simp] theorem State.emptyCore_canonical (core : Nat) : Canonical (s.emptyCore core).mem :=
  Canonical.zeroCells (foldl_keeps (fun _ _ hu => State.spillTeam_canonical hu _) _ h) ..

@[simp] theorem State.spillAway_canonical (team : Nat) : Canonical (s.spillAway team).mem := State.spillTeam_canonical h team

theorem State.moveTeam_canonical (team core : Nat) {v : State} (hv : s.moveTeam team core = some v) : Canonical v.mem := by
  unfold State.moveTeam at hv
  dsimp only at hv
  split at hv
  · cases hv
  · split at hv
    · cases hv
    · next hb =>
      split at hv
      · cases hv
      · next hu =>
        have hc := State.returnUnits_canonical (by rw [State.bindQueues_mem _ _ _ hb]; exact h) _ hu
        split at hv
        · cases hv
        · next hs =>
          obtain rfl := Option.some.inj hv
          rw [State.discard_mem, State.setOwned_mem, State.setTeam_mem, State.setCore_mem, State.seatAway_mem _ _ _ _ hs]
          exact hc

theorem State.moveCluster_canonical (cl : Nat) {v : State} (hv : s.moveCluster cl = some v) : Canonical v.mem := by
  unfold State.moveCluster at hv
  split at hv
  · cases hv
  · dsimp only at hv
    split at hv
    · cases hv
    · obtain ⟨l, _, hl⟩ := List.exists_of_findSome?_eq_some hv
      obtain ⟨w, hw, rfl⟩ := Option.map_eq_some_iff.1 hl
      rw [State.modCluster_mem]
      exact foldBind_keeps (fun u x w hu hx => State.moveTeam_canonical hu _ _ hx) _
        (foldl_keeps (fun u x hu => State.spillAway_canonical hu _) _ h) hw

omit h in
@[simp] theorem State.compact_mem (s : State) (core : Nat) : (s.compact core).mem = s.mem := by
  unfold State.compact
  have hc (subs : List Nat) (u : State) : (subs.foldl (fun s sub => s.compactSub core sub) u).mem = u.mem := foldl_mem _ (by simp) _ _
  grind [= State.setCore_mem, = State.compactIdle_mem]

/-! ### Records, near-bank commands and the pager -/

@[simp] theorem State.writeRecord_canonical (core : Nat) (r : CoalRec) : Canonical (s.writeRecord core r).1.mem := by
  unfold State.writeRecord
  grind [State.agentLocs_mem, State.writePieces_canonical, = State.interruptField_mem, = State.setCtx_mem]

theorem State.nbWrite_canonical (c : NbCmd) (base n es lo : Nat) (xs : List Nat) {v : State} (hv : s.nbWrite c base n es lo xs = .ok v) :
    Canonical v.mem := State.writeDram_canonical h _ _ _ _ _ hv

theorem State.nbLane_canonical (c : NbCmd) (n : Nat) {v : State} {bs : List (BitVec 8)} (hv : s.nbLane c n = .ok (v, bs)) :
    Canonical v.mem := by
  unfold State.nbLane at hv
  dsimp only at hv
  split at hv
  · obtain ⟨x, _, hx⟩ := map_ok hv
    obtain ⟨rfl, -⟩ := Prod.mk.inj hx
    exact h
  · obtain ⟨x, hr, hx⟩ := map_ok hv
    obtain ⟨rfl, -⟩ := Prod.mk.inj hx
    exact State.writeDram_canonical h _ _ _ _ _ hr

@[simp] theorem State.copyOut_canonical (g : Nat) (f : S2Leaf) (b : Backed) : Canonical (s.copyOut g f b).mem := by
  have hm : Canonical (((List.range 1024).zip (s.frameLines f.buf f.boff)).foldl (fun (s : State) x =>
      { s with mem := moveCells s.mem x.2.key (Place.host (b.data + 64 * x.1)).key 64 }) s).mem :=
    foldl_keeps (fun u x hu => hu.moveCells ..) _ h
  unfold State.copyOut
  dsimp only
  split
  · exact hm
  · exact foldl_keeps (fun u x hu => hu.writeCells ..) _ hm

/-- `P` holds of the memory that an attempt to evict leaves. -/
def Evict.Holds (P : List Host.Cell → Prop) : Evict → Prop
  | .refused u => P u.mem
  | .busy u _ => P u.mem
  | .done u => P u.mem

omit h in
theorem Evict.Holds.ite {P : List Host.Cell → Prop} {c : Prop} [Decidable c] {x y : Evict} (hx : x.Holds P) (hy : y.Holds P) :
    (if c then x else y).Holds P := by split <;> assumption

theorem State.evict_holds (vd g : Nat) (f : S2Leaf) (b : Backed) : (s.evict vd g f b).Holds Canonical := by
  unfold State.evict
  extract_lets ps d u v checked moved _
  have hu : Canonical u.mem := h
  clear_value u
  split
  · exact hu
  · refine Evict.Holds.ite ?_ ?_
    · exact hu
    · show Canonical (State.setVdev moved _ _).mem
      simp [moved, checked, hu]

@[simp] theorem State.evictFor_canonical (r : PagerReq) (g : Nat) (f : S2Leaf) (b : Backed) : Canonical (s.evictFor r g f b).mem := by
  have he := State.evict_holds h r.vdev g f b
  unfold State.evictFor
  split
  · next u e hv =>
    have hu : Canonical u.mem := by rw [hv] at he; exact he
    simpa
  · next u hv =>
    have hu : Canonical u.mem := by rw [hv] at he; exact he
    simpa
  · next u hv =>
    have hu : Canonical u.mem := by rw [hv] at he; exact he
    simpa

theorem State.copyIn_canonical (vd g buf o : Nat) (b : Backed) {v : State} (hv : s.copyIn vd g buf o b = .ok v) : Canonical v.mem := by
  have hm : Canonical (((List.range 1024).zip (s.frameLines buf o)).foldl (fun (s : State) x =>
      { s with mem := moveCells s.mem (Place.host (b.data + 64 * x.1)).key x.2.key 64 }) s).mem :=
    foldl_keeps (fun u x hu => hu.moveCells ..) _ h
  unfold State.copyIn at hv
  dsimp only at hv
  split at hv
  · cases hv
  · split at hv
    · obtain rfl := Except.ok.inj hv
      exact hm
    · refine foldE_keeps (fun u x w hu hw => ?_) _ hm hv
      split at hw
      · cases hw
      · obtain rfl := Except.ok.inj hw
        exact hu

@[simp] theorem State.zeroFrame_canonical (buf o : Nat) : Canonical (s.zeroFrame buf o).mem :=
  h.foldl (fun _ _ hm => hm.zeroCells ..) _

end

end Sys2Proof.Machine

namespace Sys2Proof.Machine
open Sys2Proof

/-- `P` holds of the memory that a step of a packet leaves. -/
@[simp] def PStep.Holds (P : List Host.Cell → Prop) : PStep → Prop
  | .more u => P u.mem
  | .last u => P u.mem
  | .grid u _ => P u.mem
  | .yield u => P u.mem
  | .absent u _ _ _ => P u.mem
  | .refuse u _ _ => P u.mem

theorem PStep.Holds.ite {P : List Host.Cell → Prop} {c : Prop} [Decidable c] {x y : PStep} (hx : x.Holds P) (hy : y.Holds P) :
    (if c then x else y).Holds P := by split <;> assumption

theorem pAccess_holds {α : Type} {P : List Host.Cell → Prop} (wr : Bool) {r : State × Except EngStop α} (h : P r.1.mem)
    {f : State → α → PStep} (hf : ∀ u x, P u.mem → (f u x).Holds P) : (pAccess wr r f).Holds P := by
  obtain ⟨u, x⟩ := r
  cases x with
  | ok x => exact hf u x h
  | error e => cases e with
    | hold => exact h
    | absent ea gpa => exact h
    | cause c ea => exact h

/-- `P` holds of the memory that a peer's request leaves. -/
@[simp] def PeerEnd.Holds (P : List Host.Cell → Prop) : PeerEnd → Prop
  | .answer u _ _ => P u.mem
  | .wait u _ => P u.mem

theorem PeerEnd.Holds.ite {P : List Host.Cell → Prop} {c : Prop} [Decidable c] {x y : PeerEnd} (hx : x.Holds P) (hy : y.Holds P) :
    (if c then x else y).Holds P := by split <;> assumption

theorem peerAccess_holds {α : Type} {P : List Host.Cell → Prop} (wr : Bool) (w : Agent) (q : Option (Nat × Nat))
    {r : State × Except EngStop α} (h : P r.1.mem) {f : State → α → PeerEnd} (hf : ∀ u x, P u.mem → (f u x).Holds P) :
    (peerAccess wr w q r f).Holds P := by
  obtain ⟨u, x⟩ := r
  cases x with
  | ok x => exact hf u x h
  | error e => cases e with
    | hold => exact h
    | absent ea gpa =>
      unfold peerAccess
      dsimp only
      split
      · exact h
      · next hp =>
        show P _
        rw [State.agentPark_mem _ _ _ _ _ _ hp]
        exact h
    | cause c ea =>
      refine .ite ?_ ?_
      · show P (State.contain _ _ _ _ _ _ _).mem
        rwa [State.contain_mem]
      · exact h

theorem eitherDie_keeps {α : Type} {P : List Host.Cell → Prop} (w : Agent) {f : Agent → State × Except EngStop α}
    (h : ∀ w, P (f w).1.mem) : P (eitherDie w f).1.mem := by
  unfold eitherDie
  grind

section
variable {s : State} (h : Canonical s.mem)
include h

/-! ### Queues and packets -/

@[simp] theorem State.packetWrite_canonical (w : Agent) (ea : Nat) (bs : List (BitVec 8)) : Canonical (s.packetWrite w ea bs).1.mem :=
  eitherDie_keeps w fun w => State.agentWrite_canonical h w ea bs

@[simp] theorem State.writeStatus_canonical (vd q : Nat) : Canonical (s.writeStatus vd q).mem := by
  have hw {u : State} {x : Except EngStop Unit} (hx : s.packetWrite (s.packetAgent vd q) (s.queue vd q).qstat (s.queue vd q).block = (u, x)) :
      Canonical u.mem := by
    have hc := State.packetWrite_canonical h (s.packetAgent vd q) (s.queue vd q).qstat (s.queue vd q).block
    rwa [hx] at hc
  unfold State.writeStatus
  dsimp only
  split
  · exact h
  · split
    · simpa
    · split
      · next hs => simpa using hw hs
      · next hs => exact hw hs
      · next hs => simpa using hw hs
      · next hs => split <;> simpa using hw hs

@[simp] theorem State.resetQueue_canonical (vd q : Nat) : Canonical (s.resetQueue vd q).mem := by
  unfold State.resetQueue
  dsimp only
  split
  · exact h
  · rw [State.onQueue_mem]
    exact State.writeStatus_canonical (by simpa) ..

@[simp] theorem State.refusePacket_canonical (vd q : Nat) (p : Packet) (c : Cause) (ea : Nat) : Canonical (s.refusePacket vd q p c ea).mem := by
  unfold State.refusePacket
  refine State.writeStatus_canonical ?_ ..
  rw [ite_mem, State.contain_mem, ite_self]
  exact h

omit h in
theorem State.settleStep_canonical (vd q : Nat) (p : Packet) {r : PStep} (hr : r.Holds Canonical)
    (on : Packet → Option Nat → Bool → Packet) : Canonical (s.settleStep vd q p r on).mem := by
  cases r with
  | refuse u c ea => exact State.refusePacket_canonical hr ..
  | more u => simpa [State.settleStep] using hr
  | last u => simpa [State.settleStep] using hr
  | grid u id => simpa [State.settleStep] using hr
  | yield u => simpa [State.settleStep] using hr
  | absent u wr ea gpa => simpa [State.settleStep] using hr

theorem State.signal_holds (w : Agent) (ea op v : Nat) {f : State → PStep} (hf : ∀ u, Canonical u.mem → (f u).Holds Canonical) :
    (s.signal w ea op v f).Holds Canonical := by
  unfold State.signal
  refine pAccess_holds _ (by simpa) fun u l hu => .ite hu (.ite hu (.ite (hf _ hu) ?_))
  split
  · exact hu
  · split
    · exact hu
    · next hw => exact hf _ (by rw [State.dropL1_mem]; exact State.writeLoc_canonical hu _ _ hw)

theorem State.packetStep_holds (vd q : Nat) (k : Queue) (idx : Nat) (ws : Regs 64) (step : Nat) (first : Bool) :
    (s.packetStep vd q k idx ws step first).Holds Canonical := by
  have hlast (u : State) (hu : Canonical u.mem) : (PStep.last u).Holds Canonical := hu
  unfold State.packetStep
  dsimp only
  split
  · refine pAccess_holds _ (by simpa) fun u rec hu => ?_
    split
    · exact hu
    · refine .ite hu ?_
      show Canonical (State.enterGrid _ _ _ _ _ _ _ _).2.2.mem
      rwa [State.enterGrid_mem]
  · exact pAccess_holds _ (State.packetWrite_canonical h ..) fun u _ hu => hu
  · exact State.signal_holds h _ _ _ _ hlast
  · exact pAccess_holds _ (by simpa) fun u bs hu => .ite hu hu
  · refine .ite ?_ (State.signal_holds h _ _ _ _ hlast)
    exact pAccess_holds _ (State.packetWrite_canonical h ..) fun u _ hu => hu
  · refine .ite h (.ite h ?_)
    split
    · exact h
    · exact h
    · exact h
  · have hreply (u : State) (hu : Canonical u.mem) (a x : Nat) :
        (if a = 0 then PStep.last u else pAccess true (u.packetWrite (s.packetAgent vd q) a (toBytes 8 x)) fun s _ => .last s).Holds Canonical :=
      .ite hu (pAccess_holds _ (State.packetWrite_canonical hu ..) fun u _ hu => hu)
    exact .ite (.ite h (hreply (s.onQueue vd q _) h _ _)) (.ite h (.ite h (hreply _ h _ _)))
  · exact h

@[simp] theorem State.serve_canonical (vd q type : Nat) : Canonical (s.serve vd q type).mem := by
  have hs := State.writeStatus_canonical h vd q
  unfold State.serve
  dsimp only
  split
  · exact hs
  · split
    · exact hs
    · split
      · exact hs
      · exact State.settleStep_canonical _ _ _ (State.packetStep_holds hs ..) _

@[simp] theorem State.gridSignal_canonical (vd q : Nat) (p : Packet) (id sig : Nat) (intr : Bool) :
    Canonical (s.gridSignal vd q p id sig intr).mem := by
  have hs := State.signal_holds h (s.packetAgent vd q) sig 2 1 (f := fun s => .last s) fun u hu => hu
  unfold State.gridSignal
  dsimp only
  split
  · split <;> simpa
  · split
    all_goals rename_i hr
    all_goals rw [hr] at hs
    · split <;> simpa using hs
    · exact hs
    · exact hs
    · exact hs
    · simpa using hs
    · exact State.refusePacket_canonical hs ..

/-! ### Devices and dies -/

@[simp] theorem State.freeVictim_canonical (v : Victim) : Canonical (s.freeVictim v).mem :=
  foldl_keeps (fun _ _ hu => State.freeTeam_canonical hu _) _ h

@[simp] theorem State.teardown_canonical (v : Victim) : Canonical (s.teardown v).mem := by
  unfold State.teardown
  split
  · exact h
  · exact State.freeVictim_canonical h v

@[simp] theorem State.resetDevice_canonical (vd : Nat) : Canonical (s.resetDevice vd).mem := by
  unfold State.resetDevice
  dsimp only
  rw [foldl_mem _ fun u n => by split <;> simp]
  simp [h]

@[simp] theorem State.freeBuffer_canonical (vd buf : Nat) : Canonical (s.freeBuffer vd buf).mem := by
  unfold State.freeBuffer
  split
  · exact h
  · dsimp only
    split
    · exact h
    · show Canonical (List.foldl _ _ _ : State).mem
      rw [foldl_mem _ fun u x => by split <;> simp]
      refine h.foldl (fun m p hm => ?_) _
      split
      · split
        · exact hm
        · exact hm.zeroCells ..
      · exact hm

@[simp] theorem State.destroyDevice_canonical (vd : Nat) : Canonical (s.destroyDevice vd).mem :=
  foldl_keeps (fun _ _ hu => State.freeBuffer_canonical hu ..) _ (by simpa)

@[simp] theorem State.finishKill_canonical (k : Kill) : Canonical (s.finishKill k).mem := by
  unfold State.finishKill
  dsimp only
  split
  all_goals split <;> simp [h]

@[simp] theorem State.resetDie_canonical (die : Nat) : Canonical (s.resetDie die).mem := by
  unfold State.resetDie
  dsimp only
  rw [State.report_mem, State.setDie_mem]
  refine Canonical.foldl ?_ (fun m c hm => hm.zeroCells ..) _
  rw [foldl_mem _ fun u x => by simp]
  exact h

@[simp] theorem State.unmap_canonical (vd gpa g n buf : Nat) : Canonical (s.unmap vd gpa g n buf).mem := State.freeBuffer_canonical (by simpa) ..

@[simp] theorem State.moveFrame_canonical (f : S2Leaf) (buf o : Nat) : Canonical (s.moveFrame f buf o).mem := by
  unfold State.moveFrame
  dsimp only
  rw [State.clearBlocks_mem, foldl_mem _ fun u x => by simp]
  refine foldl_keeps (fun u x hu => ?_) _ h
  split
  · exact hu.moveCells ..
  · exact hu.moveCells ..

/-! ### Peers -/

theorem State.servePeer_holds (r : PeerIn) : (s.servePeer r).Holds Canonical := by
  unfold State.servePeer
  split
  · exact h
  · refine .ite h (.ite ?_ (.ite ?_ (.ite h ?_)))
    · exact peerAccess_holds _ _ _ (eitherDie_keeps _ fun w => by simpa) fun u _ hu => hu
    · exact peerAccess_holds _ _ _ (eitherDie_keeps _ fun w => by simp [h]) fun u _ hu => hu
    · refine peerAccess_holds _ _ _ (eitherDie_keeps _ fun w => by simpa) fun u l hu => .ite ?_ ?_
      · exact peerAccess_holds _ _ _ hu fun v _ hv => hv
      · dsimp only
        split
        · exact peerAccess_holds _ _ _ hu fun v _ hv => hv
        · next hp =>
          rw [PeerEnd.Holds, State.dropL1_mem]
          exact State.performPart_canonical hu _ _ hp

@[simp] theorem State.retryPeer_canonical (r : PeerIn) : Canonical (s.retryPeer r).mem := by
  have hs := State.servePeer_holds h r
  unfold State.retryPeer
  dsimp only
  split
  all_goals rename_i hr
  all_goals rw [hr] at hs
  · simpa using hs
  · exact hs

@[simp] theorem State.peerRefused_canonical (f : Flight) : Canonical (s.peerRefused f).mem := by
  unfold State.peerRefused
  dsimp only
  split_ifs
  · exact h
  · split <;> simpa
  · split <;> simpa
  · simpa
  · exact State.writeStatus_canonical (by simpa) ..
  · simpa

end

end Sys2Proof.Machine

namespace Sys2Proof.Machine
open Sys2Proof

/-! ## Commands of the management interface (R429) -/

/-- `P` holds of the memory that a command leaves. -/
def MAns.Holds (P : List Host.Cell → Prop) : MAns → Prop
  | .give u _ _ => P u.mem
  | .no u _ _ => P u.mem
  | .later u _ => P u.mem
  | .killing u => P u.mem

section
variable {P : List Host.Cell → Prop} (u : State)

@[simp] theorem MAns.ok_holds : (MAns.ok u).Holds P ↔ P u.mem := Iff.rfl
@[simp] theorem MAns.give_holds (res : List Nat) (bulk : List (BitVec 8)) : (MAns.give u res bulk).Holds P ↔ P u.mem := Iff.rfl
@[simp] theorem MAns.no_holds (result cause : Nat) : (MAns.no u result cause).Holds P ↔ P u.mem := Iff.rfl
@[simp] theorem MAns.later_holds (deps : List Instr) : (MAns.later u deps).Holds P ↔ P u.mem := Iff.rfl
@[simp] theorem MAns.killing_holds : (MAns.killing u).Holds P ↔ P u.mem := Iff.rfl

end

theorem MAns.Holds.ite {P : List Host.Cell → Prop} {c : Prop} [Decidable c] {x y : MAns} (hx : x.Holds P) (hy : y.Holds P) :
    (if c then x else y).Holds P := by split <;> assumption

theorem onDevice_holds {P : List Host.Cell → Prop} {s : State} (h : P s.mem) {f : Nat → Mbox → State → MAns}
    (hf : ∀ vd m, (f vd m s).Holds P) (m : Mbox) : (onDevice f m s).Holds P := by
  unfold onDevice
  split
  · exact h
  · exact hf _ m

theorem onKind_holds {P : List Host.Cell → Prop} {s : State} (h : P s.mem) {f : Nat → Mbox → State → MAns}
    (hf : ∀ kind m, (f kind m s).Holds P) (m : Mbox) : (onKind f m s).Holds P := by
  unfold onKind
  split
  · exact h
  · exact hf _ m

theorem settleCommand_next {P : List Host.Cell → Prop} (r cmd : Nat) {x : MAns} (hx : x.Holds P) : Next P (settleCommand r cmd x) := by
  cases x with
  | give u res bulk => simpa [settleCommand] using hx
  | no u result cause => simpa [settleCommand] using hx
  | later u deps => exact hx
  | killing u => exact hx

theorem State.command_next {P : List Host.Cell → Prop} {s : State} (h : P s.mem) (r cmd : Nat) (feature : Option Nat)
    {f : Mbox → State → MAns} (hf : ∀ m, (f m s).Holds P) : Next P (s.command r cmd feature f) := by
  unfold State.command
  refine .ite h (.ite (settleCommand_next _ _ (hf _)) (.ite h (.ite h (.ite ?_ (.ite ?_ (settleCommand_next _ _ (hf _)))))))
  · simpa
  · simpa

end Sys2Proof.Machine

namespace Sys2Proof.Machine
open Sys2Proof

/-- `P` holds of the memory of a state that is answered beside something else. -/
theorem keeps_of_eq {α : Type} {P : List Host.Cell → Prop} {r : State × α} {u : State} {x : α} (h : P r.1.mem) (hr : r = (u, x)) : P u.mem := by
  subst hr
  exact h

theorem keeps_ite {P : List Host.Cell → Prop} {c : Prop} [Decidable c] {s u : State} (hs : P s.mem) (hu : P u.mem) :
    P (if c then s else u).mem := by split <;> assumption

section
variable {P : List Host.Cell → Prop} {s : State} (h : P s.mem)
include h

/-! ## Events that touch no byte of memory -/

theorem headerStep_next (core sc : Nat) (r : Run) (g : Group) : Next P (headerStep s core sc r g) := by
  unfold headerStep
  refine .ite (by simpa) ?_
  extract_lets _ join stamp set w check
  have hc : Checks P check :=
    .seq (by simp) fun _ => .seq (State.fetch_answers h ..) fun _ => .seq (by simp) fun _ => .seq (State.fetchWords_answers h ..) fun _ =>
      .seq (by simp) fun _ => .seq (by simp) fun _ => .ite h (by simp)
  clear_value check
  split
  · simpa
  · simpa using hc
  · simpa

theorem stopAt_next (r : Run) (g : Group) {e : Stop} (he : e.Holds P) : Next P (stopAt s r g e) := by
  cases e with
  | trap t => simpa [stopAt]
  | wait u deps => simpa [stopAt] using he

theorem execLoadReturn_next (slot id : Nat) : Next P (execLoadReturn slot id s) := by
  have hd : P s.draw.2.mem := by rwa [State.draw_mem]
  unfold execLoadReturn
  split
  · exact h
  · split
    · exact h
    · dsimp only
      refine .ite h (.ite h (.ite (by simpa) (.ite h ?_)))
      split
      · exact h
      · split
        · exact h
        · split
          · next hs =>
            obtain ⟨hs, -⟩ := Option.filter_eq_some_iff.1 hs
            rw [next_next, State.readHalf_mem _ _ _ _ hs]
            exact hd
          · split
            · exact hd
            · simpa
            · next hs =>
              have hu := State.readAccs_mem _ _ _ _ _ _ _ hs
              rw [next_next, State.tsyncRelease_mem]
              split
              · simpa [hu] using hd
              · simpa [hu] using hd

theorem execStreamFill_next (slot r : Nat) : Next P (execStreamFill slot r s) := by
  unfold execStreamFill
  split
  · exact h
  · next g _ =>
    split
    · exact h
    · next x _ =>
      dsimp only
      generalize hv : s.setCore (slotCore slot) { s.core (slotCore slot) with sturn := 8 * slot + r } = v
      have hv : P v.mem := by rw [← hv]; exact h
      refine .ite hv (.ite (by simpa) ?_)
      split
      · simpa
      · exact hv
      · next ea _ =>
        have hw : P (v.startWalk (coreDie (slotCore slot)) (v.owner g).1 (v.owner g).2 ea).1.mem := by simpa
        split
        · next hu =>
          rw [next_next, State.await_mem]
          exact keeps_of_eq hw hu
        · next hu => exact keeps_of_eq hw hu
      · split
        · exact hv
        · next hq => simpa [State.parkCore_mem _ _ _ _ _ _ _ _ _ hq] using hv
      · next locs _ =>
        have hr (tag : Nat) (peers : List (Nat × Acc × Loc)) {y : PeerRead} (hy : v.readPeer slot tag peers = y) : y.Holds P :=
          hy ▸ State.readPeer_holds hv slot tag peers
        split
        · next hp => exact hr _ _ hp
        · simpa
        · next hp =>
          have hu := hr _ _ hp
          split
          · simpa using hu
          · simpa using hu
          · next he =>
            rw [next_next, State.setStream_mem]
            show P (List.foldl _ _ _ : State).mem
            rw [foldl_mem _ fun s l => s.used_mem l, State.readEntry_mem _ _ _ _ _ _ he]
            exact hu

end

end Sys2Proof.Machine

namespace Sys2Proof.Machine
open Sys2Proof

/-- Whatever a decision answers, `Q` holds of it. -/
def Yields {ε α : Type} (Q : α → Prop) (x : Except ε α) : Prop := ∀ a, x = .ok a → Q a

section
variable {ε α β : Type} {Q : β → Prop}

theorem Yields.ok {a : β} (h : Q a) : Yields Q (.ok a : Except ε β) := by
  intro b hb
  obtain rfl := Except.ok.inj hb
  exact h

theorem Yields.bind {x : Except ε α} {f : α → Except ε β} (h : ∀ a, Yields Q (f a)) : Yields Q (x >>= f) := by
  intro b hb
  obtain ⟨a, _, ha⟩ := bind_ok hb
  exact h a b ha

theorem Yields.map {x : Except ε α} {f : α → β} (h : ∀ a, x = .ok a → Q (f a)) : Yields Q (x.map f) := by
  intro b hb
  obtain ⟨a, ha, rfl⟩ := map_ok hb
  exact h a ha

theorem Yields.ite {c : Prop} [Decidable c] {x y : Except ε β} (hx : Yields Q x) (hy : Yields Q y) : Yields Q (if c then x else y) := by
  split <;> assumption

end

section
variable {s : State} (h : Canonical s.mem)
include h

/-! ## Events that write memory -/

theorem execStoreFifoPerform_next (slot : Nat) : Next Canonical (execStoreFifoPerform slot s) := by
  unfold execStoreFifoPerform
  split
  · exact h
  · next g _ =>
    split
    · exact h
    · next e _ _ =>
      dsimp only
      refine .ite h ?_
      split
      · exact h
      · split
        · exact h
        · split
          · exact h
          · split
            · simp [h]
            · next ea _ =>
              have hw : Canonical (s.startWalk (coreDie (slotCore slot)) (s.owner g).1 (s.owner g).2 ea).1.mem := by simpa
              split
              · next hu =>
                rw [next_next, State.await_mem]
                exact keeps_of_eq hw hu
              · next hu => exact keeps_of_eq hw hu
            · split
              · exact h
              · next hq => simpa [State.parkCore_mem _ _ _ _ _ _ _ _ _ hq] using h
            · exact .ite (by simpa) (by simpa)

theorem execPointOfCoherenceArrival_next (id : Nat) : Next Canonical (execPointOfCoherenceArrival id s) := by
  unfold execPointOfCoherenceArrival
  split
  · exact h
  · next f _ =>
    split
    · exact h
    · refine .ite h ?_
      dsimp only
      split
      · simpa
      · next u olds hp =>
        have hu := State.performParts_canonical _ _ (s := s.landFlight id) (by simpa) hp
        have hv : Canonical (if f.kind = .store then u else f.parts.foldl (fun s p => s.forgetCopies f.core p) u).mem := by
          split
          · exact hu
          · rw [foldl_mem _ fun s p => by simp]
            exact hu
        split
        · simpa using hv
        · exact hv

theorem execMatrixStep_next (core op : Nat) : Next Canonical (execMatrixStep core op s) := by
  unfold execMatrixStep
  split
  · exact h
  · next o _ =>
    dsimp only
    refine .ite h (.ite (by simpa) ?_)
    generalize hv : (if o.begun = true then _ else _ : State) = v
    have hv : Canonical v.mem := by
      rw [← hv]
      split <;> exact h
    have hs (w : Agent) (o' : MatrixOp) := State.opStep_canonical hv w o'
    split
    · next hu =>
      refine .ite (by simpa) ?_
      have hu := keeps_of_eq (hs _ _) hu
      rw [next_next]
      split
      · split <;> simpa
      · simpa
    · next hu => simpa using keeps_of_eq (hs _ _) hu
    · next hu =>
      have hu := keeps_of_eq (hs _ _) hu
      split
      · simpa
      · next hp => simpa [State.agentPark_mem _ _ _ _ _ _ hp] using hu
    · next hu =>
      have hu := keeps_of_eq (hs _ _) hu
      exact .ite (by simpa) (by simpa)

theorem execMatrixComplete_next (core op : Nat) : Next Canonical (execMatrixComplete core op s) := by
  unfold execMatrixComplete
  split
  · exact h
  · next o _ =>
    refine .ite h ?_
    dsimp only
    generalize hv : State.setVdev _ _ _ = v
    have hv : Canonical v.mem := by rw [← hv]; simpa
    have hc := State.countFor_canonical hv o.team o.bar o.bytes
    split
    · next hu => exact keeps_of_eq hc hu
    · next hu => simpa using keeps_of_eq hc hu

/-- What is counted at several barriers, one after another. -/
theorem countAll_canonical (team n : Nat) (bars : List Nat) (b : Option Nat) :
    Canonical (bars.foldl (fun (y : State × Option Nat) b =>
      let z := y.1.countFor team b n
      (z.1, if z.2 then some (y.2.getD b) else y.2)) (s, b)).1.mem := by
  induction bars generalizing s b with
  | nil => exact h
  | cons x xs ih => exact ih (State.countFor_canonical h team x n) _

theorem execCopyComplete_next (team ch : Nat) : Next Canonical (execCopyComplete team ch s) := by
  unfold execCopyComplete
  split
  · exact h
  · dsimp only
    split
    · exact .ite (by simpa) h
    · refine .ite h ?_
      generalize hv : State.setVdev _ _ _ = v
      have hv : Canonical v.mem := by rw [← hv]; simpa
      have hc (n : Nat) (bars : List Nat) := countAll_canonical hv team n bars none
      split
      · next hu => exact keeps_of_eq (hc _ _) hu
      · next hu => simpa using keeps_of_eq (hc _ _) hu

theorem execCopyRow_next (team ch : Nat) : Next Canonical (execCopyRow team ch s) := by
  unfold execCopyRow
  split
  · exact h
  · next c _ =>
    extract_lets t gr w k v off a g stop
    refine .ite h ?_
    have hv : Canonical v.mem := h
    clear_value v
    split
    · exact .ite hv hv
    · refine .ite hv ?_
      have hstop (u : State) (c : CopyCmd) (wr : Bool) (e : EngStop) (hu : Canonical u.mem) : Canonical (stop u c wr e).mem := by
        cases e with
        | hold => simpa [stop]
        | absent ea gpa =>
          simp only [stop]
          split
          · simpa
          · next hp => simpa [State.agentPark_mem _ _ _ _ _ _ hp] using hu
        | cause cc ea =>
          simp only [stop]
          split <;> simpa
      clear_value stop
      have hp (w : Agent) (g : CopyGeo) (n : Nat) : Canonical (v.rowParts w team c g n).1.mem := by simpa
      split
      · next hu => exact hstop _ _ _ _ (keeps_of_eq (hp _ _ _) hu)
      · next hu =>
        have hu := keeps_of_eq (hp _ _ _) hu
        have hw (w : Agent) (parts : List (Nat × List (BitVec 8))) := State.copyWrite_canonical hu w team c parts
        split
        · exact hstop _ _ _ _ hu
        · split
          · next hx => exact hstop _ _ _ _ (keeps_of_eq (hw _ _) hx)
          · next hx => simpa using keeps_of_eq (hw _ _) hx

theorem execCoalescerClose_next (core seq : Nat) : Next Canonical (execCoalescerClose core seq s) := by
  unfold execCoalescerClose
  split
  · exact h
  · next r _ =>
    dsimp only
    refine .ite h ?_
    have hw := State.writeRecord_canonical h core r
    split
    · next hu => exact keeps_of_eq hw hu
    · next hu =>
      have hu := keeps_of_eq hw hu
      split
      · exact hu
      · next hp => simpa [State.agentPark_mem _ _ _ _ _ _ hp] using hu
    · next hu =>
      have hu := keeps_of_eq hw hu
      rw [next_next, State.contain_mem, State.dropRecord_mem]
      split <;> simpa
    · next hu =>
      have hu := keeps_of_eq hw hu
      exact .ite (by simpa) (.ite (by simpa) (by simpa))

theorem execTeamPlace_next (team : Nat) : Next Canonical (execTeamPlace team s) := by
  unfold execTeamPlace
  split
  · exact h
  · next t _ =>
    dsimp only
    refine .ite h ?_
    have hr (w : Agent) (eas : List Nat) : Canonical (s.readFormats w eas).1.mem := by simpa
    split
    · next hu => exact keeps_of_eq (hr _ _) hu
    · next hu =>
      have hu := keeps_of_eq (hr _ _) hu
      split
      · exact hu
      · next hp => simpa [State.agentPark_mem _ _ _ _ _ _ hp] using hu
    · next hu => simpa using keeps_of_eq (hr _ _) hu
    · next hu =>
      have hu := keeps_of_eq (hr _ _) hu
      split
      · exact hu
      · next ht =>
        have ht := State.takeResources_canonical hu _ _ _ ht
        split
        · next hb =>
          rw [next_next, State.beginSpills_mem _ _ _ _ hb]
          exact hu
        · rw [next_next]
          split <;> simpa

theorem execResume_next (core vd ctx : Nat) : Next Canonical (execResume core vd ctx s) := by
  unfold execResume
  refine foldl_keeps (fun u c hu => ?_) _ h
  dsimp only
  split
  · exact hu
  · have hr (l : List Nat) : Canonical (l.foldl (fun s core => s.returnRecords core vd ctx) u).mem := by
      rw [foldl_mem _ fun s x => by simp]
      exact hu
    split
    · next ht => exact foldBind_keeps (fun u x w hu hx => State.returnTeam_canonical hu _ hx) _ (hr _) ht
    · next ht =>
      cases hm : State.moveCluster _ c with
      | none => exact hr _
      | some v => exact State.moveCluster_canonical (hr _) _ hm

theorem execClusterPlace_next (die : Nat) : Next Canonical (execClusterPlace die s) := by
  unfold execClusterPlace
  dsimp only
  split
  · next hf =>
    obtain ⟨vd, _, hg⟩ := List.exists_of_findSome?_eq_some hf
    obtain ⟨g, _, hp⟩ := Option.bind_eq_some_iff.1 hg
    obtain ⟨cs, _, rfl⟩ := Option.map_eq_some_iff.1 hp
    simpa
  · split
    · simpa
    · exact h

/-- A step of a near-bank command, whichever of its operands it reads, writes once or not at all. -/
theorem State.nbStep_yields (c : NbCmd) (n col : Nat) : Yields (fun x => Canonical x.1.mem) (s.nbStep c n col) := by
  have hw (base es lo : Nat) (xs : List Nat) (c' : NbCmd) :
      Yields (fun x => Canonical x.1.mem) ((s.nbWrite c base n es lo xs).map fun s => (s, c')) :=
    .map fun u hu => State.nbWrite_canonical h _ _ _ _ _ _ hu
  have hlast (p : Prop) [Decidable p] (base es lo : Nat) (xs : List Nat) (c' : NbCmd) :
      Yields (fun x => Canonical x.1.mem) (if p then (s.nbWrite c base n es lo xs).map fun s => (s, c') else .ok (s, c')) :=
    .ite (hw _ _ _ _ _) (.ok h)
  unfold State.nbStep
  refine .ite (.bind fun _ => ?_) (.ite ?_ ?_)
  · exact .ite (.bind fun _ => hlast _ _ _ _ _ _) (.ite (.bind fun _ => hlast _ _ _ _ _ _) (.bind fun _ => hlast _ _ _ _ _ _))
  · exact .bind fun _ => .ite (.bind fun _ => hw _ _ _ _ _) (.bind fun _ => hw _ _ _ _ _)
  · exact .bind fun _ => .ite (.bind fun _ => hw _ _ _ _ _) (.bind fun _ => hw _ _ _ _ _)

theorem execNbColumn_next (stack pair : Nat) : Next Canonical (execNbColumn stack pair s) := by
  unfold execNbColumn
  dsimp only
  split
  · exact h
  · split
    · simpa
    · refine .ite h ?_
      split
      · split
        · simpa
        · simpa
      · split
        · simpa
        · next hl => simpa using State.nbLane_canonical h _ _ hl
      · split
        · simpa
        · next hl =>
          have hu := State.nbStep_yields h _ _ _ _ hl
          exact .ite (by simpa) (by simpa)

theorem execNbCommandComplete_next (id : Nat) : Next Canonical (execNbCommandComplete id s) := by
  unfold execNbCommandComplete
  split
  · exact h
  · next c _ =>
    refine .ite h (.ite h ?_)
    dsimp only
    split
    · simpa
    · next u hu =>
      have hu : Canonical u.mem := by
        split at hu
        · exact State.writeDram_canonical (by simpa) _ _ _ _ _ hu
        · obtain rfl := Except.ok.inj hu
          simpa
      generalize hv : State.setVdev _ _ _ = v
      have hv : Canonical v.mem := by rw [← hv]; simpa
      have hc := State.countFor_canonical hv c.team c.bar c.counts
      split
      · next hw => exact keeps_of_eq hc hw
      · next hw => simpa using keeps_of_eq hc hw

end

end Sys2Proof.Machine

namespace Sys2Proof.Machine
open Sys2Proof

/-! ## Engines of a base die (R335) -/

theorem engServe_next {P : List Host.Cell → Prop} {s : State} (h : P s.mem) (e : EngHdr)
    {f : Stack → State × Nat × Nat × List (BitVec 8)} (hf : ∀ k, P (f k).1.mem) : Next P (engServe e s f) := by
  unfold engServe
  exact .ite h (.ite (by simpa) (by simpa using hf _))

section
variable {P : List Host.Cell → Prop} {s : State} (h : P s.mem)
include h

theorem execRasread_next (e : EngHdr) : Next P (execRasread e s) := by
  unfold execRasread
  refine engServe_next h e fun k => ?_
  dsimp only
  split <;> exact h

theorem execPatrol_next (e : EngHdr) : Next P (execPatrol e s) := by
  unfold execPatrol
  refine engServe_next h e fun k => ?_
  dsimp only
  split <;> exact h

theorem execPatstat_next (e : EngHdr) : Next P (execPatstat e s) := by
  unfold execPatstat
  exact engServe_next h e fun _ => h

theorem execEngstat_next (e : EngHdr) : Next P (execEngstat e s) := by
  unfold execEngstat
  exact engServe_next h e fun _ => h

theorem execImgchunk_next (e : EngHdr) (data : List (BitVec 8)) : Next P (execImgchunk e data s) := by
  unfold execImgchunk
  refine engServe_next h e fun k => ?_
  dsimp only
  split <;> exact h

theorem execImgact_next (e : EngHdr) : Next P (execImgact e s) := by
  unfold execImgact
  refine engServe_next h e fun k => ?_
  dsimp only
  split <;> exact h

theorem execQreset_next (e : EngHdr) : Next P (execQreset e s) := by
  unfold execQreset
  refine engServe_next h e fun k => ?_
  dsimp only
  split <;> simpa

theorem execEngcmdBadop_next (e : EngHdr) (op : Nat) : Next P (execEngcmdBadop e op s) := by
  unfold execEngcmdBadop
  exact engServe_next h e fun _ => h

/-! ## Draining a victim (R396) -/

theorem execCoreDrain_next (core : Nat) (v : Victim) : Next P (execCoreDrain core v s) := by
  unfold execCoreDrain
  rw [next_next, foldl_mem _ fun s c => by simp]
  exact h

theorem execCasterDrain_next (core : Nat) (v : Victim) : Next P (execCasterDrain core v s) := by
  unfold execCasterDrain
  show P (List.foldl _ _ _ : State).mem
  rw [foldl_mem _ fun s t => by simp]
  exact h

theorem execEndpointDrain_next (v : Victim) : Next P (execEndpointDrain v s) := by
  unfold execEndpointDrain
  show P (List.foldl _ _ _ : State).mem
  rw [foldl_mem _ fun s r => by simp]
  exact h

end

section
variable {s : State} (h : Canonical s.mem)
include h

theorem execQslotDrain_next (v : Victim) : Next Canonical (execQslotDrain v s) := by
  unfold execQslotDrain
  exact foldl_keeps (fun u q hu => State.writeStatus_canonical (by simpa) ..) _ h

theorem execKillAckTimeout_next (part : Nat) (v : Victim) : Next Canonical (execKillAckTimeout part v s) := by
  unfold execKillAckTimeout
  split
  · exact h
  · next k _ =>
    extract_lets die owners cleared eps u left
    have hu : Canonical u.mem := by
      simp only [u]
      split_ifs
      · simp [h]
      · rw [State.report_mem]
        show Canonical (List.foldl _ _ _ : State).mem
        rw [foldl_mem _ fun s n => by simp]
        exact h
      · rw [State.report_mem, foldl_mem _ fun s q => by simp]
        exact h
      · simpa
    clear_value u
    exact .ite (by simp [hu]) hu

/-! ## The Stack Port, the pager and the packet engine -/

theorem portWrite_next (p : PortHdr) (n : Nat) (data : List (BitVec 8)) (mask : Nat → Bool) : Next Canonical (portWrite p n data mask s) := by
  unfold portWrite
  dsimp only
  split
  · simpa
  · rw [next_next, State.respond_mem, ite_mem, State.setStack_mem, ite_self]
    refine h.foldl (fun m x hm => ?_) _
    split
    · exact hm.writeCell ..
    · exact hm

theorem execPagerServe_next : Next Canonical (execPagerServe s) := by
  unfold execPagerServe
  split
  · exact h
  · dsimp only
    split
    · simp [h]
    · split
      · simpa
      · refine .ite (by simpa) ?_
        split
        · exact h
        · split
          · simpa
          · next hv => exact State.evictFor_canonical (by rw [State.victimOf_mem _ _ hv]; exact h) ..

theorem execPagerFillComplete_next : Next Canonical (execPagerFillComplete s) := by
  unfold execPagerFillComplete
  split
  · exact h
  · split
    · dsimp only
      split
      · simpa
      · next hf =>
        rw [next_next, State.replayAll_mem, State.resident_mem]
        split at hf
        · obtain rfl := Except.ok.inj hf
          exact State.zeroFrame_canonical h ..
        · exact State.copyIn_canonical h _ _ _ _ _ hf
    · simpa

theorem execIndirect_next (vd q : Nat) : Next Canonical (execIndirect vd q s) := by
  unfold execIndirect
  extract_lets u k
  have hu : Canonical u.mem := State.writeStatus_canonical h vd q
  clear_value u
  refine .ite hu ?_
  split
  · exact hu
  · refine .ite hu ?_
    split
    · have hr (w : Agent) (ea : Nat) : Canonical (u.packetRead w ea 64).1.mem := by simpa
      split
      · next hp => simpa using keeps_of_eq (hr _ _) hp
      · next hp => exact keeps_of_eq (hr _ _) hp
      · next hp => simpa using keeps_of_eq (hr _ _) hp
      · next hp => exact State.refusePacket_canonical (keeps_of_eq (hr _ _) hp) ..
    · split
      · simp [hu]
      · refine .ite hu ?_
        have hs (p : Packet) (ws : Regs 64) (step : Nat) (first : Bool) : Canonical
            (u.settleStep vd q p (u.packetStep vd q k p.idx ws step first) Packet.afterSub).mem :=
          State.settleStep_canonical _ _ _ (State.packetStep_holds hu ..) _
        rw [next_next]
        split
        · rw [State.interruptField_mem]
          exact hs ..
        · exact hs ..

theorem execPacketFetch_next (vd q : Nat) : Next Canonical (execPacketFetch vd q s) := by
  unfold execPacketFetch
  extract_lets u k bad
  have hu : Canonical u.mem := State.writeStatus_canonical h vd q
  clear_value u bad
  refine .ite hu (.ite (by simpa) ?_)
  split
  · simp [hu]
  · refine .ite hu ?_
    have hr (w : Agent) (ea : Nat) : Canonical (u.packetRead w ea 64).1.mem := by simpa
    split
    · next hp => simpa using keeps_of_eq (hr _ _) hp
    · next hp => exact keeps_of_eq (hr _ _) hp
    · next hp => simpa using keeps_of_eq (hr _ _) hp
    · next hp =>
      refine State.writeStatus_canonical ?_ ..
      rw [ite_mem, State.contain_mem, ite_self, State.setQueue_mem]
      exact keeps_of_eq (hr _ _) hp

theorem execGridComplete_next (grid : Nat) : Next Canonical (execGridComplete grid s) := by
  unfold execGridComplete
  split
  · exact h
  · next g _ =>
    extract_lets failed finish w
    have hfin (u : State) (bad : Option Cause) (hu : Canonical u.mem) : Canonical (finish u bad).mem := by
      simp only [finish]
      split
      · simpa
      · refine keeps_ite (by simpa) (keeps_ite (by simpa) ?_)
        split <;> simpa
    clear_value finish
    refine .ite h (.ite h (.ite (hfin _ _ h) (.ite h ?_)))
    have hw := State.agentWrite_canonical h w g.statAddr (s.gridBlock g)
    split
    · next hu => exact hfin _ _ (keeps_of_eq hw hu)
    · next hu => exact keeps_of_eq hw hu
    · next hu =>
      have hu := keeps_of_eq hw hu
      split
      · exact hu
      · next hp => simpa [State.agentPark_mem _ _ _ _ _ _ hp] using hu
    · next hu =>
      have hu := keeps_of_eq hw hu
      refine .ite ?_ (hfin _ _ (by simpa))
      rw [next_next]
      split
      · exact hfin _ _ hu
      · simpa

/-! ## Power, peers and the host -/

theorem State.unpowered_canonical : Canonical s.unpowered.mem := h.filter _

theorem execPowerOff_next : Next Canonical (execPowerOff s) := State.unpowered_canonical h

theorem execThermalTrip_next : Next Canonical (execThermalTrip s) := State.unpowered_canonical h

omit h in
theorem execBoot_next {P : List Host.Cell → Prop} {s : State} (h : P s.mem) : Next P (execBoot s) := by
  unfold execBoot
  extract_lets m u m' v m'' p
  have hv : P v.mem := by
    simp only [v]
    rw [ite_mem, State.report_mem, ite_self]
    exact h
  clear_value v
  refine .ite h ?_
  split
  · simpa
  · next h₁ =>
    rw [← State.bootImage_mem _ _ h₁] at hv
    split
    · simpa
    · next h₂ =>
      rw [← State.bootImage_mem _ _ h₂] at hv
      split
      · simpa
      · next h₃ =>
        rw [← State.bootImage_mem _ _ h₃] at hv
        simpa using hv

theorem execPeerRequest_next (ep kind addr size : Nat) (data : List (BitVec 8)) : Next Canonical (execPeerRequest ep kind addr size data s) := by
  unfold execPeerRequest
  extract_lets r u
  have hu : Canonical u.mem := by
    simp only [u]
    split
    · simpa
    · exact h
  clear_value u
  refine .ite hu ?_
  have hs := State.servePeer_holds hu r
  split
  all_goals rename_i hr
  all_goals rw [hr] at hs
  · simpa using hs
  · exact hs

theorem execPeerResponse_next (id : Nat) (ok : Bool) (data : List (BitVec 8)) : Next Canonical (execPeerResponse id ok data s) := by
  unfold execPeerResponse
  extract_lets u v
  split
  · exact h
  · next f _ =>
    have hv : Canonical v.mem := by
      rw [State.landFlight_mem]
      exact h
    clear_value v
    extract_lets w
    have hw : Canonical w.mem := by
      simp only [w]
      split_ifs
      · simp [hv]
      · rw [foldl_mem _ fun s p => by simp]
        exact hv
      · exact hv
    split
    · simpa
    · exact hw

theorem execHostCompletion_next (id status : Nat) (data : List (BitVec 8)) : Next Canonical (execHostCompletion id status data s) := by
  unfold execHostCompletion
  refine .ite ?_ (.ite h h)
  show Canonical (if _ then _ else _)
  split
  · exact h
  · exact h.writeCells ..

theorem execHostMemoryWrite_next (addr : Nat) (data : List (BitVec 8)) : Next Canonical (execHostMemoryWrite addr data s) := h.writeCells ..

end

end Sys2Proof.Machine

namespace Sys2Proof.Machine
open Sys2Proof

section
variable {P : List Host.Cell → Prop} {s : State} (h : P s.mem)
include h

/-! ## Commands that touch no byte of memory -/

theorem State.guardFail_holds (vd : Nat) : (s.guardFail vd).Holds P := by simpa [State.guardFail]

theorem execUndefinedCommand_next (r : Nat) : Next P (execUndefinedCommand r s) := by
  unfold execUndefinedCommand
  exact .ite h (State.command_next h _ _ _ fun m => h)

theorem execCreate_next (r : Nat) : Next P (execCreate r s) := by
  unfold execCreate
  refine State.command_next h _ _ _ (onDevice_holds h fun vd m => .ite h (.ite h (.ite ?_ ?_)))
  · exact State.guardFail_holds (by simpa) vd
  · simpa

theorem execConfigure_next (r : Nat) : Next P (execConfigure r s) := by
  unfold execConfigure
  refine State.command_next h _ _ _ (onDevice_holds h fun vd m => .ite h (.ite h (.ite (.ite h h) (.ite h (.ite ?_ (.ite h ?_))))))
  · exact State.guardFail_holds (s := s.setVdev vd _) h vd
  · simpa

theorem execStart_next (r : Nat) : Next P (execStart r s) := by
  unfold execStart
  exact State.command_next h _ _ _ (onDevice_holds h fun vd m => .ite h h)

theorem execStop_next (r : Nat) : Next P (execStop r s) := by
  unfold execStop
  refine State.command_next h _ _ _ (onDevice_holds h fun vd m => .ite ?_ (.ite h h))
  split
  · exact h
  · exact h

theorem execReset_next (r : Nat) : Next P (execReset r s) := by
  unfold execReset
  exact State.command_next h _ _ _ (onDevice_holds h fun vd m => .ite h (by simpa))

theorem execDestroy_next (r : Nat) : Next P (execDestroy r s) := by
  unfold execDestroy
  exact State.command_next h _ _ _ (onDevice_holds h fun vd m => .ite (by simpa) h)

theorem execProfileRead_next (r : Nat) : Next P (execProfileRead r s) := by
  unfold execProfileRead
  exact State.command_next h _ _ _ (onDevice_holds h fun vd m => h)

theorem execMeterRead_next (r : Nat) : Next P (execMeterRead r s) := by
  unfold execMeterRead
  exact State.command_next h _ _ _ (onDevice_holds h fun vd m => h)

theorem execCtxKill_next (r : Nat) : Next P (execCtxKill r s) := by
  unfold execCtxKill
  exact State.command_next h _ _ _ (onDevice_holds h fun vd m => .ite h (by simpa))

theorem execBackingGrant_next (r : Nat) : Next P (execBackingGrant r s) := by
  unfold execBackingGrant
  exact State.command_next h _ _ _ fun m => .ite h (by simpa)

theorem execEpBind_next (r : Nat) : Next P (execEpBind r s) := by
  unfold execEpBind
  refine State.command_next h _ _ _ fun m => ?_
  dsimp only
  split
  · exact h
  · exact .ite h (.ite h h)

theorem execEpUnbind_next (r : Nat) : Next P (execEpUnbind r s) := by
  unfold execEpUnbind
  refine State.command_next h _ _ _ fun m => .ite h ?_
  extract_lets u v
  have hu : P u.mem := by
    simp only [u]
    rw [foldl_mem _ fun s x => by simp]
    exact h
  exact .ite hu hu

theorem execRouteSet_next (r : Nat) : Next P (execRouteSet r s) := by
  unfold execRouteSet
  exact State.command_next h _ _ _ fun m => .ite h h

theorem execPkgidSet_next (r : Nat) : Next P (execPkgidSet r s) := by
  unfold execPkgidSet
  exact State.command_next h _ _ _ fun m => .ite h (.ite h h)

theorem execPortKey_next (r : Nat) : Next P (execPortKey r s) := by
  unfold execPortKey
  exact State.command_next h _ _ _ fun m => .ite h (.ite h (.ite (by simpa) (.ite h h)))

theorem State.layoutStep_holds (r : Nat) (c : LayoutChange) : (s.layoutStep r c).Holds P := by
  unfold State.layoutStep
  refine .ite ?_ (.ite h h)
  cases c with
  | wayMap die es => exact h
  | profile p v => simpa [State.push]

theorem layoutCommand_holds (r : Nat) (check : Mbox → State → Except Nat LayoutChange) (m : Mbox) : (layoutCommand r check m s).Holds P := by
  unfold layoutCommand
  split
  · exact .ite (State.layoutStep_holds h ..) h
  · split
    · exact h
    · exact State.layoutStep_holds h ..

theorem execWaymapSet_next (r : Nat) : Next P (execWaymapSet r s) := by
  unfold execWaymapSet
  exact State.command_next h _ _ _ (layoutCommand_holds h _ _)

theorem execProfileSet_next (r : Nat) : Next P (execProfileSet r s) := by
  unfold execProfileSet
  exact State.command_next h _ _ _ (layoutCommand_holds h _ _)

theorem execUpdateWrite_next (r : Nat) : Next P (execUpdateWrite r s) := by
  unfold execUpdateWrite
  exact State.command_next h _ _ _ (onKind_holds h fun kind m => .ite h h)

theorem execUpdateActivate_next (r : Nat) : Next P (execUpdateActivate r s) := by
  unfold execUpdateActivate
  refine State.command_next h _ _ _ (onKind_holds h fun kind m => .ite h ?_)
  rw [MAns.ok_holds]
  exact keeps_ite (by simpa) (by simpa)

theorem execUpdateCommit_next (r : Nat) : Next P (execUpdateCommit r s) := by
  unfold execUpdateCommit
  exact State.command_next h _ _ _ (onKind_holds h fun kind m => h)

theorem execRebuildMirror_next (r : Nat) : Next P (execRebuildMirror r s) := by
  unfold execRebuildMirror
  exact State.command_next h _ _ _ fun m => .ite h h

theorem execRecoverBoundary_next (r : Nat) : Next P (execRecoverBoundary r s) := by
  unfold execRecoverBoundary
  exact State.command_next h _ _ _ fun m => .ite h h

theorem execErrlogRead_next (r : Nat) : Next P (execErrlogRead r s) := by
  unfold execErrlogRead
  exact State.command_next h _ _ _ fun m => .ite h (by simpa)

end

section
variable {s : State} (h : Canonical s.mem)
include h

/-! ## Commands that write memory -/

theorem execS2map_next (r : Nat) : Next Canonical (execS2map r s) := by
  unfold execS2map
  refine State.command_next h _ _ _ (onDevice_holds h fun vd m => ?_)
  extract_lets d gpa size a rd wr pin kind prof g n put bad p unit step left held rows
  have hput (u : State) (b : BufEntry) (buf : Nat) (res : Bool) (hu : Canonical u.mem) : Canonical (put u b buf res).mem := hu
  clear_value put
  refine .ite h ?_
  split
  · exact h
  · refine .ite ?_ (.ite ?_ (.ite ?_ ?_))
    · refine .ite h ?_
      exact hput _ _ _ _ h
    · refine .ite h (.ite h ?_)
      exact hput _ _ _ _ h
    · exact h
    split
    · exact State.guardFail_holds h vd
    · have hg (p : Profile) (row n dom : Nat) : Canonical (s.giveRows p row n dom).mem := by
        rw [State.giveRows_mem]
        exact h
      refine keeps_ite (foldl_keeps (fun u o hu => State.zeroFrame_canonical hu ..) _ ?_) ?_
      · exact hput _ _ _ _ (hg ..)
      · exact hput _ _ _ _ (hg ..)

theorem State.turnOut_holds (vd g : Nat) (f : S2Leaf) : (s.turnOut vd g f).Holds Canonical := by
  unfold State.turnOut
  dsimp only
  split
  · exact h
  · next b u hp =>
    have he := State.evict_holds (by rw [State.placeBacking_mem _ _ _ _ hp]; exact h) vd g f b
    split
    all_goals rename_i hv
    all_goals rw [hv] at he
    all_goals exact he

theorem execS2unmap_next (r : Nat) : Next Canonical (execS2unmap r s) := by
  unfold execS2unmap
  refine State.command_next h _ _ _ (onDevice_holds h fun vd m => ?_)
  dsimp only
  split
  · exact h
  · refine .ite h ?_
    split
    · exact State.turnOut_holds h ..
    · split
      · simpa
      · simp [h]

theorem State.migrate_holds (vd g : Nat) (f : S2Leaf) (buf o : Nat) : (s.migrate vd g f buf o).Holds Canonical := by
  unfold State.migrate
  extract_lets ps d u checked moved
  have hu : Canonical u.mem := h
  clear_value u
  split
  · exact hu
  · show Canonical (State.setVdev moved _ _).mem
    simp [moved, checked, hu]

theorem execRetireRow_next (r : Nat) : Next Canonical (execRetireRow r s) := by
  unfold execRetireRow
  refine State.command_next h _ _ _ fun m => .ite h ?_
  dsimp only
  split
  · simpa
  · split
    · simpa
    · exact State.migrate_holds (by simpa) ..

theorem execRetireCore_next (r : Nat) : Next Canonical (execRetireCore r s) := by
  unfold execRetireCore
  refine State.command_next h _ _ _ fun m => .ite h (.ite (.ite h (.ite h ?_)) h)
  exact foldl_keeps (fun u c hu => State.emptyCore_canonical hu c) _ h

end

end Sys2Proof.Machine

namespace Sys2Proof.Machine
open Sys2Proof

section
variable {P : List Host.Cell → Prop} {s : State} (h : P s.mem)
include h

/-! ## Other events that touch no byte of memory -/

theorem execWalkStep_next (die walk : Nat) : Next P (execWalkStep die walk s) := by
  unfold execWalkStep
  simpa

theorem execWalkTimeout_next (die walk : Nat) : Next P (execWalkTimeout die walk s) := by
  unfold execWalkTimeout
  split
  · exact h
  · split
    · exact h
    · simpa

theorem execRunBegin_next (sc : Nat) : Next P (execRunBegin sc s) := by
  unfold execRunBegin
  dsimp only
  split
  · split <;> exact h
  · exact h

theorem execPreempt_next (core vd ctx : Nat) : Next P (execPreempt core vd ctx s) := by
  unfold execPreempt
  dsimp only
  split
  · simpa
  · exact h
  · exact h

theorem execItemQueueGrab_next (core q : Nat) : Next P (execItemQueueGrab core q s) := by
  unfold execItemQueueGrab
  dsimp only
  split
  · exact h
  · split
    · exact h
    · split <;> exact h

theorem execImpreciseStoreTrap_next (slot : Nat) : Next P (execImpreciseStoreTrap slot s) := by
  unfold execImpreciseStoreTrap
  dsimp only
  split
  · exact h
  · split
    · exact h
    · split
      · exact h
      · split
        · split
          · exact h
          · simpa
        · split
          · exact h
          · split
            · simpa
            · split
              · exact h
              · split
                · exact h
                · split <;> simpa

theorem execCompactWaitExpiry_next (core : Nat) : Next P (execCompactWaitExpiry core s) := by
  unfold execCompactWaitExpiry
  split
  · simpa
  · split <;> exact h

theorem execNbcmd_next (p : PortHdr) (data : List (BitVec 8)) : Next P (execNbcmd p data s) := by
  unfold execNbcmd
  dsimp only
  split
  · simpa
  · split
    · simpa
    · split
      · simpa
      · split <;> simpa

theorem execNbdrain_next (p : PortHdr) : Next P (execNbdrain p s) := by
  unfold execNbdrain
  dsimp only
  split
  · simpa
  · split <;> simpa

theorem execNbQueueFailure_next (stack pair : Nat) : Next P (execNbQueueFailure stack pair s) := by
  unfold execNbQueueFailure
  simpa

theorem execSequenceDrainDone_next (slot : Nat) : Next P (execSequenceDrainDone slot s) := by
  unfold execSequenceDrainDone
  split
  · exact h
  · split <;> exact h

theorem portRead_next (p : PortHdr) (n : Nat) : Next P (portRead p n s) := by
  unfold portRead
  dsimp only
  split <;> simpa

theorem execCfgrd_next (p : PortHdr) : Next P (execCfgrd p s) := by
  unfold execCfgrd
  simpa

theorem execCfgwr_next (p : PortHdr) (data : List (BitVec 8)) : Next P (execCfgwr p data s) := by
  unfold execCfgwr
  simpa

theorem execPatset_next (r : PatReq) : Next P (execPatset r s) := by
  unfold execPatset
  dsimp only
  split
  · exact h
  · split
    · exact h
    · split
      · exact h
      · simpa

theorem execStackPortBadcmd_next (p : PortHdr) (cmd : Nat) : Next P (execStackPortBadcmd p cmd s) := by
  unfold execStackPortBadcmd
  simpa

theorem execChannelRecalibrate_next (stack ch : Nat) : Next P (execChannelRecalibrate stack ch s) := by
  unfold execChannelRecalibrate
  simpa

theorem execPatrolRead_next (stack : Nat) : Next P (execPatrolRead stack s) := by
  unfold execPatrolRead
  dsimp only
  split
  · exact h
  · split
    · simpa
    · exact h

theorem execBaseDieEngineHang_next (stack : Nat) : Next P (execBaseDieEngineHang stack s) := h

theorem execKick_next (vd q w : Nat) : Next P (execKick vd q w s) := by
  unfold execKick
  dsimp only
  split
  · simpa
  · split
    · exact h
    · simpa

theorem execQueueSlotGrant_next (vd q : Nat) : Next P (execQueueSlotGrant vd q s) := by
  unfold execQueueSlotGrant
  dsimp only
  split <;> exact h

theorem execQueueSlotRelease_next (vd q : Nat) : Next P (execQueueSlotRelease vd q s) := by
  unfold execQueueSlotRelease
  dsimp only
  split <;> exact h

theorem execCoreKill_next (core : Nat) (v : Victim) : Next P (execCoreKill core v s) := by
  unfold execCoreKill
  simpa

theorem execMatrixKill_next (core : Nat) (v : Victim) : Next P (execMatrixKill core v s) := h

theorem execMatrixDrain_next (core : Nat) (v : Victim) : Next P (execMatrixDrain core v s) := h

theorem execCasterKill_next (core : Nat) (v : Victim) : Next P (execCasterKill core v s) := h

theorem execNearbankKill_next (die : Nat) (v : Victim) : Next P (execNearbankKill die v s) := h

theorem execNearbankDrain_next (die : Nat) (v : Victim) : Next P (execNearbankDrain die v s) := h

theorem execWalkerKill_next (die : Nat) (v : Victim) : Next P (execWalkerKill die v s) := h

theorem execWalkerDrain_next (die : Nat) (v : Victim) : Next P (execWalkerDrain die v s) := h

theorem execQslotKill_next (v : Victim) : Next P (execQslotKill v s) := h

theorem execEndpointKill_next (v : Victim) : Next P (execEndpointKill v s) := h

theorem execContextEnable_next (vd ctx : Nat) : Next P (execContextEnable vd ctx s) := by
  unfold execContextEnable
  dsimp only
  split
  · simpa
  · split <;> exact h

theorem execContextTeardown_next (vd ctx : Nat) : Next P (execContextTeardown vd ctx s) := by
  unfold execContextTeardown
  dsimp only
  split
  · simpa
  · split <;> exact h

theorem execBucketEmpty_next (vd : Nat) : Next P (execBucketEmpty vd s) := by
  unfold execBucketEmpty
  dsimp only
  split
  · exact h
  · simpa

theorem execBucketRecover_next (vd : Nat) : Next P (execBucketRecover vd s) := by
  unfold execBucketRecover
  dsimp only
  split
  · exact h
  · simpa

theorem execProgressHang_next (vd ctx : Nat) : Next P (execProgressHang vd ctx s) := by
  unfold execProgressHang
  dsimp only
  split
  · simpa
  · exact h

theorem execRemoteTimeout_next (vd ctx : Nat) : Next P (execRemoteTimeout vd ctx s) := by
  unfold execRemoteTimeout
  dsimp only
  split
  · simpa
  · exact h

theorem execRowLinkFlit_next (link : Nat) (good : Bool) : Next P (execRowLinkFlit link good s) := by
  unfold execRowLinkFlit
  dsimp only
  split
  · exact h
  · split
    · exact h
    · split
      · simpa
      · exact h

theorem execIoLinkCut_next (die : Nat) : Next P (execIoLinkCut die s) := by
  unfold execIoLinkCut
  split
  · exact h
  · simpa

theorem execLinkRetrainTimeout_next (link : Nat) : Next P (execLinkRetrainTimeout link s) := by
  unfold execLinkRetrainTimeout
  dsimp only
  split
  · exact h
  · split <;> simpa

theorem execLinkRetrainDone_next (link : Nat) : Next P (execLinkRetrainDone link s) := by
  unfold execLinkRetrainDone
  dsimp only
  split
  · exact h
  · split <;> exact h

theorem execRowLinkRecal_next (link : Nat) : Next P (execRowLinkRecal link s) := h

theorem execAcquire_next (r : Nat) : Next P (execAcquire r s) := by
  unfold execAcquire
  split
  · exact h
  · split <;> exact h

theorem execRenew_next (r : Nat) : Next P (execRenew r s) := by
  unfold execRenew
  split
  · exact h
  · split <;> exact h

theorem execRelease_next (r : Nat) : Next P (execRelease r s) := by
  unfold execRelease
  split
  · exact h
  · split <;> exact h

theorem execLeaseExpiry_next : Next P (execLeaseExpiry s) := h

theorem execFeatlock_next : Next P (execFeatlock s) := by
  unfold execFeatlock
  split
  · exact h
  · simpa

theorem execPowercapWrite_next (r w : Nat) : Next P (execPowercapWrite r w s) := by
  unfold execPowercapWrite
  split <;> exact h

theorem execPowerSample_next (power temp : Nat) : Next P (execPowerSample power temp s) := h

theorem execFunctionLevelReset_next (vd : Nat) : Next P (execFunctionLevelReset vd s) := by
  unfold execFunctionLevelReset
  split <;> exact h

theorem execWatchdogExpiry_next (kind : Nat) : Next P (execWatchdogExpiry kind s) := by
  unfold execWatchdogExpiry
  split
  · exact h
  · simpa

theorem execFabricFlitSend_next (port : Nat) : Next P (execFabricFlitSend port s) := by
  unfold execFabricFlitSend
  dsimp only
  split
  · exact h
  · split
    · simpa
    · split <;> simpa

theorem execFabricFlitReceive_next (port : Nat) (crcOk tagOk : Bool) : Next P (execFabricFlitReceive port crcOk tagOk s) := by
  unfold execFabricFlitReceive
  dsimp only
  split
  · exact h
  · split
    · simpa
    · split <;> exact h

theorem execCreditFlit_next (port : Nat) (data : List (BitVec 8)) (nak : Bool) : Next P (execCreditFlit port data nak s) := by
  unfold execCreditFlit
  dsimp only
  split
  · exact h
  · simpa

theorem execFabricRecal_next (port : Nat) : Next P (execFabricRecal port s) := h

theorem execFabricRouteTimeout_next (vd ctx : Nat) : Next P (execFabricRouteTimeout vd ctx s) := by
  unfold execFabricRouteTimeout
  dsimp only
  split
  · simpa
  · exact h

theorem execHostCompletionTimeout_next (id : Nat) : Next P (execHostCompletionTimeout id s) := h

theorem execHostPoisonedRequest_next (requester : Nat) : Next P (execHostPoisonedRequest requester s) := h

theorem execWorldReportRequest_next (vd : Nat) : Next P (execWorldReportRequest vd s) := by
  unfold execWorldReportRequest
  split
  · simpa
  · exact h

theorem execSpdmRequest_next (chan : Nat) (data : List (BitVec 8)) : Next P (execSpdmRequest chan data s) := by
  unfold execSpdmRequest
  split <;> exact h

end

section
variable {s : State} (h : Canonical s.mem)
include h

/-! ## Other events that write memory -/

theorem execWorldChange_next (core world : Nat) : Next Canonical (execWorldChange core world s) := by
  unfold execWorldChange
  dsimp only
  split
  · exact h
  · split
    · split <;> exact h
    · split
      · exact h
      · split
        · exact h
        · simp [h]

theorem execGroupRetire_next (slot : Nat) : Next Canonical (execGroupRetire slot s) := by
  unfold execGroupRetire
  dsimp only
  split
  · exact h
  · split
    · exact h
    · split <;> simp [h]

theorem execTeamRetire_next (team : Nat) : Next Canonical (execTeamRetire team s) := by
  unfold execTeamRetire
  split
  · exact h
  · split
    · exact h
    · simp [h]

theorem execQctlReset_next (vd q : Nat) : Next Canonical (execQctlReset vd q s) := by
  unfold execQctlReset
  split
  · simp [h]
  · simpa

theorem execQueueEnable_next (vd q : Nat) (on : Bool) : Next Canonical (execQueueEnable vd q on s) := by
  unfold execQueueEnable
  dsimp only
  split
  · simpa
  · split
    · simp [h]
    · split
      · exact h
      · split <;> exact h

theorem execDispatch_next (vd q : Nat) : Next Canonical (execDispatch vd q s) := by
  unfold execDispatch
  dsimp only
  split
  · simp [h]
  · split <;> simp [h]

theorem execWrite_next (vd q : Nat) : Next Canonical (execWrite vd q s) := by
  unfold execWrite
  simp [h]

theorem execSignal_next (vd q : Nat) : Next Canonical (execSignal vd q s) := by
  unfold execSignal
  simp [h]

theorem execWait_next (vd q : Nat) : Next Canonical (execWait vd q s) := by
  unfold execWait
  simp [h]

theorem execWaitReevaluate_next (vd q : Nat) : Next Canonical (execWaitReevaluate vd q s) := by
  unfold execWaitReevaluate
  split
  · split
    · simp [h]
    · exact h
  · exact h

theorem execWriteSignal_next (vd q : Nat) : Next Canonical (execWriteSignal vd q s) := by
  unfold execWriteSignal
  simp [h]

theorem execFencePacket_next (vd q : Nat) : Next Canonical (execFencePacket vd q s) := by
  unfold execFencePacket
  simp [h]

theorem execSequenceEnd_next (vd q : Nat) : Next Canonical (execSequenceEnd vd q s) := by
  unfold execSequenceEnd
  simp [h]

theorem execKillAck_next (part : Nat) (v : Victim) : Next Canonical (execKillAck part v s) := by
  unfold execKillAck
  dsimp only
  split
  · exact h
  · split
    · exact h
    · split
      · simp [h]
      · exact h

theorem execSliceEnd_next (set : Nat) : Next Canonical (execSliceEnd set s) := by
  unfold execSliceEnd
  dsimp only
  split
  · split
    · split
      · split <;> simpa
      · grind [State.closeSlice_mem, State.updateEligible_mem, State.refill_mem, State.compact_mem]
    · split
      · grind [State.closeSlice_mem, State.updateEligible_mem, State.refill_mem, State.compact_mem]
      · split <;> simpa
  · split
    · simpa
    · split <;> split <;> simpa

end

end Sys2Proof.Machine

namespace Sys2Proof.Machine
open Sys2Proof

section
variable {s : State} (h : Canonical s.mem)
include h

/-! ## Words on barrier objects and queues -/

omit h in
/-- A barrier object changed and written back, unless its count overflows. -/
theorem setBarrier_answers (hs : Canonical s.mem) (ea : DWord) (r : Option Barrier) (p : Place) :
    Answers Canonical (fun u => Canonical u.mem) ((orOverflow ea r).map (s.setBarrier p)) :=
  .map (checks_orOverflow ea r) fun b _ => State.setBarrier_canonical hs p b

theorem execBarinit_next (d a : RegField) (t : Tail) : Next Canonical (execBarinit d a t s) := by
  unfold execBarinit
  exact barSource_next h _ _ _ _ _ _ fun _ u ea p c hu => setBarrier_answers hu ..

theorem execBarexp_next (d a : RegField) (t : Tail) : Next Canonical (execBarexp d a t s) := by
  unfold execBarexp
  exact barSource_next h _ _ _ _ _ _ fun _ u ea p c hu => setBarrier_answers hu ..

theorem execBararv_next (d a : RegField) (t : Tail) : Next Canonical (execBararv d a t s) := by
  unfold execBararv
  exact barDest_next h _ _ _ _ _ _ fun _ u ea p hu => setBarrier_answers hu ..

theorem execCbararv_next (d a : RegField) (t : Tail) : Next Canonical (execCbararv d a t s) := by
  unfold execCbararv
  refine barDest_next h _ _ _ _ _ _ fun i u ea p hu => ?_
  split
  · next hv => exact State.teamMark_canonical hu _ _ _ _ hv
  · simp

theorem execBarwait_next (d a : RegField) (t : Tail) : Next Canonical (execBarwait d a t s) := by
  unfold execBarwait
  exact barSource_next h _ _ _ _ _ _ fun i u _ p w hu => awaitPhase_answers hu ..

theorem execCbarwait_next (d a : RegField) (t : Tail) : Next Canonical (execCbarwait d a t s) := by
  unfold execCbarwait
  exact barSource_next h _ _ _ _ _ _ fun i u _ p w hu => awaitPhase_answers hu ..

theorem execBartest_next (d a : RegField) (t : Tail) : Next Canonical (execBartest d a t s) := by
  unfold execBartest
  exact barDest_next h _ _ _ _ _ _ fun _ _ _ _ hu => hu

theorem execAqstop_next (a : RegField) (t : Tail) : Next Canonical (execAqstop a t s) := by
  unfold execAqstop
  refine maskInstr_next h _ _ _ fun i u m hu => ?_
  simpa

theorem execQflush_next (a : RegField) (t : Tail) : Next Canonical (execQflush a t s) := by
  unfold execQflush
  refine maskInstr_next h _ _ _ fun i u m hu => ?_
  simpa

/-! ## Integer words -/

theorem minMax_next (larger : Bool) (rd : Word → Int) (d a b : RegField) (t : Tail) : Next Canonical (minMax larger rd d a b t s) := by
  unfold minMax
  exact intInstr_next h ..

theorem shiftReg_next (f : Word → Nat → Word) (d a b : RegField) (t : Tail) : Next Canonical (shiftReg f d a b t s) := by
  unfold shiftReg
  exact intInstr_next h ..

theorem shiftImm_next (f : Word → Nat → Word) (d a : RegField) (n : BitVec 5) (t : Tail) : Next Canonical (shiftImm f d a n t s) := by
  unfold shiftImm
  exact intInstr_next h ..

/-! ## Register writes -/

theorem State.writeQueueWord_next (vd q n x : Nat) : Next Canonical (s.writeQueueWord vd q n x) := by
  unfold State.writeQueueWord
  dsimp only
  split
  · simp only [next_next]
    split <;> simpa
  · have hput : Canonical (if (s.queue vd q).enable then s
        else s.setQueue vd q { s.queue vd q with rlog := bits x 4 0, ctx := bits x 8 5, cvec := bits x 27 16, evec := bits x 39 28 }).mem := by
      split <;> simpa
    split
    · exact hput
    · exact execQueueEnable_next hput ..
  · simp only [next_next]
    split <;> simpa
  · exact h

theorem State.writeCtxWord_next (vd c n v : Nat) : Next Canonical (s.writeCtxWord vd c n v) := by
  unfold State.writeCtxWord
  dsimp only
  split
  · simpa
  · simpa
  · simp only [next_next]
    split <;> simpa
  · simp only [next_next]
    split <;> simpa
  · refine .ite (by simpa) (.ite (execContextEnable_next ?_ ..) (execContextTeardown_next ?_ ..)) <;> simpa
  · exact h

theorem State.writeBar_next (vd off size val : Nat) : Next Canonical (s.writeBar vd off size val) := by
  unfold State.writeBar
  dsimp only
  refine .ite (by simpa) (.ite ?kicks (.ite ?queues (.ite ?contexts (.ite ?vector (.ite ?nonce (.ite ?report h))))))
  case kicks => exact .ite (execKick_next h ..) (.ite (execQctlReset_next h ..) h)
  case queues => exact State.writeQueueWord_next h ..
  case contexts => exact State.writeCtxWord_next h ..
  case vector => simpa
  case nonce => simpa
  case report => exact execWorldReportRequest_next h ..

theorem runCommand_next (r cmd : Nat) : Next Canonical (runCommand r cmd s) := by
  unfold runCommand
  split <;> simp only [execCreate_next h, execConfigure_next h, execStart_next h, execStop_next h, execReset_next h, execDestroy_next h,
    execProfileRead_next h, execMeterRead_next h, execCtxKill_next h, execS2map_next h, execS2unmap_next h, execWaymapSet_next h,
    execProfileSet_next h, execEpBind_next h, execEpUnbind_next h, execRouteSet_next h, execPkgidSet_next h, execPortKey_next h,
    execBackingGrant_next h, execRetireCore_next h, execRetireRow_next h, execRebuildMirror_next h, execRecoverBoundary_next h,
    execUpdateWrite_next h, execUpdateActivate_next h, execUpdateCommit_next h, execErrlogRead_next h, execUndefinedCommand_next h]

theorem State.writeMbox_next (r off size val : Nat) : Next Canonical (s.writeMbox r off size val) := by
  unfold State.writeMbox
  dsimp only
  exact .ite (runCommand_next h ..) (.ite h (.ite (by simpa) (.ite (by simpa) h)))

theorem State.writeMgmt_next (r off size val : Nat) : Next Canonical (s.writeMgmt r off size val) := by
  unfold State.writeMgmt
  dsimp only
  refine .ite ?lease (.ite ?features (.ite ?featlock (.ite ?powercap (.ite ?mailbox (.ite ?bulk h)))))
  case lease =>
    split
    · exact execAcquire_next h _
    · exact execRenew_next h _
    · exact execRelease_next h _
    · exact h
  case features => exact .ite h h
  case featlock => exact .ite (execFeatlock_next h) h
  case powercap => exact execPowercapWrite_next h ..
  case mailbox => exact State.writeMbox_next h ..
  case bulk => exact .ite h (by simpa)

theorem execRegisterWrite_next (vd off size val : Nat) : Next Canonical (execRegisterWrite vd off size val s) := by
  unfold execRegisterWrite
  exact .ite h (.ite (State.writeBar_next h ..) (.ite (State.writeMgmt_next h ..) h))

end

end Sys2Proof.Machine

namespace Sys2Proof.Machine
open Sys2Proof

/-! ## Every instruction and event, and the step -/

theorem exec_next {s : State} (h : Canonical s.mem) (i : Instr) : Next Canonical (exec i s) := by
  cases i with
  -- control, predicate and float words
  | nop | isetp | movhi | wrsp | ixset | ixadd | bra | call | meet | meetx | meetr | refill | exit | yield | fcvt | gred | gscan | dualset
    | dualzero =>
    simp only [exec, execNop_next h, execIsetp_next h, execMovhi_next h, execWrsp_next h, execIxset_next h, execIxadd_next h, execBra_next h,
      execCall_next h, execMeet_next h, execMeetx_next h, execMeetr_next h, execRefill_next h, execExit_next h, execYield_next h, execFcvt_next h,
      execGred_next h, execGscan_next h, execDualset_next h, execDualzero_next h]
  -- memory and barrier words
  | st | ldm | stm | atom | fence | pref | bufdcl | bufset | bufq | barinit | barexp | bararv | barwait | bartest | tsync | cbararv | cbarwait =>
    simp only [exec, execSt_next h, execLdm_next h, execStm_next h, execAtom_next h, execFence_next h, execPref_next h, execBufdcl_next h,
      execBufset_next h, execBufq_next h, execBarinit_next h, execBarexp_next h, execBararv_next h, execBarwait_next h, execBartest_next h,
      execTsync_next h, execCbararv_next h, execCbarwait_next h]
  -- words on queues, matrix tiles, copies and teams
  | aqload | aqstart | aqstop | qflush | itempush | mmz | accld | accst | accmv | accadd | omset | mstcfg | msign | mmwait | mmstat | chwait
    | chstat | fmtset | fmtget | psig | nbld | nbst | nbfence | rnginit | grab | launch | join | lstat | sethdlr | trapret | rdcause | probe
    | seqnew | seqend =>
    simp only [exec, execAqload_next h, execAqstart_next h, execAqstop_next h, execQflush_next h, execItempush_next h, execMmz_next h,
      execAccld_next h, execAccst_next h, execAccmv_next h, execAccadd_next h, execOmset_next h, execMstcfg_next h, execMsign_next h,
      execMmwait_next h, execMmstat_next h, execChwait_next h, execChstat_next h, execFmtset_next h, execFmtget_next h, execPsig_next h,
      execNbld_next h, execNbst_next h, execNbfence_next h, execRnginit_next h, execGrab_next h, execLaunch_next h, execJoin_next h,
      execLstat_next h, execSethdlr_next h, execTrapret_next h, execRdcause_next h, execProbe_next h, execSeqnew_next h, execSeqend_next h]
  -- events of groups and engines
  | runBegin | loadReturn | storeFifoPerform | impreciseStoreTrap | streamFill | coalescerClose | preempt | resume | worldChange | groupRetire
    | teamRetire | itemQueueGrab | matrixStep | matrixComplete | copyRow | copyComplete | nbColumn | nbCommandComplete | nbcmd | nbdrain
    | walkStep =>
    simp only [exec, execRunBegin_next h, execLoadReturn_next h, execStoreFifoPerform_next h, execImpreciseStoreTrap_next h,
      execStreamFill_next h, execCoalescerClose_next h, execPreempt_next h, execResume_next h, execWorldChange_next h, execGroupRetire_next h,
      execTeamRetire_next h, execItemQueueGrab_next h, execMatrixStep_next h, execMatrixComplete_next h, execCopyRow_next h,
      execCopyComplete_next h, execNbColumn_next h, execNbCommandComplete_next h, execNbcmd_next h, execNbdrain_next h, execWalkStep_next h]
  -- events of the pager, the placement and the queues
  | pagerServe | pagerFillComplete | clusterPlace | teamPlace | gridComplete | queueSlotGrant | packetFetch | dispatch | write | signal | wait
    | waitReevaluate | writeSignal | fencePacket | indirect | sequenceEnd =>
    simp only [exec, execPagerServe_next h, execPagerFillComplete_next h, execClusterPlace_next h, execTeamPlace_next h, execGridComplete_next h,
      execQueueSlotGrant_next h, execPacketFetch_next h, execDispatch_next h, execWrite_next h, execSignal_next h, execWait_next h,
      execWaitReevaluate_next h, execWriteSignal_next h, execFencePacket_next h, execIndirect_next h, execSequenceEnd_next h]
  -- slices, kills and drains
  | sliceEnd | coreKill | coreDrain | matrixKill | matrixDrain | casterKill | casterDrain | nearbankKill | nearbankDrain | walkerKill
    | walkerDrain | qslotKill | qslotDrain | endpointKill | endpointDrain | killAck | sequenceDrainDone | pointOfCoherenceArrival =>
    simp only [exec, execSliceEnd_next h, execCoreKill_next h, execCoreDrain_next h, execMatrixKill_next h, execMatrixDrain_next h,
      execCasterKill_next h, execCasterDrain_next h, execNearbankKill_next h, execNearbankDrain_next h, execWalkerKill_next h,
      execWalkerDrain_next h, execQslotKill_next h, execQslotDrain_next h, execEndpointKill_next h, execEndpointDrain_next h, execKillAck_next h,
      execSequenceDrainDone_next h, execPointOfCoherenceArrival_next h]
  -- queues, the stack port and the links
  | kick | queueSlotRelease | progressHang | nbQueueFailure | cfgrd | cfgwr | patset | stackPortBadcmd | rasread | patrol | patstat | engstat
    | imgchunk | imgact | qreset | engcmdBadop | channelRecalibrate | patrolRead | baseDieEngineHang | rowLinkFlit | linkRetrainTimeout
    | ioLinkCut | rowLinkRecal | walkTimeout | remoteTimeout | compactWaitExpiry =>
    simp only [exec, execKick_next h, execQueueSlotRelease_next h, execProgressHang_next h, execNbQueueFailure_next h, execCfgrd_next h,
      execCfgwr_next h, execPatset_next h, execStackPortBadcmd_next h, execRasread_next h, execPatrol_next h, execPatstat_next h,
      execEngstat_next h, execImgchunk_next h, execImgact_next h, execQreset_next h, execEngcmdBadop_next h, execChannelRecalibrate_next h,
      execPatrolRead_next h, execBaseDieEngineHang_next h, execRowLinkFlit_next h, execLinkRetrainTimeout_next h, execIoLinkCut_next h,
      execRowLinkRecal_next h, execWalkTimeout_next h, execRemoteTimeout_next h, execCompactWaitExpiry_next h]
  -- register writes, devices and the management lock
  | qctlReset | queueEnable | contextEnable | contextTeardown | worldReportRequest | registerWrite | functionLevelReset | bucketEmpty
    | bucketRecover | killAckTimeout | watchdogExpiry | acquire | renew | release | leaseExpiry | featlock | powercapWrite | powerSample =>
    simp only [exec, execQctlReset_next h, execQueueEnable_next h, execContextEnable_next h, execContextTeardown_next h,
      execWorldReportRequest_next h, execRegisterWrite_next h, execFunctionLevelReset_next h, execBucketEmpty_next h, execBucketRecover_next h,
      execKillAckTimeout_next h, execWatchdogExpiry_next h, execAcquire_next h, execRenew_next h, execRelease_next h, execLeaseExpiry_next h,
      execFeatlock_next h, execPowercapWrite_next h, execPowerSample_next h]
  -- management commands
  | create | configure | start | stop | reset | destroy | profileRead | meterRead | ctxKill | s2map | s2unmap | waymapSet | profileSet | epBind
    | epUnbind | routeSet | pkgidSet | portKey | backingGrant | retireCore | retireRow | rebuildMirror | recoverBoundary | updateWrite
    | updateActivate | updateCommit | errlogRead | undefinedCommand =>
    simp only [exec, execCreate_next h, execConfigure_next h, execStart_next h, execStop_next h, execReset_next h, execDestroy_next h,
      execProfileRead_next h, execMeterRead_next h, execCtxKill_next h, execS2map_next h, execS2unmap_next h, execWaymapSet_next h,
      execProfileSet_next h, execEpBind_next h, execEpUnbind_next h, execRouteSet_next h, execPkgidSet_next h, execPortKey_next h,
      execBackingGrant_next h, execRetireCore_next h, execRetireRow_next h, execRebuildMirror_next h, execRecoverBoundary_next h,
      execUpdateWrite_next h, execUpdateActivate_next h, execUpdateCommit_next h, execErrlogRead_next h, execUndefinedCommand_next h]
  -- the package, its ports, peers and the host
  | boot | thermalTrip | fabricFlitSend | fabricFlitReceive | creditFlit | fabricRecal | fabricRouteTimeout | peerRequest | peerResponse
    | hostCompletion | hostCompletionTimeout | hostPoisonedRequest | hostMemoryWrite | spdmRequest | linkRetrainDone | powerOff =>
    simp only [exec, execBoot_next h, execThermalTrip_next h, execFabricFlitSend_next h, execFabricFlitReceive_next h, execCreditFlit_next h,
      execFabricRecal_next h, execFabricRouteTimeout_next h, execPeerRequest_next h, execPeerResponse_next h, execHostCompletion_next h,
      execHostCompletionTimeout_next h, execHostPoisonedRequest_next h, execHostMemoryWrite_next h, execSpdmRequest_next h,
      execLinkRetrainDone_next h, execPowerOff_next h]
  -- words that are one case of a shared form
  | iadd | iaddImm | isub | imul | imulhiS32 | imulhiN32 | imad | csub | iand | ior | ixor | iandn | bfx | bfi | iabs | popc | clz | brev =>
    simp only [exec, execIadd, execIaddImm, execIsub, execImul, execImulhiS32, execImulhiN32, execImad, execCsub, execIand, execIor, execIxor,
      execIandn, execBfx, execBfi, execIabs, execPopc, execClz, execBrev, intInstr_next h]
  | iminS32 | iminN32 | imaxS32 | imaxN32 =>
    simp only [exec, execIminS32, execIminN32, execImaxS32, execImaxN32, minMax_next h]
  | iadd64 | lea | sel | mov | movi | rdsp | vote | bcast | bcastImm | dualget =>
    simp only [exec, execIadd64, execLea, execSel, execMov, execMovi, execRdsp, execVote, execBcast, execBcastImm, execDualget]
    exact laneInstr_next h .plain ..
  | shl | shr | sar | rot =>
    simp only [exec, execShl, execShr, execSar, execRot, shiftReg_next h]
  | shlImm | shrImm | sarImm | rotImm =>
    simp only [exec, execShlImm, execShrImm, execSarImm, execRotImm, shiftImm_next h]
  | pand | por | pxor | pnot =>
    simp only [exec, execPand, execPor, execPxor, execPnot, predInstr_next h]
  | brx | ret =>
    simp only [exec, execBrx, execRet, branchReg_next h]
  | trap | brk =>
    simp only [exec, execTrap, execBrk, trapInstr_next h]
  | faddF32 | faddF16 | faddBf16 | fsubF32 | fsubF16 | fsubBf16 | fmulF32 | fmulF16 | fmulBf16 | ffmaF32 | ffmaF16 | ffmaBf16 | fdivF32 | fdivF16
    | fdivBf16 =>
    simp only [exec, execFaddF32, execFaddF16, execFaddBf16, execFsubF32, execFsubF16, execFsubBf16, execFmulF32, execFmulF16, execFmulBf16,
      execFfmaF32, execFfmaF16, execFfmaBf16, execFdivF32, execFdivF16, execFdivBf16, arithInstr_next h]
  | fminF32 | fminF16 | fminBf16 | fmaxF32 | fmaxF16 | fmaxBf16 =>
    simp only [exec, execFminF32, execFminF16, execFminBf16, execFmaxF32, execFmaxF16, execFmaxBf16, pickInstr_next h]
  | fsetpF32 | fsetpF16 | fsetpBf16 =>
    simp only [exec, execFsetpF32, execFsetpF16, execFsetpBf16, setpInstr_next h]
  | padd2F16 | padd2Bf16 | pmul2F16 | pmul2Bf16 | pfma2F16 | pfma2Bf16 =>
    simp only [exec, execPadd2F16, execPadd2Bf16, execPmul2F16, execPmul2Bf16, execPfma2F16, execPfma2Bf16, packedInstr_next h]
  | frcp | frsq | fsqrt | fexp2 | flog2 | fsin | fcos =>
    simp only [exec, execFrcp, execFrsq, execFsqrt, execFexp2, execFlog2, execFsin, execFcos, fnInstr_next h]
  | frndF32 | frndF16 | frndBf16 =>
    simp only [exec, execFrndF32, execFrndF16, execFrndBf16, rndInstr_next h]
  | fclassF32 | fclassF16 | fclassBf16 =>
    simp only [exec, execFclassF32, execFclassF16, execFclassBf16, classInstr_next h]
  | xchIdx | xchUp | xchDown | xchXor =>
    simp only [exec, execXchIdx, execXchUp, execXchDown, execXchXor, xchInstr_next h]
  | ld =>
    simp only [exec, execLd, loadInstr_next h]
  | cas | cas128 =>
    simp only [exec, execCas, execCas128, casInstr_next h]
  | mma | mmas =>
    simp only [exec, execMma, execMmas, mmInstr_next h]
  | cpy | cpyt | cpyo | cpyg | cpys | cpyfill | cmcast | cpyp =>
    simp only [exec, execCpy, execCpyt, execCpyo, execCpyg, execCpys, execCpyfill, execCmcast, execCpyp]
    exact copyWord_next h _
  | nbaxpy | nbscal | nbadd | nbmul | nbdot | nbgemv | nbcopy | nbred | nbfill =>
    simp only [exec, execNbaxpy, execNbscal, execNbadd, execNbmul, execNbdot, execNbgemv, execNbcopy, execNbred, execNbfill, nbInstr_next h]
  | rd64 | rd256 =>
    simp only [exec, execRd64, execRd256, portRead_next h]
  | wr64 | wr256 =>
    simp only [exec, execWr64, execWr256, portWrite_next h]

/-! ## The step -/

section
variable {s : State} (h : Canonical s.mem)
include h

theorem runStep_next (core sc : Nat) (r : Run) : Next Canonical (runStep s core sc r) := by
  unfold runStep
  split
  · simpa
  · refine .ite (exec_next h _) ?_
    split
    · exact headerStep_next h ..
    · split
      · exact exec_next h _
      · next he => exact stopAt_next h _ _ ((State.nextInstr_answers h ..).error he)

theorem Work.run_next (x : Work) : Next Canonical (x.run s exec) := by
  cases x with
  | event i => exact exec_next h i
  | command r cmd => exact runCommand_next h r cmd
  | retry r => exact State.retryPeer_canonical h r
  | nack id => exact execPeerResponse_next h ..
  | report vd => simpa [Work.run]
  | compact core => exact execCompactWaitExpiry_next h core

/-- A step keeps the memory's canonical form: the next event due, the run in turn, or an engine's work. -/
theorem step_next : Next Canonical (step s) := by
  unfold step
  split
  · next e es _ =>
    have hes : Canonical { s with agenda := es }.mem := h
    exact .ite (exec_next hes e) hes
  · refine .ite (next_fault _) ?_
    split
    · exact runStep_next h ..
    · split
      · exact Work.run_next (by split <;> simpa) _
      · simpa

end

/-- Settles O6: what a step can do is listed in `step_next`; each event and word either leaves the memory as it was or writes it
through `writeCells`, which keeps the canonical form. -/
theorem memoryStaysCanonical : Obligations.MemoryStaysCanonical := by
  unfold Obligations.MemoryStaysCanonical
  intro s s' h hx
  exact (step_next h).of_eq hx

end Sys2Proof.Machine

namespace Sys2Proof.Machine
open Sys2Proof

/-! ## A register cell reads as written, and a pending result shows the value before it (R20, R64, R66) -/

/-- A predicate of a lane after a write to it, where it has a bit of its own (R20). -/
theorem Lane.pred_setPred_self (x : Lane) (i : Nat) (b : Bool) (h : 0 < i ∧ i < 8) : (x.setPred i b).pred i = b := by
  unfold Lane.setPred Lane.pred
  rw [if_neg (by omega)]
  cases b <;> simp [show i ≠ 0 by omega, h.2]

/-- The places that hold no predicate of their own: P0 reads true, and there is no P8 (R20). -/
theorem Lane.pred_fixed (x : Lane) (i : Nat) (h : ¬ (0 < i ∧ i < 8)) : x.pred i = (i == 0) := by
  unfold Lane.pred
  by_cases hi : i = 0
  · simp [hi]
  · rw [BitVec.getLsbD_of_ge _ _ (by omega)]; simp

/-- A written cell reads as written, whatever value the reader's cell carries. -/
theorem Group.write_same (g : Group) (c : RCell) (h : ∀ l i b, c = .p l i b → 0 < i ∧ i < 8) : (g.write c).valueAt c = c := by
  cases c with
  | p l i b => simp [Group.valueAt, Group.before, Group.write, Lane.pred_setPred_self _ i b (h l i b rfl)]
  | _ => simp [Group.valueAt, Group.before, Group.write, Group.win, Table.getD_put]

/-- P0 reads true after any write (R20). -/
theorem Group.write_p0 (g : Group) (l : Nat) (b b' : Bool) : (g.write (.p l 0 b)).valueAt (.p l 0 b') = .p l 0 true := by
  simp [Group.valueAt, Group.before, Lane.pred]

/-- The value of a cell depends on its place alone. -/
theorem Group.before_congr (g : Group) {c c' : RCell} (h : c'.samePlace c = true) : g.before c' = g.before c := by
  cases c' <;> cases c <;> simp_all [RCell.samePlace, Group.before]

theorem RCell.samePlace_before (g : Group) (c c' : RCell) : (g.before c').samePlace c = c'.samePlace c := by
  cases c' <;> cases c <;> rfl

/-- Writing a cell back as it stood in `g` makes every reader of its place obtain what `g` holds. -/
theorem Group.write_before (g h : Group) {c c' : RCell} (hp : c'.samePlace c = true) : (h.write (g.before c')).valueAt c = g.valueAt c := by
  rw [g.before_congr hp]
  cases c with
  | p l i b =>
    by_cases hi : 0 < i ∧ i < 8
    · exact Group.write_same h (g.before (.p l i b)) (by rintro _ _ _ ⟨⟩; exact hi)
    · simp only [Group.valueAt, Group.before, Lane.pred_fixed _ i hi]
  | v l k x => exact Group.write_same h (.v l k _) (by rintro _ _ _ ⟨⟩)
  | s n x => exact Group.write_same h (.s n _) (by rintro _ _ _ ⟨⟩)
  | ix l k x => exact Group.write_same h (.ix l k _) (by rintro _ _ _ ⟨⟩)
  | win k a b => exact Group.write_same h (.win k _ _) (by rintro _ _ _ ⟨⟩)

/-- Writing cells back as they stood in `g` restores every cell of theirs, and leaves what has not changed. -/
theorem Group.writes_before (g : Group) (cs : List RCell) (c : RCell) (h : Group)
    (hc : h.valueAt c = g.valueAt c ∨ ∃ c' ∈ cs, c'.samePlace c = true) : (h.writes (cs.map g.before)).valueAt c = g.valueAt c := by
  induction cs generalizing h with
  | nil => exact hc.resolve_right (by simp)
  | cons x xs ih =>
    show ((h.write (g.before x)).writes (xs.map g.before)).valueAt c = g.valueAt c
    apply ih
    by_cases hx : x.samePlace c = true
    · exact .inl (Group.write_before g h hx)
    · rw [Group.write_other h c _ (by rw [RCell.samePlace_before]; simpa using hx)]
      refine hc.imp_right fun ⟨c', hm, hs⟩ => ⟨c', (List.mem_cons.1 hm).resolve_left ?_, hs⟩
      rintro rfl; exact hx hs

/-- Written cells, and then the cells as they stood before: the group reads as before. -/
theorem Group.writes_undone (g : Group) (cs : List RCell) (c : RCell) (h : Group) (hw : h.valueAt c = (g.writes cs).valueAt c) :
    (h.writes (cs.map g.before)).valueAt c = g.valueAt c := by
  apply Group.writes_before
  by_cases hc : ∃ c' ∈ cs, c'.samePlace c = true
  · exact .inr hc
  · exact .inl (hw.trans (Group.writes_other g cs c fun c' hm => by simpa using fun hs => hc ⟨c', hm, hs⟩))

/-- A result with a latency is the one pending result of a group that had none (R64). -/
theorem Group.commit_hazards (g : Group) (n : Nat) (pc : BitVec 56) (cs : List RCell) (h : g.hazards = []) :
    (g.commit (some n) pc cs).hazards = [⟨(cs.map RCell.name).dedup, cs.map g.before, n, pc⟩] := by
  simp [Group.commit, h]

/-- Without a latency no result is pending. -/
theorem Group.commit_none_hazards (g : Group) (pc : BitVec 56) (cs : List RCell) (h : g.hazards = []) : (g.commit none pc cs).hazards = [] := by
  simp [Group.commit, Group.landed, Group.writes_hazards, Group.encoded, h]

/-- A group without pending results is seen as it is, however many clocks pass. -/
theorem Group.seen_age_of_none (g : Group) (m : Nat) (h : g.hazards = []) : ((g.age m).seen) = g.age m := by
  simp [Group.seen, Group.age, h, Hazard.expire]

/-- Of one pending result, the value before it is seen until its latency has passed (R66). -/
theorem Group.seen_age_of_one (g : Group) (m : Nat) (z : Hazard) (h : g.hazards = [z]) :
    (g.age m).seen = if m < z.left then (g.age m).writes z.old else g.age m := by
  by_cases hm : m < z.left
  · simp [Group.seen, Group.age, h, Hazard.expire, show z.left - m ≠ 0 by omega, hm]
  · simp [Group.seen, Group.age, h, Hazard.expire, show z.left - m = 0 by omega, hm]

/-- ZERO reads 0, with zero tangents, at any width (R15). -/
theorem Issue.read_zero (fr : Issue) (lane w n : Nat) : fr.read lane { f := 126, width := w } n = List.replicate (1 + fr.tans.length) 0 := by
  simp [Issue.read, Issue.vreg, isV, isInd, isS, isQ, List.replicate_add, List.map_const']

/-- ZERO as a destination takes no value (R15). -/
theorem Issue.destCells_zero (fr : Issue) (lane w : Nat) (vals : List DWord) : fr.destCells lane { f := 126, width := w } vals = [] := by
  simp [Issue.destCells, Issue.vreg, isV, isInd, isS]

/-- Settles O9: a cell written reads as written and no other place changes; a pending result is a list of the values before it, which
are written over what its readers see until its latency has passed. -/
theorem registersHoldWhatIsWritten : Obligations.RegistersHoldWhatIsWritten := by
  unfold Obligations.RegistersHoldWhatIsWritten
  refine ⟨Group.write_same, Group.write_p0, Group.write_other, Issue.read_zero, Issue.destCells_zero, fun g pc cs n m hz hn c => ?_⟩
  have hw (lat : Option Nat) : ((g.commit lat pc cs).age m).valueAt c = (g.writes cs).valueAt c := (Group.commit_wrote g lat pc cs).written c
  have hs := Group.seen_age_of_one (g.commit (some n) pc cs) m _ (Group.commit_hazards g n pc cs hz)
  refine ⟨fun hm => ?_, fun hm => ?_, ?_⟩
  · rw [hs, if_pos hm]; exact Group.writes_undone g cs c _ (hw _)
  · rw [hs, if_neg (by simpa using hm)]; exact hw _
  · rw [Group.seen_age_of_none _ m (Group.commit_none_hazards g pc cs hz)]; exact hw _

end Sys2Proof.Machine

namespace Sys2Proof.Machine
open Sys2Proof

/-! ## What reads, writes and reports leave of the groups and of the writes in flight -/

/-- No group and no write in flight has changed. -/
structure WorkKept (s u : State) : Prop where
  groups : u.groups = s.groups
  flight : u.flight = s.flight

theorem WorkKept.refl (s : State) : WorkKept s s := ⟨rfl, rfl⟩

theorem WorkKept.trans {s u w : State} (h : WorkKept s u) (h' : WorkKept u w) : WorkKept s w :=
  ⟨h'.groups.trans h.groups, h'.flight.trans h.flight⟩

theorem WorkKept.ite {s u w : State} {p : Prop} [Decidable p] (h : WorkKept s u) (h' : WorkKept s w) : WorkKept s (if p then u else w) := by
  split
  · exact h
  · exact h'

theorem WorkKept.foldl {α : Type} {f : State → α → State} (hf : ∀ s x, WorkKept s (f s x)) (l : List α) (s : State) :
    WorkKept s (l.foldl f s) := by
  induction l generalizing s with
  | nil => exact .refl s
  | cons x xs ih => exact (hf s x).trans (ih _)

section
variable (s : State)

theorem workKept_touch (vd n : Nat) : WorkKept s (s.touch vd n) := .ite ⟨rfl, rfl⟩ (.refl s)

theorem workKept_report (x : Report) : WorkKept s (s.report x) := ⟨s.report_groups x, s.report_flight x⟩

theorem workKept_mirrorServed (st spa : Nat) : WorkKept s (s.mirrorServed st spa) := by
  unfold State.mirrorServed
  refine .ite (.refl s) (.foldl (fun s x => ?_) _ s)
  have h := workKept_report (s.setStack st { s.stack st with treeOut := (s.stack st).treeOut ++ [(x.1, x.2, false)] })
    (.integrity st x.1 ((nodeSpan x.1 x.2).1 / 2 ^ 14) ((nodeSpan x.1 x.2).1 % 2 ^ 14) (nodeSpan x.1 x.2).2 true [])
  exact ⟨h.groups, h.flight⟩

theorem workKept_used (l : Loc) : WorkKept s (s.used l) := by
  unfold State.used
  split
  · exact (workKept_mirrorServed s _ _).trans (workKept_touch _ _ _)
  · exact workKept_touch s _ _

theorem workKept_discard (core scope : Nat) : WorkKept s (s.discard core scope) := by
  unfold State.discard
  dsimp only
  split <;> split <;> split <;> exact ⟨rfl, rfl⟩

theorem workKept_moveStep (taker giver : Nat) : WorkKept s (s.moveStep taker giver) := .ite (.refl s) ⟨rfl, rfl⟩

theorem workKept_lagEvent (cl key : Nat) : WorkKept s (s.lagEvent cl key) := by
  unfold State.lagEvent
  split
  · exact .refl s
  · next c _ =>
    have h := fun w : State => WorkKept.foldl (fun (s : State) (x : Nat × Nat) => workKept_moveStep s x.1 x.2)
      ((((c.arrivals.getD key []).map Prod.snd).reverse.take ((c.teams.length + 3) / 4)).zip
        (((c.arrivals.getD key []).map Prod.snd).take ((c.teams.length + 3) / 4))) w
    exact .ite ⟨(h _).groups, (h _).flight⟩ ⟨rfl, rfl⟩

theorem workKept_lagTsync (team n : Nat) : WorkKept s (s.lagTsync team n) := by
  unfold State.lagTsync
  refine WorkKept.trans (u := s.lagArrive team (2 ^ 60 + n)) ⟨rfl, rfl⟩ ?_
  dsimp only
  split
  · exact .refl _
  · exact .ite (.ite (workKept_lagEvent _ _ _) ⟨rfl, rfl⟩) (.refl _)

theorem workKept_updateCopies (core : Nat) (p : Nat × Acc × Loc) : WorkKept s (s.updateCopies core p) := by
  unfold State.updateCopies
  dsimp only
  split <;> exact ⟨rfl, rfl⟩

/-! ### Reads -/

theorem workKept_readCoherent (core v : Nat) (l : Loc) (n : Nat) {u : State} {bs : List (BitVec 8)}
    (h : s.readCoherent core v l n = .ok (u, bs)) : WorkKept s u := by
  unfold State.readCoherent at h
  split at h
  · split at h
    · split at h <;> cases h
      exact .refl s
    · dsimp only at h
      split at h
      · cases h; exact ⟨rfl, rfl⟩
      · split at h <;> cases h
        exact .ite ⟨rfl, rfl⟩ ⟨rfl, rfl⟩
  · split at h <;> cases h
    exact .refl s

theorem workKept_readHere (slot : Nat) (g : Group) (seq v : Nat) (l : Loc) (n : Nat) {u : State} {bs : List (BitVec 8)} {ids : List Nat}
    (h : s.readHere slot g seq v l n = .ok (u, bs, ids)) : WorkKept s u := by
  unfold State.readHere at h
  split at h
  · cases h
  · next hr =>
    split at h
    · cases h
    · split at h <;> cases h
      exact workKept_readCoherent s _ _ _ _ hr

theorem workKept_readAcc (slot : Nat) (g : Group) (ld : Load) (v n : Nat) (a : Acc) {u : State} {bs : List (BitVec 8)} {ids : List Nat}
    (h : s.readAcc slot g ld v n a = .ok (u, bs, ids)) : WorkKept s u := by
  unfold State.readAcc at h
  dsimp only at h
  split at h
  · cases h; exact .refl s
  · split at h <;> cases h
    next hr => exact workKept_readHere s _ _ _ _ _ _ hr

theorem workKept_readAccs (slot : Nat) (g : Group) (ld : Load) (v n : Nat) (xs : List (Acc × Dest)) {u : State} {cs : List RCell} {ids : List Nat}
    (h : s.readAccs slot g ld v n xs = .ok (u, cs, ids)) : WorkKept s u := by
  induction xs generalizing s n u cs ids with
  | nil => cases h; exact .refl s
  | cons x xs ih =>
    unfold State.readAccs at h
    split at h
    · cases h
    · next hr =>
      split at h <;> cases h
      next hs => exact ((workKept_readAcc s _ _ _ _ _ _ hr).trans (workKept_used _ _)).trans (ih _ _ hs)

/-! ### Writes -/

theorem workKept_sealLine (st line : Nat) (u : KeyUse) (b : CtrBlock) (pt : List (BitVec 8)) : WorkKept s (s.sealLine st line u b pt) :=
  ⟨rfl, rfl⟩

theorem workKept_writeDram (st spa : Nat) (bs : List (BitVec 8)) (dom : Nat) (key : Option KeyUse) {u : State}
    (h : s.writeDram st spa bs dom key = .ok u) : WorkKept s u := by
  unfold State.writeDram at h
  obtain ⟨_, _, h⟩ := bind_ok h
  split at h
  · obtain ⟨_, _, h⟩ := bind_ok h
    obtain ⟨⟨b, _⟩, _, h⟩ := bind_ok h
    dsimp only at h
    obtain ⟨pts, _, h⟩ := bind_ok h
    cases h
    refine .trans ?_ (workKept_sealLine _ _ _ _ _ _)
    refine .trans (u := s.setStack st ((s.stack st).putBlock (spa / 1024) (some b))) ⟨rfl, rfl⟩ ?_
    exact .foldl (fun s _ => workKept_sealLine s _ _ _ _ _) _ _
  · dsimp only at h
    split at h <;> cases h <;> exact ⟨rfl, rfl⟩

theorem workKept_writeSlice (core off : Nat) (bs : List (BitVec 8)) : WorkKept s (s.writeSlice core off bs) := by
  unfold State.writeSlice
  dsimp only
  split <;> exact ⟨rfl, rfl⟩

theorem workKept_writeLoc (l : Loc) (bs : List (BitVec 8)) {u : State} (h : s.writeLoc l bs = .ok u) : WorkKept s u := by
  unfold State.writeLoc at h
  split at h
  · exact workKept_writeDram s _ _ _ _ _ h
  · cases h; exact workKept_writeSlice s _ _ _
  · cases h; exact ⟨rfl, rfl⟩

theorem workKept_performPart (k : FifoKind) (p : Nat × Acc × Loc) {u : State} {olds : Table (List (BitVec 8))}
    (h : s.performPart k p = .ok (u, olds)) : WorkKept s u := by
  have hw (bs : List (BitVec 8)) (t : Table (List (BitVec 8))) (hm : (s.writeLoc p.2.2 bs).map (fun s => (s, t)) = .ok (u, olds)) :
      WorkKept s u := by
    obtain ⟨v, hv, he⟩ := map_ok hm
    cases he
    exact workKept_writeLoc s _ _ hv
  unfold State.performPart at h
  split at h
  · exact hw _ _ h
  · split at h
    · cases h
    · split at h
      · cases h; exact .refl s
      · exact hw _ _ h

theorem workKept_performParts (k : FifoKind) (ps : List (Nat × Acc × Loc)) {u : State} {olds : Table (List (BitVec 8))}
    (h : s.performParts k ps = .ok (u, olds)) : WorkKept s u := by
  induction ps generalizing s u olds with
  | nil => cases h; exact .refl s
  | cons p ps ih =>
    unfold State.performParts at h
    split at h
    · cases h
    · next hp =>
      split at h <;> cases h
      next hq => exact ((workKept_performPart s _ _ hp).trans (workKept_used _ _)).trans (ih _ hq)

end

/-! ## What a release from TSYNC leaves of a group (R180) -/

theorem Table.find_mapVals {α : Type} (t : Table α) (f : Nat → α → α) (i : Nat) : (Table.mapVals t f).find i = (t.find i).map (f i) := by
  induction t with
  | nil => rfl
  | cons kv t ih =>
    obtain ⟨k, v⟩ := kv
    show Table.find ((k, f k v) :: Table.mapVals t f) i = _
    rw [Table.find_cons, Table.find_cons, ih]
    split
    · next h => rw [h]; rfl
    · rfl

/-- The registers of a group, its loads and its stores are as they were. -/
structure Group.SameWork (g g' : Group) : Prop where
  regs : SameRegs g g'
  loads : g'.loads = g.loads
  fifo : g'.fifo = g.fifo

theorem Group.SameWork.refl (g : Group) : g.SameWork g := ⟨.refl g, rfl, rfl⟩

/-- A group that the release of its team's TSYNC reaches. -/
def Group.synced (g : Group) : Group :=
  { (g.onLanes g.alive fun x => { x with tsync := false, stamp := g.runCount }) with
    wait := if g.wait = some WaitCond.tsync then none else g.wait }

theorem Group.sameWork_synced (g : Group) : g.SameWork g.synced where
  regs := (SameRegs.onLanes g g.alive (fun x => { x with tsync := false, stamp := g.runCount }) (fun _ => rfl) (fun _ => rfl) (fun _ => rfl)).trans
    ⟨rfl, rfl, fun _ => ⟨rfl, rfl, rfl⟩⟩
  loads := by unfold Group.synced; rw [Group.onLanes_rest]
  fifo := by unfold Group.synced; rw [Group.onLanes_rest]

/-- EVERYTHING A RELEASE FROM TSYNC CAN DO to groups and to writes in flight: either nothing, or it reaches the team's groups. -/
theorem State.tsyncRelease_cases (s : State) (team : Nat) : s.tsyncRelease team = s ∨
    WorkKept { s with groups := s.groups.mapVals fun _ g => if g.team == team then g.synced else g } (s.tsyncRelease team) := by
  unfold State.tsyncRelease
  dsimp only
  split
  · refine .inr ?_
    exact ⟨(workKept_lagTsync _ _ _).groups, (workKept_lagTsync _ _ _).flight⟩
  · exact .inl rfl

@[simp] theorem State.tsyncRelease_flight (s : State) (team : Nat) : (s.tsyncRelease team).flight = s.flight := by
  rcases s.tsyncRelease_cases team with h | h
  · rw [h]
  · exact h.flight

theorem State.tsyncRelease_group (s : State) (team : Nat) {n : Nat} {g : Group} (h : s.groups.find n = some g) :
    ∃ g', (s.tsyncRelease team).groups.find n = some g' ∧ g.SameWork g' := by
  rcases s.tsyncRelease_cases team with hc | hc
  · exact ⟨g, by rw [hc, h], .refl g⟩
  · refine ⟨if g.team == team then g.synced else g, by rw [hc.groups, Table.find_mapVals, h]; rfl, ?_⟩
    split
    · exact g.sameWork_synced
    · exact .refl g


/-! ## RUN_BEGIN and the winner of a sub-core's arbitration (R133) -/

theorem execRunBegin_winner {s : State} {sc slot : Nat} {g : Group} (hr : (s.core (sc / 12)).runs.find (sc % 12) = none)
    (hw : s.winner (sc / 12) (sc % 12) = some slot) (hg : s.groups.find slot = some g) :
    execRunBegin sc s = .next ((s.setGroup slot { (g.settled.onLanes g.settled.nextSet fun x => { x with stamp := g.settled.runCount + 1 }) with
        runCount := g.settled.runCount + 1, runStamp := (s.core (sc / 12)).runsBegun.getD (sc % 12) 0 + 1, wait := none, hazards := [] }).setCore (sc / 12)
      { s.core (sc / 12) with runs := (s.core (sc / 12)).runs.put (sc % 12) { slot := slot, set := laneSet g.settled.nextSet, issued := 0 },
                              runsBegun := (s.core (sc / 12)).runsBegun.put (sc % 12) ((s.core (sc / 12)).runsBegun.getD (sc % 12) 0 + 1) }) := by
  simp only [execRunBegin, hr, hw, hg]

/-- The fold that keeps the smaller of two, the earlier on a tie, ends with a least element of the list. -/
theorem foldl_least {α : Type} (f : α → Nat) (x : α) (xs : List α) :
    xs.foldl (fun b y => if f y < f b then y else b) x ∈ x :: xs ∧ ∀ z ∈ x :: xs, f (xs.foldl (fun b y => if f y < f b then y else b) x) ≤ f z := by
  induction xs generalizing x with
  | nil => simp
  | cons y ys ih =>
    rw [List.foldl_cons]
    obtain ⟨hm, hle⟩ := ih (if f y < f x then y else x)
    have hx := hle _ List.mem_cons_self
    constructor
    · rcases List.mem_cons.1 hm with h | h
      · rw [h]; split <;> simp
      · exact List.mem_cons_of_mem _ (List.mem_cons_of_mem _ h)
    · intro z hz
      have hxy : f (if f y < f x then y else x) ≤ f x ∧ f (if f y < f x then y else x) ≤ f y := by split <;> omega
      rcases List.mem_cons.1 hz with rfl | hz
      · omega
      · rcases List.mem_cons.1 hz with rfl | hz
        · omega
        · exact hle z (List.mem_cons_of_mem _ hz)

/-- The winner is a ready group of the sub-core whose run stamp no other one's is below. -/
theorem State.winner_least {s : State} {core sc slot : Nat} (h : s.winner core sc = some slot) :
    ∃ g, (slot, g) ∈ s.groups ∧ s.isReady slot g = true ∧ slotCore slot = core ∧ slotSub slot = sc ∧
      ∀ kg ∈ s.groups, slotCore kg.1 = core → slotSub kg.1 = sc → s.isReady kg.1 kg.2 = true → g.runStamp ≤ kg.2.runStamp := by
  unfold State.winner at h
  dsimp only at h
  split at h
  · cases h
  · next x xs hl =>
    obtain ⟨hm, hle⟩ := foldl_least (fun kg : Nat × Group => kg.2.runStamp) x xs
    generalize xs.foldl (fun b y => if y.2.runStamp < b.2.runStamp then y else b) x = w at h hm hle
    obtain rfl := Option.some.inj h
    rw [← hl] at hm hle
    obtain ⟨hw, hp⟩ := List.mem_filter.1 hm
    simp only [Bool.and_eq_true, beq_iff_eq] at hp
    obtain ⟨⟨hc, hs⟩, hr⟩ := hp
    exact ⟨w.2, hw, hr, hc, hs, fun kg hk h1 h2 h3 => hle kg (List.mem_filter.2 ⟨hk, by simp [h1, h2, h3]⟩)⟩

/-! ## LOAD_RETURN -/

/-- The returned values have been written, and the load is forgotten. -/
def Group.returned (g : Group) (id : Nat) (cs : List RCell) (ids : List Nat) : Group :=
  let g := { g with loads := g.loads.filter fun l => l.id != id }
  { g.commit none 0 cs with readFrom := (g.readFrom ++ ids).dedup }

theorem Group.returned_loads (g : Group) (id : Nat) (cs : List RCell) (ids : List Nat) :
    (g.returned id cs ids).loads = g.loads.filter (fun l => l.id != id) := by
  unfold Group.returned
  dsimp only
  rw [(Group.commit_wrote _ none 0 cs).rest]

theorem Group.returned_fifo (g : Group) (id : Nat) (cs : List RCell) (ids : List Nat) : (g.returned id cs ids).fifo = g.fifo := by
  unfold Group.returned
  dsimp only
  rw [(Group.commit_wrote _ none 0 cs).rest]

theorem Group.returned_value (g : Group) (id : Nat) (cs : List RCell) (ids : List Nat) (c : RCell) :
    (g.returned id cs ids).valueAt c = (g.writes cs).valueAt c := by
  let g' : Group := { g with loads := g.loads.filter fun l => l.id != id }
  calc (g.returned id cs ids).valueAt c = (g'.commit none 0 cs).valueAt c :=
        SameRegs.value (g := g'.commit none 0 cs) ⟨rfl, rfl, fun _ => ⟨rfl, rfl, rfl⟩⟩ c
    _ = (g'.writes cs).valueAt c := (Group.commit_wrote g' none 0 cs).written c
    _ = (g.writes cs).valueAt c := (SameRegs.writes (g := g) (g' := g') ⟨rfl, rfl, fun _ => ⟨rfl, rfl, rfl⟩⟩ cs).value c

theorem execLoadReturn_read {s s₂ : State} {slot id : Nat} {g : Group} {ld : Load} {cs : List RCell} {ids : List Nat}
    (hg : s.groups.find slot = some g) (hl : (g.loads.find? fun l => l.id == id) = some ld)
    (hgen : ld.gen = (s.core (slotCore slot)).slotGen.get (slotIn slot)) (hp : g.preempted = false) (hs : g.stopped = false)
    (hlen : ld.accs.length ≤ ld.locs.length) (hd : ld.deferred = true → ld.fixed = true)
    (hw : ∀ m ∈ g.loads, ld.waitsFor (slotCore slot) m = false) (ho : s.ordBefore slot g ld = none)
    (hh : s.draw.2.readHalf slot g ld = none) (hr : s.draw.2.readAccs slot g ld s.draw.1 0 ld.accs = .ok (s₂, cs, ids)) :
    execLoadReturn slot id s = .next (({ (if acquires ld.flav then s₂.discard (slotCore slot) ld.scope else s₂) with
      groups := ((if acquires ld.flav then s₂.discard (slotCore slot) ld.scope else s₂).groups.modify slot fun g =>
        { g with loads := g.loads.filter fun l => l.id != id }).modify slot fun g =>
          { g.commit none 0 cs with readFrom := (g.readFrom ++ ids).dedup } } : State).tsyncRelease g.team) := by
  have hn : g.loads.find? (ld.waitsFor (slotCore slot)) = none := List.find?_eq_none.2 fun m hm => by simp [hw m hm]
  have hdf : (ld.deferred && !ld.fixed) = false := by
    cases hde : ld.deferred
    · rfl
    · simp [hd hde]
  have hdr : s.draw = (s.draw.1, s.draw.2) := rfl
  unfold execLoadReturn
  simp only [hg, hl, hgen, bne_self_eq_false, Bool.false_eq_true, if_false, hp, hs, Bool.or_self, Nat.not_lt.2 hlen, hdf, hn, ho]
  rw [hdr]
  simp only [hh, hr, Option.filter_none]

/-- LOAD_RETURN of a load whose values read whole. -/
theorem loadReturn_read {s s₂ : State} {slot id : Nat} {g : Group} {ld : Load} {cs : List RCell} {ids : List Nat}
    (hg : s.groups.find slot = some g) (hl : (g.loads.find? fun l => l.id == id) = some ld)
    (hgen : ld.gen = (s.core (slotCore slot)).slotGen.get (slotIn slot)) (hp : g.preempted = false) (hs : g.stopped = false)
    (hlen : ld.accs.length ≤ ld.locs.length) (hd : ld.deferred = true → ld.fixed = true)
    (hw : ∀ m ∈ g.loads, ld.waitsFor (slotCore slot) m = false) (ho : s.ordBefore slot g ld = none)
    (hh : s.draw.2.readHalf slot g ld = none) (hr : s.draw.2.readAccs slot g ld s.draw.1 0 ld.accs = .ok (s₂, cs, ids)) :
    ∃ u g', execLoadReturn slot id s = .next u ∧ u.mem = s₂.mem ∧ u.groups.find slot = some g' ∧
      g'.loads = g.loads.filter (fun l => l.id != id) ∧ g'.fifo = g.fifo ∧ ∀ c, g'.valueAt c = (g.writes cs).valueAt c := by
  have hx := execLoadReturn_read hg hl hgen hp hs hlen hd hw ho hh hr
  have hk : WorkKept s₂ (if acquires ld.flav then s₂.discard (slotCore slot) ld.scope else s₂) := .ite (workKept_discard s₂ _ _) (.refl s₂)
  have hk' := (workKept_readAccs _ _ _ _ _ _ _ hr).trans hk
  have hm : (if acquires ld.flav then s₂.discard (slotCore slot) ld.scope else s₂).mem = s₂.mem := by simp
  generalize (if acquires ld.flav then s₂.discard (slotCore slot) ld.scope else s₂) = w at hk' hm hx
  have hf : ((w.groups.modify slot fun g => { g with loads := g.loads.filter fun l => l.id != id }).modify slot fun g =>
      { g.commit none 0 cs with readFrom := (g.readFrom ++ ids).dedup }).find slot = some (g.returned id cs ids) := by
    rw [hk'.groups, Table.find_modify, if_pos rfl, Table.find_modify, if_pos rfl]
    show Option.map _ (Option.map _ (s.groups.find slot)) = _
    rw [hg]
    rfl
  obtain ⟨g', hg', hsame⟩ := State.tsyncRelease_group ({ w with groups := _ } : State) g.team hf
  exact ⟨_, g', hx, by simp [hm], hg', hsame.loads.trans (g.returned_loads ..), hsame.fifo.trans (g.returned_fifo ..),
    fun c => (hsame.regs.value c).trans (g.returned_value ..)⟩


/-! ## STORE_FIFO_PERFORM -/

theorem execStoreFifoPerform_found {s : State} {slot : Nat} {g : Group} {e : FifoEntry} {es : List FifoEntry} {parts : List (Nat × Acc × Loc)}
    (hg : s.groups.find slot = some g) (hf : g.fifo = e :: es) (hp : g.preempted = false) (hs : g.stopped = false)
    (hq : ∀ q, e.parked = some q → s.isParked (coreDie (slotCore slot)) q = false) (hl : ∀ l ∈ g.loads, l.seq < e.seq → l.fixed = true)
    (hr : releases e.flav = true → s.unreleased slot g e.scope false = [] ∧ s.nbStores slot g.team e.seq e.scope false = [])
    (hparts : s.entryParts slot g e = .ok parts) : execStoreFifoPerform slot s = .next (s.leaveFifo slot g e parts) := by
  have hpark : (e.parked.any fun q => s.isParked (coreDie (slotCore slot)) q) = false := by
    cases h : e.parked with
    | none => rfl
    | some q => exact hq q h
  have hloads : (g.loads.find? fun l => decide (l.seq < e.seq) && !l.fixed) = none := List.find?_eq_none.2 fun l hm => by
    by_cases h : l.seq < e.seq
    · simp [hl l hm h]
    · simp [h]
  have hrel : (if releases e.flav then s.unreleased slot g e.scope false else []) = [] := by
    split
    · next h => exact (hr h).1
    · rfl
  have hnb : (if releases e.flav then (s.nbStores slot g.team e.seq e.scope false).head? else none) = none := by
    split
    · next h => rw [(hr h).2]; rfl
    · rfl
  unfold execStoreFifoPerform
  simp only [hg, hf, hp, hs, hpark, Bool.or_self, Bool.false_eq_true, if_false, hloads, hrel, hnb, hparts]

theorem State.putInFlight_nil (s : State) (slot : Nat) (g : Group) (e : FifoEntry) : s.putInFlight slot g e [] = s := rfl

@[simp] theorem State.putInFlight_groups (s : State) (slot : Nat) (g : Group) (e : FifoEntry) (ps : List (Nat × Acc × Loc)) :
    (s.putInFlight slot g e ps).groups = s.groups := by
  cases ps <;> rfl

theorem State.putInFlight_flight (s : State) (slot : Nat) (g : Group) (e : FifoEntry) {ps : List (Nat × Acc × Loc)} (h : ps ≠ []) :
    ∃ f, (s.putInFlight slot g e ps).flight = s.flight ++ [f] ∧ f.parts = ps ∧ f.slot = slot ∧ f.seq = e.seq ∧ f.kind = e.kind ∧ f.load = e.load := by
  cases ps with
  | nil => exact absurd rfl h
  | cons p ps => exact ⟨_, rfl, rfl, rfl, rfl, rfl, rfl⟩

/-- The state in which an entry has left its FIFO, what lies in the core's own slice having been performed and the rest not being in flight yet. -/
def State.leftFifo (s : State) (slot : Nat) (e : FifoEntry) (parts : List (Nat × Acc × Loc)) (olds : Table (List (BitVec 8))) : State :=
  let s := { s with groups := s.groups.modify slot fun g => { g.giveOlds e.load olds with fifo := g.fifo.drop 1 } }
  if e.kind = .store then parts.foldl (fun s p => s.updateCopies (slotCore slot) p) s else s

theorem State.workKept_leftFifo (s : State) (slot : Nat) (e : FifoEntry) (parts : List (Nat × Acc × Loc)) (olds : Table (List (BitVec 8))) :
    WorkKept { s with groups := s.groups.modify slot fun g => { g.giveOlds e.load olds with fifo := g.fifo.drop 1 } } (s.leftFifo slot e parts olds) :=
  .ite (.foldl (fun s p => workKept_updateCopies s _ p) _ _) (.refl _)

@[simp] theorem State.leftFifo_mem (s : State) (slot : Nat) (e : FifoEntry) (parts : List (Nat × Acc × Loc)) (olds : Table (List (BitVec 8))) :
    (s.leftFifo slot e parts olds).mem = s.mem := by
  simp [State.leftFifo]

@[simp] theorem State.leftFifo_flight (s : State) (slot : Nat) (e : FifoEntry) (parts : List (Nat × Acc × Loc)) (olds : Table (List (BitVec 8))) :
    (s.leftFifo slot e parts olds).flight = s.flight := (s.workKept_leftFifo slot e parts olds).flight

theorem State.leaveFifo_performed {s w : State} {slot : Nat} {g : Group} {e : FifoEntry} {parts : List (Nat × Acc × Loc)}
    {olds : Table (List (BitVec 8))} (h : s.performParts e.kind (parts.filter fun p => p.2.2.own (slotCore slot)) = .ok (w, olds)) :
    s.leaveFifo slot g e parts =
      (((((w.leftFifo slot e parts olds).putInFlight slot g e
        ((parts.filter fun p => !p.2.2.own (slotCore slot) && !p.2.2.isPeer).filterMap (halfOf false))).putInFlight slot g e
        ((parts.filter fun p => !p.2.2.own (slotCore slot) && !p.2.2.isPeer).filterMap (halfOf true))).putInFlight slot g e
        ((if e.kind = .store then parts.filter fun p => p.2.2.isPeer else []).filterMap (halfOf false))).putInFlight slot g e
        ((if e.kind = .store then parts.filter fun p => p.2.2.isPeer else []).filterMap (halfOf true))).tsyncRelease g.team := by
  unfold State.leaveFifo
  simp only [h]
  rfl

/-- The FIFO of the group after an entry has left it, whatever has been put in flight. -/
theorem State.leftFifo_fifo {s w : State} {slot team : Nat} {g : Group} {e : FifoEntry} {es : List FifoEntry} {parts : List (Nat × Acc × Loc)}
    {olds : Table (List (BitVec 8))} (hg : w.groups.find slot = some g) (hf : g.fifo = e :: es)
    (hs : s.groups = (w.leftFifo slot e parts olds).groups) : ((s.tsyncRelease team).groups.find slot).map Group.fifo = some es := by
  have hfind : s.groups.find slot = some { g.giveOlds e.load olds with fifo := g.fifo.drop 1 } := by
    rw [hs, (w.workKept_leftFifo ..).groups, Table.find_modify, if_pos rfl, hg]
    rfl
  obtain ⟨g', hg', hsame⟩ := s.tsyncRelease_group team hfind
  rw [hg', Option.map_some, hsame.fifo, hf]
  rfl

/-- A location in a core's own slice names it. -/
theorem Loc.own_sram {l : Loc} {core : Nat} (h : l.own core = true) : ∃ off, l.place = .sram core off := by
  unfold Loc.own at h
  split at h
  · next c o hp => exact ⟨o, by rw [hp, beq_iff_eq.1 h]⟩
  · cases h

theorem Loc.isPeer_sram {l : Loc} {core off : Nat} (h : l.place = .sram core off) : l.isPeer = false := by
  simp only [Loc.isPeer, h]

theorem State.writeSlice_mem (s : State) (core off : Nat) (bs : List (BitVec 8)) :
    (s.writeSlice core off bs).mem = writeCells s.mem (Place.sram core off).key bs := by
  unfold State.writeSlice
  dsimp only
  split <;> rfl

/-- A store of one access to the own slice is performed as it leaves the FIFO. -/
theorem State.leaveFifo_slice {s : State} {slot : Nat} {g : Group} {e : FifoEntry} {es : List FifoEntry} {x : Acc} {l : Loc}
    (hg : s.groups.find slot = some g) (hf : g.fifo = e :: es) (hk : e.kind = .store) (ho : l.own (slotCore slot) = true) :
    (s.leaveFifo slot g e [(0, x, l)]).mem = writeCells s.mem l.place.key x.data ∧ (s.leaveFifo slot g e [(0, x, l)]).flight = s.flight ∧
      ((s.leaveFifo slot g e [(0, x, l)]).groups.find slot).map Group.fifo = some es := by
  obtain ⟨off, hp⟩ := Loc.own_sram ho
  have hpeer := Loc.isPeer_sram hp
  have hperf : s.performParts e.kind ([((0 : Nat), x, l)].filter fun p => p.2.2.own (slotCore slot)) =
      .ok ((s.writeSlice (slotCore slot) off x.data).used l, []) := by
    simp only [List.filter_cons, ho, if_true, List.filter_nil, hk, State.performParts, State.performPart, State.writeLoc, hp, Except.map, List.append_nil]
  have hkept : WorkKept s ((s.writeSlice (slotCore slot) off x.data).used l) := (workKept_writeSlice s _ _ _).trans (workKept_used _ _)
  have hmem : ((s.writeSlice (slotCore slot) off x.data).used l).mem = writeCells s.mem l.place.key x.data := by
    rw [State.used_mem, State.writeSlice_mem, hp]
  rw [State.leaveFifo_performed hperf]
  simp only [List.filter_cons, ho, hpeer, hk, Bool.not_true, Bool.false_and, Bool.false_eq_true, if_false, if_true, List.filter_nil, List.filterMap_nil,
    State.putInFlight_nil]
  exact ⟨by rw [State.tsyncRelease_mem, State.leftFifo_mem, hmem], by simp [hkept.flight], State.leftFifo_fifo (hkept.groups ▸ hg) hf rfl⟩

/-- An access that has not 16 bytes is its own first half and has no second (R162). -/
theorem halfOf_whole {p : Nat × Acc × Loc} (h : p.2.1.size ≠ 16) : halfOf false p = some p ∧ halfOf true p = none := by
  have : (p.2.1.size == 16) = false := by simp [h]
  simp [halfOf, this]

theorem filterMap_halfOf_first {ps : List (Nat × Acc × Loc)} (h : ∀ p ∈ ps, p.2.1.size ≠ 16) : ps.filterMap (halfOf false) = ps := by
  rw [← List.filterMap_some (l := ps), List.filterMap_filterMap]
  exact List.filterMap_congr fun p hp => (halfOf_whole (h p hp)).1

theorem filterMap_halfOf_second {ps : List (Nat × Acc × Loc)} (h : ∀ p ∈ ps, p.2.1.size ≠ 16) : ps.filterMap (halfOf true) = [] :=
  List.filterMap_eq_nil_iff.2 fun p hp => (halfOf_whole (h p hp)).2

/-- An entry whose accesses lie in neither the own slice nor a peer goes in flight whole. -/
theorem State.leaveFifo_far {s : State} {slot : Nat} {g : Group} {e : FifoEntry} {es : List FifoEntry} {parts : List (Nat × Acc × Loc)}
    (hg : s.groups.find slot = some g) (hf : g.fifo = e :: es)
    (hfar : ∀ p ∈ parts, p.2.2.own (slotCore slot) = false ∧ p.2.2.isPeer = false ∧ p.2.1.size ≠ 16) (hne : parts ≠ []) :
    (s.leaveFifo slot g e parts).mem = s.mem ∧ ((s.leaveFifo slot g e parts).groups.find slot).map Group.fifo = some es ∧
      ∃ f, (s.leaveFifo slot g e parts).flight = s.flight ++ [f] ∧ f.parts = parts ∧ f.slot = slot ∧ f.seq = e.seq ∧ f.kind = e.kind ∧
        f.load = e.load := by
  have hown : (parts.filter fun p => p.2.2.own (slotCore slot)) = [] := List.filter_eq_nil_iff.2 fun p hp => by simp [(hfar p hp).1]
  have hpeer : (if e.kind = .store then parts.filter fun p => p.2.2.isPeer else []) = [] := by
    split
    · exact List.filter_eq_nil_iff.2 fun p hp => by simp [(hfar p hp).2.1]
    · rfl
  have hall : (parts.filter fun p => !p.2.2.own (slotCore slot) && !p.2.2.isPeer) = parts :=
    List.filter_eq_self.2 fun p hp => by simp [(hfar p hp).1, (hfar p hp).2.1]
  have hsize : ∀ p ∈ parts, p.2.1.size ≠ 16 := fun p hp => (hfar p hp).2.2
  have hperf : s.performParts e.kind (parts.filter fun p => p.2.2.own (slotCore slot)) = .ok (s, []) := by rw [hown]; rfl
  rw [State.leaveFifo_performed hperf, hpeer, hall, filterMap_halfOf_first hsize, filterMap_halfOf_second hsize]
  simp only [List.filterMap_nil, State.putInFlight_nil, State.tsyncRelease_mem, State.putInFlight_mem, State.leftFifo_mem, State.tsyncRelease_flight]
  refine ⟨trivial, State.leftFifo_fifo hg hf (State.putInFlight_groups ..), ?_⟩
  rw [← State.leftFifo_flight s slot e parts []]
  exact State.putInFlight_flight _ _ _ _ hne

/-! ## POINT_OF_COHERENCE_ARRIVAL -/

theorem workKept_forgetCopies (s : State) (core : Nat) (p : Nat × Acc × Loc) : WorkKept s (s.forgetCopies core p) := ⟨rfl, rfl⟩

theorem pointOfCoherenceArrival_performed {s s₂ : State} {id : Nat} {f : Flight} {olds : Table (List (BitVec 8))}
    (hf : (s.flight.find? fun f => f.id == id) = some f) (hb : s.flightBefore f = none) (hp : f.inPeer = false)
    (h : (s.landFlight id).performParts f.kind f.parts = .ok (s₂, olds)) :
    ∃ u, execPointOfCoherenceArrival id s = .next u ∧ u.mem = s₂.mem ∧ u.flight = s.flight.filter (fun x => x.id != id) := by
  have hk : s₂.flight = s.flight.filter (fun x => x.id != id) := (workKept_performParts _ _ _ h).flight
  have hw : WorkKept s₂ (if f.kind = .store then s₂ else f.parts.foldl (fun s p => s.forgetCopies f.core p) s₂) :=
    .ite (.refl s₂) (.foldl (fun s p => workKept_forgetCopies s f.core p) _ _)
  have hm : (if f.kind = .store then s₂ else f.parts.foldl (fun s p => s.forgetCopies f.core p) s₂).mem = s₂.mem := by
    split
    · rfl
    · exact foldl_mem (fun s p => s.forgetCopies f.core p) (fun _ _ => rfl) _ _
  unfold execPointOfCoherenceArrival
  simp only [hf, hb, hp, Bool.false_eq_true, if_false, h]
  generalize (if f.kind = .store then s₂ else f.parts.foldl (fun s p => s.forgetCopies f.core p) s₂) = w at hw hm ⊢
  split
  · exact ⟨_, rfl, by simp [hm], by simp [hw.flight, hk]⟩
  · exact ⟨_, rfl, hm, hw.flight.trans hk⟩


/-! ## ITEM_QUEUE_GRAB (R144, R268) -/

theorem State.setRange_rangeSlot (s : State) (die vd n : Nat) (x : Nat × Nat × Nat × Nat) : (s.setRange die vd n x).rangeSlot die vd n = x := by
  simp [State.rangeSlot, State.setRange, State.die, State.setDie, Table.getD_put]

/-- Numbers of items are taken modulo 2^32. -/
theorem ofNat_succ_mod_add (start k : Nat) : BitVec.ofNat 32 ((start + 1) % 2 ^ 32 + k) = BitVec.ofNat 32 (start + (k + 1)) := by
  apply BitVec.eq_of_toNat_eq
  simp only [BitVec.toNat_ofNat]
  omega

/-- A run of consecutive items is taken whole when it is not longer than the room. -/
theorem pullRuns_whole (room n start : Nat) (h : n < room) :
    (pullRuns room [(start, n + 1)]).1 = (List.range (n + 1)).map fun k => BitVec.ofNat 32 (start + k) := by
  obtain ⟨m, rfl⟩ : ∃ m, room = m + 1 := ⟨room - 1, by omega⟩
  induction n generalizing m start with
  | zero => cases m <;> rfl
  | succ n ih =>
    obtain ⟨m', rfl⟩ : ∃ m', m = m' + 1 := ⟨m - 1, by omega⟩
    rw [pullRuns]
    simp only [if_neg (show ¬ n + 1 + 1 ≤ 1 by omega), Nat.add_sub_cancel]
    rw [ih ((start + 1) % 2 ^ 32) m' (by omega), List.range_succ_eq_map (n := n + 1), List.map_cons, List.map_map]
    refine congrArg _ (List.map_congr_left fun k _ => ?_)
    exact ofNat_succ_mod_add start k

/-- A queue that nothing waits to enter takes a whole run for which there is room. -/
theorem ItemQueue.settle_run (x : ItemQueue) (start n : Nat) (hn : 0 < n) (h : x.items.length + n ≤ 2 ^ x.logCap) :
    ({ x with tail := [(start, n)] } : ItemQueue).settle.items = x.items ++ (List.range n).map fun k => BitVec.ofNat 32 (start + k) := by
  obtain ⟨m, rfl⟩ : ∃ m, n = m + 1 := ⟨n - 1, by omega⟩
  show x.items ++ (pullRuns (2 ^ x.logCap - x.items.length) [(start, m + 1)]).1 = _
  rw [pullRuns_whole _ _ _ (by omega)]

/-- What a grab of `n` items from `start` leaves of a queue. -/
def ItemQueue.grabbed (x : ItemQueue) (start n : Nat) : ItemQueue :=
  if n = 0 then { x with dry := true } else ({ x with tail := [(start, n)] } : ItemQueue).settle

theorem ItemQueue.grabbed_dry (x : ItemQueue) (start n : Nat) (h : x.dry = false) : (x.grabbed start n).dry = decide (n = 0) := by
  unfold ItemQueue.grabbed
  split
  · next hn => simp [hn]
  · next hn => exact h.trans (by simp [hn])

theorem itemQueueGrab_low {s : State} {core q die : Nat} {x : ItemQueue} (hq : (s.core core).iq.find q = some x) (hr : x.range = true)
    (hd : x.dry = false) (hl : x.items.length < 64) (ht : x.tail = []) (hdie : s.rangeDie (s.grid x.grid).vdev x.slot = some die) :
    let r := s.rangeSlot die (s.grid x.grid).vdev x.slot
    let n := min r.2.1 (max r.2.2.2 ((r.2.1 + r.2.2.1 - 1) / r.2.2.1))
    ∃ u, execItemQueueGrab core q s = .next u ∧ (u.core core).iq.find q = some (x.grabbed r.1 n) ∧ u.mem = s.mem ∧ u.groups = s.groups ∧
      u.rangeSlot die (s.grid x.grid).vdev x.slot = ((r.1 + n) % 2 ^ 32, r.2.1 - n, r.2.2.1, r.2.2.2) := by
  intro r n
  refine ⟨(s.setRange die (s.grid x.grid).vdev x.slot ((r.1 + n) % 2 ^ 32, r.2.1 - n, r.2.2.1, r.2.2.2)).setCore core
    { s.core core with iq := (s.core core).iq.put q (x.grabbed r.1 n) }, ?_, ?_, rfl, rfl, ?_⟩
  · have hlow : (!x.range || x.dry || decide (64 ≤ x.items.length) || !x.tail.isEmpty) = false := by simp [hr, hd, ht, hl]
    simp only [execItemQueueGrab, hq, hlow, Bool.false_eq_true, if_false, hdie]
    rfl
  · rw [State.core_setCore_self, Table.find_put, if_pos rfl]
  · exact State.setRange_rangeSlot s die _ _ _

/-! ## Reading the core's own memory -/

/-- A load of one access to a slice, with no store of the group waiting and no write in flight. -/
theorem State.readAccs_slice {s : State} {slot v c o : Nat} {g : Group} {ld : Load} {x : Acc × Dest} {l : Loc} (ha : ld.accs = [x])
    (hl : ld.locs = [l]) (hgot : ld.got = []) (hp : l.place = .sram c o) (hbad : (s.core c).badWords o x.1.size = []) (hfl : s.flight = [])
    (hff : g.fifo = []) :
    s.readAccs slot g ld v 0 ld.accs = .ok (s.used l, ld.cellsOf g x (readCells s.mem l.place.key x.1.size), []) := by
  have hin : l.inL1 = false := by simp [Loc.inL1, hp]
  have hcoh : s.readCoherent (slotCore slot) v l x.1.size = .ok (s, readCells s.mem l.place.key x.1.size) := by
    simp [State.readCoherent, hin, State.readLoc, hp, hbad]
  have hhere : s.readHere slot g ld.seq v l x.1.size = .ok (s, readCells s.mem l.place.key x.1.size, []) := by
    simp [State.readHere, hcoh, State.fromFlight, hfl, State.fromFifo, hff]
  have hacc : s.readAcc slot g ld v 0 x.1 = .ok (s, readCells s.mem l.place.key x.1.size, []) := by
    unfold State.readAcc
    rw [hgot, hl]
    by_cases hz : x.1.size = 0
    · simp [hz, readCells, Table.getD, Table.find]
    · simp [Ne.symm hz, hhere, Table.getD, Table.find, List.getD]
  rw [ha, State.readAccs]
  simp [hacc, State.readAccs, hl]

/-- Settles O45: each event by the lemma that says what it leaves, the releases from TSYNC that may follow leaving registers, loads, stores and writes in
flight as they are. -/
theorem groupEventsComplete : Obligations.GroupEventsComplete := by
  unfold Obligations.GroupEventsComplete
  intro s slot id
  refine ⟨fun _ _ _ hr hw hg => execRunBegin_winner hr hw hg, fun _ _ _ h => State.winner_least h,
    fun _ _ _ _ _ hg hl hgen hp hs hlen hd hw ho hh hr => loadReturn_read hg hl hgen hp hs hlen hd hw ho hh hr, ?_,
    fun _ _ _ hf hb hp h => pointOfCoherenceArrival_performed hf hb hp h, ?_,
    fun _ _ _ _ _ _ _ ha hl hgot hp hbad hfl hff => State.readAccs_slice ha hl hgot hp hbad hfl hff⟩
  · intro g e es parts hg hf hp hs hq hl hr hparts
    refine ⟨execStoreFifoPerform_found hg hf hp hs hq hl hr hparts, ?_, State.leaveFifo_far hg hf⟩
    rintro x l hk rfl ho -
    exact State.leaveFifo_slice hg hf hk ho
  · intro core q x die hq hr hd hl ht hdie
    obtain ⟨u, hu, hfind, hmem, hgroups, hslot⟩ := itemQueueGrab_low hq hr hd hl ht hdie
    exact ⟨u, _, hu, hfind, hmem, hgroups, hslot, ItemQueue.grabbed_dry _ _ _ hd, fun hn => by rw [ItemQueue.grabbed, if_pos hn],
      fun hn hroom => by rw [ItemQueue.grabbed, if_neg (Nat.ne_of_gt hn), ItemQueue.settle_run _ _ _ hn hroom]⟩

end Sys2Proof.Machine

namespace Sys2Proof.Machine
open Sys2Proof

/-! ## WORLD_CHANGE in a state whose table of teams is not in canonical form -/

/-- Core 0 is to change its world. Team 5 is listed twice: its HELD entry stands for core 0, and the entry that `State.team` reads, the first, for
core 1, on which the team holds unit 0 with a byte in it. -/
def twiceListed : State :=
  { State.reset with
    cores := [(1, { Core.reset with units := [(0, ⟨0, 0, 0, 5, .held⟩)] })],
    teams := [(5, { Team.gone with core := 1, held := true }), (5, { Team.gone with held := true })],
    mem := [(unitCell 1 0, 7)] }

/-- The change of world of core 0 zeroes the byte of core 1. -/
theorem worldChange_twiceListed : ∃ u, exec (.worldChange 0 1) twiceListed = .next u ∧ readCell u.mem (unitCell 1 0) = 0 :=
  ⟨_, rfl, by decide +kernel⟩

/-- Refutes O47 in the clause of WORLD_CHANGE, which claims that other memory is as it was: the statement admits a table of teams that lists a number
twice, and the change of core 0's world then spills the unit that the team's first entry holds on core 1 (R149). A table
in canonical form (`Table.wf`) lists no number twice. -/
theorem not_residenceEventsComplete : ¬ Obligations.ResidenceEventsComplete := by
  unfold Obligations.ResidenceEventsComplete
  intro h
  obtain ⟨-, -, hw, -⟩ := h twiceListed 0 0 0 1 0 0
  obtain ⟨u, hu, -, -, -, -, -, -, -, -, hk⟩ := hw (by decide) (by decide) (by decide) (fun _ _ _ _ _ _ hr => absurd hr List.not_mem_nil) (by decide)
  obtain ⟨v, hv, hz⟩ := worldChange_twiceListed
  obtain rfl : u = v := by rw [hu] at hv; exact Host.Outcome.next.inj hv
  have := hk (unitCell 1 0) (by decide)
  rw [hz] at this
  exact absurd this (by decide)

end Sys2Proof.Machine

namespace Sys2Proof.Machine
open Sys2Proof

/-! ## CLUSTER_PLACE (R264, R265) -/

/-- A fold that only ever chooses among the candidates ends with one of them. -/
theorem foldl_choice_mem {α : Type} {f : Option α → α → Option α} (hf : ∀ b x y, f b x = some y → y = x ∨ b = some y) (l : List α) (b : Option α)
    {y : α} (h : l.foldl f b = some y) : y ∈ l ∨ b = some y := by
  induction l generalizing b with
  | nil => exact .inr h
  | cons x xs ih =>
    rcases ih _ h with h | h
    · exact .inl (List.mem_cons_of_mem _ h)
    · rcases hf _ _ _ h with rfl | h
      · exact .inl List.mem_cons_self
      · exact .inr h

/-- The cores of a rectangle of a placement set lie in the set. -/
theorem mem_rectangles {place w h : Nat} {l : List Nat} (hl : l ∈ rectangles place w h) : ∀ c ∈ l, bit place c = true :=
  List.all_eq_true.1 (List.mem_filter.1 hl).2

/-- Every core that a cluster is placed on takes a team of the grid and lies in its device's placement set. -/
theorem State.placeFor_takes {s : State} {gr : Nat} {cores : List Nat} (h : s.placeFor gr = some cores) :
    ∀ c ∈ cores, s.canTake c gr = true ∧ bit (s.placeOf (s.grid gr).vdev) c = true := by
  unfold State.placeFor at h
  dsimp only at h
  split at h
  · obtain ⟨c, hc, rfl⟩ := Option.map_eq_some_iff.1 h
    have hm := foldl_choice_mem (fun b x y hy => ?_) _ none hc
    · obtain ⟨hp, hk⟩ := List.mem_filter.1 (hm.resolve_right (by simp))
      intro c' hc'
      rw [List.mem_singleton.1 hc']
      exact ⟨hk, (List.mem_filter.1 hp).2⟩
    · split at hy
      · exact .inl (Option.some.inj hy).symm
      · split at hy
        · exact .inl (Option.some.inj hy).symm
        · exact .inr hy
  · intro c hc
    have ht := List.find?_some h
    simp only [Bool.and_eq_true] at ht
    exact ⟨List.all_eq_true.1 ht.1 c hc, mem_rectangles (List.mem_of_find?_eq_some h) c hc⟩

/-- Teams set one after the other. -/
theorem foldl_setTeam {α : Type} (k : α → Nat) (v : α → Team) (l : List α) (s : State) :
    l.foldl (fun s x => s.setTeam (k x) (v x)) s = { s with teams := l.foldl (fun t x => t.put (k x) (v x)) s.teams } := by
  induction l generalizing s with
  | nil => rfl
  | cons x xs ih => rw [List.foldl_cons, ih]; rfl

theorem find_foldl_put_of_notMem {α β : Type} (k : α → Nat) (v : α → β) (l : List α) (t : Table β) {n : Nat} (h : n ∉ l.map k) :
    (l.foldl (fun t x => t.put (k x) (v x)) t).find n = t.find n := by
  induction l generalizing t with
  | nil => rfl
  | cons x xs ih =>
    rw [List.map_cons, List.mem_cons, not_or] at h
    rw [List.foldl_cons, ih _ h.2, Table.find_put, if_neg h.1]

/-- Entries put under numbers of their own are all found. -/
theorem find_foldl_put {α β : Type} (k : α → Nat) (v : α → β) (l : List α) (t : Table β) (hn : (l.map k).Nodup) {x : α} (hx : x ∈ l) :
    (l.foldl (fun t x => t.put (k x) (v x)) t).find (k x) = some (v x) := by
  induction l generalizing t with
  | nil => cases hx
  | cons y ys ih =>
    rw [List.map_cons, List.nodup_cons] at hn
    rcases List.mem_cons.1 hx with rfl | hx
    · rw [List.foldl_cons, find_foldl_put_of_notMem k v ys _ hn.1, Table.find_put, if_pos rfl]
    · exact ih _ hn.2 hx

/-- The teams of a cluster by rank: the number, the rank and the core of each. -/
def ranked (cl : Nat) (cores : List Nat) : List (Nat × Nat × Nat) :=
  ((List.range cores.length).map fun r => cl + 1 + r).zip ((List.range cores.length).zip cores)

theorem ranked_nodup (cl : Nat) (cores : List Nat) : ((ranked cl cores).map Prod.fst).Nodup := by
  rw [ranked, List.map_fst_zip (by simp)]
  exact List.Nodup.map (fun a b h => Nat.add_left_cancel h) List.nodup_range

theorem mem_ranked {cl r : Nat} {cores : List Nat} (h : r < cores.length) : (cl + 1 + r, r, cores.getD r 0) ∈ ranked cl cores :=
  List.mem_iff_getElem.2 ⟨r, by simpa [ranked] using h, by simp [ranked, List.getD, h]⟩

/-- The team of a rank of the next cluster of a grid (R263). -/
def Grid.newTeam (g : Grid) (gr cl n : Nat) (x : Nat × Nat × Nat) : Team :=
  { Team.gone with grid := gr, index := g.nextCluster * n + x.2.1, rank := x.2.1, cluster := cl, core := x.2.2, placed := false, since := g.since }

theorem State.placeCluster_eq (s : State) (gr : Nat) (cores : List Nat) :
    s.placeCluster gr cores =
      { ({ s with nextId := s.nextId + 1 + cores.length,
                  clusters := s.clusters.put s.nextId ⟨gr, cores.headD 0, max 1 (s.grid gr).cw, max 1 (s.grid gr).ch,
                    (List.range cores.length).map fun r => s.nextId + 1 + r, []⟩,
                  teams := (ranked s.nextId cores).foldl (fun t x => t.put x.1 ((s.grid gr).newTeam gr s.nextId cores.length x)) s.teams } : State).setGrid gr
          { s.grid gr with nextCluster := (s.grid gr).nextCluster + 1, since := s.gtime } with
        agenda := ((List.range cores.length).map fun r => s.nextId + 1 + r).map Instr.teamPlace ++ s.agenda } := by
  have h := foldl_setTeam Prod.fst ((s.grid gr).newTeam gr s.nextId cores.length) (ranked s.nextId cores)
    { s with nextId := s.nextId + 1 + cores.length,
             clusters := s.clusters.put s.nextId ⟨gr, cores.headD 0, max 1 (s.grid gr).cw, max 1 (s.grid gr).ch,
               (List.range cores.length).map fun r => s.nextId + 1 + r, []⟩ }
  unfold State.placeCluster
  dsimp only
  unfold ranked Grid.newTeam at h ⊢
  rw [h]

theorem State.grid_setGrid_self (s : State) (n : Nat) (g : Grid) : (s.setGrid n g).grid n = g := by
  simp [State.grid, State.setGrid, Table.getD_put]

/-- CLUSTER_PLACE of a die whose pool holds one device's grids. -/
theorem execClusterPlace_one {s : State} {die vd gr : Nat} {cores : List Nat} (hp : ((s.die die).pool.map fun g => (s.grid g).vdev).dedup = [vd])
    (hg : s.nextGrid die vd = some gr) (hc : s.placeFor gr = some cores) : execClusterPlace die s = .next (s.placeCluster gr cores) := by
  unfold execClusterPlace
  simp only [hp, List.mergeSort_singleton, List.findSome?_cons, hg, Option.bind_some, hc, Option.map_some]

/-- What placing a cluster creates. -/
theorem State.placeCluster_creates (s : State) (gr : Nat) (cores : List Nat) :
    let u := s.placeCluster gr cores
    u.mem = s.mem ∧ (u.grid gr).nextCluster = (s.grid gr).nextCluster + 1 ∧
      u.clusters.find s.nextId = some
        { grid := gr, core0 := cores.headD 0, cw := max 1 (s.grid gr).cw, ch := max 1 (s.grid gr).ch,
          teams := (List.range cores.length).map fun r => s.nextId + 1 + r, arrivals := [] } ∧
      u.agenda = ((List.range cores.length).map fun r => Instr.teamPlace (s.nextId + 1 + r)) ++ s.agenda ∧
      ∀ r, r < cores.length → u.teams.find (s.nextId + 1 + r) = some { Team.gone with
        grid := gr, index := (s.grid gr).nextCluster * cores.length + r, rank := r, cluster := s.nextId, core := cores.getD r 0, placed := false,
        since := (s.grid gr).since } := by
  intro u
  have hu : u = _ := s.placeCluster_eq gr cores
  refine ⟨s.placeCluster_mem gr cores, ?_, ?_, ?_, fun r hr => ?_⟩
  · rw [hu]
    exact congrArg Grid.nextCluster (State.grid_setGrid_self ..)
  · rw [hu]
    exact Table.find_put_self ..
  · rw [hu]
    simp
  · rw [hu]
    exact find_foldl_put Prod.fst _ _ _ (ranked_nodup _ _) (mem_ranked hr)

/-! ## GRID_COMPLETE (R270, R276) -/

theorem State.team_setTeam_self (s : State) (t : Nat) (x : Team) : (s.setTeam t x).team t = x := by
  simp [State.team, State.setTeam, Table.getD_put]

@[simp] theorem State.endGrid_grids (s : State) (n : Nat) : (s.endGrid n).grids.find n = none := by
  unfold State.endGrid
  dsimp only
  rw [Table.find_mapVals, Table.find_del_self]
  rfl

theorem State.endGrid_pool (s : State) (n : Nat) :
    ((s.endGrid n).die (s.grid n).die).pool = (s.die (s.grid n).die).pool.filter (· != n) := by
  have hd : ((s.setDie (s.grid n).die { s.die (s.grid n).die with pool := (s.die (s.grid n).die).pool.filter (· != n) }).die (s.grid n).die).pool =
      (s.die (s.grid n).die).pool.filter (· != n) := by
    simp [State.die, State.setDie, Table.getD_put]
  unfold State.endGrid
  dsimp only
  split
  · exact hd
  · split
    · exact hd
    · exact hd

/-- A parent learns that its child has ended (R276). -/
theorem State.endGrid_parent {s : State} {n t : Nat} (hp : (s.grid n).parent = some t) (ht : (s.teams.find t).isSome = true) :
    ((s.endGrid n).team t).jcnt = (s.team t).jcnt - 1 ∧
    ((s.endGrid n).team t).childBad = (s.team t).childBad ++
      if (s.grid n).imprecise != 0 || (s.grid n).statBad.isSome then [BitVec.ofNat 64 (s.grid n).statAddr] else [] := by
  unfold State.endGrid
  simp only [hp]
  split
  · next hn => rw [Option.isNone_iff_eq_none] at hn; rw [show s.teams.find t = none from hn] at ht; cases ht
  · exact ⟨congrArg Team.jcnt (State.team_setTeam_self ..), congrArg Team.childBad (State.team_setTeam_self ..)⟩

/-- What is left to do of a grid that has completed (R270). -/
def State.completed (s : State) (grid : Nat) : State :=
  (s.setGrid grid { s.grid grid with statDone := true, statBad := none }).endGrid grid

@[simp] theorem State.completed_mem (s : State) (grid : Nat) : (s.completed grid).mem = s.mem := State.endGrid_mem ..

/-- GRID_COMPLETE, with a queue that waits for the grid or without. -/
theorem execGridComplete_completed {s s₁ : State} {grid : Nat} {g : Grid} (hg : s.grids.find grid = some g) (hc : g.cause = .none)
    (hover : s.gridOver grid g = true) (hd : g.statDone = false) (ha : s.isActive g.vdev g.ctx = true) (hp : s.stillParked g.die g.parked = false)
    (hw : let w : Agent := ⟨2 ^ 61 + 2 ^ 20 + grid, .packet, if g.die = 0 then 0 else 4, g.vdev, g.ctx, (s.vdev g.vdev).world⟩
      (g.statAddr = 0 ∧ s₁ = s) ∨ (g.statAddr ≠ 0 ∧ s.agentWaits w = false ∧ s.agentWrite w g.statAddr (s.gridBlock g) = (s₁, .ok ()))) :
    execGridComplete grid s = .next (s₁.completed grid) ∨
      ∃ vd q k, execGridComplete grid s = .next ((s₁.completed grid).setQueue vd q k) := by
  have hcb : (g.cause != Cause.none) = false := by simp [hc]
  rcases hw with ⟨h0, rfl⟩ | ⟨h0, hwait, hwr⟩
  · simp only [execGridComplete, hg, hcb, Bool.not_false, hover, ha, hd, hp, Bool.not_true, Bool.or_self, Bool.and_false, Bool.false_eq_true, if_false, h0,
      if_true, Option.getD_none]
    split
    · exact .inl rfl
    · split
      · exact .inr ⟨_, _, _, rfl⟩
      · exact .inl rfl
  · simp only [execGridComplete, hg, hcb, Bool.not_false, hover, ha, hd, hp, Bool.not_true, Bool.or_self, Bool.and_false, Bool.false_eq_true, if_false, h0,
      hwait, hwr, if_true, Option.getD_none]
    split
    · exact .inl rfl
    · split
      · exact .inr ⟨_, _, _, rfl⟩
      · exact .inl rfl

theorem gridComplete_ends {s s₁ : State} {grid : Nat} {g : Grid} (hg : s.grids.find grid = some g) (hc : g.cause = .none)
    (hover : s.gridOver grid g = true) (hd : g.statDone = false) (ha : s.isActive g.vdev g.ctx = true) (hp : s.stillParked g.die g.parked = false)
    (hw : let w : Agent := ⟨2 ^ 61 + 2 ^ 20 + grid, .packet, if g.die = 0 then 0 else 4, g.vdev, g.ctx, (s.vdev g.vdev).world⟩
      (g.statAddr = 0 ∧ s₁ = s) ∨ (g.statAddr ≠ 0 ∧ s.agentWaits w = false ∧ s.agentWrite w g.statAddr (s.gridBlock g) = (s₁, .ok ()))) :
    ∃ u, execGridComplete grid s = .next u ∧ u.mem = s₁.mem ∧ u.grids.find grid = none ∧
      (u.die (s₁.grid grid).die).pool = (s₁.die (s₁.grid grid).die).pool.filter (· != grid) ∧
      ∀ t, (s₁.grid grid).parent = some t → (s₁.teams.find t).isSome = true →
        (u.team t).jcnt = (s₁.team t).jcnt - 1 ∧
        (u.team t).childBad = (s₁.team t).childBad ++ if (s₁.grid grid).imprecise = 0 then [] else [BitVec.ofNat 64 (s₁.grid grid).statAddr] := by
  let w := s₁.setGrid grid { s₁.grid grid with statDone := true, statBad := none }
  have hgrid : w.grid grid = { s₁.grid grid with statDone := true, statBad := none } := State.grid_setGrid_self ..
  have hpool : ((s₁.completed grid).die (s₁.grid grid).die).pool = (s₁.die (s₁.grid grid).die).pool.filter (· != grid) := by
    have h := w.endGrid_pool grid
    rw [hgrid] at h
    exact h
  have hparent : ∀ t, (s₁.grid grid).parent = some t → (s₁.teams.find t).isSome = true →
      ((s₁.completed grid).team t).jcnt = (s₁.team t).jcnt - 1 ∧
      ((s₁.completed grid).team t).childBad = (s₁.team t).childBad ++
        if (s₁.grid grid).imprecise = 0 then [] else [BitVec.ofNat 64 (s₁.grid grid).statAddr] := by
    intro t ht hs
    obtain ⟨hj, hb⟩ := State.endGrid_parent (s := w) (n := grid) (t := t) (by rw [hgrid]; exact ht) hs
    refine ⟨hj, hb.trans ?_⟩
    rw [hgrid]
    by_cases h0 : (s₁.grid grid).imprecise = 0
    · simp only [h0]; rfl
    · simp only [h0, bne_iff_ne, ne_eq, not_false_eq_true, Bool.or_false, if_true, if_false, Option.isSome_none]; rfl
  rcases execGridComplete_completed hg hc hover hd ha hp hw with h | ⟨vd, q, k, h⟩
  · exact ⟨_, h, s₁.completed_mem grid, State.endGrid_grids .., hpool, hparent⟩
  · exact ⟨_, h, s₁.completed_mem grid, State.endGrid_grids w grid, hpool, hparent⟩


/-! ## TEAM_PLACE (R266): a team that is being placed is never claimed -/

/-- No entry of the team is one of a HELD team that has been placed: nothing of it may be claimed. -/
def State.NeverClaimed (s : State) (team : Nat) : Prop := ∀ x, (team, x) ∈ s.teams → (x.held && x.placed) = false

theorem State.NeverClaimed.of_teams {s u : State} {team : Nat} (h : s.NeverClaimed team) (ht : u.teams = s.teams) : u.NeverClaimed team :=
  fun x hx => h x (ht ▸ hx)

theorem State.NeverClaimed.team {s : State} {team : Nat} (h : s.NeverClaimed team) : ((s.team team).held && (s.team team).placed) = false := by
  unfold State.team Table.getD
  cases hf : s.teams.find team with
  | none => rfl
  | some x => exact h x (Table.mem_of_find hf)

/-- A change of a team that is no matter of its residence. -/
theorem State.NeverClaimed.setTeam {s : State} {team : Nat} (h : s.NeverClaimed team) (n : Nat) {x : Team} (hh : x.held = (s.team n).held)
    (hp : x.placed = (s.team n).placed) : (s.setTeam n x).NeverClaimed team := by
  intro y hy
  rcases mem_put _ _ _ _ hy with he | hm
  · obtain ⟨rfl, rfl⟩ := Prod.mk.inj he
    rw [hh, hp]
    exact h.team
  · exact h y hm

/-- What a fold that adds one entry for each element can hold. -/
theorem mem_foldl_insert {α β : Type} {f : List β → α → List β} {k : α → β} (hf : ∀ l x y, y ∈ f l x → y = k x ∨ y ∈ l) (xs : List α) (b : List β)
    {y : β} (h : y ∈ xs.foldl f b) : (∃ x ∈ xs, y = k x) ∨ y ∈ b := by
  induction xs generalizing b with
  | nil => exact .inr h
  | cons x xs ih =>
    rcases ih _ h with ⟨z, hz, he⟩ | hm
    · exact .inl ⟨z, List.mem_cons_of_mem _ hz, he⟩
    · rcases hf _ _ _ hm with he | hm
      · exact .inl ⟨x, List.mem_cons_self, he⟩
      · exact .inr hm

/-- Only HELD teams that have been placed are claimed. -/
theorem State.mem_claimable {s : State} {core n : Nat} (h : n ∈ s.claimable core) : ∃ t, (n, t) ∈ s.teams ∧ (t.held && t.placed) = true := by
  obtain ⟨y, hy, rfl⟩ := List.mem_map.1 h
  have hins (l : List (Nat × Nat)) (x : Nat × Team) (y : Nat × Nat)
      (hy : y ∈ l.takeWhile (fun y => decide (y.1 ≤ x.2.lastRun)) ++ (x.2.lastRun, x.1) :: l.dropWhile fun y => decide (y.1 ≤ x.2.lastRun)) :
      y = (x.2.lastRun, x.1) ∨ y ∈ l := by
    rcases List.mem_append.1 hy with hy | hy
    · exact .inr ((List.takeWhile_sublist _).subset hy)
    · exact (List.mem_cons.1 hy).imp_right fun hy => (List.dropWhile_sublist _).subset hy
  obtain ⟨t, ht, rfl⟩ := (mem_foldl_insert hins _ [] hy).resolve_right List.not_mem_nil
  obtain ⟨hm, hp⟩ := List.mem_filter.1 ht
  simp only [Bool.and_eq_true] at hp
  exact ⟨t.2, hm, by simp [hp.1.1.2, hp.1.2]⟩

theorem State.NeverClaimed.not_mem {s : State} {core team : Nat} (h : s.NeverClaimed team) : team ∉ s.claimable core := fun hm => by
  obtain ⟨t, ht, hp⟩ := State.mem_claimable hm
  rw [h t ht] at hp
  cases hp

/-! ### Its queues and units -/

theorem State.bindQueues_teams {s u : State} {core grid : Nat} (h : s.bindQueues core grid = some u) : u.teams = s.teams := by
  unfold State.bindQueues at h
  dsimp only at h
  split at h
  · cases h
  · obtain rfl := Option.some.inj h
    refine List.foldlRecOn (motive := fun u : State => u.teams = s.teams) _ _ rfl fun u hu q _ => ?_
    split
    · split <;> exact hu
    · exact hu

theorem State.zeroUnit_teams (s : State) (core unit : Nat) : (s.zeroUnit core unit).teams = s.teams := by
  unfold State.zeroUnit
  dsimp only
  split <;> rfl

theorem State.chargeSpill_teams (s : State) (vd : Nat) : (s.chargeSpill vd).teams = s.teams := by
  unfold State.chargeSpill
  split <;> rfl

theorem State.chargeSpill_groups (s : State) (vd : Nat) : (s.chargeSpill vd).groups = s.groups := by
  unfold State.chargeSpill
  split <;> rfl

theorem State.checkFree_teams (s : State) (core unit : Nat) : (s.checkFree core unit).teams = s.teams := by
  unfold State.checkFree
  split
  · rfl
  · rw [State.zeroUnit_teams]
    exact (Contains.foldl (fun s w => contains_reportSlice s core (8 * w)) _ s).teams

theorem contains_sliceError (s : State) (core off n : Nat) (e : Engine) : Contains s (s.sliceError core off n e) := by
  have h (ws : List Nat) : Contains s (ws.foldl (fun s w => s.reportSlice core (8 * w)) s) :=
    .foldl (fun s w => contains_reportSlice s core (8 * w)) ws s
  unfold State.sliceError
  split
  · exact .refl s
  · dsimp only
    split
    · exact (h _).trans (contains_contain _ _ _ _ _ _ _)
    · exact h _

theorem State.NeverClaimed.spillUnit {s : State} {team : Nat} (h : s.NeverClaimed team) (core unit : Nat) : (s.spillUnit core unit).NeverClaimed team := by
  unfold State.spillUnit
  split
  · exact h
  · next o _ =>
    have h' : ((s.sliceError core (unit * 65536) 65536 .core).chargeSpill o.vdev).NeverClaimed team :=
      h.of_teams ((State.chargeSpill_teams _ _).trans (contains_sliceError s _ _ _ _).teams)
    refine .of_teams ?_ (State.zeroUnit_teams _ _ _)
    split
    · exact h'.setTeam _ rfl rfl
    · exact h'

theorem State.NeverClaimed.takeUnits {s u : State} {core team n : Nat} {us : List Nat} (h : s.NeverClaimed team)
    (hu : s.takeUnits core team n = some (u, us)) : u.NeverClaimed team ∧ us.length = n := by
  unfold State.takeUnits at hu
  dsimp only at hu
  split at hu
  · cases hu
  · next hl =>
    obtain ⟨rfl, rfl⟩ := Prod.mk.inj (Option.some.inj hu)
    refine ⟨?_, le_antisymm (List.length_take_le ..) (Nat.le_of_not_lt hl)⟩
    refine .of_teams (List.foldlRecOn (motive := fun u : State => u.NeverClaimed team) _ _ h fun u hu x _ => ?_) rfl
    split
    · exact hu.of_teams (State.checkFree_teams ..)
    · exact State.NeverClaimed.spillUnit hu _ _

/-! ### Its groups -/

/-- A group stands as it does at launch (R13). -/
structure Group.AtLaunch (x : Group) (team num : Nat) (g : Grid) : Prop where
  team : x.team = team
  num : x.num = num
  s : x.s = g.sinit
  fifo : x.fifo = []
  loads : x.loads = []
  lane : ∀ l, l < 64 → (x.lane l).pc = BitVec.ofNat 56 (g.field 0 55 0) ∧ (x.lane l).exited = false ∧ (x.lane l).v = []

theorem find_map_pair {α : Type} (f : Nat → α) {ks : List Nat} {l : Nat} (h : l ∈ ks) : Table.find (ks.map fun k => (k, f k)) l = some (f l) := by
  induction ks with
  | nil => cases h
  | cons k ks ih =>
    rw [List.map_cons, Table.find_cons]
    split
    · next he => rw [he]
    · next he => exact ih ((List.mem_cons.1 h).resolve_left he)

theorem Group.atLaunch_newGroup (team num base : Nat) (g : Grid) : (newGroup team num base g).AtLaunch team num g where
  team := rfl
  num := rfl
  s := rfl
  fifo := rfl
  loads := rfl
  lane l hl := by
    have h : (newGroup team num base g).lane l = ⟨BitVec.ofNat 56 (g.field 0 55 0), 0, 0, [], [], false, false, 0, none, false, 0⟩ := by
      unfold Group.lane newGroup Table.getD
      rw [find_map_pair (fun _ => _) (List.mem_range.2 hl)]
      rfl
    rw [h]
    exact ⟨rfl, rfl, rfl⟩

theorem widen_mem {α : Type} {owners : List Nat} {f : List Nat → Option α} {y : α} (h : widen owners f = some y) : ∃ n, f (owners.take n) = some y := by
  obtain ⟨n, -, hn⟩ := List.exists_of_findSome?_eq_some h
  exact ⟨n, hn⟩

/-- A slot found for a group is free, or its group's team may be claimed. -/
theorem State.findSlot_open {s : State} {core sub slot : Nat} {ok : List Nat} (h : s.findSlot core sub ok = some slot) {x : Group}
    (hx : s.groups.find slot = some x) : x.team ∈ ok := by
  unfold State.findSlot at h
  dsimp only at h
  split at h
  · next y hy =>
    obtain rfl := Option.some.inj h
    have := List.find?_some hy
    rw [hx] at this
    cases this
  · have := List.find?_some h
    rw [hx] at this
    simpa using this

theorem State.findSeat_open {s : State} {core n slot base : Nat} {ok : List Nat} (h : s.findSeat core n ok = some (slot, base)) {x : Group}
    (hx : s.groups.find slot = some x) : x.team ∈ ok := by
  obtain ⟨sub, -, hsub⟩ := List.exists_of_findSome?_eq_some h
  split at hsub
  · next hf _ =>
    obtain ⟨rfl, -⟩ := Prod.mk.inj (Option.some.inj hsub)
    exact State.findSlot_open hf hx
  · cases hsub

/-- A group as it stands once received in a slot. -/
def Group.received (g : Group) (gen : BitVec 8) (stamp : Nat) : Group :=
  { g with runStamp := stamp, preempted := false, loads := g.loads.map fun l => { l with gen := gen }, fifo := g.fifo.map fun e => { e with gen := gen } }

theorem Group.AtLaunch.received {x : Group} {team num : Nat} {g : Grid} (h : x.AtLaunch team num g) (gen : BitVec 8) (stamp : Nat) :
    (x.received gen stamp).AtLaunch team num g where
  team := h.team
  num := h.num
  s := h.s
  fifo := by rw [Group.received, h.fifo]; rfl
  loads := by rw [Group.received, h.loads]; rfl
  lane := h.lane

theorem State.spillGroup_find (s : State) (slot n : Nat) (h : n ≠ slot) : (s.spillGroup slot).groups.find n = s.groups.find n := by
  unfold State.spillGroup
  split
  · rfl
  · dsimp only
    rw [State.chargeSpill_groups]
    show (s.groups.del slot).find n = _
    rw [Table.find_del, if_neg h]

theorem State.receive_find_ne (s : State) (slot n : Nat) (g : Group) (h : n ≠ slot) : (s.receive slot g).groups.find n = s.groups.find n := by
  unfold State.receive
  exact (Table.find_put_ne _ _ h).trans (s.spillGroup_find slot n h)

theorem State.receive_find_self (s : State) (slot : Nat) (g : Group) :
    ∃ gen stamp, (s.receive slot g).groups.find slot = some (g.received gen stamp) :=
  ⟨_, _, Table.find_put_self ..⟩

theorem State.NeverClaimed.receive {s : State} {team : Nat} (h : s.NeverClaimed team) (slot : Nat) (g : Group) : (s.receive slot g).NeverClaimed team := by
  have hs : (s.spillGroup slot).NeverClaimed team := by
    unfold State.spillGroup
    split
    · exact h
    · next x _ =>
      exact .of_teams (h.setTeam x.team (x := { s.team x.team with away := (s.team x.team).away ++ [(slot, x)] }) rfl rfl) (State.chargeSpill_teams _ _)
  exact hs.of_teams rfl

/-- The groups of a new team stand as at launch, one to a slot, and no group of the team that is seated already loses its slot. -/
theorem State.seatGroups_seated {s u : State} {core team n : Nat} {g : Grid} {ms slots : List Nat} (hn : s.NeverClaimed team)
    (h : s.seatGroups core team g n ms = some (u, slots)) :
    slots.length = ms.length ∧ (∀ i, i < slots.length → ∃ x, u.groups.find (slots.getD i 0) = some x ∧ x.AtLaunch team (ms.getD i 0) g) ∧
      ∀ slot x, s.groups.find slot = some x → x.team = team → u.groups.find slot = some x := by
  induction ms generalizing s u slots with
  | nil =>
    obtain ⟨rfl, rfl⟩ := Prod.mk.inj (Option.some.inj h)
    exact ⟨rfl, fun i hi => absurd hi (Nat.not_lt_zero i), fun _ _ hx _ => hx⟩
  | cons m ms ih =>
    unfold State.seatGroups at h
    split at h
    · cases h
    · next slot base hw =>
      obtain ⟨r, hr, he⟩ := Option.map_eq_some_iff.1 h
      obtain ⟨rfl, rfl⟩ := Prod.mk.inj he
      obtain ⟨k, hk⟩ := widen_mem hw
      obtain ⟨gen, stamp, hself⟩ := (s.takeBlocks core (slotSub slot) base g.groupBlocks team).receive_find_self slot (newGroup team m base g)
      obtain ⟨hlen, hat, hstay⟩ := ih ((hn.of_teams (u := s.takeBlocks core (slotSub slot) base g.groupBlocks team) rfl).receive slot _) hr
      have hnew := (Group.atLaunch_newGroup team m base g).received gen stamp
      refine ⟨congrArg (· + 1) hlen, fun i hi => ?_, fun n x hx ht => ?_⟩
      · cases i with
        | zero => exact ⟨_, hstay _ _ hself hnew.team, hnew⟩
        | succ i => exact hat i (Nat.lt_of_succ_lt_succ hi)
      · have hne : n ≠ slot := by
          rintro rfl
          exact hn.not_mem (core := core) (ht ▸ List.mem_of_mem_take (State.findSeat_open hk hx))
        exact hstay n x ((State.receive_find_ne _ _ _ _ hne).trans hx) ht

/-- A team that has been given all that it needs. -/
theorem State.takeResources_placed {s u : State} {core team grid : Nat} (hn : s.NeverClaimed team) (h : s.takeResources core team grid = some u) :
    (u.team team).placed = true ∧ (u.team team).slots.length = (s.grid grid).field 0x10 46 42 ∧ (u.team team).units.length = (s.grid grid).unitCount ∧
      ∀ n, n < (u.team team).slots.length → ∃ x, u.groups.find ((u.team team).slots.getD n 0) = some x ∧ x.AtLaunch team n (s.grid grid) := by
  unfold State.takeResources at h
  dsimp only at h
  split at h
  · cases h
  split at h
  · cases h
  next s₁ hb =>
  split at h
  · cases h
  next s₂ us hu =>
  split at h
  · cases h
  next s₃ slots hs =>
  obtain rfl := Option.some.inj h
  obtain ⟨hn₂, hus⟩ := (hn.of_teams (State.bindQueues_teams hb)).takeUnits hu
  obtain ⟨hlen, hat, -⟩ := State.seatGroups_seated hn₂ hs
  rw [State.team_setTeam_self]
  refine ⟨rfl, hlen.trans (List.length_range ..), hus, fun n hl => ?_⟩
  obtain ⟨x, hx, ha⟩ := hat n hl
  have hl' : n < (s.grid grid).field 0x10 46 42 := by rw [hlen, List.length_range] at hl; exact hl
  refine ⟨x, hx, ?_⟩
  rwa [List.getD_eq_getElem _ _ (by simpa using hl'), List.getElem_range] at ha

/-! ### The event -/

theorem State.discard_teams (s : State) (core scope : Nat) : (s.discard core scope).teams = s.teams := by
  unfold State.discard
  dsimp only
  split <;> split <;> split <;> rfl

theorem teamPlace_placed {s s₁ s₂ : State} {team : Nat} {t : Team} {vs : List (Option (BitVec 64))} {ps : List Nat} (ht : s.teams.find team = some t)
    (hp : t.placed = false) (ha : s.isActive (s.grid t.grid).vdev (s.grid t.grid).ctx = true) (hs : s.holdsSlice (s.grid t.grid).vdev = true)
    (hq : s.stillParked (coreDie t.core) t.fpark = false) (hw : (s.core t.core).world = (s.vdev (s.grid t.grid).vdev).world)
    (hr : s.readFormats ⟨2 ^ 59 + team, .core, t.core, (s.grid t.grid).vdev, (s.grid t.grid).ctx, (s.core t.core).world⟩
      ((List.range (s.grid t.grid).fmtn).map fun n => (s.grid t.grid).field 0x30 55 0 + 8 * n) = (s₁, .values vs ps))
    (hk : s₁.takeResources t.core team t.grid = some s₂) (hb : s₁.beginSpills s₂ t.core team = none) :
    ∃ u, execTeamPlace team s = .next u ∧ u.team team = { s₂.team team with fmts := formatRegs vs, fpark := none } ∧ u.groups = s₂.groups := by
  simp only [execTeamPlace, ht, hp, ha, hs, hq, hw, bne_self_eq_false, Bool.not_true, Bool.or_self, Bool.false_eq_true, if_false]
  rw [hw] at hr
  simp only [hr, hk, hb]
  let w := s₂.setTeam team { s₂.team team with fmts := formatRegs vs, fpark := none }
  have hself : w.team team = _ := s₂.team_setTeam_self team _
  have hdiscard : (w.discard t.core 5).team team = w.team team := by rw [State.team, State.discard_teams]; rfl
  split
  · exact ⟨_, rfl, hdiscard.trans hself, (workKept_discard w t.core 5).groups⟩
  · exact ⟨_, rfl, hself, rfl⟩

/-- Settles O48: a cluster's teams are set under numbers of their own; a team that is being placed is never claimed, so that its groups keep the
seats that they are given; what ends a grid is told its parent. -/
theorem placementEventsComplete : Obligations.PlacementEventsComplete := by
  unfold Obligations.PlacementEventsComplete
  intro s die team grid
  refine ⟨?_, ?_, fun g s₁ hg hc ho hd ha hp hw => gridComplete_ends hg hc ho hd ha hp hw⟩
  · intro vd gr cores hp hg hc
    exact ⟨State.placeFor_takes hc, _, execClusterPlace_one hp hg hc, s.placeCluster_creates gr cores⟩
  · intro t s₁ vs ps s₂ ht hp ha hs hq hw hr hk hb hn
    obtain ⟨u, hu, hteam, hgroups⟩ := teamPlace_placed ht hp ha hs hq hw hr hk hb
    obtain ⟨hplaced, hslots, hunits, hat⟩ := State.takeResources_placed (fun x hx => by rw [hn x hx, Bool.and_false]) hk
    rw [← hgroups] at hat
    refine ⟨u, hu, ?_⟩
    rw [hteam]
    refine ⟨hplaced, rfl, hslots, hunits, fun n hl => ?_⟩
    obtain ⟨x, hx, h⟩ := hat n hl
    exact ⟨x, hx, h.team, h.num, h.s, h.fifo, h.loads, h.lane⟩

end Sys2Proof.Machine

namespace Sys2Proof.Machine
open Sys2Proof

/-! ## Rounding to nearest (R32) -/

/-- The quotient to nearest, over a divisor `2^d`: the quotient below where the remainder is less than half of it, or half and the quotient even; else
the one above. -/
theorem Dir.div_nearest (neg : Bool) (m d : Nat) :
    Dir.nearest.div neg m d = m / 2 ^ d ∧ (2 * (m % 2 ^ d) < 2 ^ d ∨ 2 * (m % 2 ^ d) = 2 ^ d ∧ m / 2 ^ d % 2 = 0) ∨
      Dir.nearest.div neg m d = m / 2 ^ d + 1 ∧ (2 ^ d < 2 * (m % 2 ^ d) ∨ 2 * (m % 2 ^ d) = 2 ^ d ∧ m / 2 ^ d % 2 = 1) := by
  have hd : 0 < 2 ^ d := Nat.two_pow_pos d
  simp only [Dir.div]
  split
  · next hup =>
    refine .inr ⟨rfl, ?_⟩
    simp only [Bool.or_eq_true, Bool.and_eq_true, decide_eq_true_eq, bne_iff_ne, beq_iff_eq] at hup
    omega
  · next hup =>
    refine .inl ⟨rfl, ?_⟩
    simp only [Bool.or_eq_true, Bool.and_eq_true, decide_eq_true_eq, bne_iff_ne, beq_iff_eq] at hup
    omega

/-- The multiple that is the nearest to `m`, its distance and its inexact mark. -/
theorem Dir.div_nearest_dist (neg : Bool) (m d : Nat) :
    let n := Dir.nearest.div neg m d
    2 * ((n : Int) * 2 ^ d - m).natAbs ≤ 2 ^ d ∧ (2 * ((n : Int) * 2 ^ d - m).natAbs = 2 ^ d → n % 2 = 0) ∧ ((n : Int) * 2 ^ d = m ↔ m % 2 ^ d = 0) := by
  have hm : (m : Int) = 2 ^ d * (m / 2 ^ d : Nat) + (m % 2 ^ d : Nat) := by exact_mod_cast (Nat.div_add_mod m (2 ^ d)).symm
  have hr : m % 2 ^ d < 2 ^ d := Nat.mod_lt _ (Nat.two_pow_pos d)
  have hD : ((2 ^ d : Nat) : Int) = 2 ^ d := by norm_cast
  intro n
  rcases Dir.div_nearest neg m d with ⟨hn, h⟩ | ⟨hn, h⟩
  · have : (n : Int) * 2 ^ d - m = -(m % 2 ^ d : Nat) := by rw [hm, show n = m / 2 ^ d from hn]; ring
    omega
  · have : (n : Int) * 2 ^ d - m = (2 ^ d : Nat) - (m % 2 ^ d : Nat) := by
      rw [hm, show n = m / 2 ^ d + 1 from hn, hD]; push_cast; ring
    omega

theorem toUnit_of_lt (r : Dir) (neg : Bool) (m : Nat) (e : Int) {k : Nat} (hk : 0 < k) :
    toUnit r neg m e (e + k) = (r.div neg m k, m % 2 ^ k != 0) := by
  simp [toUnit, Nat.ne_of_gt hk]

/-- Settles O26: what the quotient leaves is compared with half of the divisor. -/
theorem roundingIsNearestEven : Obligations.RoundingIsNearestEven := by
  unfold Obligations.RoundingIsNearestEven
  intro neg m k e
  rcases Nat.eq_zero_or_pos k with rfl | hk
  · simp [toUnit]
  · obtain ⟨hdist, heven, hexact⟩ := Dir.div_nearest_dist neg m k
    rw [toUnit_of_lt _ _ _ _ hk]
    refine ⟨hdist, heven, ?_⟩
    rw [bne_iff_ne, Ne, ← hexact]

/-! ## Results of sums of products and of quotients (R30, R32, R33, R107) -/

/-- A code that an operation may answer: the canonical NaN or a number, within the format's width (R30). -/
def Fmt.IsResult (f : Fmt) (c : Nat) : Prop := (c = f.nan ∨ f.isNaN c = false) ∧ c < 2 ^ (1 + f.ew + f.mw)

theorem Fmt.inf_add_eq_sign (f : Fmt) : f.inf + 2 ^ f.mw = f.sign := by
  rw [Fmt.inf, Fmt.sign, pow_add, ← Nat.succ_mul, Nat.succ_eq_add_one, Nat.sub_add_cancel Nat.one_le_two_pow]

theorem Fmt.two_sign (f : Fmt) : 2 ^ (1 + f.ew + f.mw) = 2 * f.sign := by
  rw [Fmt.sign, add_assoc, pow_add, pow_one]

/-- A sign before a magnitude up to that of ∞ is a number. -/
theorem Fmt.isResult_signed (f : Fmt) (neg : Bool) {mag : Nat} (h : mag ≤ f.inf) : f.IsResult (f.signed neg mag) := by
  have hs := f.inf_add_eq_sign
  have hp : 0 < 2 ^ f.mw := Nat.two_pow_pos _
  have hmag : mag < f.sign := by omega
  refine ⟨.inr ?_, ?_⟩
  · cases neg <;> simp [Fmt.isNaN, Fmt.mag, Fmt.signed, Nat.mod_eq_of_lt hmag, h]
  · rw [f.two_sign, Fmt.signed]
    split <;> omega

theorem Fmt.isResult_nan (f : Fmt) (h : 0 < f.mw) : f.IsResult f.nan := by
  have hs := f.inf_add_eq_sign
  have hp : 2 ^ (f.mw - 1) < 2 ^ f.mw := Nat.pow_lt_pow_right one_lt_two (by omega)
  refine ⟨.inl rfl, ?_⟩
  rw [f.two_sign, Fmt.nan]
  omega

theorem Fmt.isResult_round (f : Fmt) (r : Dir) (ftz neg : Bool) (m : Nat) (e : Int) : f.IsResult (f.round r ftz neg m e).1 := by
  unfold Fmt.round
  split
  · exact f.isResult_signed neg (Nat.zero_le _)
  · dsimp only
    split
    · exact f.isResult_signed neg (Nat.zero_le _)
    · split
      · exact f.isResult_signed neg (ite_le_sup _ _ _ |>.trans (sup_le le_rfl (Nat.sub_le ..)))
      · next h => exact f.isResult_signed neg (Nat.le_of_not_le h)

theorem Exact.isResult_toFmt (f : Fmt) (h : 0 < f.mw) (r : Dir) (ftz : Bool) (scale : Int) (x : Exact) : f.IsResult (x.toFmt f r ftz scale).1 := by
  cases x with
  | nan bad => exact f.isResult_nan h
  | inf neg => exact f.isResult_signed neg le_rfl
  | fin neg m e => exact f.isResult_round r ftz neg m _

/-! ### NaN operands -/

/-- A NaN, with the invalid exception if an operand was signalling (R31, R33). -/
def Exact.NaNFrom (signalling : Bool) (x : Exact) : Prop := ∃ bad, x = .nan bad ∧ (signalling = true → bad = true)

theorem Exact.NaNFrom.mul_left {b : Bool} {x : Exact} (h : x.NaNFrom b) (y : Exact) : (x.mul y).NaNFrom b := by
  obtain ⟨bad, rfl, hb⟩ := h
  cases y with
  | nan z => exact ⟨_, rfl, fun hs => by rw [hb hs, Bool.true_or]⟩
  | inf | fin => exact ⟨_, rfl, hb⟩

theorem Exact.NaNFrom.mul_right {b : Bool} {y : Exact} (h : y.NaNFrom b) (x : Exact) : (x.mul y).NaNFrom b := by
  obtain ⟨bad, rfl, hb⟩ := h
  cases x with
  | nan z => exact ⟨_, rfl, fun hs => by rw [hb hs, Bool.or_true]⟩
  | inf | fin => exact ⟨_, rfl, hb⟩

theorem Exact.NaNFrom.add_left {b : Bool} {x : Exact} (h : x.NaNFrom b) (y : Exact) : (x.add y).NaNFrom b := by
  obtain ⟨bad, rfl, hb⟩ := h
  cases y with
  | nan z => exact ⟨_, rfl, fun hs => by rw [hb hs, Bool.true_or]⟩
  | inf | fin => exact ⟨_, rfl, hb⟩

theorem Exact.NaNFrom.add_right {b : Bool} {y : Exact} (h : y.NaNFrom b) (x : Exact) : (x.add y).NaNFrom b := by
  obtain ⟨bad, rfl, hb⟩ := h
  cases x with
  | nan z => exact ⟨_, rfl, fun hs => by rw [hb hs, Bool.or_true]⟩
  | inf | fin => exact ⟨_, rfl, hb⟩

theorem prodOf_nanFrom {b : Bool} {l : List FVal} (h : .nan b ∈ l) : (prodOf l).NaNFrom b := by
  have hb : (FVal.nan b).exact.NaNFrom b := ⟨b, rfl, id⟩
  induction l with
  | nil => cases h
  | cons x xs ih =>
    cases xs with
    | nil => rw [← List.mem_singleton.1 h]; exact hb
    | cons y ys =>
      rcases List.mem_cons.1 h with rfl | h
      · exact hb.mul_left _
      · exact (ih h).mul_right _

theorem sumOf_nanFrom {b : Bool} {x : Exact} {l : List Exact} (hx : x.NaNFrom b) (h : x ∈ l) : (sumOf l).NaNFrom b := by
  induction l with
  | nil => cases h
  | cons z zs ih =>
    cases zs with
    | nil => rw [← List.mem_singleton.1 h]; exact hx
    | cons y ys =>
      rcases List.mem_cons.1 h with rfl | h
      · exact hx.add_left _
      · exact (ih h).add_right _

theorem Fmt.value_of_isNaN (f : Fmt) {c : Nat} (h : f.isNaN c = true) : f.value c = .nan (f.isSNaN c) := by
  simp [Fmt.value, h]

/-- A NaN among the operands: the canonical NaN, invalid if the operand is signalling. -/
theorem Fmt.sumProd_of_isNaN (f : Fmt) (ftz : Bool) (scale : Int) {terms : List (List Nat)} {p : List Nat} {x : Nat} (hp : p ∈ terms) (hx : x ∈ p)
    (h : f.isNaN x = true) : ∃ bad, f.sumProd ftz scale terms = (f.nan, if bad then flagNV else 0) ∧ (f.isSNaN x = true → bad = true) := by
  have hprod : (prodOf (p.map f.value)).NaNFrom (f.isSNaN x) := prodOf_nanFrom (f.value_of_isNaN h ▸ List.mem_map_of_mem hx)
  obtain ⟨bad, hsum, hbad⟩ := sumOf_nanFrom hprod (List.mem_map_of_mem (f := fun t => prodOf (t.map f.value)) hp)
  exact ⟨bad, by rw [Fmt.sumProd, hsum]; rfl, hbad⟩

/-- Settles O25: rounding gives a sign and a magnitude up to that of ∞, and every sum or product with a NaN is one. -/
theorem nanResultsAreCanonical : Obligations.NaNResultsAreCanonical := by
  unfold Obligations.NaNResultsAreCanonical
  intro f hf ftz scale
  have hmw : 0 < f.mw := by revert f; decide
  refine ⟨fun _ => Exact.isResult_toFmt f hmw .nearest ftz scale _, fun _ _ => Exact.isResult_toFmt f hmw .nearest ftz scale _, ?_, ?_⟩
  · rintro terms ⟨p, hp, x, hx, hn⟩
    obtain ⟨bad, hsum, -⟩ := f.sumProd_of_isNaN ftz scale hp hx hn
    rw [hsum]
  · rintro terms ⟨p, hp, x, hx, hs⟩
    obtain ⟨bad, hsum, hbad⟩ := f.sumProd_of_isNaN ftz scale hp hx (Bool.and_eq_true_iff.1 hs).1
    rw [hsum, hbad hs]
    exact BitVec.and_self

end Sys2Proof.Machine

namespace Sys2Proof.Machine
open Sys2Proof

/-! ## Planes of accumulator tiles (R186, R187) -/

/-- A plane as it is read back: one of zeros has every word of a plane. -/
def storedPlane (p : List Word) : List Word := if p.all (· == 0) then zeroPlane else p

@[simp] theorem getD_zeroPlane (i : Nat) : zeroPlane.getD i 0 = 0 := by
  rw [zeroPlane, List.getD_eq_getElem?_getD, List.getElem?_getD_replicate_default_eq]

@[simp] theorem storedPlane_zeroPlane : storedPlane zeroPlane = zeroPlane := by
  unfold storedPlane; split <;> rfl

theorem getD_storedPlane (p : List Word) (i : Nat) : (storedPlane p).getD i 0 = p.getD i 0 := by
  unfold storedPlane
  split
  · next h =>
    rw [getD_zeroPlane]
    by_cases hi : i < p.length
    · rw [List.getD_eq_getElem _ _ hi]
      exact (beq_iff_eq.1 (List.all_eq_true.1 h _ (List.getElem_mem hi))).symm
    · rw [List.getD_eq_default _ _ (Nat.le_of_not_lt hi)]
  · rfl

/-- What the planes of a team are after one is set. -/
theorem Team.plane_setPlane (t : Team) (n j n' j' : Nat) (p : List Word) :
    (t.setPlane n j p).plane n' j' = if 8 * n' + j' = 8 * n + j then storedPlane p else t.plane n' j' := by
  simp only [Team.plane, Team.setPlane, storedPlane]
  split
  · simp only [Table.getD, Table.find_del]; split <;> rfl
  · rw [Table.getD_put]

theorem Team.plane_setPlane_self (t : Team) (n j : Nat) (p : List Word) : (t.setPlane n j p).plane n j = storedPlane p := by
  simp [Team.plane_setPlane]

theorem Team.setPlanes_zero (t : Team) (n : Nat) (f : Nat → List Word) : t.setPlanes n 0 f = t.setPlane n 0 (f 0) := rfl

theorem Team.setPlanes_succ (t : Team) (n k : Nat) (f : Nat → List Word) :
    t.setPlanes n (k + 1) f = (t.setPlanes n k f).setPlane n (k + 1) (f (k + 1)) := by
  unfold Team.setPlanes
  rw [List.range_succ, List.foldl_append]
  rfl

theorem Team.plane_setPlanes (t : Team) (n : Nat) {k j : Nat} (f : Nat → List Word) (h : j ≤ k) :
    (t.setPlanes n k f).plane n j = storedPlane (f j) := by
  induction k with
  | zero => rw [Nat.le_zero.1 h, Team.setPlanes_zero, Team.plane_setPlane_self]
  | succ k ih =>
    rw [Team.setPlanes_succ, Team.plane_setPlane]
    split
    · next hj => rw [show j = k + 1 by omega]
    · exact ih (by omega)

/-- The planes of other tiles: a tile has 8 of them. -/
theorem Team.plane_setPlanes_ne (t : Team) {n k n' j : Nat} (f : Nat → List Word) (hk : k < 8) (hn : n' ≠ n) (hj : j < 8) :
    (t.setPlanes n k f).plane n' j = t.plane n' j := by
  induction k with
  | zero => rw [Team.setPlanes_zero, Team.plane_setPlane, if_neg (by omega)]
  | succ k ih => rw [Team.setPlanes_succ, Team.plane_setPlane, if_neg (by omega), ih (by omega)]

@[simp] theorem Team.plane_setTag (t : Team) (n : Nat) (b : Bool) (n' j : Nat) : (t.setTag n b).plane n' j = t.plane n' j := rfl

theorem Team.contains_setTag (t : Team) (n : Nat) (b : Bool) : (t.setTag n b).s32.contains n = b := by
  cases b <;> simp [Team.setTag]

/-- A tangent count has 3 bits (R260). -/
theorem Grid.tangents_lt (g : Grid) : g.tangents < 8 := Nat.mod_lt _ (by decide)

/-! ### Rows of a plane -/

theorem length_setRow {p r : List Word} {i : Nat} (hr : r.length = 64) (hi : 64 * i + 64 ≤ p.length) : (setRow p i r).length = p.length := by
  simp [setRow, hr]; omega

/-- The words of a plane after a row of it is set. -/
theorem getD_setRow {p r : List Word} {i : Nat} (k : Nat) (hr : r.length = 64) (hi : 64 * i + 64 ≤ p.length) :
    (setRow p i r).getD k 0 = if 64 * i ≤ k ∧ k < 64 * i + 64 then r.getD (k - 64 * i) 0 else p.getD k 0 := by
  have htake : (p.take (64 * i)).length = 64 * i := by simp; omega
  unfold setRow
  by_cases hlow : k < 64 * i
  · rw [if_neg (by omega), List.append_assoc, List.getD_append _ _ _ _ (by omega)]
    simp [List.getD, hlow]
  · by_cases hhigh : k < 64 * i + 64
    · rw [if_pos (by omega), List.append_assoc, List.getD_append_right _ _ _ _ (by omega), htake, List.getD_append _ _ _ _ (by omega)]
    · rw [if_neg (by omega), List.getD_append_right _ _ _ _ (by simp; omega), List.length_append, htake, hr]
      simp [List.getD, show 64 * i + 64 + (k - (64 * i + 64)) = k by omega]

theorem length_wordsOf {n : Nat} {bs : List (BitVec 8)} (h : bs.length = 4 * n) : (wordsOf bs).length = n := by
  induction n generalizing bs with
  | zero => rw [List.length_eq_zero_iff.1 h]; rfl
  | succ n ih =>
    match bs, h with
    | a :: b :: c :: d :: bs, h =>
      simp only [wordsOf, List.length_cons]
      rw [ih (by simp only [List.length_cons] at h; omega)]

/-! ## Sums and products of elements (R43 to R45, R203) -/

theorem sat_eq_max_min {v lo hi : Int} (h : lo ≤ hi) : sat v lo hi = max lo (min hi v) := by
  unfold sat
  split
  · omega
  · split <;> omega

/-- An INT8 k-step adds the exact sum of the products. -/
theorem accumulate_int8 (satu : Bool) (ps : List (Nat × Nat)) (c : Word) :
    let p : Int := (ps.map fun y : Nat × Nat => (BitVec.ofNat 8 y.1).toInt * (BitVec.ofNat 8 y.2).toInt).sum
    accumulate 2 satu ps c = (BitVec.ofInt 32 (if satu then max (-(2 ^ 31)) (min (2 ^ 31 - 1) (c.toInt + p)) else c.toInt + p), 0) := by
  intro p
  have hp : ps.foldl (fun (x : Int) y => x + (BitVec.ofNat 8 y.1).toInt * (BitVec.ofNat 8 y.2).toInt) 0 = p := by
    rw [show p = _ from List.sum_eq_foldl, List.foldl_map]
  simp only [accumulate, if_true, hp]
  rw [sat_eq_max_min (by decide)]

theorem length_accumulateRow (ty : Nat) (satu : Bool) (a : List (Option Nat)) (cols : List (List (Option Nat))) (c : List Word) :
    (accumulateRow ty satu a cols c).1.length = min cols.length c.length := by
  simp [accumulateRow]

theorem getD_accumulateRow (ty : Nat) (satu : Bool) (a : List (Option Nat)) {cols : List (List (Option Nat))} {c : List Word} {n : Nat}
    (hb : n < cols.length) (hc : n < c.length) :
    (accumulateRow ty satu a cols c).1.getD n 0 = (accumulate ty satu (formed a (cols.getD n [])) (c.getD n 0)).1 := by
  simp [accumulateRow, List.getD, hb, hc]

@[simp] theorem length_columnsOf (rows : List (List (Option Nat))) : (columnsOf rows).length = 64 := by simp [columnsOf]

/-- The row of a plane that a row of A is accumulated into. -/
theorem length_planeRow {p : List Word} {r : Nat} (h : 64 * r + 64 ≤ p.length) : ((p.drop (64 * r)).take 64).length = 64 := by
  simp; omega

theorem getD_planeRow (p : List Word) (r : Nat) {n : Nat} (h : n < 64) : ((p.drop (64 * r)).take 64).getD n 0 = p.getD (64 * r + n) 0 := by
  simp [List.getD, h]

section
variable {ty : Nat} {satu : Bool} {cols : List (List (Option Nat))} (hcols : cols.length = 64)
include hcols

theorem length_accumulated {r : Nat} {c : List Word} (h : 64 * r + 64 ≤ c.length) (a : List (Option Nat)) :
    (accumulateRow ty satu a cols ((c.drop (64 * r)).take 64)).1.length = 64 := by
  rw [length_accumulateRow, hcols, length_planeRow h]; rfl

/-- The words of the rows above those that are accumulated into. -/
theorem getD_applyRows_above {rows : List (List (Option Nat))} {r : Nat} {c : List Word} (h : 64 * (r + rows.length) ≤ c.length) {k : Nat}
    (hk : k < 64 * r) : (applyRows ty satu cols rows r c).1.getD k 0 = c.getD k 0 := by
  induction rows generalizing r c with
  | nil => rfl
  | cons a rows ih =>
    rw [List.length_cons] at h
    have hr : 64 * r + 64 ≤ c.length := by omega
    have hlen := length_accumulated (ty := ty) (satu := satu) hcols hr a
    simp only [applyRows]
    rw [ih (by rw [length_setRow hlen hr]; omega) (by omega), getD_setRow k hlen hr, if_neg (by omega)]

/-- Each word of the rows that are accumulated into is that of its row of A and its column of B. -/
theorem getD_applyRows {rows : List (List (Option Nat))} {r : Nat} {c : List Word} (h : 64 * (r + rows.length) ≤ c.length) {i n : Nat}
    (hi : i < rows.length) (hn : n < 64) :
    (applyRows ty satu cols rows r c).1.getD (64 * (r + i) + n) 0 =
      (accumulate ty satu (formed (rows.getD i []) (cols.getD n [])) (c.getD (64 * (r + i) + n) 0)).1 := by
  induction rows generalizing r c i with
  | nil => exact absurd hi (Nat.not_lt_zero _)
  | cons a rows ih =>
    rw [List.length_cons] at h hi
    have hr : 64 * r + 64 ≤ c.length := by omega
    have hlen := length_accumulated (ty := ty) (satu := satu) hcols hr a
    have hrest : 64 * (r + 1 + rows.length) ≤ (setRow c r (accumulateRow ty satu a cols ((c.drop (64 * r)).take 64)).1).length := by
      rw [length_setRow hlen hr]; omega
    simp only [applyRows]
    cases i with
    | zero =>
      rw [getD_applyRows_above hcols hrest (by omega), getD_setRow _ hlen hr, if_pos (by omega), show 64 * (r + 0) + n - 64 * r = n by omega,
        getD_accumulateRow _ _ _ (by omega) (by rw [length_planeRow hr]; exact hn), getD_planeRow _ _ hn]
      rfl
    | succ i =>
      rw [show r + (i + 1) = r + 1 + i by omega, ih hrest (by omega), getD_setRow _ hlen hr, if_neg (by omega)]
      rfl

end

/-- The sums of two planes' words, where the planes are of the tile itself (R203). -/
theorem getD_addPlanes (s32 satu : Bool) {x y : List Word} {i : Nat} (hx : i < x.length) (hy : i < y.length) :
    (addPlanes s32 satu false x y).1.getD i 0 =
      if s32 then BitVec.ofInt 32 (if satu then max (-(2 ^ 31)) (min (2 ^ 31 - 1) ((x.getD i 0).toInt + (y.getD i 0).toInt))
        else (x.getD i 0).toInt + (y.getD i 0).toInt)
      else BitVec.ofNat 32 (f32.sumProd false 0 [[(x.getD i 0).toNat], [(y.getD i 0).toNat]]).1 := by
  cases s32 <;> simp [addPlanes, List.getD, hx, hy, sat_eq_max_min]

/-! ## Steps of an operation (R192, R195, R203) -/

@[simp] theorem MatrixOp.nextStep_kind (o : MatrixOp) (steps bytes made least : Nat) : (o.nextStep steps bytes made least).kind = o.kind := by
  unfold MatrixOp.nextStep; dsimp only; split <;> rfl

theorem MatrixOp.nextStep_pass (o : MatrixOp) {steps : Nat} (bytes made least : Nat) (h : o.step + 1 < steps) :
    (o.nextStep steps bytes made least).pass = o.pass := by
  unfold MatrixOp.nextStep; dsimp only; rw [if_pos h]

theorem MatrixOp.passes_pos (o : MatrixOp) (t : Team) (k : Nat) : 0 < o.passes t k := by
  unfold MatrixOp.passes
  split
  · split <;> omega
  · split <;> omega
  · split <;> omega
  · decide

/-- No operation is finished in its first pass. -/
theorem MatrixOp.not_finished_of_pass_zero {o : MatrixOp} (h : o.pass = 0) (t : Team) (k : Nat) : o.finished t k = false := by
  have := o.passes_pos t k
  simp [MatrixOp.finished, h]; omega

theorem MatrixOp.not_finished_of_not_begun {o : MatrixOp} (h : o.begun = false) (t : Team) (k : Nat) : o.finished t k = false := by
  simp [MatrixOp.finished, h]

/-- A queued operation runs its next step now: it can run, in its team's turn, and no check of the unit finds what it reads wrong. -/
structure StepsNow (s : State) (core op : Nat) (o : MatrixOp) : Prop where
  queued : ((s.core core).mq.find? fun o => o.id == op) = some o
  ready : s.opReady core o = true
  turn : s.opTurn core = some o.team
  residues : (o.readsPlanes (s.gridOf o.team).tangents).any (s.team o.team).accMismatch = false
  assay : (s.core core).assayBad = 0
  unfinished : o.finished (s.team o.team) (s.gridOf o.team).tangents = false

/-- The state in which an operation takes its team's turn. -/
def State.takeTurn (s : State) (core : Nat) (o : MatrixOp) : State := s.setCore core { s.core core with mturn := o.team }

/-- The state in which an operation takes its step: a tile is made ready before the first (R199). -/
def State.beginOp (s : State) (core : Nat) (o : MatrixOp) : State :=
  if o.begun then s.takeTurn core o
  else (s.takeTurn core o).setTeam o.team (o.start (s.team o.team) (s.gridOf o.team).tangents)

theorem State.beginOp_of_begun (s : State) (core : Nat) {o : MatrixOp} (h : o.begun = true) : s.beginOp core o = s.takeTurn core o := by
  simp [State.beginOp, h]

@[simp] theorem State.beginOp_mem (s : State) (core : Nat) (o : MatrixOp) : (s.beginOp core o).mem = s.mem := by
  unfold State.beginOp; split <;> rfl

theorem State.beginOp_core (s : State) (core : Nat) (o : MatrixOp) : (s.beginOp core o).core core = { s.core core with mturn := o.team } := by
  unfold State.beginOp; split <;> exact s.core_setCore_self core _

theorem State.beginOp_team (s : State) (core : Nat) {o : MatrixOp} (h : o.kind ≠ .mm) : (s.beginOp core o).team o.team = s.team o.team := by
  have hstart (t : Team) (k : Nat) : o.start t k = t := by
    unfold MatrixOp.start; split
    · next hk => exact absurd hk h
    · rfl
  unfold State.beginOp
  split
  · rfl
  · rw [State.team_setTeam_self, hstart]

theorem State.beginOp_gridOf (s : State) (core : Nat) {o : MatrixOp} (h : o.kind ≠ .mm) : (s.beginOp core o).gridOf o.team = s.gridOf o.team := by
  have hgrids : (s.beginOp core o).grids = s.grids := by unfold State.beginOp; split <;> rfl
  rw [State.gridOf, s.beginOp_team core h, State.grid, hgrids]; rfl

/-- MATRIX_STEP of an operation whose step goes on, but for an ACCLD that its last row finishes. -/
theorem StepsNow.goes {s s' : State} {core op : Nat} {o o' : MatrixOp} (h : StepsNow s core op o)
    (hstep : (s.beginOp core o).opStep (s.agentOf (opTag o.team op) .matrix o.team) { o with begun := true } = (s', .go o'))
    (hload : ∀ n s32, o'.kind = .accld n s32 → ∀ t k, o'.finished t k = false) :
    exec (.matrixStep core op) s = .next (s'.putOp core o') := by
  change execMatrixStep core op s = _
  unfold execMatrixStep
  have hassay : ((s.beginOp core o).core core).assayBad = 0 := by rw [s.beginOp_core]; exact h.assay
  rw [h.queued]
  refine (if_neg (by simp [h.ready, h.unfinished, h.turn])).trans ((if_neg (fun hbad => Bool.false_ne_true (h.residues.symm.trans hbad))).trans ?_)
  generalize hv : (if o.begun = true then _ else _ : State) = v
  obtain rfl : s.beginOp core o = v := hv
  dsimp only
  rw [hstep]
  refine (if_neg (by simp [hassay])).trans (congrArg Host.Outcome.next ?_)
  split
  · next n s32 hk => exact if_neg (by rw [hload n s32 hk]; exact Bool.false_ne_true)
  · rfl

@[simp] theorem State.putOp_team (s : State) (core : Nat) (o : MatrixOp) (team : Nat) : (s.putOp core o).team team = s.team team := rfl

theorem State.putOp_mq (s : State) (core : Nat) (o : MatrixOp) :
    ((s.putOp core o).core core).mq = (s.core core).mq.map fun x => if x.id = o.id then o else x :=
  congrArg Core.mq (s.core_setCore_self core _)

theorem MatrixOp.with_begun {o : MatrixOp} (h : o.begun = true) : { o with begun := true } = o := by
  cases o; cases h; rfl

/-- MATRIX_STEP of an operation that has begun. -/
theorem StepsNow.goes_of_begun {s s' : State} {core op : Nat} {o o' : MatrixOp} (h : StepsNow s core op o) (hb : o.begun = true)
    (hstep : (s.takeTurn core o).opStep (s.agentOf (opTag o.team op) .matrix o.team) o = (s', .go o'))
    (hload : ∀ n s32, o'.kind = .accld n s32 → ∀ t k, o'.finished t k = false) : exec (.matrixStep core op) s = .next (s'.putOp core o') :=
  h.goes (by rw [s.beginOp_of_begun core hb, MatrixOp.with_begun hb]; exact hstep) hload

/-! ### MMZ, ACCMV and ACCADD: whole planes -/

/-- An operation on whole planes changes its team in one step. -/
theorem StepsNow.whole {s : State} {core op : Nat} {o : MatrixOp} {t : Team} (h : StepsNow s core op o) (hload : ∀ n s32, o.kind ≠ .accld n s32)
    (hstep : (s.beginOp core o).opStep (s.agentOf (opTag o.team op) .matrix o.team) { o with begun := true } =
      ((s.beginOp core o).setTeam o.team t, .go { o with begun := true, pass := 1 })) :
    ∃ u, exec (.matrixStep core op) s = .next u ∧ u.mem = s.mem ∧ u.team o.team = t ∧
      (u.core core).mq = (s.core core).mq.map fun x => if x.id = o.id then { o with begun := true, pass := 1 } else x := by
  refine ⟨_, h.goes hstep fun n s32 hk => absurd hk (hload n s32), s.beginOp_mem core o, State.team_setTeam_self .., ?_⟩
  rw [State.putOp_mq]
  change ((s.beginOp core o).core core).mq.map _ = _
  rw [s.beginOp_core]

theorem State.opStep_mmz (s : State) (w : Agent) {o : MatrixOp} {n : Nat} {s32 : Bool} (hk : o.kind = .mmz n s32) :
    s.opStep w { o with begun := true } =
      (s.setTeam o.team (((s.team o.team).setPlanes n (s.gridOf o.team).tangents fun _ => zeroPlane).setTag n s32),
        .go { o with begun := true, pass := 1 }) := by
  simp only [State.opStep, hk]

theorem State.opStep_accmv (s : State) (w : Agent) {o : MatrixOp} {d n : Nat} (hk : o.kind = .accmv d n) :
    s.opStep w { o with begun := true } =
      (s.setTeam o.team (((s.team o.team).setPlanes d (s.gridOf o.team).tangents fun j => (s.team o.team).plane n j).setTag d
        ((s.team o.team).s32.contains n)), .go { o with begun := true, pass := 1 }) := by
  simp only [State.opStep, hk]

theorem State.opStep_accadd (s : State) (w : Agent) {o : MatrixOp} {d n : Nat} {satu : Bool} (hk : o.kind = .accadd d n satu) :
    ∃ t, s.opStep w { o with begun := true } = (s.setTeam o.team t, .go { o with begun := true, pass := 1 }) ∧
      (t.plane d 0 = storedPlane
        (addPlanes ((s.team o.team).s32.contains d) satu false ((s.team o.team).plane d 0) ((s.team o.team).plane n 0)).1) ∧
      ∀ n' j, n' ≠ d → j < 8 → t.plane n' j = (s.team o.team).plane n' j := by
  simp only [State.opStep, hk]
  refine ⟨_, rfl, ?_, fun n' j hn hj => Team.plane_setPlanes_ne _ _ (Grid.tangents_lt _) hn hj⟩
  refine (Team.plane_setPlanes _ _ _ (Nat.zero_le _)).trans ?_
  simp [List.range_succ_eq_map]

/-! ### ACCLD and ACCST: a row of a tile -/

theorem State.opStep_accld {s s₂ : State} {w : Agent} {o : MatrixOp} {n : Nat} {s32 : Bool} {got : List (List (BitVec 8))} (hk : o.kind = .accld n s32)
    (hp : o.pass = 0)
    (hread : s.unitRead w o.team (some .engineRead) [(tileRow o.quad (s.gridOf o.team).tstride o.step 0, 256)] = (s₂, .ok got)) :
    ∃ t, s.opStep w o = (s₂.setTeam o.team t, .go (o.nextStep 64 256 0 0)) ∧
      t.plane n 0 = storedPlane (setRow ((s₂.team o.team).plane n 0) o.step (wordsOf got.flatten)) := by
  simp only [State.opStep, hk, State.tileStep, hp, if_true, hread]
  exact ⟨_, rfl, Team.plane_setPlane_self ..⟩

theorem State.opStep_accst {s s₂ : State} {w : Agent} {o : MatrixOp} {n : Nat} (hk : o.kind = .accst n) (hp : o.pass = 0)
    (hwrite : s.unitWrite w o.team (some .groupStore) (tileRow o.quad (s.gridOf o.team).tstride o.step 0)
      (bytesOf ((((s.team o.team).plane n 0).drop (64 * o.step)).take 64)) = (s₂, .ok ())) :
    s.opStep w o = (s₂, .go (o.nextStep 64 256 0 0)) := by
  simp only [State.opStep, hk, State.tileStep, hp, Bool.false_eq_true, if_false, hwrite]

/-- MATRIX_STEP of an ACCLD's row, but for the last of a plane. -/
theorem StepsNow.accld {s s₂ : State} {core op : Nat} {o : MatrixOp} {n : Nat} {s32 : Bool} {got : List (List (BitVec 8))} (h : StepsNow s core op o)
    (hk : o.kind = .accld n s32) (hb : o.begun = true) (hp : o.pass = 0) (hs : o.step + 1 < 64)
    (hread : (s.takeTurn core o).unitRead (s.agentOf (opTag o.team op) .matrix o.team) o.team (some .engineRead)
      [(tileRow o.quad (s.gridOf o.team).tstride o.step 0, 256)] = (s₂, .ok got)) :
    ∃ u, exec (.matrixStep core op) s = .next u ∧ u.mem = s₂.mem ∧
      (u.team o.team).plane n 0 = storedPlane (setRow ((s₂.team o.team).plane n 0) o.step (wordsOf got.flatten)) := by
  obtain ⟨t, hstep, hplane⟩ := State.opStep_accld (s := s.takeTurn core o) hk hp hread
  refine ⟨_, h.goes_of_begun hb hstep fun _ _ _ t k => MatrixOp.not_finished_of_pass_zero ?_ t k, rfl, ?_⟩
  · rw [MatrixOp.nextStep_pass _ _ _ _ hs]; exact hp
  · rw [State.putOp_team, State.team_setTeam_self]; exact hplane

/-- MATRIX_STEP of an ACCST's row. -/
theorem StepsNow.accst {s s₂ : State} {core op : Nat} {o : MatrixOp} {n : Nat} (h : StepsNow s core op o) (hk : o.kind = .accst n)
    (hb : o.begun = true) (hp : o.pass = 0)
    (hwrite : (s.takeTurn core o).unitWrite (s.agentOf (opTag o.team op) .matrix o.team) o.team (some .groupStore)
      (tileRow o.quad (s.gridOf o.team).tstride o.step 0) (bytesOf ((((s.team o.team).plane n 0).drop (64 * o.step)).take 64)) = (s₂, .ok ())) :
    ∃ u, exec (.matrixStep core op) s = .next u ∧ u.mem = s₂.mem := by
  have hstep := State.opStep_accst (s := s.takeTurn core o) hk hp hwrite
  refine ⟨_, h.goes_of_begun hb hstep fun m s32 hl => ?_, rfl⟩
  rw [MatrixOp.nextStep_kind] at hl
  exact absurd (hk.symm.trans hl) (by simp)

/-! ### A dense k-step -/

/-- The canonical type of an operation's elements (R189). -/
def MatrixOp.elemType (o : MatrixOp) : Nat := mapType (o.maps.getD 0 0)

/-- The rows of A in a dense k-step, and those of B, for the operands of its pass (R46, R189). -/
def MatrixOp.rowsA (o : MatrixOp) (ts : Nat) : List (Nat × Nat) := panelRows (o.maps.getD 0 0) false o.step (((passOf o.pass).1 * ts : Nat) : Int)
def MatrixOp.rowsB (o : MatrixOp) (ts : Nat) : List (Nat × Nat) := panelRows (o.maps.getD 1 0) true o.step (((passOf o.pass).2.1 * ts : Nat) : Int)

/-- The plane of C in an operation's pass (R46). -/
def MatrixOp.planeC (o : MatrixOp) (t : Team) : List Word := t.plane (opAcc o.quad) (passOf o.pass).2.2

/-- The elements of a row of a dense operand, all of them present. -/
def MatrixOp.elems (o : MatrixOp) (bs : List (BitVec 8)) : List (Option Nat) := (elements (elemSize o.elemType) bs).map some

/-- The columns of B and the rows of A from what a dense k-step has read: 32 rows of B before those of A (R189). -/
def MatrixOp.colsRead (o : MatrixOp) (got : List (List (BitVec 8))) : List (List (Option Nat)) := columnsOf ((got.take 32).map o.elems)
def MatrixOp.rowsRead (o : MatrixOp) (got : List (List (BitVec 8))) : List (List (Option Nat)) := (got.drop 32).map o.elems

theorem State.plane_putPlane (s : State) (team tile j : Nat) (p : List Word) (fl : BitVec 6) :
    ((s.putPlane team tile j p fl).team team).plane tile j = storedPlane p := by
  rw [State.putPlane, State.team_setTeam_self]
  exact Team.plane_setPlane_self ..

theorem State.opStep_dense {s s₁ s₂ s₃ : State} {w : Agent} {o : MatrixOp} {brows arows : List (List (Nat × Nat × Loc))} {got : List (List (BitVec 8))}
    (hk : o.kind = .mm) (hd : opSparse o.quad = false) (hrow : o.row = 0)
    (hB : s.rowsLocs w o.team (some .engineRead) .load (o.rowsB (s.gridOf o.team).tstride) = (s₁, brows, none))
    (hA : s₁.rowsLocs w o.team (some .engineRead) .load (o.rowsA (s.gridOf o.team).tstride) = (s₂, arows, none))
    (hR : s₂.readRows w (brows ++ arows) = (s₃, .ok got)) :
    ∃ fl made, s.opStep w o = (s₃.putPlane o.team (opAcc o.quad) (passOf o.pass).2.2
        (applyRows o.elemType (opSat o.quad) (o.colsRead got) (o.rowsRead got) 0 (o.planeC (s₃.team o.team))).1 fl,
      .go (o.nextStep (opSteps o.quad) (4096 * elemSize o.elemType) made 0)) := by
  unfold MatrixOp.rowsA at hA
  unfold MatrixOp.rowsB at hB
  simp only [State.opStep, hk, hd, Bool.false_eq_true, if_false, State.denseStep, hB, hrow, List.drop_zero, hA, hR]
  exact ⟨_, _, rfl⟩

/-- MATRIX_STEP of a dense k-step whose rows are all located and read. -/
theorem StepsNow.dense {s s₁ s₂ s₃ : State} {core op : Nat} {o : MatrixOp} {brows arows : List (List (Nat × Nat × Loc))} {got : List (List (BitVec 8))}
    (h : StepsNow s core op o) (hk : o.kind = .mm) (hb : o.begun = true) (hd : opSparse o.quad = false) (hrow : o.row = 0)
    (hB : (s.takeTurn core o).rowsLocs (s.agentOf (opTag o.team op) .matrix o.team) o.team (some .engineRead) .load
      (o.rowsB (s.gridOf o.team).tstride) = (s₁, brows, none))
    (hA : s₁.rowsLocs (s.agentOf (opTag o.team op) .matrix o.team) o.team (some .engineRead) .load
      (o.rowsA (s.gridOf o.team).tstride) = (s₂, arows, none))
    (hR : s₂.readRows (s.agentOf (opTag o.team op) .matrix o.team) (brows ++ arows) = (s₃, .ok got)) (hlen : (got.drop 32).length ≤ 64)
    (hplane : (o.planeC (s₃.team o.team)).length = 4096) :
    ∃ u, exec (.matrixStep core op) s = .next u ∧ u.mem = s₃.mem ∧ ∀ i n, i < (got.drop 32).length → n < 64 →
      (o.planeC (u.team o.team)).getD (64 * i + n) 0 =
        (accumulate o.elemType (opSat o.quad) (formed (o.elems ((got.drop 32).getD i [])) ((o.colsRead got).getD n []))
          ((o.planeC (s₃.team o.team)).getD (64 * i + n) 0)).1 := by
  obtain ⟨fl, made, hstep⟩ := State.opStep_dense (s := s.takeTurn core o) hk hd hrow hB hA hR
  refine ⟨_, h.goes_of_begun hb hstep fun m s32 hl => ?_, rfl, fun i n hi hn => ?_⟩
  · rw [MatrixOp.nextStep_kind] at hl
    exact absurd (hk.symm.trans hl) (by simp)
  · have hrows : (o.rowsRead got).length = (got.drop 32).length := List.length_map _
    have hrow : (o.rowsRead got).getD i [] = o.elems ((got.drop 32).getD i []) := by
      rw [List.getD_eq_getElem _ _ (hi.trans_eq hrows.symm), List.getD_eq_getElem _ _ hi]
      exact List.getElem_map _
    rw [State.putOp_team, MatrixOp.planeC, State.plane_putPlane, getD_storedPlane, ← hrow]
    have := getD_applyRows (ty := o.elemType) (satu := opSat o.quad) (cols := o.colsRead got) (length_columnsOf _) (rows := o.rowsRead got) (r := 0)
      (c := o.planeC (s₃.team o.team)) (by omega) (hi.trans_eq hrows.symm) hn
    rwa [Nat.zero_add] at this

/-! ## MATRIX_COMPLETE (R196) -/

theorem matrixComplete_counted {s s₂ : State} {core op : Nat} {o : MatrixOp} (hq : ((s.core core).mq.find? fun o => o.id == op) = some o)
    (hr : s.opReady core o = true) (hf : o.finished (s.team o.team) (s.gridOf o.team).tangents = true)
    (hw : s.agentWaits (s.agentOf (opTag o.team op) .matrix o.team) = false)
    (hc : ((s.setCore core { s.core core with mq := (s.core core).mq.filter fun x => x.id != op }).setVdev (s.gridOf o.team).vdev
      { s.vdev (s.gridOf o.team).vdev with
        meters := (s.vdev (s.gridOf o.team).vdev).meters.set 1
          ((s.vdev (s.gridOf o.team).vdev).meters.get 1 + BitVec.ofNat 64 (o.clocks (s.gridOf o.team).tangents)) }).countFor o.team o.bar o.bytes =
        (s₂, false)) :
    exec (.matrixComplete core op) s = .next s₂ := by
  change execMatrixComplete core op s = _
  unfold execMatrixComplete
  rw [hq]
  refine (if_neg (by simp [hr, hf, hw])).trans ?_
  dsimp only
  generalize hv : State.countFor _ _ _ _ = v
  obtain rfl : v = (s₂, false) := hv.symm.trans hc
  rfl

/-- Settles O49: each kind of operation by what its step does to the planes of its tile. -/
theorem matrixEventsComplete : Obligations.MatrixEventsComplete := by
  unfold Obligations.MatrixEventsComplete
  intro s core op o hq hr k w turn s0 went plane others
  have now (ht : turn) (hf : o.finished (s.team o.team) k = false) : StepsNow s core op o := by
    obtain ⟨hturn, hres, hassay⟩ := ht
    exact ⟨hq, hr, hturn, hres, hassay, hf⟩
  refine ⟨?_, ?_, ?_, ?_, ?_, ?_, accumulate_int8, ?_⟩
  · intro n s32 ht hk hb
    have hmm : o.kind ≠ .mm := by simp [hk]
    obtain ⟨u, hu, hmem, hteam, hmq⟩ := (now ht (MatrixOp.not_finished_of_not_begun hb _ _)).whole (by simp [hk]) (State.opStep_mmz _ _ hk)
    rw [s.beginOp_team core hmm, s.beginOp_gridOf core hmm] at hteam
    refine ⟨u, hu, hmem, fun n' j hn hj => ?_, fun j hj => ?_, ?_, hmq⟩
    · change (u.team o.team).plane n' j = _
      rw [hteam]
      exact Team.plane_setPlanes_ne _ _ (Grid.tangents_lt _) hn hj
    · change (u.team o.team).plane n j = _
      rw [hteam, Team.plane_setTag, Team.plane_setPlanes _ _ _ hj, storedPlane_zeroPlane]
    · rw [hteam, Team.contains_setTag]
  · intro d n ht hk hb
    have hmm : o.kind ≠ .mm := by simp [hk]
    obtain ⟨u, hu, hmem, hteam, hmq⟩ := (now ht (MatrixOp.not_finished_of_not_begun hb _ _)).whole (by simp [hk]) (State.opStep_accmv _ _ hk)
    rw [s.beginOp_team core hmm, s.beginOp_gridOf core hmm] at hteam
    refine ⟨u, hu, hmem, fun n' j hn hj => ?_, fun j i hj => ?_, ?_, hmq⟩
    · change (u.team o.team).plane n' j = _
      rw [hteam]
      exact Team.plane_setPlanes_ne _ _ (Grid.tangents_lt _) hn hj
    · change ((u.team o.team).plane d j).getD i 0 = _
      rw [hteam, Team.plane_setTag, Team.plane_setPlanes _ _ _ hj, getD_storedPlane]
    · rw [hteam, Team.contains_setTag]
  · intro d n satu ht hk hb
    have hmm : o.kind ≠ .mm := by simp [hk]
    obtain ⟨t, hstep, hplane, hothers⟩ := (s.beginOp core o).opStep_accadd w hk
    obtain ⟨u, hu, hmem, hteam, hmq⟩ := (now ht (MatrixOp.not_finished_of_not_begun hb _ _)).whole (by simp [hk]) hstep
    rw [s.beginOp_team core hmm] at hplane hothers
    refine ⟨u, hu, hmem, fun n' j hn hj => ?_, fun i hi hx hy => ?_, hmq⟩
    · change (u.team o.team).plane n' j = _
      rw [hteam]
      exact hothers n' j hn hj
    · change ((u.team o.team).plane d 0).getD i 0 = _
      rw [hteam, hplane, getD_storedPlane, getD_addPlanes _ _ (hi.trans_eq hx.symm) (hi.trans_eq hy.symm)]
  · intro n s32 s₂ got ht hk hb hp hs hread hgot hlen
    obtain ⟨u, hu, hmem, hplane⟩ := (now ht (MatrixOp.not_finished_of_pass_zero hp _ _)).accld hk hb hp hs hread
    refine ⟨u, hu, hmem, fun i _ => ?_⟩
    change ((u.team o.team).plane n 0).getD i 0 = _
    rw [hplane, getD_storedPlane, getD_setRow i (length_wordsOf (n := 64) hgot) (by rw [hlen]; omega)]
  · intro n s₂ ht hk hb hp _ hwrite
    exact (now ht (MatrixOp.not_finished_of_pass_zero hp _ _)).accst hk hb hp hwrite
  · intro s₁ s₂ s₃ brows arows got ht hk hb hf hd hrow sab ts ty tile elems hB hA hR hlen hplane
    exact (now ht hf).dense hk hb hd hrow hB hA hR hlen hplane
  · intro s₂ hf hw g s₁ hc
    refine ⟨matrixComplete_counted hq hr hf hw hc, fun hbar => ?_⟩
    rw [hbar] at hc
    exact (Prod.mk.inj hc).1.symm

end Sys2Proof.Machine

namespace Sys2Proof

/-! ## Fields of an instruction word (R56) -/

/-- Two fields side by side, as a number. -/
theorem toNat_append_add {m n : Nat} (x : BitVec m) (y : BitVec n) : (x ++ y).toNat = x.toNat * 2 ^ n + y.toNat := by
  rw [BitVec.toNat_append, ← Nat.shiftLeft_add_eq_or_of_lt y.isLt, Nat.shiftLeft_eq]

/-- The fields that a word is cut into make up the word (R56). -/
theorem joinWord_splitWord (w : Word) : joinWord (splitWord w) = w := by
  simp (disch := rfl) only [joinWord, splitWord, BitVec.extractLsb'_append_extractLsb'_eq_extractLsb', BitVec.extractLsb'_eq_self]

/-- Bit M of a word that is cut into its fields. -/
theorem splitWord_m (w : Word) : (splitWord w).m = if hasMore w then 1 else 0 := by
  have h : (splitWord w).m.getLsbD 0 = w.getLsbD 0 := by simp [splitWord]
  rw [hasMore, ← h]
  generalize (splitWord w).m = m
  revert m; decide

/-! ## Chains of modifier words (R57) -/

/-- The words that are taken as modifier words are a chain, which is empty exactly where the word before it says so. -/
theorem takeMods_eq_some {more : Bool} {ws ms rest : List Word} (h : takeMods more ws = some (ms, rest)) :
    ws = ms ++ rest ∧ modsOk ms = true ∧ ms.isEmpty = !more := by
  induction more, ws using takeMods.induct generalizing ms with
  | case1 ws =>
    simp only [takeMods, Option.some.injEq, Prod.mk.injEq] at h
    obtain ⟨rfl, rfl⟩ := h
    exact ⟨rfl, rfl, rfl⟩
  | case2 => simp [takeMods] at h
  | case3 w ws ih =>
    obtain ⟨⟨ms', rest'⟩, ht, he⟩ := Option.map_eq_some_iff.1 h
    obtain ⟨rfl, rfl⟩ := Prod.mk.inj he
    obtain ⟨rfl, hok, hm⟩ := ih ht
    cases ms' <;> simp_all [modsOk]

/-- A tail that an encoding admits is a chain of modifier words. -/
theorem modsOk_of_tailOk {need : Bool} {t : Tail} (h : tailOk need t = true) : modsOk t.mods = true :=
  (Bool.and_eq_true .. ▸ h).1

/-! ## The decoder answers the encoded words -/

/-- What the decoder makes of a word and those after it, where it makes an instruction of them. -/
theorem decodeWords_eq_ok {ws rest : List Word} {i : Instr} (h : decodeWords ws = .ok (i, rest)) :
    ∃ w ms, ws = w :: (ms ++ rest) ∧ modsOk ms = true ∧ ms.isEmpty = !hasMore w ∧ decodeWord w ms = .ok i := by
  cases ws with
  | nil => simp [decodeWords] at h
  | cons w ws =>
    unfold decodeWords at h
    cases ht : takeMods (hasMore w) ws with
    | none => simp [ht] at h
    | some x =>
      obtain ⟨ms, rest'⟩ := x
      obtain ⟨rfl, hok, hm⟩ := takeMods_eq_some ht
      cases hd : decodeWord w ms with
      | error e => simp [ht, hd, Except.map] at h
      | ok j =>
        simp only [ht, hd, Except.map, Except.ok.injEq, Prod.mk.injEq] at h
        obtain ⟨rfl, rfl⟩ := h
        exact ⟨w, ms, rfl, hok, hm, hd⟩

/-- An instruction is answered with its unused bits 0, or not at all (R70). -/
theorem unusedZero_eq_ok {ok : Bool} {i j : Instr} : unusedZero ok j = .ok i ↔ ok = true ∧ j = i := by
  cases ok <;> simp [unusedZero]

/-- THE ENCODER WRITES THE FIELDS THAT THE OPCODE MAP READS (R67 to R69): in every row of the map, the operands put back where they were cut out, the
selecting fields of the row and zeros in its unused bits are the fields that were given. -/
theorem encodeFields_of_decodeOp {op : Nat} {d a b : BitVec 7} {t : Tail} {i : Instr} (h : decodeOp op d a b t = .ok i) :
    encodeFields i = fieldsOf (BitVec.ofNat 7 op) d a b t := by
  revert h
  fun_cases decodeOp op d a b t
  all_goals simp only [unusedZero_eq_ok, Except.ok.injEq, reduceCtorEq, false_imp_iff, and_imp, decide_eq_true_eq]
  all_goals intros
  all_goals subst_vars
  all_goals simp only [encodeFields, fieldsOf, Option.some.injEq, Prod.mk.injEq, WordFields.mk.injEq, true_and, and_true, BitVec.ofNat_eq_ofNat]
  all_goals simp only [← BitVec.toNat_inj, toNat_append_add, BitVec.extractLsb'_toNat, BitVec.ofNat_eq_ofNat, BitVec.toNat_ofNat,
    Nat.shiftRight_eq_div_pow, Nat.reducePow, Nat.reduceMod, Nat.zero_mod, Nat.div_one, Nat.zero_mul, Nat.zero_add, imp_false] at *
  all_goals omega

/-- An encoded instruction has a tail of its own: its modifier words follow, and bit M says whether there are any (R56, R57). -/
theorem encodeFields_tail {i : Instr} {f : WordFields} {ms : List Word} (h : encodeFields i = some (f, ms)) :
    f.m = (if ms.isEmpty then 0 else 1) ∧ (i.wf = true → modsOk ms = true) := by
  cases i
  all_goals simp only [encodeFields, fieldsOf, Option.some.injEq, reduceCtorEq, Prod.mk.injEq] at h
  all_goals obtain ⟨rfl, rfl⟩ := h
  all_goals refine ⟨rfl, fun hw => ?_⟩
  all_goals simp only [Instr.wf, Bool.and_eq_true, decide_eq_true_eq] at hw
  case fcvt | vote | gred | gscan => exact modsOk_of_tailOk hw.1
  all_goals exact modsOk_of_tailOk hw

/-- THE OPCODE MAP ANSWERS AN ENCODED INSTRUCTION (R67 to R69): each field is the operand that was put there, whatever lies beside it, the selecting
fields choose the row, and its unused bits are 0. -/
theorem decodeOp_of_encodeFields {i : Instr} {f : WordFields} {ms : List Word} (hw : i.wf = true) (h : encodeFields i = some (f, ms)) :
    decodeOp f.op.toNat f.d f.a f.b ⟨f.stall, ms⟩ = .ok i := by
  cases i
  all_goals simp only [encodeFields, fieldsOf, Option.some.injEq, reduceCtorEq, Prod.mk.injEq] at h
  all_goals obtain ⟨rfl, rfl⟩ := h
  all_goals simp only [BitVec.reduceToNat]
  all_goals rw [decodeOp]
  all_goals simp (disch := decide) only [unusedZero, BitVec.extractLsb'_append_eq_of_le, BitVec.extractLsb'_append_eq_of_add_le,
    BitVec.extractLsb'_eq_self, BitVec.extractLsb'_append_extractLsb'_eq_extractLsb', BitVec.reduceToNat, BitVec.ofNat_eq_ofNat,
    BitVec.reduceExtractLsb', Nat.reduceSub, decide_true, ite_true, and_self]
  all_goals simp only [Instr.wf, Bool.and_eq_true, decide_eq_true_eq] at hw
  case fcvt d a c r t =>
    have hc : c.toNat < 24 := hw.2
    split
    case h_9 => rfl
    all_goals omega
  case vote | gred | gscan => exact if_neg (by omega)

/-- Settles O1: the word and its modifier words are taken apart as they were put together, and the opcode map answers the instruction. -/
theorem encodingRoundTrips : Obligations.EncodingRoundTrips := by
  intro i ws rest hw he
  obtain ⟨⟨⟨op, d, a, b, stall, m⟩, ms⟩, hf, rfl⟩ := Option.map_eq_some_iff.1 he
  obtain ⟨rfl, hok⟩ := encodeFields_tail hf
  refine (decodeWords_fieldsOf op d a b ⟨stall, ms⟩ rest (hok hw)).trans ?_
  rw [decodeOp_of_encodeFields hw hf]
  rfl

/-- A word and the chain of modifier words that its bit M announces are the encoded words of the instruction that they decode to. -/
theorem encode_of_decodeWord {w : Word} {ms : List Word} {i : Instr} (hd : decodeWord w ms = .ok i) (hm : ms.isEmpty = !hasMore w) :
    encode i = some (w :: ms) := by
  have hbit : (splitWord w).m = if ms.isEmpty then 0 else 1 := by rw [splitWord_m, hm]; cases hasMore w <;> rfl
  have hf : encodeFields i = some (splitWord w, ms) := by
    rw [encodeFields_of_decodeOp hd, BitVec.ofNat_toNat, BitVec.setWidth_eq, fieldsOf, ← hbit]
  rw [encode, hf, Option.map_some, joinWord_splitWord]

/-- Settles O2: the fields of an accepted word are those that its instruction is encoded with, and bit M says whether the chain of modifier words that
was taken is empty. -/
theorem decodedWordsHaveOneEncoding : Obligations.DecodedWordsHaveOneEncoding := by
  intro ws rest i h
  obtain ⟨w, ms, rfl, hok, hm, hd⟩ := decodeWords_eq_ok h
  exact ⟨w :: ms, encode_of_decodeWord hd hm, rfl, hok⟩

/-- Settles O3: each word, evaluated. -/
theorem sampleWordsDecode : Obligations.SampleWordsDecode := by
  unfold Obligations.SampleWordsDecode
  exact ⟨rfl, rfl, rfl, rfl, rfl, rfl⟩

end Sys2Proof

namespace Sys2Proof.Machine
open Sys2Proof

/-! ## What a step does with the words at the PC (R50, R54, R55, R70) -/

/-- A group's translation of an address is what the core's translation caches and tables answer, where they answer a location (R282). -/
theorem State.groupLoc_of_lookCore {s : State} {slot : Nat} {g : Group} {e : Engine} {k : Access} {ea : Nat} {l : Loc} {x : Xlation}
    (h : s.lookCore (slotCore slot) (s.owner g).1 (s.owner g).2 k ea = .ok l x) : s.groupLoc slot g e k ea = .ok l := by
  simp [State.groupLoc, h]

/-- The word at a PC is the four bytes at the location that the PC is translated to (R50). -/
theorem State.fetch_of_lookCore {s : State} {slot : Nat} {g : Group} {pc : BitVec 56} {l : Loc} {x : Xlation} {bs : List (BitVec 8)}
    (hw : isWindow pc.toNat = false) (hl : s.lookCore (slotCore slot) (s.owner g).1 (s.owner g).2 .fetch pc.toNat = .ok l x)
    (hb : s.readLoc l 4 = .ok bs) : s.fetch slot g pc = .ok (BitVec.ofNat 32 (ofBytes bs)) := by
  simp [State.fetch, hw, State.groupLoc_of_lookCore hl, hb]

/-- The chain of words goes on as bit M of each says (R57). -/
theorem State.fetchChain_succ {s : State} {slot : Nat} {g : Group} {pc : BitVec 56} {w : Word} (n : Nat) (h : s.fetch slot g pc = .ok w) :
    s.fetchChain slot g pc (n + 1) = if hasMore w then (s.fetchChain slot g (pc + 4) n).map (w :: ·) else .ok [w] := by
  rw [State.fetchChain, h]

/-- Inside a clause, the next instruction is the one that the fetched words decode to (R70). -/
theorem State.nextInstr_eq_ok {s : State} {r : Run} {g : Group} {h : Word} {left : Nat} {ws rest : List Word} {i : Instr}
    (hp : g.checkControl (lanesOf r.set) = .ok ()) (hc : (g.lane (lowest r.set)).clause = some (h, left)) (hi : r.issued < 24)
    (hf : s.fetchChain r.slot g (g.lane (lowest r.set)).pc (min left 6) = .ok ws) (hd : decodeWords ws = .ok (i, rest)) :
    s.nextInstr r g = .ok i := by
  simp [State.nextInstr, hc, hp, require, hi, hf, hd, bind, Except.bind]

/-- The run and the group of the sub-core that has the turn. -/
theorem State.issuing_eq_some {s : State} {core sc : Nat} {r : Run} {g : Group} (h : s.issuing = some (core, sc, r, g)) :
    core = s.turn / 12 ∧ sc = s.turn % 12 ∧ (s.core core).runs.find sc = some r ∧ s.groups.find r.slot = some g := by
  unfold State.issuing at h
  split at h
  · cases h
  · next r' hr =>
    split at h
    · cases h
    · next hg =>
      cases h
      exact ⟨rfl, rfl, hr, hg⟩

/-- Settles O8: the run that has the turn goes on with the instruction of its fetched words, and an event that is due goes before it. -/
theorem stepRunsTheDecodedInstruction : Obligations.StepRunsTheDecodedInstruction := by
  refine ⟨?_, fun _ _ _ _ _ _ _ hw hl hb => State.fetch_of_lookCore hw hl hb, fun _ _ _ _ n _ h => State.fetchChain_succ n h, ?_⟩
  · intro s core sc r g h left ws i rest hagenda hpower hwait hturn himp hctl hclause hissued hfetch hdecode
    obtain ⟨rfl, rfl, hrun, hgroup⟩ := State.issuing_eq_some hturn
    have hnext := State.nextInstr_eq_ok hctl hclause hissued hfetch hdecode
    simp [step, hagenda, hpower, hwait, hrun, runStep, hgroup, himp, hclause, hnext]
  · intro s e es hagenda hpower
    simp [step, hagenda, hpower]

/-! ## The issue checks (R70, R27) -/

@[simp] theorem ok_bind {ε α β : Type} (a : α) (f : α → Except ε β) : ((Except.ok a : Except ε α) >>= f) = f a := rfl
@[simp] theorem error_bind {ε α β : Type} (e : ε) (f : α → Except ε β) : ((Except.error e : Except ε α) >>= f) = .error e := rfl
@[simp] theorem require_true (c : Cause) : require true c = .ok () := rfl
@[simp] theorem require_false (c : Cause) : require false c = trapE c := rfl

/-- Without a DUAL word a word computes every tangent of its group (R61). -/
theorem dualOf_none {cls : OpClass} {a : Accept} {k : Nat} {wide on : Bool} {m : Mods} (h : m.dual = none) :
    dualOf cls a k wide on m = .ok ((List.range k).map (· + 1), 0) := by
  simp [dualOf, h]

/-- A word whose checks trap takes the exception where it stands. -/
theorem issue_trap {f : Form} {t : Tail} {s : State} {body : Issue → State → Except Stop (State × BitVec 64)} {core sc : Nat} {r : Run} {g : Group}
    {tr : Trap} (hturn : s.issuing = some (core, sc, r, g)) (h : prepare f t s r (f.arrive t s r g) = .error (.trap tr)) :
    issue f t s body = .next (s.raise (trapSite t r (f.arrive t s r g)) tr) := by
  simp [issue, hturn, h, Except.bind, trapSite]

/-- With no result outstanding, none is read too early. -/
theorem checkHazards_of_none {s : State} {g : Group} (h : g.hazards = []) (reads all : List RegName) : checkHazards s g reads all = .ok () := by
  simp [checkHazards, checkStall, Group.hazardOn, h]

/-- With no load outstanding, none is waited for. -/
theorem checkPending_of_none {s : State} {slot : Nat} {g : Group} (h : g.loads = []) (names : List RegName) : checkPending s slot g names = .ok () := by
  simp [checkPending, Group.pendingOn, h]

/-- Operands that are no queues pop nothing. -/
theorem popAll_of_no_queue (s : State) (slot : Nat) (g : Group) {os : List Opnd} (h : ∀ o ∈ os, isQ o.f = false) : popAll s slot g os = .ok ([], g) := by
  induction os with
  | nil => rfl
  | cons o os ih => simp [popAll, h o (by simp), ih fun p hp => h p (by simp [hp])]

/-- A group that holds no code that differs from its register's value raises no RESIDUE (R22). -/
theorem Issue.checkResidue_of_no_codes {i : Issue} (h : i.g.codes = []) (srcs : List Opnd) (reads : List RegName) (result : Bool) :
    i.checkResidue srcs reads result = .ok () := by
  have hm : i.g.mismatch = fun _ => false := by funext c; simp [Group.mismatch, h]
  rw [Issue.checkResidue, List.find?_eq_none.2 (by simp [hm, Group.badEntry, h])]
  simp [hm]

/-- The frame of a word without a DUAL word, before its queue operands are popped. -/
def Run.plainFrame (r : Run) (t : Tail) (s : State) (g : Group) : Issue := r.frame t s g ((List.range (s.gridOf g.team).tangents).map (· + 1), 0)

section
variable {f : Form} {t : Tail} {s : State} {r : Run} {g : Group}

/-- Near-bank words apart, every word is checked for its class first (R52). -/
theorem not_near_or_feature (hn : f.cls ≠ .near) : (!(f.cls == .near) || s.feature 1) = true := by simp [hn]

theorem prepare_classMismatch (hn : f.cls ≠ .near)
    (hc : f.cls.accepts ((r.hdr g).extractLsb' 9 3).toNat (f.scalarForm (Tail.modifiers t)) = false) :
    prepare f t s r g = .error (.trap { cause := .classMismatch }) := by
  simp only [prepare, not_near_or_feature hn, hc, require_true, require_false, ok_bind, trapE, error_bind]

variable (hn : f.cls ≠ .near) (hc : f.cls.accepts ((r.hdr g).extractLsb' 9 3).toNat (f.scalarForm (Tail.modifiers t)) = true)
  (hf : f.first s r.slot g = .ok ())
include hn hc hf

theorem prepare_illegalField (h : Mods.parse t.mods Mods.none = none ∨ f.acc.ok (Tail.modifiers t) = false ∨ f.bad (Tail.modifiers t) = true) :
    prepare f t s r g = .error (.trap { cause := .illegalField }) := by
  have hbad : ((Mods.parse t.mods Mods.none).isSome && f.acc.ok (Tail.modifiers t) && !f.bad (Tail.modifiers t)) = false := by
    rcases h with h | h | h <;> simp [h]
  simp only [prepare, not_near_or_feature hn, hc, hf, hbad, require_true, require_false, ok_bind, trapE, error_bind]

/-! ### Words that compute every tangent of their group: no DUAL word -/

variable (hparse : (Mods.parse t.mods Mods.none).isSome = true) (hacc : f.acc.ok (Tail.modifiers t) = true)
  (hbad : f.bad (Tail.modifiers t) = false) (hdual : (Tail.modifiers t).dual = none)
include hparse hacc hbad hdual

/-- Where no register of the word waits for a scoreboarded write, a register read too early traps in a context with SCHK set (R64, R66). -/
theorem prepare_stallUndersized {h : Hazard} (hp : g.pendingOn (f.allNames (r.plainFrame t s g) (r.hdr g)) = none)
    (hh : g.hazardOn (f.readNames (r.plainFrame t s g) (r.hdr g)) = some h) (hs : (s.ctx (s.owner g).1 (s.owner g).2).schk = true) :
    prepare f t s r g = .error (.trap { cause := .stallUndersized, aux := h.pc.setWidth 64 }) := by
  unfold Run.plainFrame at hp hh
  simp only [prepare, not_near_or_feature hn, hc, hf, hparse, hacc, hbad, dualOf_none hdual, checkHazards, checkStall, hp, hh, hs, require_true, ok_bind,
    error_bind, Bool.not_false, Bool.and_self, Option.isSome_none, if_true, if_false, Bool.false_eq_true]

variable (hz : g.hazards = [])
include hz

/-- In a group with no result outstanding, what the operand checks answer is what stops the word (R27). -/
theorem prepare_error_of_operands {e : Stop} (ho : (r.plainFrame t s g).checkOperands f.rule f.dst (f.sources (Tail.modifiers t)) = .error e) :
    prepare f t s r g = .error e := by
  unfold Run.plainFrame at ho
  simp only [prepare, not_near_or_feature hn, hc, hf, hparse, hacc, hbad, dualOf_none hdual, checkHazards_of_none hz, ho, require_true, ok_bind, error_bind,
    Bool.not_false, Bool.and_self]

/-- A word that pops no queue, in a group with nothing outstanding and no register whose code does not fit its value, is ready once its operand
checks pass (R22, R64). -/
theorem prepare_ok (ho : (r.plainFrame t s g).checkOperands f.rule f.dst (f.sources (Tail.modifiers t)) = .ok ())
    (hpre : f.pre (r.plainFrame t s g) = .ok ()) (hl : g.loads = []) (hcodes : g.codes = [])
    (hq : ∀ o ∈ f.sources (Tail.modifiers t), isQ o.f = false) :
    prepare f t s r g =
      let g' := { g with unit := some (f.unit (Tail.modifiers t) g.unit) }
      .ok ({ r.plainFrame t s g with g := g' }, s.setGroup r.slot g') := by
  have hres (tan : List Nat × Nat) := Issue.checkResidue_of_no_codes (i := r.frame t s g tan) hcodes
  unfold Run.plainFrame at ho hpre ⊢
  simp only [prepare, not_near_or_feature hn, hc, hf, hparse, hacc, hbad, dualOf_none hdual, checkHazards_of_none hz, ho, hpre, checkPending_of_none hl,
    popAll_of_no_queue _ _ _ hq, hres, require_true, ok_bind, Bool.not_false, Bool.and_self]
  rfl

end

/-! ### Operands that are V registers (R15 to R19) -/

/-- A field names one kind of register (R15). -/
theorem isV_only {f : RegField} (h : isV f = true) : isS f = false ∧ isQ f = false ∧ isInd f = false ∧ isSZ f = false := by
  revert h; revert f; decide

theorem isS_only {f : RegField} (h : isS f = true) : isV f = false ∧ isQ f = false ∧ isInd f = false := by
  revert h; revert f; decide

/-- A 32-bit operand that is not IND has a field that any word may have (R16, R19). -/
theorem Issue.checkField_of_not_ind (i : Issue) {f : RegField} (h : isInd f = false) : i.checkField { f := f } = .ok () := by
  simp [Issue.checkField, h]

/-- Without an INDEX word no window is looked at. -/
theorem Issue.checkIndex_of_none {i : Issue} (h : i.mods.index = none) (o : Opnd) : i.checkIndex o = .ok () := by
  simp [Issue.checkIndex, h]

/-- A V register is in the allocation, or traps REG_RANGE: without a DUAL word no tangent lies in a register of its own (R17, R21). -/
theorem Run.checkRange_plainFrame (r : Run) (t : Tail) (s : State) (g : Group) {f : RegField} (h : isV f = true) :
    (r.plainFrame t s g).checkRange { f := f } =
      if f.toNat < 8 * (s.gridOf g.team).regb then .ok () else trapR .regRange f := by
  have htan (p : Nat → Bool) : ((r.plainFrame t s g).k == 0 && (r.plainFrame t s g).tans.any p) = false := by
    cases hk : (s.gridOf g.team).tangents <;> simp [Run.plainFrame, Run.frame, hk]
  have halloc : (r.plainFrame t s g).alloc = 8 * (s.gridOf g.team).regb := rfl
  by_cases hr : f.toNat < 8 * (s.gridOf g.team).regb
  · simp [Issue.checkRange, h, htan, halloc, hr, show ¬ 8 * (s.gridOf g.team).regb < f.toNat + 1 by omega]
  · simp [Issue.checkRange, h, htan, halloc, hr, show 8 * (s.gridOf g.team).regb < f.toNat + 1 by omega]

/-! ### IADD in a clause of ENGINE 7 -/

/-- The form of IADD on registers (R79). -/
abbrev iaddForm (d a b : RegField) : Form := wordForm .lane (accArith 2) d [a, b]

/-- Without pending results time changes nothing in a group. -/
theorem Group.age_of_none {g : Group} (h : g.hazards = []) (n : Nat) : g.age n = g := by
  cases g
  simp_all [Group.age, Hazard.expire]

/-- Without pending results a group is seen as it is. -/
theorem Group.seen_of_none {g : Group} (h : g.hazards = []) : g.seen = g := by
  simpa only [Group.age_of_none h] using Group.seen_age_of_none g 0 h

section
variable {d a b : RegField} {stall : BitVec 3} {s : State} {r : Run} {g : Group}

/-- What the operand checks of IADD answer, for sources that are V registers: the fields are good; then the destination is looked at, and then the
allocation (R27). -/
theorem iadd_checkOperands (ha : isV a = true) (hb : isV b = true) (hd : isInd d = false) :
    (r.plainFrame ⟨stall, []⟩ s g).checkOperands .std (some { f := d }) [{ f := a }, { f := b }] =
      (Issue.checkDest .std (some { f := d }) [{ f := a }, { f := b }] >>= fun _ =>
        allOk (r.plainFrame ⟨stall, []⟩ s g).checkRange [{ f := a }, { f := b }, { f := d }]) := by
  have hi (o : Opnd) : (r.plainFrame ⟨stall, []⟩ s g).checkIndex o = .ok () := Issue.checkIndex_of_none rfl o
  obtain ⟨-, -, hai, -⟩ := isV_only ha
  obtain ⟨-, -, hbi, -⟩ := isV_only hb
  simp only [Issue.checkOperands, Option.toList, List.cons_append, List.nil_append, allOk, Issue.checkField_of_not_ind _ hai,
    Issue.checkField_of_not_ind _ hbi, Issue.checkField_of_not_ind _ hd, hi, ok_bind]
  exact congrArg _ (funext fun _ => bind_pure _)

theorem checkDest_of_isV (srcs : List Opnd) (hd : isV d = true) : Issue.checkDest .std (some { f := d }) srcs = .ok () := by
  obtain ⟨hs, hq, -, -⟩ := isV_only hd
  simp [Issue.checkDest, hs, hq]

/-- An S destination takes no V register as its source (R18). -/
theorem checkDest_of_isS (srcs : List Opnd) (hd : isS d = true) (ha : isV a = true) :
    Issue.checkDest .std (some { f := d }) ({ f := a } :: srcs) = trapR .illegalDest a := by
  obtain ⟨-, hq, -⟩ := isS_only hd
  obtain ⟨-, -, -, hsz⟩ := isV_only ha
  simp [Issue.checkDest, hd, hq, hsz]

/-- IADD's operand checks decide what becomes of it in a group with no result outstanding. -/
theorem iadd_prepare_error (h7 : ((r.hdr g).extractLsb' 9 3).toNat = 7) (hz : g.hazards = []) {e : Stop}
    (ho : (r.plainFrame ⟨stall, []⟩ s g).checkOperands .std (some { f := d }) [{ f := a }, { f := b }] = .error e) :
    prepare (iaddForm d a b) ⟨stall, []⟩ s r g = .error e :=
  prepare_error_of_operands (by simp [wordForm]) (by rw [h7]; rfl) rfl rfl rfl rfl rfl hz ho

/-- IADD takes the exception that its operand checks answer. -/
theorem exec_iadd_trap {core sc : Nat} (hturn : s.issuing = some (core, sc, r, g)) (h7 : ((r.hdr g).extractLsb' 9 3).toNat = 7)
    (hz : g.hazards = []) {tr : Trap}
    (ho : (r.plainFrame ⟨stall, []⟩ s g).checkOperands .std (some { f := d }) [{ f := a }, { f := b }] = .error (.trap tr)) :
    exec (.iadd d a b ⟨stall, []⟩) s = .next (s.raise (trapSite ⟨stall, []⟩ r g) tr) := by
  have harrive : (iaddForm d a b).arrive ⟨stall, []⟩ s r g = g := Group.age_of_none hz _
  have hexec : exec (.iadd d a b ⟨stall, []⟩) s = execIadd d a b ⟨stall, []⟩ s := rfl
  rw [hexec, execIadd, intInstr, laneInstr]
  refine (issue_trap (f := iaddForm d a b) hturn (harrive.symm ▸ iadd_prepare_error h7 hz ho)).trans ?_
  rw [harrive]

theorem exec_iadd_regRange {core sc : Nat} (hturn : s.issuing = some (core, sc, r, g)) (h7 : ((r.hdr g).extractLsb' 9 3).toNat = 7)
    (hz : g.hazards = []) (hd : isV d = true) (ha : isV a = true) (hb : isV b = true) (hr : 8 * (s.gridOf g.team).regb ≤ a.toNat) :
    exec (.iadd d a b ⟨stall, []⟩) s = .next (s.raise (trapSite ⟨stall, []⟩ r g) { cause := .regRange, aux := a.setWidth 64 }) := by
  obtain ⟨-, -, hi, -⟩ := isV_only hd
  refine exec_iadd_trap hturn h7 hz ?_
  rw [iadd_checkOperands ha hb hi, checkDest_of_isV _ hd, ok_bind, allOk, Run.checkRange_plainFrame _ _ _ _ ha, if_neg (by omega)]
  rfl

theorem exec_iadd_illegalDest {core sc : Nat} (hturn : s.issuing = some (core, sc, r, g)) (h7 : ((r.hdr g).extractLsb' 9 3).toNat = 7)
    (hz : g.hazards = []) (hd : isS d = true) (ha : isV a = true) (hb : isV b = true) :
    exec (.iadd d a b ⟨stall, []⟩) s = .next (s.raise (trapSite ⟨stall, []⟩ r g) { cause := .illegalDest, aux := a.setWidth 64 }) := by
  obtain ⟨-, -, hi⟩ := isS_only hd
  refine exec_iadd_trap hturn h7 hz ?_
  rw [iadd_checkOperands ha hb hi, checkDest_of_isS _ hd ha]
  rfl

/-- IADD on V registers in the allocation is ready in a group with nothing outstanding, and goes to the vector pipes. -/
theorem iadd_ready {core sc : Nat} (hturn : s.issuing = some (core, sc, r, g)) (h7 : ((r.hdr g).extractLsb' 9 3).toNat = 7) (hz : g.hazards = [])
    (hd : isV d = true) (ha : isV a = true) (hb : isV b = true) (hra : a.toNat < 8 * (s.gridOf g.team).regb)
    (hrb : b.toNat < 8 * (s.gridOf g.team).regb) (hrd : d.toNat < 8 * (s.gridOf g.team).regb) (hl : g.loads = []) (hcodes : g.codes = []) :
    Ready (iaddForm d a b) ⟨stall, []⟩ s core sc r g { r.plainFrame ⟨stall, []⟩ s g with g := { g with unit := some 0 } }
      (s.setGroup r.slot { g with unit := some 0 }) := by
  obtain ⟨-, -, hi, hsz⟩ := isV_only hd
  have ho : (r.plainFrame ⟨stall, []⟩ s g).checkOperands .std (some { f := d }) [{ f := a }, { f := b }] = .ok () := by
    simp only [iadd_checkOperands ha hb hi, checkDest_of_isV _ hd, ok_bind, allOk, Run.checkRange_plainFrame _ _ _ _ ha,
      Run.checkRange_plainFrame _ _ _ _ hb, Run.checkRange_plainFrame _ _ _ _ hd, if_pos hra, if_pos hrb, if_pos hrd]
  have hq : ∀ o ∈ [({ f := a } : Opnd), { f := b }], isQ o.f = false := by
    simp [(isV_only ha).2.1, (isV_only hb).2.1]
  have hunit : (iaddForm d a b).unit (Tail.modifiers ⟨stall, []⟩) g.unit = 0 := by
    simp [Form.unit, wordForm, Form.scalarForm, hsz]
  refine ⟨⟨g, hturn, (Group.age_of_none hz _).symm⟩, ?_⟩
  rw [prepare_ok (f := iaddForm d a b) (by simp [wordForm]) (by rw [h7]; rfl) rfl rfl rfl rfl rfl hz ho rfl hl hcodes hq, hunit]

end

/-- Settles O10: each check by the lemma on the word whose checks before it pass; IADD's operand checks by what each answers of a V register and of
an S destination. -/
theorem issueChecksTrapInOrder : Obligations.IssueChecksTrapInOrder := by
  refine ⟨fun _ _ _ _ _ hn hc => prepare_classMismatch hn hc, fun _ _ _ _ _ hn hc hf h => prepare_illegalField hn hc hf h,
    fun f t s r g h hn hc hf hparse hacc hbad hdual hp hh hs => prepare_stallUndersized hn hc hf hparse hacc hbad hdual hp hh hs, ?_⟩
  intro d a b stall s core sc r g hturn h7 hz hd ha hb i
  refine ⟨exec_iadd_regRange hturn h7 hz hd ha hb, fun n h₁ h₂ => ?_, fun hra hrb hrd hl hcodes => ?_⟩
  · have hs : isS (BitVec.ofNat 7 n) = true := by
      simp [isS, show n % 128 = n by omega, h₁, h₂]
    exact exec_iadd_illegalDest hturn h7 hz hs ha hb
  · refine ⟨_, _, iadd_ready hturn h7 hz hd ha hb hra hrb hrd hl hcodes, rfl, rfl, ?_⟩
    change activeLanes g.seen r.set _ = _
    rw [Group.seen_of_none hz]
    rfl

/-! ## Opcode 0x4E (R68) -/

/-- A function of opcode 0x4E on type 3 takes ILLEGAL_FIELD wherever a clause takes words of its class. -/
theorem fnInstr_type_three {fn : Fn} {d a : RegField} {t : Tail} {s : State} {core sc : Nat} {r : Run} {g : Group}
    (hturn : s.issuing = some (core, sc, r, g))
    (he : ((r.hdr g).extractLsb' 9 3).toNat = 0 ∨ ((r.hdr g).extractLsb' 9 3).toNat = 7) :
    ∃ n, fnInstr fn d a 3 t s = .next (s.raise (trapSite t r (g.age n)) { cause := .illegalField }) := by
  rw [fnInstr, floatInstr]
  refine ⟨_, issue_trap hturn (prepare_illegalField (by simp) ?_ rfl (.inr (.inr (by simp))))⟩
  change OpClass.accepts .vector ((r.hdr g).extractLsb' 9 3).toNat _ = true
  rcases he with he | he <;> rw [he] <;> rfl

/-- The function that FN7[6:4] selects (R68). -/
def functionWord (n : Nat) (d a : RegField) (ty : BitVec 2) (t : Tail) : Option Instr :=
  if n = 0 then some (.frcp d a ty t) else if n = 1 then some (.frsq d a ty t) else if n = 2 then some (.fsqrt d a ty t)
  else if n = 3 then some (.fexp2 d a ty t) else if n = 4 then some (.flog2 d a ty t) else if n = 5 then some (.fsin d a ty t)
  else if n = 6 then some (.fcos d a ty t) else none

/-- The row of opcode 0x4E: FN7[6:4] selects the function, FN7[3:2] is its type, and FN7[1:0] must be 0 (R68). -/
theorem decodeOp_function (d a f : BitVec 7) (t : Tail) :
    decodeOp 0x4E d a f t = match functionWord (f.toNat / 16) d a (f.extractLsb' 2 2) t with
      | none => .error .illegalOpcode
      | some i => unusedZero (decide (f.toNat % 4 = 0)) i := by
  have hsel : (f.extractLsb' 4 3).toNat = f.toNat / 16 := by
    rw [BitVec.extractLsb'_toNat, Nat.shiftRight_eq_div_pow]; omega
  have hlow : (f.extractLsb' 0 2 = 0) = (f.toNat % 4 = 0) := by
    simp [← BitVec.toNat_inj]
  have hn : f.toNat / 16 < 8 := by omega
  rw [decodeOp, hsel]
  simp only [hlow]
  generalize f.toNat / 16 = n at hn ⊢
  interval_cases n <;> rfl

/-- Settles O4: the row of opcode 0x4E says what each value of FN7 means, and type 3 is refused by the form that the seven functions share. -/
theorem functionOpcodeDividesFN7 : Obligations.FunctionOpcodeDividesFN7 := by
  intro d a f t
  refine ⟨fun hw => ?_, fun i hw => ⟨fun hz => ?_, fun hz => ?_⟩, rfl, rfl, rfl, fun s core sc r g hturn he => ?_⟩
  · rw [decodeOp_function, functionWord, hw]
  · rw [decodeOp_function, functionWord, hw]
    simp [unusedZero, hz]
  · rw [decodeOp_function, functionWord, hw]
    simp [unusedZero, hz]
  · simp only [List.forall_mem_cons, List.not_mem_nil, false_imp_iff, implies_true, and_true]
    exact ⟨fnInstr_type_three (fn := .rcp) hturn he, fnInstr_type_three (fn := .rsq) hturn he, fnInstr_type_three (fn := .sqrt) hturn he,
      fnInstr_type_three (fn := .exp2) hturn he, fnInstr_type_three (fn := .log2) hturn he, fnInstr_type_three (fn := .sin) hturn he,
      fnInstr_type_three (fn := .cos) hturn he⟩

end Sys2Proof.Machine

namespace Sys2Proof.Machine
open Sys2Proof

/-! ## Integer words (R76 to R86) -/

/-- AN INTEGER WORD COMPUTES the function of its operands' words that its lanes are given (R76, R77). -/
theorem Computes.of {i : Instr} {t : Tail} {lat : Nat} {acc : Accept} {d : RegField} {srcs : List RegField} {f : Arith → List (List DWord) → Word}
    {val : Arith → (Nat → Word) → Word} (e : State → Host.Outcome State Fault Refusal) (hi : ∀ s, exec i s = e s)
    (he : ∀ s, e s = intInstr lat acc d srcs t s f) (hv : ∀ x o, f x o = val x (opw o)) :
    Computes i t lat acc d srcs val := by
  obtain rfl : f = fun x o => val x (opw o) := funext₂ hv
  exact Writes.of fun s => (hi s).trans (he s)

/-! ### The logic words (R83) -/

/-- Opcodes have seven bits (R56). -/
theorem decodeOp_lt {op : Nat} {d a b : BitVec 7} {t : Tail} {i : Instr} (h : decodeOp op d a b t = .ok i) : op < 128 := by
  revert h
  fun_cases decodeOp op d a b t
  all_goals simp

/-- An instruction has one opcode and one place for each field: what answers it is the row that it is in (R67). -/
theorem decodeOp_eq_ok_iff {op : Nat} {d a b x y z : BitVec 7} {t : Tail} {i : Instr} (n : Nat) (hn : n < 128)
    (hi : decodeOp n d a b t = .ok i) : decodeOp op x y z t = .ok i ↔ op = n ∧ x = d ∧ y = a ∧ z = b := by
  refine ⟨fun h => ?_, ?_⟩
  · have hop := decodeOp_lt h
    have hf := (encodeFields_of_decodeOp h).symm.trans (encodeFields_of_decodeOp hi)
    simp only [fieldsOf, Option.some.injEq, Prod.mk.injEq, WordFields.mk.injEq] at hf
    obtain ⟨⟨ho, hd, ha, hb, -, -⟩, -⟩ := hf
    refine ⟨?_, hd, ha, hb⟩
    simpa [← BitVec.toNat_inj, Nat.mod_eq_of_lt, hop, hn] using ho
  · rintro ⟨rfl, rfl, rfl, rfl⟩
    exact hi

/-- The logic words accept the predicate override and no other field of an ARITH word (R83). -/
theorem accLogic_arithOk_iff (x : Arith) :
    accLogic.arithOk x = true ↔ x = { Arith.none with pov := x.pov, poneg := x.poneg, poidx := x.poidx } := by
  cases x
  simp [accLogic, Accept.arithOk, Arith.none, and_assoc, and_left_comm]

/-- Settles O5: the opcode map by the encoder's inverse, the ARITH fields one by one, and each word by the function that its lanes are given. -/
theorem logicInstructions : Obligations.LogicInstructions := by
  intro d a b t
  exact ⟨fun op x y z => ⟨decodeOp_eq_ok_iff 0x0F (by decide) rfl, decodeOp_eq_ok_iff 0x10 (by decide) rfl,
      decodeOp_eq_ok_iff 0x11 (by decide) rfl, decodeOp_eq_ok_iff 0x12 (by decide) rfl⟩, accLogic_arithOk_iff,
    .of (execIand d a b t) (fun _ => rfl) (fun _ => rfl) fun _ _ => rfl,
    .of (execIor d a b t) (fun _ => rfl) (fun _ => rfl) fun _ _ => rfl,
    .of (execIxor d a b t) (fun _ => rfl) (fun _ => rfl) fun _ _ => rfl,
    .of (execIandn d a b t) (fun _ => rfl) (fun _ => rfl) fun _ _ => rfl⟩

/-! ### Arithmetic and shifts (R79 to R82, R84) -/

/-- A left shift multiplies (R84). -/
theorem shlWord_eq (x : Word) (n : Nat) : shlWord x n = if 32 ≤ n then 0 else BitVec.ofNat 32 (x.toNat * 2 ^ n) := by
  rw [shlWord, ← Nat.shiftLeft_eq]
  rfl

/-- A logical right shift divides (R84). -/
theorem shrWord_eq (x : Word) (n : Nat) : shrWord x n = if 32 ≤ n then 0 else BitVec.ofNat 32 (x.toNat / 2 ^ n) := by
  rw [shrWord, ← Nat.shiftRight_eq_div_pow, ← BitVec.toNat_ushiftRight, BitVec.ofNat_toNat, BitVec.setWidth_eq]

/-- An arithmetic right shift divides the signed value, rounding down (R84). -/
theorem sarWord_eq (x : Word) (n : Nat) : sarWord x n = BitVec.ofInt 32 (x.toInt / 2 ^ min n 31) := by
  rw [sarWord, BitVec.sshiftRight, Int.shiftRight_eq_div_pow]
  norm_cast

/-- The smaller unsigned value (R81). -/
theorem pickInt_unat_smaller (x y : Word) : pickInt false unat x y = if y.toNat < x.toNat then y else x := by
  simp [pickInt, unat]

/-- The larger unsigned value (R81). -/
theorem pickInt_unat_larger (x y : Word) : pickInt true unat x y = if x.toNat < y.toNat then y else x := by
  simp [pickInt, unat]

/-- An immediate amount lies below the width (R84). -/
theorem not_le_imm (n : BitVec 5) : ¬ 32 ≤ n.toNat := by omega

/-- Settles O14: each word by the function that its lanes are given, which for IMIN, IMAX and the shifts is stated by its arithmetic meaning first. -/
theorem integerArithmeticCompletes : Obligations.IntegerArithmeticCompletes := by
  intro d a b n t
  refine ⟨.of (execIadd d a b t) (fun _ => rfl) (fun _ => rfl) fun _ _ => rfl,
    .of (execIaddImm d a b t) (fun _ => rfl) (fun _ => rfl) fun _ _ => rfl,
    .of (execIsub d a b t) (fun _ => rfl) (fun _ => rfl) fun _ _ => rfl,
    .of (execImul d a b t) (fun _ => rfl) (fun _ => rfl) fun _ _ => rfl,
    .of (execImad d a b t) (fun _ => rfl) (fun _ => rfl) fun _ _ => rfl,
    .of (execImulhiS32 d a b t) (fun _ => rfl) (fun _ => rfl) fun _ _ => rfl,
    .of (execImulhiN32 d a b t) (fun _ => rfl) (fun _ => rfl) fun _ _ => rfl,
    .of (minMax false BitVec.toInt d a b t) (fun _ => rfl) (fun _ => rfl) ?_,
    .of (minMax false unat d a b t) (fun _ => rfl) (fun _ => rfl) ?_,
    .of (minMax true BitVec.toInt d a b t) (fun _ => rfl) (fun _ => rfl) ?_,
    .of (minMax true unat d a b t) (fun _ => rfl) (fun _ => rfl) ?_,
    .of (execIabs d a t) (fun _ => rfl) (fun _ => rfl) fun _ _ => rfl,
    .of (execCsub d a b t) (fun _ => rfl) (fun _ => rfl) fun _ _ => rfl,
    .of (shiftReg shlWord d a b t) (fun _ => rfl) (fun _ => rfl) ?_,
    .of (shiftReg shrWord d a b t) (fun _ => rfl) (fun _ => rfl) ?_,
    .of (shiftReg sarWord d a b t) (fun _ => rfl) (fun _ => rfl) ?_,
    .of (shiftReg rotWord d a b t) (fun _ => rfl) (fun _ => rfl) ?_,
    .of (shiftImm shlWord d a n t) (fun _ => rfl) (fun _ => rfl) ?_,
    .of (shiftImm shrWord d a n t) (fun _ => rfl) (fun _ => rfl) ?_,
    .of (shiftImm sarWord d a n t) (fun _ => rfl) (fun _ => rfl) ?_,
    .of (shiftImm rotWord d a n t) (fun _ => rfl) (fun _ => rfl) ?_,
    Writes.of fun s => (rfl : exec (.iadd64 d a b t) s = execIadd64 d a b t s).trans rfl,
    Writes.of fun s => (rfl : exec (.lea d a b t) s = execLea d a b t s).trans rfl⟩
  · exact fun _ _ => rfl
  · exact fun _ _ => pickInt_unat_smaller ..
  · exact fun _ _ => rfl
  · exact fun _ _ => pickInt_unat_larger ..
  · exact fun _ _ => shlWord_eq ..
  · exact fun _ _ => shrWord_eq ..
  · exact fun _ _ => sarWord_eq ..
  · exact fun _ _ => rfl
  · exact fun _ _ => (shlWord_eq ..).trans (if_neg (not_le_imm n))
  · exact fun _ _ => (shrWord_eq ..).trans (if_neg (not_le_imm n))
  · exact fun _ o => (sarWord_eq (opw o 0) n.toNat).trans (by rw [Nat.min_eq_left (by omega)])
  · exact fun _ o => congrArg (BitVec.rotateLeft (opw o 0)) (Nat.mod_eq_of_lt n.isLt)

/-! ### Bit fields and counts (R85, R86) -/

/-- The position is B[4:0] (R85). -/
theorem fieldPos_eq (b : Word) : fieldPos b = b.toNat % 32 := by
  simp [fieldPos, BitVec.extractLsb'_toNat]

/-- The effective length is B[13:8], as far as the word goes (R85). -/
theorem fieldLen_eq (b : Word) : fieldLen b = min (b.toNat / 256 % 64) (32 - b.toNat % 32) := by
  simp [fieldLen, fieldPos_eq, BitVec.extractLsb'_toNat, Nat.shiftRight_eq_div_pow]

/-- BFX's field, as the bits of A that it is (R85). -/
def bfxField (a b : Word) : BitVec (fieldLen b) := a.extractLsb' (fieldPos b) (fieldLen b)

theorem bfxField_toNat (a b : Word) : (bfxField a b).toNat = a.toNat / 2 ^ fieldPos b % 2 ^ fieldLen b := by
  rw [bfxField, BitVec.extractLsb'_toNat, Nat.shiftRight_eq_div_pow]

theorem bfxField_getLsbD (a b : Word) (i : Nat) : (bfxField a b).getLsbD i = (decide (i < fieldLen b) && a.getLsbD (fieldPos b + i)) :=
  BitVec.getLsbD_extractLsb' ..

/-- The sign of the field is the bit of A at its top (R85). -/
theorem bfxField_msb (a b : Word) : (bfxField a b).msb = (decide (0 < fieldLen b) && a.getLsbD (fieldPos b + fieldLen b - 1)) := by
  rw [BitVec.msb_eq_getLsbD_last, bfxField_getLsbD]
  rcases Nat.eq_zero_or_pos (fieldLen b) with h | h
  · simp [h]
  · simp [h, Nat.add_sub_assoc (show 1 ≤ fieldLen b from h)]

/-- BFX extends its field, with its sign where B says so (R85). -/
theorem bfxWord_eq (a b : Word) :
    bfxWord a b = if b.getLsbD 16 && (bfxField a b).msb then (bfxField a b).signExtend 32 else (bfxField a b).setWidth 32 := by
  by_cases he : fieldLen b = 0
  · have hz : (bfxField a b).toNat = 0 := by rw [bfxField_toNat, he, pow_zero, Nat.mod_one]
    have hm : (bfxField a b).msb = false := by simp [bfxField_msb, he]
    simp [bfxWord, he, hm, ← BitVec.toNat_inj, hz]
  · have hmsb : (bfxField a b).msb = decide (2 ^ (fieldLen b - 1) ≤ a.toNat / 2 ^ fieldPos b % 2 ^ fieldLen b) := by
      rw [BitVec.msb_eq_decide, bfxField_toNat]
    simp only [bfxWord, he, if_false, ← hmsb]
    split
    · next h =>
      obtain ⟨-, hm⟩ := Bool.and_eq_true_iff.1 h
      rw [BitVec.signExtend, BitVec.toInt_eq_msb_cond, hm, if_pos rfl, bfxField_toNat]
      norm_cast
    · rw [← bfxField_toNat, BitVec.ofNat_toNat]

/-- BFX's result: the field, and above it its sign where B says so, else 0 (R85). -/
theorem bfxWord_getLsbD (a b : Word) {i : Nat} (hi : i < 32) : (bfxWord a b).getLsbD i =
    if i < fieldLen b then a.getLsbD (fieldPos b + i)
    else (decide (0 < fieldLen b) && b.getLsbD 16 && a.getLsbD (fieldPos b + fieldLen b - 1)) := by
  have hext : (bfxWord a b).getLsbD i = if i < fieldLen b then (bfxField a b).getLsbD i else b.getLsbD 16 && (bfxField a b).msb := by
    rw [bfxWord_eq]
    cases hs : b.getLsbD 16 && (bfxField a b).msb
    · rw [if_neg (by decide), BitVec.getLsbD_setWidth, bfxField_getLsbD, decide_eq_true hi, Bool.true_and]
      split <;> simp_all
    · obtain ⟨-, hm⟩ := Bool.and_eq_true_iff.1 hs
      rw [if_pos rfl, BitVec.getLsbD_signExtend, decide_eq_true hi, Bool.true_and, hm]
  rw [hext, bfxField_getLsbD, bfxField_msb]
  split
  · next hl => rw [decide_eq_true hl, Bool.true_and]
  · ac_rfl

/-- BFI's mask selects the field (R85). -/
theorem bfiMask_getLsbD (n p : Nat) {i : Nat} (hi : i < 32) :
    (BitVec.ofNat 32 ((2 ^ n - 1) * 2 ^ p)).getLsbD i = decide (p ≤ i ∧ i < p + n) := by
  rw [BitVec.getLsbD_ofNat, Nat.testBit_mul_two_pow, Nat.testBit_two_pow_sub_one, decide_eq_true hi, Bool.true_and, ← Bool.decide_and, decide_eq_decide]
  omega

/-- BFI's result: A's low bits in the field, C's bits elsewhere (R85). -/
theorem bfiWord_getLsbD (a b c : Word) {i : Nat} (hi : i < 32) : (bfiWord a b c).getLsbD i =
    if fieldPos b ≤ i ∧ i < fieldPos b + fieldLen b then a.getLsbD (i - fieldPos b) else c.getLsbD i := by
  simp only [bfiWord, BitVec.getLsbD_or, BitVec.getLsbD_and, BitVec.getLsbD_not, BitVec.getLsbD_shiftLeft, bfiMask_getLsbD _ _ hi]
  split
  · next h => simp [h, hi]
  · next h => simp [h, hi]

/-- POPC counts the 1 bits (R86). -/
theorem popc_toNat (x : Word) : (BitVec.ofNat 32 ((bitList x).count true)).toNat = ((List.range 32).filter fun i => x.getLsbD i).length := by
  have hc : (bitList x).count true = ((List.range 32).filter fun i => x.getLsbD i).length := by
    rw [bitList, List.count, List.countP_map, List.countP_eq_length_filter]
    simp [Function.comp_def]
  have hle := List.length_filter_le (fun i => x.getLsbD i) (List.range 32)
  rw [List.length_range] at hle
  rw [hc, BitVec.toNat_ofNat, Nat.mod_eq_of_lt (by omega)]

/-- The bits of a word, bit 31 first. -/
theorem bitList_reverse (x : Word) : (bitList x).reverse = (List.range 32).map fun j => x.getLsbD (31 - j) :=
  List.ext_getElem (by simp [bitList]) fun _ _ _ => by simp [bitList]

/-- CLZ counts the 0 bits above the highest 1 bit (R86). -/
theorem clz_toNat_eq_iff (x : Word) (i : Nat) : (BitVec.ofNat 32 ((bitList x).reverse.takeWhile (!·)).length).toNat = i ↔
    i ≤ 32 ∧ (∀ j, j < i → x.getLsbD (31 - j) = false) ∧ (i < 32 → x.getLsbD (31 - i) = true) := by
  set bs := (List.range 32).map fun j => x.getLsbD (31 - j) with hbs
  have hlen : bs.length = 32 := by simp [hbs]
  have hle : bs.findIdx id ≤ 32 := hlen ▸ List.findIdx_le_length
  have hcount : (BitVec.ofNat 32 ((bitList x).reverse.takeWhile (!·)).length).toNat = bs.findIdx id := by
    rw [bitList_reverse, ← hbs, List.takeWhile_eq_take_findIdx_not]
    simp only [Bool.not_not, List.length_take, hlen]
    rw [show (fun b : Bool => b) = id from rfl, Nat.min_eq_left hle, BitVec.toNat_ofNat, Nat.mod_eq_of_lt (by omega)]
  rw [hcount]
  rcases lt_trichotomy i 32 with hi | rfl | hi
  · rw [List.findIdx_eq (hlen ▸ hi)]
    simp [hbs, hi, hi.le, and_comm]
  · have hall : bs.findIdx id = 32 ↔ ∀ y ∈ bs, id y = false := hlen ▸ List.findIdx_eq_length
    rw [hall]
    simp [hbs]
  · constructor
    · omega
    · rintro ⟨h, -⟩
      omega

/-- Settles O15: the results that the words compute, bit by bit. -/
theorem bitFieldsComplete : Obligations.BitFieldsComplete := by
  intro d a b t
  refine ⟨fun o => bfxWord (o 0) (o 1), fun o => bfiWord (o 0) (o 1) (o 2), fun o => BitVec.ofNat 32 ((bitList (o 0)).count true),
    fun o => BitVec.ofNat 32 ((bitList (o 0)).reverse.takeWhile (!·)).length, fun o => (o 0).reverse,
    .of (execBfx d a b t) (fun _ => rfl) (fun _ => rfl) fun _ _ => rfl,
    .of (execBfi d a b t) (fun _ => rfl) (fun _ => rfl) fun _ _ => rfl,
    .of (execPopc d a t) (fun _ => rfl) (fun _ => rfl) fun _ _ => rfl,
    .of (execClz d a t) (fun _ => rfl) (fun _ => rfl) fun _ _ => rfl,
    .of (execBrev d a t) (fun _ => rfl) (fun _ => rfl) fun _ _ => rfl, fun o => ?_⟩
  dsimp only
  rw [← fieldLen_eq, ← fieldPos_eq]
  exact ⟨fun i hi => bfxWord_getLsbD _ _ hi, fun i hi => bfiWord_getLsbD _ _ _ hi, popc_toNat _, clz_toNat_eq_iff _,
    fun i hi => by rw [BitVec.getLsbD_reverse, BitVec.getMsbD, decide_eq_true hi, Bool.true_and]⟩

end Sys2Proof.Machine

namespace Sys2Proof.Machine
open Sys2Proof

/-! ## Values as read and as stored (R78) -/

/-- Clamping is the nearest value of the range. -/
theorem sat_eq {lo hi : Int} (h : lo ≤ hi) (v : Int) : sat v lo hi = max lo (min v hi) := by
  unfold sat
  split
  · omega
  · split <;> omega

/-- A source is signed unless RES is 2, and NEG negates it without wrapping (R78). -/
theorem rdInt_signed {n : Nat} {res : Nat} (h : res ≠ 2) (x : BitVec n) : rdInt res false x = x.toInt ∧ rdInt res true x = -x.toInt := by
  simp [rdInt, h]

/-- Wrapped results are the value modulo 2^n (R78). -/
theorem storeInt_wrapped (n : Nat) (v : Int) : ((storeInt n 0 v).toNat : Int) = v % 2 ^ n := by
  have hpos : (0 : Int) < 2 ^ n := by positivity
  simp [storeInt, wrap, BitVec.toNat_ofInt, Int.emod_nonneg _ hpos.ne']

/-- Saturated signed results are the value clamped to the signed range (R78). -/
theorem storeInt_signed {n : Nat} (hn : 0 < n) (v : Int) :
    (storeInt n 1 v).toInt = max (-(2 ^ (n - 1))) (min v (2 ^ (n - 1) - 1)) := by
  have hpos : (0 : Int) < 2 ^ (n - 1) := by positivity
  have hsat : storeInt n 1 v = BitVec.ofInt n (max (-(2 ^ (n - 1))) (min v (2 ^ (n - 1) - 1))) := by
    rw [← sat_eq (by omega)]
    rfl
  have hdouble : (2 : Int) ^ n = 2 * 2 ^ (n - 1) := by rw [← pow_succ', Nat.sub_add_cancel hn]
  rw [hsat, BitVec.toInt_ofInt]
  apply Int.bmod_eq_of_le <;> push_cast <;> omega

/-- Saturated unsigned results are the value clamped to the unsigned range (R78). -/
theorem storeInt_unsigned (n : Nat) (v : Int) : ((storeInt n 2 v).toNat : Int) = max 0 (min v (2 ^ n - 1)) := by
  have hpos : (0 : Int) < 2 ^ n := by positivity
  have hsat : storeInt n 2 v = BitVec.ofInt n (max 0 (min v (2 ^ n - 1))) := by
    rw [← sat_eq (by omega)]
    rfl
  rw [hsat, BitVec.toNat_ofInt, Int.toNat_of_nonneg (Int.emod_nonneg _ (by positivity))]
  apply Int.emod_eq_of_lt <;> push_cast <;> omega

/-! ## Integer reductions and scans (R122, R123) -/

/-- The step of reduction `f` combines two words by `op`, raises nothing, starts from the identity of `op`, and does not depend on how values are grouped. -/
structure IntReduction (f : Nat) (op : Word → Word → Word) : Prop where
  value : ∀ x y, (redStep f x y).1.v = op x.v y.v
  quiet : ∀ x y, (redStep f x y).2 = []
  start : ∀ y, op (redIdentity f) y = y
  assoc : ∀ x y z, op (op x y) z = op x (op y z)

section
variable {f : Nat} {op : Word → Word → Word} (h : IntReduction f op)
include h

/-- One level combines neighbours: it raises nothing, halves the list, and keeps what the values combine to (R122). -/
theorem IntReduction.level : ∀ xs : List RedVal, (redLevel f xs).2 = [] ∧ (∀ n, xs.length = 2 * n → (redLevel f xs).1.length = n) ∧
    ∀ a, ((redLevel f xs).1.map RedVal.v).foldl op a = (xs.map RedVal.v).foldl op a
  | [] => ⟨rfl, fun n hn => by simp [redLevel] at hn ⊢; omega, fun _ => rfl⟩
  | [_] => ⟨rfl, fun n hn => by simp at hn; omega, fun _ => rfl⟩
  | x :: y :: rest => by
    obtain ⟨hquiet, hlen, hfold⟩ := IntReduction.level rest
    refine ⟨by simp [redLevel, h.quiet, hquiet], fun n hn => ?_, fun a => ?_⟩
    · have := hlen (n - 1) (by simp at hn; omega)
      simp only [List.length_cons] at hn
      simp only [redLevel, List.length_cons, this]
      omega
    · simp [redLevel, h.value, h.assoc, hfold]

/-- The tree leaves one value, which all the values combine to (R122). -/
theorem IntReduction.tree (n : Nat) (xs : List RedVal) (hn : xs.length = 2 ^ n) :
    ∃ z, redTree f n xs = ([z], []) ∧ z.v = (xs.map RedVal.v).foldl op (redIdentity f) := by
  induction n generalizing xs with
  | zero =>
    obtain ⟨x, rfl⟩ := List.length_eq_one_iff.1 hn
    exact ⟨x, rfl, (h.start x.v).symm⟩
  | succ n ih =>
    obtain ⟨hquiet, hlen, hfold⟩ := h.level xs
    obtain ⟨z, htree, hz⟩ := ih _ (hlen (2 ^ n) (by omega))
    exact ⟨z, by simp [redTree, hquiet, htree], by rw [hz, hfold]⟩

/-- The running combination gives each value what the values up to it combine to (R123). -/
theorem IntReduction.scan (excl : Bool) (x₀ : RedVal) (xs : List RedVal) :
    (scanFrom f excl x₀ xs).2 = [] ∧ (scanFrom f excl x₀ xs).1.length = xs.length ∧
      ∀ n, n < xs.length → ∃ p, (scanFrom f excl x₀ xs).1[n]? = some p ∧ p.1 = ((xs.map RedVal.lanes).getD n []).headD 0 ∧
        p.2.v = ((xs.map RedVal.v).take (if excl then n else n + 1)).foldl op x₀.v := by
  induction xs generalizing x₀ with
  | nil => simp [scanFrom]
  | cons x xs ih =>
    obtain ⟨hquiet, hlen, hvals⟩ := ih (redStep f x₀ x).1
    refine ⟨by simp [scanFrom, h.quiet, hquiet], by simp [scanFrom, hlen], fun n hn => ?_⟩
    cases n with
    | zero => exact ⟨_, rfl, rfl, by cases excl <;> simp [h.value]⟩
    | succ n =>
      obtain ⟨p, hp, hlane, hv⟩ := hvals n (by simpa using hn)
      refine ⟨p, hp, hlane, ?_⟩
      rw [hv, h.value]
      cases excl <;> rfl

end

/-- Picking the smaller or the larger value does not depend on how values are grouped. -/
theorem pickInt_assoc (larger : Bool) (rd : Word → Int) (x y z : Word) :
    pickInt larger rd (pickInt larger rd x y) z = pickInt larger rd x (pickInt larger rd y z) := by
  cases larger
  · simp only [pickInt]
    grind
  · simp only [pickInt]
    grind

/-- A largest value is picked only where the other one equals it. -/
theorem pickInt_smaller_of_le {rd : Word → Int} (hrd : rd.Injective) {x y : Word} (h : rd y ≤ rd x) : pickInt false rd x y = y :=
  ite_eq_left_iff.2 fun hn => hrd (le_antisymm (not_lt.1 hn) h)

/-- A smallest value is picked only where the other one equals it. -/
theorem pickInt_larger_of_le {rd : Word → Int} (hrd : rd.Injective) {x y : Word} (h : rd x ≤ rd y) : pickInt true rd x y = y :=
  ite_eq_left_iff.2 fun hn => hrd (le_antisymm h (not_lt.1 hn))

theorem unat_injective : unat.Injective := fun _ _ h => BitVec.eq_of_toNat_eq (Int.ofNat_inj.1 h)

theorem toInt_injective : (BitVec.toInt : Word → Int).Injective := fun _ _ h => BitVec.eq_of_toInt_eq h

/-- The identity of the unsigned minimum is the largest value (R122). -/
theorem unat_le_max (y : Word) : unat y ≤ unat (redIdentity 2) := by
  have hmax : unat (redIdentity 2) = 4294967295 := by decide
  have hy := y.isLt
  unfold unat at *
  omega

/-- The identity of the signed minimum is the largest value (R122). -/
theorem toInt_le_max (y : Word) : y.toInt ≤ (redIdentity 1).toInt := by
  have hmax : (redIdentity 1).toInt = 2147483647 := by decide
  have hy := y.toInt_lt
  omega

/-- The identity of the signed maximum is the smallest value (R122). -/
theorem min_le_toInt (y : Word) : (redIdentity 3).toInt ≤ y.toInt := by
  have hmin : (redIdentity 3).toInt = -2147483648 := by decide
  have hy := y.le_toInt
  omega

/-- The identity of AND has every bit set (R122). -/
theorem redIdentity_and (y : Word) : redIdentity 5 &&& y = y := by
  rw [show redIdentity 5 = BitVec.allOnes 32 by decide, BitVec.allOnes_and]

/-- The eight integer functions of R122, by their meaning. -/
theorem intReduction_of_mem {f : Nat} {op : Word → Word → Word}
    (h : (f, op) ∈ ([(0, fun x y => BitVec.ofNat 32 (x.toNat + y.toNat)), (1, fun x y => if y.toInt < x.toInt then y else x),
      (2, fun x y => if y.toNat < x.toNat then y else x), (3, fun x y => if x.toInt < y.toInt then y else x),
      (4, fun x y => if x.toNat < y.toNat then y else x), (5, fun x y => x &&& y), (6, fun x y => x ||| y), (7, fun x y => x ^^^ y)] :
      List (Nat × (Word → Word → Word)))) : IntReduction f op := by
  have hadd : (fun x y : Word => BitVec.ofNat 32 (x.toNat + y.toNat)) = fun x y => x + y := by
    funext x y
    exact (BitVec.ofNat_add ..).trans (by simp)
  have hsmaller : (fun x y : Word => if y.toNat < x.toNat then y else x) = pickInt false unat :=
    funext₂ fun x y => (pickInt_unat_smaller x y).symm
  have hlarger : (fun x y : Word => if x.toNat < y.toNat then y else x) = pickInt true unat :=
    funext₂ fun x y => (pickInt_unat_larger x y).symm
  have hsmallerS : (fun x y : Word => if y.toInt < x.toInt then y else x) = pickInt false BitVec.toInt := rfl
  have hlargerS : (fun x y : Word => if x.toInt < y.toInt then y else x) = pickInt true BitVec.toInt := rfl
  rw [hadd, hsmaller, hlarger, hsmallerS, hlargerS] at h
  simp only [List.mem_cons, Prod.mk.injEq, List.not_mem_nil, or_false] at h
  rcases h with ⟨rfl, rfl⟩ | ⟨rfl, rfl⟩ | ⟨rfl, rfl⟩ | ⟨rfl, rfl⟩ | ⟨rfl, rfl⟩ | ⟨rfl, rfl⟩ | ⟨rfl, rfl⟩ | ⟨rfl, rfl⟩
  · exact ⟨fun _ _ => rfl, fun _ _ => rfl, BitVec.zero_add, BitVec.add_assoc⟩
  · exact ⟨fun _ _ => rfl, fun _ _ => rfl, fun y => pickInt_smaller_of_le toInt_injective (toInt_le_max y), pickInt_assoc false BitVec.toInt⟩
  · exact ⟨fun _ _ => rfl, fun _ _ => rfl, fun y => pickInt_smaller_of_le unat_injective (unat_le_max y), pickInt_assoc false unat⟩
  · exact ⟨fun _ _ => rfl, fun _ _ => rfl, fun y => pickInt_larger_of_le toInt_injective (min_le_toInt y), pickInt_assoc true BitVec.toInt⟩
  · exact ⟨fun _ _ => rfl, fun _ _ => rfl, fun y => pickInt_larger_of_le unat_injective (Int.ofNat_le.2 (Nat.zero_le _)), pickInt_assoc true unat⟩
  · exact ⟨fun _ _ => rfl, fun _ _ => rfl, redIdentity_and, BitVec.and_assoc⟩
  · exact ⟨fun _ _ => rfl, fun _ _ => rfl, fun _ => BitVec.zero_or, BitVec.or_assoc⟩
  · exact ⟨fun _ _ => rfl, fun _ _ => rfl, fun _ => BitVec.zero_xor, BitVec.xor_assoc⟩

/-- Settles O16: reading and storing by clamping and wrapping; the tree by induction on its levels and the scan by induction on its values, for any
associative function that the step computes. -/
theorem integerResultsAreExact : Obligations.IntegerResultsAreExact := by
  refine ⟨fun n hn x v => ?_, fun f op hf => ?_⟩
  · exact ⟨fun res hres => rdInt_signed hres x, by simp [rdInt], by simp [rdInt], storeInt_wrapped n v, storeInt_signed (by omega) v,
      storeInt_unsigned n v⟩
  · have h := intReduction_of_mem hf
    exact ⟨fun xs hlen => h.tree 6 xs hlen, fun excl x₀ xs hx => hx ▸ h.scan excl x₀ xs⟩

end Sys2Proof.Machine

namespace Sys2Proof.Machine
open Sys2Proof

/-! ## Predicates, selection, moves and constants (R87 to R91) -/

/-- Cells that are equal are written alike. -/
theorem Writes.congr {i : Instr} {t : Tail} {f : Form} {lat : Option Nat} {cells cells' : Issue → List RCell} (h : Writes i t f lat cells)
    (hc : ∀ fr, cells fr = cells' fr) : Writes i t f lat cells' :=
  funext hc ▸ h

/-- Each condition of ISETP is the comparison that R87 gives it. -/
theorem icond_of_mem {c : BitVec 4} {rel : Word → Word → Bool}
    (h : (c, rel) ∈ ([(0, fun x y => decide (x = y)), (1, fun x y => decide (x ≠ y)),
      (2, fun x y => decide (x.toInt < y.toInt)), (3, fun x y => decide (x.toInt ≤ y.toInt)),
      (4, fun x y => decide (y.toInt < x.toInt)), (5, fun x y => decide (y.toInt ≤ x.toInt)),
      (6, fun x y => decide (x.toNat < y.toNat)), (7, fun x y => decide (x.toNat ≤ y.toNat)),
      (8, fun x y => decide (y.toNat < x.toNat)), (9, fun x y => decide (y.toNat ≤ x.toNat))] : List (BitVec 4 × (Word → Word → Bool)))) :
    icond c = rel := by
  simp only [List.mem_cons, Prod.mk.injEq, List.not_mem_nil, or_false] at h
  rcases h with ⟨rfl, rfl⟩ | ⟨rfl, rfl⟩ | ⟨rfl, rfl⟩ | ⟨rfl, rfl⟩ | ⟨rfl, rfl⟩ | ⟨rfl, rfl⟩ | ⟨rfl, rfl⟩ | ⟨rfl, rfl⟩ | ⟨rfl, rfl⟩ | ⟨rfl, rfl⟩
  · rfl
  · funext x y
    exact (decide_not ..).symm
  all_goals rfl

/-- ISETP writes its condition to the predicate of each active lane (R87). -/
theorem isetp_writes (c : BitVec 4) (p : BitVec 3) (a b : RegField) (t : Tail) :
    let f : Form := { cls := .lane, acc := { index := true }, srcs := [{ f := a }, { f := b }], writes := [.p p.toNat],
                      bad := fun _ => decide (10 ≤ c.toNat) }
    Writes (.isetp c p a b t) t f (some 4) fun fr =>
      predCells p fr.act fun l => icond c (fr.opWords l f.srcs 0) (fr.opWords l f.srcs 1) :=
  Writes.of fun s => (rfl : exec (.isetp c p a b t) s = execIsetp c p a b t s)

/-- A predicate word writes its Boolean of two predicates, each negated where the word says so (R88). -/
theorem predInstr_writes {i : Instr} {g : Bool → Bool → Bool} (p : BitVec 3) (n : BitVec 1) (pa : BitVec 3) (m : BitVec 1) (pb : BitVec 3) (t : Tail)
    (hi : ∀ s, exec i s = predInstr g p n pa m pb t s) :
    Writes i t { cls := .vector, reads := [.p pa.toNat, .p pb.toNat], writes := [.p p.toNat] } (some 4) fun fr => predCells p fr.act fun l =>
      g ((fr.seen.lane l).pred pa.toNat != (n == 1)) ((fr.seen.lane l).pred pb.toNat != (m == 1)) :=
  Writes.of hi

/-- The predicate that C names is P of C[2:0], negated where C[3] is set (R89). -/
theorem selPred_eq (m : Mods) (x : Lane) : selPred m x = (x.pred (m.ar.c.toNat % 8) != m.ar.c.getLsbD 3) := by
  simp [selPred, BitVec.extractLsb'_toNat]

/-- SEL's form (R89). -/
abbrev selForm (d a b : RegField) (t : Tail) : Form :=
  { cls := .lane, acc := { accLogic with useC := true, moves := true }, dst := some { f := d }, srcs := [{ f := a }, { f := b }],
    reads := [.p ((Tail.modifiers t).ar.c.toNat % 8)], regC := false, bad := fun m => m.ar.c >>> 4 != 0 }

/-- SEL writes A or B, as the predicate that C names says (R89). -/
theorem sel_writes (d a b : RegField) (t : Tail) :
    Writes (.sel d a b t) t (selForm d a b t) (some 4) fun fr => (fr.doers { f := d }).flatMap fun l =>
      fr.destCells l { f := d } ((fr.readAll l (selForm d a b t).srcs 0).getD
        (if selPred fr.mods (fr.seen.lane (if isS d then fr.act.headD l else l)) then 0 else 1) []) :=
  Writes.of fun s => (rfl : exec (.sel d a b t) s = execSel d a b t s)

/-- The odd half of a pair: its register and shadows in a lane, or the S register (R91). -/
theorem Issue.oddHalf_eq (fr : Issue) (x : Nat) (d : RegField) (w : Word) :
    fr.oddHalf x d w = match fr.vreg x d with
      | some r => RCell.v x (8 * (r + 1)) w :: fr.tans.map fun j => RCell.v x (fr.tanKey (r + 1) j) 0
      | none => if isS d then [RCell.s (d.toNat - 96 + 1) w] else [] := by
  have hodd : isS d = true → d.toNat - 95 = d.toNat - 96 + 1 := by
    simp only [isS, Bool.and_eq_true, decide_eq_true_eq]
    omega
  rw [Issue.oddHalf]
  cases fr.vreg x d with
  | some r => rfl
  | none =>
    by_cases hs : isS d = true
    · simp only [hs, hodd hs]
    · simp [hs]

/-- MOVHI writes its constant to the odd half alone (R91). -/
theorem movhi_writes (d : RegField) (l : BitVec 14) (t : Tail) :
    Writes (.movhi d l t) t { cls := .lane, acc := { accLogic with ext := true }, dst := some { f := d, width := 2 }, bad := badConst } (some 4)
      fun fr => (fr.doers { f := d, width := 2 }).flatMap fun x => fr.oddHalf x d (constOf fr.mods l) :=
  Writes.of fun s => (rfl : exec (.movhi d l t) s = execMovhi d l t s)

/-- Settles O17: each word by the cells that it writes. -/
theorem predicatesAndSelectionComplete : Obligations.PredicatesAndSelectionComplete := by
  intro d a b p pa pb n m l t
  refine ⟨fun c rel h => icond_of_mem h ▸ isetp_writes c p a b t, fun i g h => ?_, ?_, ?_, ?_, ?_, ?_⟩
  · simp only [List.mem_cons, Prod.mk.injEq, List.not_mem_nil, or_false] at h
    rcases h with ⟨rfl, rfl⟩ | ⟨rfl, rfl⟩ | ⟨rfl, rfl⟩
    · exact predInstr_writes p n pa m pb t fun s => (rfl : exec (.pand p n pa m pb t) s = execPand p n pa m pb t s)
    · exact predInstr_writes p n pa m pb t fun s => (rfl : exec (.por p n pa m pb t) s = execPor p n pa m pb t s)
    · exact predInstr_writes p n pa m pb t fun s => (rfl : exec (.pxor p n pa m pb t) s = execPxor p n pa m pb t s)
  · exact Writes.of fun s => (rfl : exec (.pnot p n pa t) s = execPnot p n pa t s)
  · refine (sel_writes d a b t).congr fun fr => ?_
    simp only [selPred_eq]
  · exact Writes.of fun s => (rfl : exec (.mov d a t) s = execMov d a t s)
  · exact Writes.of fun s => (rfl : exec (.movi d l t) s = execMovi d l t s)
  · refine (movhi_writes d l t).congr fun fr => ?_
    simp only [Issue.oddHalf_eq] <;> rfl

end Sys2Proof.Machine

namespace Sys2Proof.Machine
open Sys2Proof

/-! ## The frame that the issue checks answer -/

/-- A pop leaves its group in its team (R16). -/
theorem popOne_team {s : State} {slot : Nat} {g g' : Group} {f : RegField} {e : QEntry} (h : popOne s slot g f = .ok (e, g')) : g'.team = g.team := by
  unfold popOne at h
  dsimp only at h
  split at h
  · cases h
    rfl
  · exfalso
    revert h
    repeat' split
    all_goals simp [trapA, trapR]

/-- Every pop of a word leaves its group in its team (R16). -/
theorem popAll_team {s : State} {slot : Nat} {os : List Opnd} {g : Group} {p : List QEntry × Group} (h : popAll s slot g os = .ok p) :
    p.2.team = g.team := by
  induction os generalizing g p with
  | nil =>
    cases h
    rfl
  | cons o os ih =>
    unfold popAll at h
    split at h
    · obtain ⟨⟨e, g₁⟩, hone, h⟩ := bind_ok h
      obtain ⟨⟨es, g₂⟩, hall, h⟩ := bind_ok h
      cases h
      exact (ih hall).trans (popOne_team hone)
    · exact ih h

/-- The frame of a ready word is in its group's team, and knows the team's allocation (R21, R27). -/
theorem prepare_alloc {f : Form} {t : Tail} {s : State} {r : Run} {g : Group} {fr : Issue} {s₁ : State} (h : prepare f t s r g = .ok (fr, s₁)) :
    fr.alloc = 8 * (s₁.gridOf fr.g.team).regb := by
  unfold prepare at h
  iterate 9 (obtain ⟨_, _, h⟩ := bind_ok h)
  obtain ⟨p, hp, h⟩ := bind_ok h
  obtain ⟨_, _, h⟩ := bind_ok h
  cases h
  have hteam := popAll_team hp
  show 8 * (s.gridOf g.team).regb = 8 * (s.gridOf p.2.team).regb
  rw [hteam]

/-- A word that is ready has fields that its form admits (R70). -/
theorem prepare_not_bad {f : Form} {t : Tail} {s : State} {r : Run} {g : Group} {x : Issue × State} (h : prepare f t s r g = .ok x) :
    f.bad (Tail.modifiers t) = false := by
  unfold prepare at h
  iterate 3 (obtain ⟨_, _, h⟩ := bind_ok h)
  obtain ⟨_, hfields, h⟩ := bind_ok h
  rw [require] at hfields
  split at hfields
  · next hok => simpa using (Bool.and_eq_true_iff.1 hok).2
  · cases hfields

/-- A further check of the operands is made on the frame before the queues are popped, and decides what becomes of a word that is ready without
it (R27). -/
theorem prepare_pre {f : Form} {t : Tail} {s : State} {r : Run} {g : Group} {fr : Issue} {s₁ : State} (h : prepare f t s r g = .ok (fr, s₁))
    (check : Issue → Except Stop Unit) :
    prepare { f with pre := check } t s r g = (check { fr with g := g, pops := [] }).bind fun _ => .ok (fr, s₁) := by
  unfold prepare at h
  obtain ⟨_, h₁, h⟩ := bind_ok h
  obtain ⟨_, h₂, h⟩ := bind_ok h
  obtain ⟨_, h₃, h⟩ := bind_ok h
  obtain ⟨_, h₄, h⟩ := bind_ok h
  obtain ⟨tan, h₅, h⟩ := bind_ok h
  obtain ⟨_, h₆, h⟩ := bind_ok h
  obtain ⟨_, h₇, h⟩ := bind_ok h
  obtain ⟨_, h₈, h⟩ := bind_ok h
  obtain ⟨_, h₉, h⟩ := bind_ok h
  obtain ⟨p, h₁₀, h⟩ := bind_ok h
  obtain ⟨_, h₁₁, h⟩ := bind_ok h
  cases h
  have hscalar (m : Mods) : Form.scalarForm { f with pre := check } m = f.scalarForm m := rfl
  have hsources (m : Mods) : Form.sources { f with pre := check } m = f.sources m := rfl
  have hread (i : Issue) (w : Word) : Form.readNames { f with pre := check } i w = f.readNames i w := rfl
  have hall (i : Issue) (w : Word) : Form.allNames { f with pre := check } i w = f.allNames i w := rfl
  have hunit (m : Mods) (u : Option Nat) : Form.unit { f with pre := check } m u = f.unit m u := rfl
  simp only [prepare, hscalar, hsources, hread, hall, hunit, h₁, h₂, h₃, h₄, h₅, h₆, h₇, h₉, h₁₀, h₁₁, ok_bind]
  rfl

/-! ## What a ready word does, by its body -/

/-- A ready word whose body commits cells writes them. -/
theorem Ready.commits {f : Form} {t : Tail} {s : State} {core sc : Nat} {r : Run} {g : Group} {fr : Issue} {s₁ : State}
    (h : Ready f t s core sc r g fr s₁) {i : Instr} {body : Issue → State → Except Stop (State × BitVec 64)} (hi : exec i s = issue f t s body)
    {lat : Option Nat} {cs : List RCell} (hb : body fr s₁ = .ok (fr.commit s₁ lat cs, 0)) :
    ∃ u, exec i s = .next u ∧ RegWrite s₁ u core fr.site (1 + t.stall.toNat) lat cs id :=
  ⟨_, hi.trans (issue_ready h _ _ 0 hb), h.writes _ _⟩

/-- A WORD WHOSE BODY CHANGES ITS GROUP moves it so (R55). -/
theorem Moves.of {i : Instr} {t : Tail} {f : Form} {cond : Issue → Prop} {eff : Issue → Group → Prop} {moved : Issue → BitVec 64}
    (change : Issue → Group → Group) {body : Issue → State → Except Stop (State × BitVec 64)} (hi : ∀ s, exec i s = issue f t s body)
    (hb : ∀ fr s, cond fr → body fr s = .ok ({ s with groups := s.groups.modify fr.site.slot (change fr) }, moved fr))
    (he : ∀ fr, cond fr → eff fr (change fr fr.g)) : Moves i t f cond eff moved := by
  intro s core sc r g fr s₁ h hc
  obtain ⟨hone, g', hg', hadv⟩ := h.moves (change fr) (moved fr)
  exact ⟨_, change fr fr.g, g', (hi s).trans (issue_ready h _ _ _ (hb fr s₁ hc)), he fr hc, hone, hg', hadv⟩

/-- A word whose body changes nothing only goes on: the change of its group is that of FPX to itself. -/
theorem Moves.of_unchanged {i : Instr} {t : Tail} {f : Form} {cond : Issue → Prop} {body : Issue → State → Except Stop (State × BitVec 64)}
    (hi : ∀ s, exec i s = issue f t s body) (hb : ∀ fr s, cond fr → body fr s = .ok (s, 0)) :
    Moves i t f cond (fun fr g₂ => g₂ = fr.g) fun _ => 0 :=
  .of (fun _ g => { g with fpx := id g.fpx }) hi (fun fr s hc => by rw [hb fr s hc, modify_fpx_id]) fun _ _ => rfl

/-! ## Special and index registers (R92 to R95) -/

/-- What the special registers 0 to 22 hold, in the order of R92. -/
def State.specials (s : State) (fr : Issue) (l : Nat) : List Nat :=
  let gr := s.gridOf fr.g.team
  let tm := s.team fr.g.team
  let slot := fr.site.slot
  let x := gr.field 0x08 31 0
  let y := gr.field 0x08 63 32
  [l, fr.g.num, slot % 192 / 16, slot / 192, if slot / 192 % 8 < 4 then 0 else 1, tm.index % x, tm.index / x % y, tm.index / x / y,
    x, y, gr.field 0x10 31 0, tm.rank, s.clusterShape fr.g.team, (s.core (slot / 192)).clock, s.gtime, fr.g.fpx.toNat,
    (s.core (slot / 192)).world, gr.vdev, gr.ctx, gr.field 0x10 53 51, gr.field 0x18 63 32, gr.field 0x18 31 0, gr.field 0x10 50 47]

/-- A special register holds the entry of the list that bears its number (R92). -/
theorem State.special_eq (s : State) (fr : Issue) (l : Nat) {n : Nat} (hn : n ≤ 22) :
    s.special fr l n = BitVec.ofNat 64 ((s.specials fr l).getD n 0) := by
  interval_cases n <;> rfl

/-- No special register lies in the table of groups: RDSP reads the same before and after its pops. -/
theorem State.special_setGroup (s : State) (slot : Nat) (g : Group) (fr : Issue) (l n : Nat) :
    (s.setGroup slot g).special fr l n = s.special fr l n := rfl

/-- RDSP's destination: a pair for the clocks (R92). -/
abbrev rdspDst (d n : RegField) : Opnd := { f := d, width := if n = 13 ∨ n = 14 then 2 else 1 }

/-- RDSP's form (R93). -/
abbrev rdspForm (d n : RegField) : Form :=
  { cls := .lane, acc := { index := true }, dst := some (rdspDst d n), rule := if n = 0 then .vOnly else .std,
    bad := fun _ => decide (22 < n.toNat) }

theorem exec_rdsp (d n : RegField) (t : Tail) (s : State) :
    exec (.rdsp d n t) s = issue (rdspForm d n) t s fun i s₁ =>
      .ok (i.commit s₁ none ((i.doers (rdspDst d n)).flatMap fun l => i.destCells l (rdspDst d n) (i.plain (s.special i l n.toNat)).vals), 0) :=
  (rfl : exec (.rdsp d n t) s = execRdsp d n t s)

/-- RDSP writes what the special register holds (R92). -/
theorem rdsp_writes {d n : RegField} {t : Tail} (hn : n.toNat ≤ 22) {s : State} {core sc : Nat} {r : Run} {g : Group} {fr : Issue} {s₁ : State}
    (h : Ready (rdspForm d n) t s core sc r g fr s₁) :
    ∃ u, exec (.rdsp d n t) s = .next u ∧ RegWrite s₁ u core fr.site (1 + t.stall.toNat) none
      ((fr.doers (rdspDst d n)).flatMap fun l => fr.destCells l (rdspDst d n) (fr.plain (BitVec.ofNat 64 ((s₁.specials fr l).getD n.toNat 0))).vals) id := by
  obtain ⟨-, rfl⟩ := prepare_frame h.checks
  simp only [← State.special_eq _ fr _ hn, State.special_setGroup]
  exact h.commits (exec_rdsp d n t s) rfl

/-- IXSET's form without the check of its window (R94). -/
abbrev ixsetForm (a b : RegField) : Form :=
  { cls := .vector, acc := { index := true }, srcs := [{ f := a }, { f := b }], bad := fun _ => !isSZ a }

/-- IXSET's window lies beyond the allocation (R94). -/
abbrev Issue.beyond (fr : Issue) (a : RegField) : Prop :=
  (fr.windowOf a).1.toNat ≤ (fr.windowOf a).2.toNat ∧ fr.alloc ≤ (fr.windowOf a).2.toNat

/-- IXSET's check of its window. -/
def ixsetCheck (a : RegField) (i : Issue) : Except Stop Unit :=
  if (i.windowOf a).1.toNat ≤ (i.windowOf a).2.toNat && decide (i.alloc ≤ (i.windowOf a).2.toNat) then trapR .indexBounds a else .ok ()

theorem exec_ixset (k : BitVec 2) (a b : RegField) (t : Tail) (s : State) :
    exec (.ixset k a b t) s = issue { ixsetForm a b with pre := ixsetCheck a } t s fun i s =>
      .ok (i.commit s (some 4) (.win k.toNat (i.windowOf a).1 (i.windowOf a).2 :: i.act.map fun l =>
        RCell.ix l k.toNat ((opw (i.readAll l (ixsetForm a b).srcs 0) 1).setWidth 8)), 0) := rfl

/-- An S register or ZERO is no V register, no queue and not IND (R15). -/
theorem isSZ_only {f : RegField} (h : isSZ f = true) : isV f = false ∧ isQ f = false ∧ isInd f = false := by
  revert h; revert f; decide

/-- A scalar source reads the same before and after the queues are popped. -/
theorem Issue.read_of_isSZ (i : Issue) (g : Group) (ps : List QEntry) (l n : Nat) {f : RegField} (h : isSZ f = true) :
    Issue.read { i with g := g, pops := ps } l { f := f } n = i.read l { f := f } n := by
  obtain ⟨hv, hq, hi⟩ := isSZ_only h
  simp [Issue.read, Issue.vreg, hv, hq, hi]

theorem Issue.windowOf_of_isSZ (i : Issue) (g : Group) (ps : List QEntry) {a : RegField} (h : isSZ a = true) :
    Issue.windowOf { i with g := g, pops := ps } a = i.windowOf a := by
  simp only [Issue.windowOf, Issue.readAll, Issue.read_of_isSZ i g ps _ _ h]

/-- IXSET with a window that lies beyond the allocation traps INDEX_BOUNDS; with any other it installs the window and the indices (R94). -/
theorem ixset_completes {k : BitVec 2} {a b : RegField} {t : Tail} {s : State} {core sc : Nat} {r : Run} {g : Group} {fr : Issue} {s₁ : State}
    (h : Ready (ixsetForm a b) t s core sc r g fr s₁) :
    (fr.beyond a → exec (.ixset k a b t) s = .next (s.raise (trapSite t r g) { cause := .indexBounds, aux := a.setWidth 64 })) ∧
    (¬ fr.beyond a → ∃ u, exec (.ixset k a b t) s = .next u ∧ RegWrite s₁ u core fr.site (1 + t.stall.toNat) (some 4)
      (.win k.toNat (fr.windowOf a).1 (fr.windowOf a).2 :: fr.act.map fun l =>
        RCell.ix l k.toNat ((fr.opWords l (ixsetForm a b).srcs 1).setWidth 8)) id) := by
  have hsz : isSZ a = true := by simpa using prepare_not_bad h.checks
  obtain ⟨g₀, hturn, hg⟩ := h.turn
  have hprep := prepare_pre h.checks (ixsetCheck a)
  have hwin := Issue.windowOf_of_isSZ fr g [] hsz
  refine ⟨fun hb => ?_, fun hb => ?_⟩
  · have hcheck : ixsetCheck a { fr with g := g, pops := [] } = trapR .indexBounds a := by
      rw [ixsetCheck, hwin]
      exact if_pos (by simpa using hb)
    rw [hcheck] at hprep
    rw [exec_ixset, hg]
    exact issue_trap hturn (hg ▸ hprep)
  · have hcheck : ixsetCheck a { fr with g := g, pops := [] } = .ok () := by
      rw [ixsetCheck, hwin]
      exact if_neg (by simpa using hb)
    rw [hcheck] at hprep
    have hready : Ready { ixsetForm a b with pre := ixsetCheck a } t s core sc r g fr s₁ := ⟨⟨g₀, hturn, hg⟩, hprep⟩
    exact hready.commits (exec_ixset k a b t s) rfl

/-- Adding 8 bits of a word is adding its signed value modulo 256 (R95). -/
theorem add_setWidth_eq (x : BitVec 8) (w : Word) : x + w.setWidth 8 = BitVec.ofInt 8 (x.toNat + w.toInt) := by
  rw [BitVec.ofInt_add, ← BitVec.signExtend, BitVec.signExtend_eq_setWidth_of_le _ (by omega)]
  simp

/-- WRSP's form (R93). -/
abbrev wrspForm (a : RegField) : Form :=
  { cls := .lane, acc := { index := true }, srcs := [{ f := a }], rule := .scalarSrc, bad := fun _ => decide ((15 : RegField) ≠ 15) }

/-- FPX as WRSP leaves it: the source's word without the bits that R34 reserves (R93). -/
def Issue.newFpx (fr : Issue) (a : RegField) : Word := fr.opWords (lowest fr.site.set) (wrspForm a).srcs 0 &&& 0x001F3F3F

theorem exec_wrsp (a : RegField) (t : Tail) (s : State) : exec (.wrsp a 15 t) s = issue (wrspForm a) t s fun fr s =>
    .ok ({ s with groups := s.groups.modify fr.site.slot fun g => { g with fpx := fr.newFpx a } }, 0) :=
  (rfl : exec (.wrsp a 15 t) s = execWrsp a 15 t s)

/-- WRSP changes FPX alone (R93). -/
theorem wrsp_moves (a : RegField) (t : Tail) : Moves (.wrsp a 15 t) t (wrspForm a) (fun _ => True)
    (fun fr g₂ => g₂ = { fr.g with fpx := fr.newFpx a }) (fun _ => 0) :=
  .of (fun fr g => { g with fpx := fr.newFpx a }) (exec_wrsp a t) (fun _ _ _ => rfl) fun _ _ => rfl

/-- IXADD's form (R95). -/
abbrev ixaddForm (k : BitVec 2) (b : RegField) : Form :=
  { cls := .vector, acc := { index := true }, srcs := [{ f := b }], reads := [.ix k.toNat] }

/-- IXADD adds modulo 256 to IXk of each active lane (R95). -/
theorem ixadd_writes (k : BitVec 2) (b : RegField) (t : Tail) : Writes (.ixadd k b t) t (ixaddForm k b) (some 4) fun fr => fr.act.map fun l =>
    RCell.ix l k.toNat ((fr.seen.lane l).ix.get k.toNat + (fr.opWords l (ixaddForm k b).srcs 0).setWidth 8) :=
  Writes.of fun s => (rfl : exec (.ixadd k b t) s = execIxadd k b t s)

/-- Settles O18: RDSP by the list of what the registers hold; IXSET by what its window check makes of a word that is ready without it. -/
theorem specialAndIndexRegistersComplete : Obligations.SpecialAndIndexRegistersComplete := by
  intro d a b k t
  refine ⟨fun n hn s core sc r g fr s₁ h => rdsp_writes hn h, wrsp_moves a t,
    fun s core sc r g fr s₁ h => ⟨prepare_alloc h.checks, ixset_completes h⟩, (ixadd_writes k b t).congr fun fr => ?_⟩
  simp only [add_setWidth_eq]

end Sys2Proof.Machine

namespace Sys2Proof.Machine
open Sys2Proof

/-! ## Lanes that change one by one -/

/-- Changing lanes one by one, each as its number says, changes those lanes and nothing else. -/
theorem LanesBecome.foldl (f : Nat → Lane → Lane) (hf : ∀ l x, f l (f l x) = f l x) (ls : List Nat) (g : Group) :
    LanesBecome g (ls.foldl (fun g l => g.setLane l (f l (g.lane l))) g) ls f := by
  induction ls generalizing g with
  | nil => exact ⟨fun l => rfl, rfl⟩
  | cons m ls ih =>
    obtain ⟨hlane, hrest⟩ := ih (g.setLane m (f m (g.lane m)))
    refine ⟨fun l => ?_, hrest⟩
    rw [List.foldl_cons, hlane, Group.lane_setLane]
    by_cases hm : l = m
    · subst hm
      simp [hf]
    · simp [hm]

/-- The same where every lane changes alike. -/
theorem LanesBecome.onLanes (f : Lane → Lane) (hf : ∀ x, f (f x) = f x) (ls : List Nat) (g : Group) :
    LanesBecome g (g.onLanes ls f) ls fun _ => f :=
  .foldl (fun _ => f) (fun _ => hf) ls g

/-- What a word makes of its group may be said in other words. -/
theorem Moves.imp {i : Instr} {t : Tail} {f : Form} {cond : Issue → Prop} {eff eff' : Issue → Group → Prop} {moved : Issue → BitVec 64}
    (h : Moves i t f cond eff moved) (himp : ∀ fr g₂, eff fr g₂ → eff' fr g₂) : Moves i t f cond eff' moved := by
  intro s core sc r g fr s₁ hr hc
  obtain ⟨u, g₂, g', hu, he, hrest⟩ := h s core sc r g fr s₁ hr hc
  exact ⟨u, g₂, g', hu, himp fr g₂ he, hrest⟩

/-! ## Control transfers (R96, R97, R102) -/

/-- The target of a J-format word is its own address plus four times its offset (R56). -/
theorem jumpTarget_eq (pc : BitVec 56) (o : BitVec 21) : jumpTarget pc o = BitVec.ofInt 56 (pc.toNat + 4 * o.toInt) := by
  have hshift : (o.signExtend 56) <<< 2 = BitVec.ofInt 56 (4 * o.toInt) := by
    rw [BitVec.ofInt_mul, ← BitVec.signExtend, BitVec.shiftLeft_eq_mul_twoPow, BitVec.mul_comm]
    rfl
  rw [jumpTarget, hshift, BitVec.ofInt_add, BitVec.ofInt_natCast, BitVec.ofNat_toNat, BitVec.setWidth_eq]

/-- Two changes of one entry are one change. -/
theorem Table.modify_modify {α : Type} (t : Table α) (i : Nat) (f g : α → α) : (t.modify i f).modify i g = t.modify i (g ∘ f) := by
  unfold Table.modify
  rw [List.map_map]
  refine List.map_congr_left fun kv _ => ?_
  by_cases h : kv.1 = i <;> simp [h]

/-- Bits [1:0] of an address (R97). -/
theorem extractLsb'_low_eq_zero_iff {n : Nat} (x : BitVec n) : x.extractLsb' 0 2 = 0 ↔ x.toNat % 4 = 0 := by
  simp [← BitVec.toNat_inj, BitVec.extractLsb'_toNat]

/-- The group with its active lanes at their targets (R96). -/
def Issue.away (fr : Issue) (target : Nat → BitVec 56) (g : Group) : Group :=
  fr.act.foldl (fun g l => g.setLane l { g.lane l with pc := target l, clause := none }) g

/-- The active lanes stand at clause headers, at their targets (R96). -/
theorem Issue.lanesBecome_away (fr : Issue) (target : Nat → BitVec 56) (g : Group) :
    LanesBecome g (fr.away target g) fr.act fun l x => { x with pc := target l, clause := none } :=
  .foldl (fun l x => { x with pc := target l, clause := none }) (fun _ _ => rfl) fr.act g

/-- NOP only goes on (R102). -/
theorem nop_moves (t : Tail) : Moves (.nop t) t { cls := .any } (fun _ => True) (fun fr g₂ => g₂ = fr.g) (fun _ => 0) :=
  .of_unchanged (body := fun _ s => .ok (s, 0)) (fun s => (rfl : exec (.nop t) s = execNop t s)) fun _ _ _ => rfl

/-- BRA moves the active lanes to its label (R97). -/
theorem bra_moves (o : BitVec 21) (t : Tail) : Moves (.bra o t) t { cls := .scalar } (fun _ => True)
    (fun fr g₂ => g₂ = fr.away (fun _ => jumpTarget fr.site.pc o) fr.g) (fun fr => laneSet fr.act) :=
  .of (fun fr g => fr.away (fun _ => jumpTarget fr.site.pc o) g) (body := fun i s => .ok (i.transfer s fun _ => jumpTarget i.site.pc o))
    (fun s => (rfl : exec (.bra o t) s = execBra o t s)) (fun _ _ _ => rfl) fun _ _ => rfl

/-- The form of a branch to a register pair (R97). -/
abbrev branchForm (a : RegField) : Form := { cls := .scalar, acc := { index := true }, srcs := [{ f := a, width := 2 }] }

/-- The value of the pair in a lane. -/
def Issue.pairAt (fr : Issue) (a : RegField) (l : Nat) : DWord := opd (fr.readAll l (branchForm a).srcs 0) 0

/-- Every target of an active lane is aligned (R97). -/
def Issue.aligned (fr : Issue) (a : RegField) : Prop := ∀ l ∈ fr.act, (fr.pairAt a l).toNat % 4 = 0

/-- The body of a branch to a register pair (R97). -/
def branchBody (a : RegField) (fr : Issue) (s : State) : Except Stop (State × BitVec 64) :=
  if fr.act.any fun l => ((fr.pairAt a l).setWidth 56).extractLsb' 0 2 != 0 then trapE .align
  else .ok (fr.transfer s fun l => (fr.pairAt a l).setWidth 56)

/-- The test of a branch to a register pair finds a target that is not aligned. -/
theorem Issue.aligned_iff (fr : Issue) (a : RegField) :
    (fr.act.any fun l => ((fr.pairAt a l).setWidth 56).extractLsb' 0 2 != 0) = false ↔ fr.aligned a := by
  have h4 (x : DWord) : (x.setWidth 56).toNat % 4 = x.toNat % 4 := by
    rw [BitVec.toNat_setWidth]
    omega
  simp only [List.any_eq_false, bne_iff_ne, ne_eq, not_not, extractLsb'_low_eq_zero_iff, h4, Issue.aligned]

section
variable {i : Instr} {a : RegField} {t : Tail} (hi : ∀ s, exec i s = branchReg a t s)
include hi

/-- BRX and RET move the active lanes to the targets that the pair holds, where each is aligned (R97). -/
theorem branch_moves : Moves i t (branchForm a) (Issue.aligned · a) (fun fr g₂ => g₂ = fr.away (fun l => (fr.pairAt a l).setWidth 56) fr.g)
    (fun fr => laneSet fr.act) :=
  .of (fun fr g => fr.away (fun l => (fr.pairAt a l).setWidth 56) g) (body := branchBody a) hi
    (fun fr s h => by rw [branchBody, (fr.aligned_iff a).2 h]; rfl) fun _ _ => rfl

/-- They trap ALIGN where one is not (R97). -/
theorem branch_traps : TrapsWhen i t (branchForm a) (fun fr _ => ¬ fr.aligned a) fun _ _ => { cause := .align } :=
  .of (branchBody a) hi fun fr s h => by
    rw [branchBody, if_pos (by rwa [← Bool.not_eq_false, fr.aligned_iff])]
    rfl

end

/-- The cells that CALL writes: the address of the word after it, with zero shadows (R97). -/
def Issue.returnCells (fr : Issue) : List RCell :=
  fr.act.flatMap fun l => fr.destCells l { f := 0, width := 2 } (fr.plain ((fr.site.pc + BitVec.ofNat 56 (4 * fr.site.len)).setWidth 64)).vals

/-- CALL writes its return address, and moves the active lanes to its label (R97). -/
theorem call_moves (o : BitVec 21) (t : Tail) : Moves (.call o t) t { cls := .scalar, dst := some { f := 0, width := 2 } } (fun _ => True)
    (fun fr g₂ => g₂ = fr.away (fun _ => jumpTarget fr.site.pc o) (fr.g.commit none fr.site.pc fr.returnCells)) (fun fr => laneSet fr.act) :=
  .of (fun fr g => fr.away (fun _ => jumpTarget fr.site.pc o) (g.commit none fr.site.pc fr.returnCells))
    (body := fun i s => .ok (i.transfer (i.commit s none i.returnCells) fun _ => jumpTarget i.site.pc o))
    (fun s => (rfl : exec (.call o t) s = execCall o t s)) (fun fr s _ => by
      simp only [Issue.transfer, Issue.onGroup, Issue.commit, Table.modify_modify]
      rfl) fun _ _ => rfl

/-- Settles O19: each word by what it makes of its group. -/
theorem controlTransfersComplete : Obligations.ControlTransfersComplete := by
  intro o a t away label fb reg aligned
  have haway (fr : Issue) (target : Issue → Nat → BitVec 56) (g g₂ : Group) (h : g₂ = fr.away (target fr) g) : away target fr g g₂ :=
    h ▸ fr.lanesBecome_away (target fr) g
  have hlabel (fr : Issue) : (fun _ => jumpTarget fr.site.pc o) = label fr := funext fun _ => jumpTarget_eq ..
  let target (fr : Issue) (l : Nat) : BitVec 56 := (reg fr l).setWidth 56
  have hbrx : ∀ s, exec (.brx a t) s = branchReg a t s := fun _ => rfl
  have hret : ∀ s, exec (.ret a t) s = branchReg a t s := fun _ => rfl
  refine ⟨nop_moves t, (bra_moves o t).imp fun fr g₂ h => haway fr label _ _ (hlabel fr ▸ h),
    (branch_moves hbrx).imp fun fr g₂ h => haway fr target _ _ h, (branch_moves hret).imp fun fr g₂ h => haway fr target _ _ h,
    (call_moves o t).imp fun fr g₂ h => haway fr label _ _ (hlabel fr ▸ h), ?_⟩
  rintro i (rfl | rfl)
  · exact branch_traps hbrx
  · exact branch_traps hret

end Sys2Proof.Machine

namespace Sys2Proof.Machine
open Sys2Proof

/-! ## Releasing meetings (R25) -/

/-- Whether a meeting at `m` is complete: every lane that has not exited and has that MEET value is held (R25). -/
def Group.meetingComplete (g : Group) (m : BitVec 56) : Prop := ∀ l ∈ g.alive, (g.lane l).meet = m → (g.lane l).held = true

/-- Release the meeting at one address, if it is complete (R25). -/
def Group.releaseAt (g : Group) (m : BitVec 56) : Group :=
  if g.alive.all fun l => (g.lane l).meet != m || (g.lane l).held then
    let go := g.alive.filter fun l => (g.lane l).meet == m && (g.lane l).held
    let others := g.alive.filter fun l => !(g.lane l).held && (g.lane l).pc == m && (g.lane l).clause.isNone && !(g.lane l).tsync
    let stamp := others.foldl (fun x l => min x (g.lane l).stamp) g.runCount
    (g.onLanes others fun x => { x with stamp := stamp }).onLanes go fun x => { x with held := false, meet := 0, stamp := stamp }
  else g

/-- The MEET values of the lanes that are held (R25). -/
def Group.meets (g : Group) : List (BitVec 56) := ((g.alive.filter fun l => (g.lane l).held).map fun l => (g.lane l).meet).dedup

/-- Nothing is released in trap mode (R306). -/
theorem Group.release_of_trap {g : Group} (h : g.trap.active = true) : g.release = g := if_pos h

/-- Outside it the meetings are released one after another (R25). -/
theorem Group.release_eq {g : Group} (h : g.trap.active = false) : g.release = g.meets.foldl Group.releaseAt g := if_neg (by simp [h])

theorem Group.alive_nodup (g : Group) : g.alive.Nodup := List.nodup_range.filter _

/-- The MEET value of a held lane is among those that are looked at. -/
theorem Group.mem_meets {g : Group} {l : Nat} (ha : l ∈ g.alive) (hh : (g.lane l).held = true) : (g.lane l).meet ∈ g.meets :=
  List.mem_dedup.2 (List.mem_map_of_mem (List.mem_filter.2 ⟨ha, hh⟩))

/-- Releasing a meeting changes lanes only. -/
theorem Group.releaseAt_rest (g : Group) (m : BitVec 56) : g.releaseAt m = { g with lanes := (g.releaseAt m).lanes } := by
  unfold Group.releaseAt
  split
  · dsimp only
    rw [Group.onLanes_rest, Group.onLanes_rest]
  · rfl

theorem Group.meetingComplete_iff (g : Group) (m : BitVec 56) :
    (g.alive.all fun l => (g.lane l).meet != m || (g.lane l).held) = true ↔ g.meetingComplete m := by
  simp [Group.meetingComplete, imp_iff_not_or]

/-- The release of the meeting at `m` lets lane `l` go. -/
structure Group.GoesAt (g : Group) (m : BitVec 56) (l : Nat) : Prop where
  complete : g.meetingComplete m
  alive : l ∈ g.alive
  meet : (g.lane l).meet = m
  held : (g.lane l).held = true

/-- A lane that the release of a meeting lets go is no longer held, and stands where it stood. -/
theorem Group.lane_releaseAt_of_goes {g : Group} {m : BitVec 56} {l : Nat} (h : g.GoesAt m l) :
    ∃ n, (g.releaseAt m).lane l = { g.lane l with held := false, meet := 0, stamp := n } := by
  obtain ⟨hc, hl, hm, hh⟩ := h
  rw [Group.releaseAt, if_pos ((g.meetingComplete_iff m).2 hc)]
  dsimp only
  rw [Group.lane_onLanes _ _ _ (g.alive_nodup.filter _), Group.lane_onLanes _ _ _ (g.alive_nodup.filter _), if_pos (by simp [hl, hm, hh])]
  split <;> exact ⟨_, rfl⟩

/-- At most the stamp of any other lane changes. -/
theorem Group.lane_releaseAt_of_stays {g : Group} {m : BitVec 56} {l : Nat} (h : ¬ g.GoesAt m l) :
    ∃ n, (g.releaseAt m).lane l = { g.lane l with stamp := n } := by
  by_cases hc : g.meetingComplete m
  · have hgo : ¬ (l ∈ g.alive ∧ (g.lane l).meet = m ∧ (g.lane l).held = true) := fun ⟨ha, hm, hh⟩ => h ⟨hc, ha, hm, hh⟩
    rw [Group.releaseAt, if_pos ((g.meetingComplete_iff m).2 hc)]
    dsimp only
    rw [Group.lane_onLanes _ _ _ (g.alive_nodup.filter _), Group.lane_onLanes _ _ _ (g.alive_nodup.filter _), if_neg (by simpa using hgo)]
    split
    · exact ⟨_, rfl⟩
    · exact ⟨(g.lane l).stamp, rfl⟩
  · rw [Group.releaseAt, if_neg fun hx => hc ((g.meetingComplete_iff m).1 hx)]
    exact ⟨(g.lane l).stamp, rfl⟩

/-- A lane that is not held stays so. -/
theorem Group.releaseAt_keeps_unheld {g : Group} {l : Nat} (m : BitVec 56) (h : (g.lane l).held = false) : ((g.releaseAt m).lane l).held = false := by
  obtain ⟨n, hx⟩ := Group.lane_releaseAt_of_stays (g := g) (m := m) (l := l) fun hgo => by
    rw [hgo.held] at h
    cases h
  rw [hx]
  exact h

theorem Group.foldl_releaseAt_keeps_unheld (ms : List (BitVec 56)) {g : Group} {l : Nat} (h : (g.lane l).held = false) :
    ((ms.foldl Group.releaseAt g).lane l).held = false := by
  induction ms generalizing g with
  | nil => exact h
  | cons m ms ih => exact ih (Group.releaseAt_keeps_unheld m h)

/-- What the releases leave of a lane: at most its stamp has changed, or it was held at a complete meeting and has been let go. -/
inductive LaneReleased (g : Group) (l : Nat) (x : Lane) : Prop where
  | stays (n : Nat) (h : x = { g.lane l with stamp := n })
  | goes (n : Nat) (hgo : g.GoesAt (g.lane l).meet l) (h : x = { g.lane l with held := false, meet := 0, stamp := n })

/-- The releases change nothing of a group but its lanes. -/
structure Group.Released (g g' : Group) : Prop where
  rest : g' = { g with lanes := g'.lanes }
  lane : ∀ l, LaneReleased g l (g'.lane l)

theorem Group.Released.refl (g : Group) : g.Released g := ⟨rfl, fun l => .stays (g.lane l).stamp rfl⟩

section
variable {g g' : Group} (h : g.Released g')
include h

theorem Group.Released.exited (l : Nat) : (g'.lane l).exited = (g.lane l).exited := by
  cases h.lane l with
  | stays n hx => rw [hx]
  | goes n hgo hx => rw [hx]

theorem Group.Released.alive : g'.alive = g.alive := by
  simp only [Group.alive, h.exited]

/-- A meeting that is complete now was complete at first. -/
theorem Group.Released.meetingComplete {m : BitVec 56} (hc : g'.meetingComplete m) : g.meetingComplete m := by
  intro l hl hm
  cases h.lane l with
  | stays n hx =>
    have hh := hc l (h.alive ▸ hl) (by rw [hx]; exact hm)
    rw [hx] at hh
    exact hh
  | goes n hgo hx => exact hgo.held

/-- A meeting that was complete at first is still complete, until its lanes have gone. -/
theorem Group.Released.stays_complete {m : BitVec 56} (hm : m ≠ 0) (hc : g.meetingComplete m) : g'.meetingComplete m := by
  intro l hl hlm
  cases h.lane l with
  | stays n hx =>
    rw [hx] at hlm ⊢
    exact hc l (h.alive ▸ hl) hlm
  | goes n hgo hx =>
    rw [hx] at hlm
    exact absurd hlm.symm hm

/-- A release of one meeting more is among what the releases leave. -/
theorem Group.Released.releaseAt (m : BitVec 56) : g.Released (g'.releaseAt m) := by
  refine ⟨(g'.releaseAt_rest m).trans (by rw [h.rest]), fun l => ?_⟩
  by_cases hgo : g'.GoesAt m l
  · obtain ⟨n, hy⟩ := Group.lane_releaseAt_of_goes hgo
    obtain ⟨hc, hl, hm, hh⟩ := hgo
    cases h.lane l with
    | stays k hx =>
      rw [hx] at hm hh hy
      exact .goes n ⟨hm ▸ h.meetingComplete hc, h.alive ▸ hl, rfl, hh⟩ hy
    | goes k hgo hx =>
      rw [hx] at hh
      cases hh
  · obtain ⟨n, hy⟩ := Group.lane_releaseAt_of_stays hgo
    cases h.lane l with
    | stays k hx => exact .stays n (by rw [hy, hx])
    | goes k hgo hx => exact .goes n hgo (by rw [hy, hx])

theorem Group.Released.foldl (ms : List (BitVec 56)) : g.Released (ms.foldl Group.releaseAt g') := by
  induction ms generalizing g' with
  | nil => exact h
  | cons m ms ih => exact ih (h.releaseAt m)

/-- The releases leave every register as it was. -/
theorem Group.Released.sameRegs : SameRegs g g' :=
  ⟨by rw [h.rest], by rw [h.rest], fun l => by
    cases h.lane l with
    | stays n hx => rw [hx]; exact ⟨rfl, rfl, rfl⟩
    | goes n hgo hx => rw [hx]; exact ⟨rfl, rfl, rfl⟩⟩

/-- The releases move no lane. -/
theorem Group.Released.stands (l : Nat) :
    (g'.lane l).pc = (g.lane l).pc ∧ (g'.lane l).exited = (g.lane l).exited ∧ (g'.lane l).clause = (g.lane l).clause := by
  cases h.lane l with
  | stays n hx => rw [hx]; exact ⟨rfl, rfl, rfl⟩
  | goes n hgo hx => rw [hx]; exact ⟨rfl, rfl, rfl⟩

theorem Group.Released.unheld {l : Nat} (hl : (g.lane l).held = false) : (g'.lane l).held = false := by
  cases h.lane l with
  | stays n hx => rw [hx]; exact hl
  | goes n hgo hx => rw [hx]

/-- Only a lane of a complete meeting is let go; it then has MEET 0. -/
theorem Group.Released.of_unheld {l : Nat} (hh : (g.lane l).held = true) (hu : (g'.lane l).held = false) :
    g.meetingComplete (g.lane l).meet ∧ (g'.lane l).meet = 0 := by
  cases h.lane l with
  | stays n hx =>
    rw [hx] at hu
    exact absurd (hh.symm.trans hu) (by decide)
  | goes n hgo hx => exact ⟨hgo.complete, by rw [hx]⟩

end

/-- EVERYTHING A RELEASE DOES (R25). -/
theorem Group.release_released (g : Group) : g.Released g.release := by
  cases ht : g.trap.active
  · rw [Group.release_eq ht]
    exact (Group.Released.refl g).foldl _
  · rw [Group.release_of_trap ht]
    exact .refl g

/-- Every complete meeting is released, outside trap mode (R25, R306). -/
theorem Group.release_unheld {g : Group} {l : Nat} (ht : g.trap.active = false) (ha : l ∈ g.alive) (hm : (g.lane l).meet ≠ 0)
    (hc : g.meetingComplete (g.lane l).meet) : (g.release.lane l).held = false := by
  obtain ⟨before, after, hms⟩ := List.append_of_mem (Group.mem_meets ha (hc l ha rfl))
  rw [Group.release_eq ht, hms, List.foldl_append, List.foldl_cons]
  refine Group.foldl_releaseAt_keeps_unheld _ ?_
  have hrel := (Group.Released.refl g).foldl before
  generalize before.foldl Group.releaseAt g = g' at hrel
  cases hrel.lane l with
  | stays n hx =>
    have hgo : g'.GoesAt (g.lane l).meet l := ⟨hrel.stays_complete hm hc, hrel.alive ▸ ha, by rw [hx], by rw [hx]; exact hc l ha rfl⟩
    obtain ⟨k, hy⟩ := Group.lane_releaseAt_of_goes hgo
    rw [hy]
  | goes n hgo hx => exact Group.releaseAt_keeps_unheld _ (by rw [hx])

/-! ## MEET, MEETX, MEETR, EXIT and YIELD (R98, R100) -/

/-- The group with the MEET of its active lanes at a label, before anything is released (R98). -/
def Issue.withMeet (fr : Issue) (o : BitVec 21) (g : Group) : Group :=
  (g.encoded (fr.act.map Stored.meet)).onLanes fr.act fun x => { x with meet := jumpTarget fr.site.pc o }

/-- MEET sets the MEET of the active lanes to its label, and releases what has become complete (R98). -/
theorem meet_moves (o : BitVec 21) (t : Tail) : Moves (.meet o t) t { cls := .scalar } (fun _ => True)
    (fun fr g₂ => g₂ = (fr.withMeet o fr.g).release) (fun _ => 0) :=
  .of (fun fr g => (fr.withMeet o g).release) (body := fun i s => .ok (i.onGroup s fun g => (i.withMeet o g).release, 0))
    (fun s => (rfl : exec (.meet o t) s = execMeet o t s)) (fun _ _ _ => rfl) fun _ _ => rfl

/-- In every active lane the pair holds a MEET value (R98). -/
def Issue.meetsAt (fr : Issue) (a : RegField) : Prop := ∀ l ∈ fr.act, (fr.pairAt a l).toNat % 4 = 0 ∧ (fr.pairAt a l).toNat < 2 ^ 56

/-- The lanes with the MEET values of a pair. -/
def Issue.withMeets (fr : Issue) (a : RegField) (g : Group) : Group :=
  fr.act.foldl (fun g l => g.setLane l { g.lane l with meet := (fr.pairAt a l).setWidth 56 }) g

/-- The body of MEETR (R98). -/
def meetrBody (a : RegField) (fr : Issue) (s : State) : Except Stop (State × BitVec 64) :=
  if fr.act.any fun l => (fr.pairAt a l).extractLsb' 0 2 != 0 || (fr.pairAt a l).extractLsb' 56 8 != 0 then trapR .meetInvalid a
  else .ok (fr.onGroup s fun g => (fr.withMeets a (g.encoded (fr.act.map Stored.meet))).release, 0)

theorem exec_meetr (a : RegField) (t : Tail) (s : State) : exec (.meetr a t) s = issue (branchForm a) t s (meetrBody a) :=
  (rfl : exec (.meetr a t) s = execMeetr a t s)

/-- Bits [63:56] of an address (R98). -/
theorem extractLsb'_high_eq_zero_iff (x : DWord) : x.extractLsb' 56 8 = 0 ↔ x.toNat < 2 ^ 56 := by
  rw [← BitVec.toNat_inj, BitVec.extractLsb'_toNat, Nat.shiftRight_eq_div_pow]
  simp only [BitVec.ofNat_eq_ofNat, BitVec.toNat_ofNat]
  omega

/-- MEETR's test finds a value that is no MEET value. -/
theorem Issue.meetsAt_iff (fr : Issue) (a : RegField) :
    (fr.act.any fun l => (fr.pairAt a l).extractLsb' 0 2 != 0 || (fr.pairAt a l).extractLsb' 56 8 != 0) = false ↔ fr.meetsAt a := by
  simp only [List.any_eq_false, Bool.or_eq_true, bne_iff_ne, ne_eq, not_or, not_not, extractLsb'_low_eq_zero_iff, extractLsb'_high_eq_zero_iff,
    Issue.meetsAt]

/-- MEETR restores the MEET of the active lanes, and releases what has become complete (R98). -/
theorem meetr_moves (a : RegField) (t : Tail) : Moves (.meetr a t) t (branchForm a) (Issue.meetsAt · a)
    (fun fr g₂ => g₂ = (fr.withMeets a (fr.g.encoded (fr.act.map Stored.meet))).release) (fun _ => 0) :=
  .of (fun fr g => (fr.withMeets a (g.encoded (fr.act.map Stored.meet))).release) (exec_meetr a t)
    (fun fr s h => by rw [meetrBody, (fr.meetsAt_iff a).2 h]; rfl) fun _ _ => rfl

/-- MEETR traps MEET_INVALID where a pair holds no MEET value (R98). -/
theorem meetr_traps (a : RegField) (t : Tail) : TrapsWhen (.meetr a t) t (branchForm a) (fun fr _ => ¬ fr.meetsAt a)
    fun _ _ => { cause := .meetInvalid, aux := a.setWidth 64 } :=
  .of (meetrBody a) (exec_meetr a t) fun fr s h => by
    rw [meetrBody, if_pos (by rwa [← Bool.not_eq_false, fr.meetsAt_iff])]
    rfl

/-- EXIT ends the active lanes, and releases what has become complete (R100). -/
theorem exit_moves (t : Tail) : Moves (.exit t) t { cls := .scalar } (fun _ => True)
    (fun fr g₂ => g₂ = (fr.g.onLanes fr.act fun x => { x with exited := true }).release) (fun fr => laneSet fr.act) :=
  .of (fun fr g => (g.onLanes fr.act fun x => { x with exited := true }).release)
    (body := fun i s => .ok (i.onGroup s fun g => (g.onLanes i.act fun x => { x with exited := true }).release, laneSet i.act))
    (fun s => (rfl : exec (.exit t) s = execExit t s)) (fun _ _ _ => rfl) fun _ _ => rfl

/-! ### YIELD -/

/-- The end of a run changes groups and cores only. -/
theorem endRun_sameOutside (s : State) (core sc : Nat) : SameOutside s (s.endRun core sc) := by
  unfold State.endRun
  split <;> rfl

/-- The end of a run takes no other run away. -/
theorem endRun_runs_some {s : State} {core sc core' sc' : Nat} {q : Run} (h : ((s.endRun core sc).core core').runs.find sc' = some q) :
    (s.core core').runs.find sc' = some q := by
  unfold State.endRun at h
  split at h
  · exact h
  · change ((s.setCore core _).core core').runs.find sc' = some q at h
    rw [State.core_setCore] at h
    split at h
    · next hc =>
      subst hc
      change ((s.core core').runs.del sc).find sc' = some q at h
      rw [Table.find_del] at h
      split at h
      · cases h
      · exact h
    · exact h

/-- Without a run, `finish` leaves the sub-core without one. -/
theorem finish_runs_none {s : State} {core sc : Nat} (w : Site) (stall : BitVec 3) (moved : BitVec 64) (h : (s.core core).runs.find sc = none) :
    ((s.finish core sc w stall moved).core core).runs.find sc = none := by
  unfold State.finish
  dsimp only
  split
  · next hr _ => cases h.symm.trans hr
  · rw [State.core_setCore_self]
    exact h

theorem exec_yield (t : Tail) (s : State) : exec (.yield t) s = issue { cls := .scalar } t s fun i s =>
    .ok (s.endRun (slotCore i.site.slot) (slotSub i.site.slot), 0) := rfl

/-- The results not yet available do not matter to where lanes stand. -/
theorem GroupAdvanced.of_hazards {g g' : Group} {hz : List Hazard} {ls : List Nat} {n : Nat} (h : GroupAdvanced { g with hazards := hz } g' ls n) :
    GroupAdvanced g g' ls n :=
  ⟨fun c => (h.regs c).trans (SameRegs.value ⟨rfl, rfl, fun _ => ⟨rfl, rfl, rfl⟩⟩ c), h.rest, h.lanes⟩

/-- YIELD moves the whole set to the next word, and leaves the sub-core without a run (R100). -/
theorem yield_completes {t : Tail} {s : State} {core sc : Nat} {r : Run} {g : Group} {fr : Issue} {s₁ : State}
    (h : Ready { cls := .scalar } t s core sc r g fr s₁) :
    ∃ u, exec (.yield t) s = .next u ∧ SameOutside s₁ u ∧
      (slotCore r.slot = core → slotSub r.slot = sc → (u.core core).runs.find sc = none ∧
        ∃ g', u.groups.find r.slot = some g' ∧ GroupAdvanced fr.g g' (lanesOf fr.site.set) fr.site.len) := by
  obtain ⟨hslot, hgroup, hruns⟩ := h.slots
  rw [← hslot] at hgroup hruns ⊢
  obtain ⟨hz, hended⟩ := endRun_groups s₁ (slotCore fr.site.slot) (slotSub fr.site.slot) fr.site.slot fr.g hgroup
  obtain ⟨hone, g', hg', hadv, -⟩ := State.finish_moved (s₁.endRun (slotCore fr.site.slot) (slotSub fr.site.slot)) core sc fr.site t.stall 0 _ hended
    fun q hq => hruns q (endRun_runs_some hq)
  refine ⟨_, (exec_yield t s).trans (issue_ready h _ _ 0 rfl), (endRun_sameOutside ..).trans hone.outside, ?_⟩
  rintro rfl rfl
  rw [and_not_zero] at hadv
  exact ⟨finish_runs_none _ _ _ (endRun_runs ..), g', hg', hadv.of_hazards⟩

/-- Settles O20: a release by what it leaves of each lane, which every single release keeps; each word by what it makes of its group. -/
theorem meetingExitAndYieldComplete : Obligations.MeetingExitAndYieldComplete := by
  refine ⟨fun g => ?_, fun o a d t => ?_⟩
  · have h := g.release_released
    exact ⟨Group.release_of_trap, fun l => h.of_unheld, fun l ha ht _ hm hc => Group.release_unheld ht ha hm hc, fun l => h.unheld, h.stands,
      h.sameRegs.value⟩
  · refine ⟨(meet_moves o t).imp fun fr g₂ h => ⟨_, ?_, h⟩, Writes.of fun s => (rfl : exec (.meetx d t) s = execMeetx d t s),
      (meetr_moves a t).imp fun fr g₂ h => ⟨_, ?_, h⟩, meetr_traps a t, (exit_moves t).imp fun fr g₂ h => ⟨_, ?_, h⟩,
      fun s core sc r g fr s₁ h => yield_completes h⟩
    · rw [Issue.withMeet, jumpTarget_eq]
      exact .onLanes (fun x => { x with meet := BitVec.ofInt 56 (fr.site.pc.toNat + 4 * o.toInt) }) (fun _ => rfl) _ _
    · exact .foldl (fun l x => { x with meet := (fr.pairAt a l).setWidth 56 }) (fun _ _ => rfl) _ _
    · exact .onLanes (fun x => { x with exited := true }) (fun _ => rfl) _ _

end Sys2Proof.Machine

namespace Sys2Proof.Machine
open Sys2Proof

/-! ## TRAP and BRK (R101) -/

/-- The body of TRAP and BRK (R101). -/
def trapBody (c : Cause) (after : Bool) (code : BitVec 14) (fr : Issue) (s : State) : Except Stop (State × BitVec 64) :=
  if fr.act.isEmpty then .ok (s, 0) else .error (.trap { cause := c, aux := code.setWidth 64, after := after, leave := true })

section
variable {i : Instr} {t : Tail} {c : Cause} {after : Bool} {code : BitVec 14} (hi : ∀ s, exec i s = trapInstr c after code t s)
include hi

/-- With a lane active the cause is raised (R101). -/
theorem trapInstr_traps : TrapsWhen i t { cls := .scalar } (fun fr _ => fr.act ≠ []) fun _ _ =>
    { cause := c, aux := code.setWidth 64, after := after, leave := true } :=
  .of (trapBody c after code) hi fun fr s h => if_neg (by simpa using h)

/-- With none the word only goes on (R101). -/
theorem trapInstr_moves : Moves i t { cls := .scalar } (fun fr => fr.act = []) (fun fr g₂ => g₂ = fr.g) (fun _ => 0) :=
  .of_unchanged (body := trapBody c after code) hi fun fr s h => if_pos (by simp [h])

end

/-- Settles O21: both words have one body, which raises the cause where a lane is active. -/
theorem trapAndBreakTakeTheirException : Obligations.TrapAndBreakTakeTheirException := by
  intro c t
  have htrap : ∀ s, exec (.trap c t) s = trapInstr .softwareTrap true c t s := fun _ => rfl
  have hbrk : ∀ s, exec (.brk c t) s = trapInstr .breakpoint false c t s := fun _ => rfl
  exact ⟨fun s core sc r g fr s₁ h hact => ⟨trapInstr_traps htrap s core sc r g fr s₁ h hact, trapInstr_traps hbrk s core sc r g fr s₁ h hact⟩,
    trapInstr_moves htrap, trapInstr_moves hbrk⟩

/-! ## Reset (R152, R379) -/

/-- Settles O7: every table of the reset state is empty, so that each entry reads as its default. -/
theorem resetState : Obligations.ResetState :=
  ⟨rfl, fun _ => rfl, rfl, rfl, rfl, rfl, fun _ => ⟨rfl, fun _ => ⟨rfl, rfl⟩⟩, fun _ => ⟨rfl, rfl⟩, fun _ _ => rfl, fun _ => rfl, fun _ => rfl,
    fun _ => ⟨rfl, rfl, rfl, rfl, rfl⟩, fun _ => ⟨rfl, rfl, rfl⟩⟩

end Sys2Proof.Machine

namespace Sys2Proof.Machine
open Sys2Proof

/-! ## Floating-point words: their cells are committed and their exceptions recorded, or FP_TRAP is taken (R34) -/

/-- What a part raised, as `floatFlags` takes it. -/
def FloatPart.raised (p : FloatPart) : List Nat × BitVec 6 × BitVec 6 := (p.lanes, p.flags, p.tflags)

/-- The trap that parts with an enabled exception take (R34). -/
def fpTrapOf (once : Bool) (ps : List FloatPart) (en : BitVec 6) : Trap :=
  { cause := .fpTrap, flags := flagsOf ps, excs := flagsOf ps &&& en,
    lanes := if once then none else some (laneSet (ps.flatMap fun p => if p.flags &&& en != 0 then p.lanes else [])) }

/-- Where an exception of the parts is enabled FP_TRAP is taken; where none is they go to FLAGS and TFLAGS (R34). -/
theorem floatFlags_raised (fr : Issue) (once : Bool) (ps : List FloatPart) (s : State) :
    floatFlags fr once (ps.map FloatPart.raised) s =
      if flagsOf ps &&& fpxEnable fr.g.fpx != 0 then .error (.trap (fpTrapOf once ps (fpxEnable fr.g.fpx)))
      else .ok { s with groups := s.groups.modify fr.site.slot fun g => { g with fpx := fpxRaise g.fpx (flagsOf ps) (tflagsOf ps) } } := by
  have hflags : (ps.map FloatPart.raised).foldl (fun (x : BitVec 6) r => x ||| r.2.1) 0 = flagsOf ps := List.foldl_map
  have htflags : (ps.map FloatPart.raised).foldl (fun (x : BitVec 6) r => x ||| r.2.2) 0 = tflagsOf ps := List.foldl_map
  rw [floatFlags, hflags, htflags, List.flatMap_map]
  rfl

/-- Exceptions are recorded, and then cells are committed; or FP_TRAP is taken and nothing is (R34). -/
def floatCommit (lat : Option Nat) (once : Bool) (rs : List (List Nat × BitVec 6 × BitVec 6)) (cells : List RCell) (fr : Issue) (s : State) :
    Except Stop (State × BitVec 64) :=
  match floatFlags fr once rs s with
  | .error e => .error e
  | .ok s => .ok (fr.commit s lat cells, 0)

/-- The body of a floating-point word with these parts. -/
def floatBody (lat : Option Nat) (once : Bool) (ps : List FloatPart) (fr : Issue) (s : State) : Except Stop (State × BitVec 64) :=
  floatCommit lat once (ps.map FloatPart.raised) (ps.flatMap FloatPart.cells) fr s

/-- A WORD WITH THE BODY OF A FLOATING-POINT WORD writes the cells of its parts, or takes FP_TRAP (R34). -/
theorem FloatWrites.of {i : Instr} {t : Tail} {f : Form} {lat : Option Nat} {once : Bool} {parts : Issue → List FloatPart}
    {body : Issue → State → Except Stop (State × BitVec 64)} (hi : ∀ s, exec i s = issue f t s body)
    (hb : ∀ fr s, body fr s = floatBody lat once (parts fr) fr s) : FloatWrites i t f lat once parts := by
  have htrap : TrapsWhen i t f (fun fr _ => flagsOf (parts fr) &&& fpxEnable fr.g.fpx ≠ 0) fun fr _ =>
      fpTrapOf once (parts fr) (fpxEnable fr.g.fpx) :=
    .of body hi fun fr s h => by rw [hb, floatBody, floatCommit, floatFlags_raised, if_pos (by simpa using h)]
  intro s core sc r g fr s₁ h
  refine ⟨fun hquiet => ⟨_, (hi s).trans (issue_ready h _ _ 0 ?_), h.writes_fpx lat _ _⟩, htrap s core sc r g fr s₁ h⟩
  rw [hb, floatBody, floatCommit, floatFlags_raised, if_neg (by simpa using hquiet)]

/-- A floating-point instruction of the lanes has a part for every lane that computes a result. -/
theorem FloatComputes.of {i : Instr} {t : Tail} {f : Form} {lat : Option Nat} {d : Opnd} {val : Arith → Nat → List (List DWord) → LaneRes}
    {comp : Issue → Nat → List (List DWord) → LaneRes} (hi : ∀ s, exec i s = floatInstr { f with dst := some d } lat t s comp)
    (hv : ∀ fr l o, comp fr l o = val fr.mods.ar fr.tans.length o) : FloatComputes i t f lat d val := by
  refine FloatWrites.of hi fun fr s => ?_
  simp only [floatBody, hv, List.map_map, List.flatMap_map]
  rfl

/-! ## Arithmetic (R104 to R110) -/

/-- The form of FADD, FSUB, FMUL, FFMA, FDIV and the packed words (R107, R110). -/
abbrev arithForm (a b : RegField) (op : FOp) (cls : OpClass) : Form :=
  { cls := cls, acc := if op = .fma then { accFloat 3 with useC := true } else accFloat 2, srcs := regs [a, b] }

section
variable {i : Instr} {op : FOp} {f : Fmt} {lat : Option Nat} {d a b : RegField} {t : Tail}

/-- An unpacked word computes its operation on the sources (R107). -/
theorem arithInstr_computes (hi : ∀ s, exec i s = arithInstr op f lat d a b t s) :
    FloatComputes i t (arithForm a b op .lane) lat { f := d } fun ar n o => op.lane f ar n (f.sources ar 0 o) :=
  .of (comp := fun i _ o => op.lane f i.mods.ar i.tans.length (f.sources i.mods.ar 0 o)) hi fun _ _ _ => rfl

/-- FMIN and FMAX return the source that they pick (R108). -/
theorem pickInstr_computes {larger : Bool} (hi : ∀ s, exec i s = pickInstr larger f d a b t s) :
    FloatComputes i t { cls := .lane, acc := accFloat 2, srcs := regs [a, b] } (some 6) { f := d } fun ar n o =>
      pickLane larger f ar n (f.sources ar 0 o) :=
  .of (comp := fun i _ o => pickLane larger f i.mods.ar i.tans.length (f.sources i.mods.ar 0 o)) hi fun _ _ _ => rfl

/-- A packed word computes its operation on each half of the sources (R110). -/
theorem packedInstr_computes (hi : ∀ s, exec i s = packedInstr op f d a b t s) :
    FloatComputes i t (arithForm a b op .vector) (some 6) { f := d } fun ar n o =>
      packRes (op.lane f ar n (f.sources ar 0 o)) (op.lane f ar n (f.sources ar 16 o)) :=
  .of (comp := fun i _ o => packRes (op.lane f i.mods.ar i.tans.length (f.sources i.mods.ar 0 o))
    (op.lane f i.mods.ar i.tans.length (f.sources i.mods.ar 16 o))) hi fun _ _ _ => rfl

end

/-- Settles O22: every word is the instruction of its operation and format, which computes a result for each lane. -/
theorem floatArithmeticCompletes : Obligations.FloatArithmeticCompletes := by
  intro d a b t
  refine ⟨fun x hx => arithInstr_computes ?_, fun x hx => pickInstr_computes ?_, fun x hx => packedInstr_computes ?_⟩
  all_goals
    revert x
    simp only [List.forall_mem_cons, List.not_mem_nil, false_imp_iff, implies_true, and_true]
    and_intros <;> exact fun _ => rfl

end Sys2Proof.Machine

namespace Sys2Proof.Machine
open Sys2Proof

/-! ## Functions, conversions and rounding (R111 to R116) -/

/-- The result of a function of opcode 0x4E in a lane, with its tangents (R111, R112). -/
def Fn.lane (fn : Fn) (f : Fmt) (ar : Arith) (n : Nat) (o : List (List DWord)) : LaneRes :=
  let xs := f.sources ar 0 o
  let x := (xs.getD 0 ⟨0, [], 0, 0⟩).v
  floatLane f ar xs n (fun sc => fn.apply f ar.ftz sc (modKey ar + 1, ((o.getD 0 []).headD 0).setWidth 32) x)
    fun y ds => fn.tangent f ar.ftz x y (ds.getD 0 0)

/-- A function of opcode 0x4E computes its result on the source (R111). -/
theorem fnInstr_computes {i : Instr} {fn : Fn} {d a : RegField} {ty : BitVec 2} {t : Tail} (hi : ∀ s, exec i s = fnInstr fn d a ty t s) :
    FloatComputes i t { cls := .vector, acc := accFloat 1, srcs := regs [a], bad := fun _ => ty == 3 } none { f := d }
      (fn.lane (fmtOf ty.toNat)) :=
  .of (comp := fun i _ o => fn.lane (fmtOf ty.toNat) i.mods.ar i.tans.length o) hi fun _ _ _ => rfl

/-- A result without tangents has a zero for each of them (R77). -/
theorem Issue.plain_with_flags (fr : Issue) (x : DWord) (fl : BitVec 6) :
    ({ fr.plain x with flags := fl } : LaneRes) = { vals := x :: List.replicate fr.tans.length 0, flags := fl } := by
  simp [Issue.plain]

/-- Settles O23: the codes of FCVT choose between three instructions; results that are integers or rounded to integral values have zero tangents. -/
theorem floatFunctionsAndConversionsComplete : Obligations.FloatFunctionsAndConversionsComplete := by
  intro d a ty r t
  have hcvt (c : BitVec 5) (s : State) : exec (.fcvt d a c r t) s = execFcvt d a c r t s := rfl
  refine ⟨fun x hx => fnInstr_computes ?_, fun c hc => ?_, fun c hc₁ hc₂ => ?_, fun c hc₁ hc₂ => ?_,
    fun x hx => .of (?_ : ∀ s, exec x.1 s = rndInstr x.2 d a r t s) fun fr _ _ => fr.plain_with_flags _ _⟩
  case refine_2 => exact .of (fun s => (hcvt c s).trans (if_pos hc)) fun _ _ _ => rfl
  case refine_3 =>
    exact .of (fun s => (hcvt c s).trans ((if_neg (by omega)).trans (if_pos hc₂))) fun fr _ _ => fr.plain_with_flags _ _
  case refine_4 =>
    exact .of (fun s => (hcvt c s).trans ((if_neg (by omega)).trans (if_neg (by omega)))) fun fr _ _ => fr.plain_with_flags _ _
  all_goals
    revert x
    simp only [List.forall_mem_cons, List.not_mem_nil, false_imp_iff, implies_true, and_true]
    and_intros <;> exact fun _ => rfl

/-! ## Predicates (R109, R117) -/

/-- A predicate is written lane by lane. -/
theorem predCells_eq_flatMap (p : BitVec 3) (ls : List Nat) (b : Nat → Bool) : predCells p ls b = ls.flatMap fun l => predCells p [l] b := by
  unfold predCells
  split
  · simp
  · exact List.map_eq_flatMap

/-- What FSETP contributes in a lane: its condition, and NV for a signalling NaN under = and ≠ and for any NaN under the others (R109). -/
def setpPart (f : Fmt) (c : BitVec 4) (p : BitVec 3) (xs : List FOpd) (l : Nat) : FloatPart :=
  let u := xs.getD 0 ⟨0, [], 0, 0⟩
  let v := xs.getD 1 ⟨0, [], 0, 0⟩
  let nv := if c.toNat < 2 then f.isSNaN u.v || f.isSNaN v.v else f.isNaN u.v || f.isNaN v.v
  ⟨predCells p [l] fun _ => f.cond c u.v v.v, [l], u.fl ||| v.fl ||| (if nv then flagNV else 0), 0⟩

/-- The form of FSETP (R109). -/
abbrev setpForm (a b : RegField) (c : BitVec 4) (p : BitVec 3) : Form :=
  { cls := .lane, acc := { neg := 2, abs := 2, ftz := true, index := true }, srcs := regs [a, b], writes := [.p p.toNat],
    bad := fun _ => decide (10 ≤ c.toNat) }

/-- NV as FSETP raises it: for a signalling NaN, or for any. -/
theorem setp_flags (f : Fmt) (c : BitVec 4) (x y : Nat) :
    (if c.toNat < 2 then f.snanFlag [x, y] else if f.isNaN x || f.isNaN y then flagNV else 0) =
      if (if c.toNat < 2 then f.isSNaN x || f.isSNaN y else f.isNaN x || f.isNaN y) then flagNV else 0 := by
  split <;> simp [Fmt.snanFlag]

/-- What FSETP contributes in all active lanes. -/
abbrev setpParts (f : Fmt) (c : BitVec 4) (p : BitVec 3) (a b : RegField) (fr : Issue) : List FloatPart :=
  fr.act.map fun l => setpPart f c p (f.sources fr.mods.ar 0 (fr.readAll l (regs [a, b]) 0)) l

/-- FSETP has the body of a floating-point word, with no tangents and no S destination. -/
theorem setpInstr_eq (f : Fmt) (c : BitVec 4) (p : BitVec 3) (a b : RegField) (t : Tail) (s : State) :
    setpInstr f c p a b t s = issue (setpForm a b c p) t s fun fr => floatBody (some 6) false (setpParts f c p a b fr) fr := by
  dsimp only [setpInstr]
  congr 1
  funext fr s
  simp only [floatBody, List.map_map, List.flatMap_map, setp_flags, predCells_eq_flatMap p fr.act]
  rfl

/-- FSETP writes its condition in every active lane, or takes FP_TRAP (R109). -/
theorem setpInstr_writes {i : Instr} {f : Fmt} {c : BitVec 4} {p : BitVec 3} {a b : RegField} {t : Tail}
    (hi : ∀ s, exec i s = setpInstr f c p a b t s) : FloatWrites i t (setpForm a b c p) (some 6) false (setpParts f c p a b) :=
  .of (fun s => (hi s).trans (setpInstr_eq f c p a b t s)) fun _ _ => rfl

/-- With a NaN operand exactly ≠ and the unordered conditions hold (R109). -/
theorem Fmt.cond_of_nan {f : Fmt} {x y : Nat} (h : f.isNaN x = true ∨ f.isNaN y = true) (c : BitVec 4) :
    f.cond c x y = decide (c.toNat = 1 ∨ 6 ≤ c.toNat) := by
  have hun : (f.isNaN x || f.isNaN y) = true := by simpa using h
  simp only [Fmt.cond, hun, Bool.not_true, Bool.false_and, Bool.true_or]
  split <;> simp_all
  omega

/-- Settles O24: both words are stated for every format; a NaN operand decides each condition. -/
theorem floatPredicatesComplete : Obligations.FloatPredicatesComplete := by
  intro a b p c t
  refine ⟨fun x hx => setpInstr_writes ?_, fun x hx => Writes.of (?_ : ∀ s, exec x.1 s = classInstr x.2 c p a t s), fun f _ x y h => ?_⟩
  case refine_3 =>
    have hc := Fmt.cond_of_nan h
    exact ⟨hc 0, hc 1, fun k h₁ h₂ => (hc k).trans (decide_eq_false (by omega)), fun k h₁ h₂ => (hc k).trans (decide_eq_true (by omega))⟩
  all_goals
    revert x
    simp only [List.forall_mem_cons, List.not_mem_nil, false_imp_iff, implies_true, and_true]
    and_intros <;> exact fun _ => rfl

end Sys2Proof.Machine

namespace Sys2Proof.Machine
open Sys2Proof

/-! ## VOTE (R121) -/

/-- The number that VOTE gives for a mode, over lanes of which some vote yes (R121). -/
def voteCount (mode : Nat) (ls : List Nat) (yes : Nat → Bool) : Nat :=
  match mode with
  | 0 => if ls.any yes then 1 else 0
  | 1 => if ls.all yes then 1 else 0
  | 2 => (laneSet (ls.filter yes)).toNat
  | 3 => (ls.filter yes).length
  | _ => if ls.all yes || ls.all (fun l => !yes l) then 1 else 0

/-- VOTE's result is that number. -/
theorem voteOf_eq (mode : Nat) (ls : List Nat) (yes : Nat → Bool) :
    voteOf mode (ls.map fun l => (l, yes l)) = BitVec.ofNat 64 (voteCount mode ls yes) := by
  have hfilter : (ls.map fun l => (l, yes l)).filter Prod.snd = (ls.filter yes).map fun l => (l, yes l) := List.filter_map
  have hfst : ((ls.filter yes).map fun l => (l, yes l)).map Prod.fst = ls.filter yes := by simp [Function.comp_def]
  have hbit (b : Bool) : (if b then 1 else 0 : DWord) = BitVec.ofNat 64 (if b then 1 else 0) := by cases b <;> rfl
  obtain _ | _ | _ | _ | n := mode
  all_goals simp only [voteOf, voteCount, hfilter, hfst, hbit, List.any_map, List.all_map, List.length_map, Function.comp_def,
    BitVec.ofNat_toNat, BitVec.setWidth_eq]

/-- VOTE's destination: a pair for the set of lanes (R121). -/
abbrev voteDst (d : RegField) (v : BitVec 3) : Opnd := { f := d, width := if v = 2 then 2 else 1 }

/-- VOTE writes what its mode gives over the active lanes (R121). -/
theorem vote_writes (d : RegField) (n : BitVec 1) (p v : BitVec 3) (t : Tail) :
    Writes (.vote d n p v t) t { cls := .vector, dst := some (voteDst d v), reads := [.p p.toNat], rule := .anyS } none fun fr =>
      (fr.doers (voteDst d v)).flatMap fun l => fr.destCells l (voteDst d v)
        (fr.plain (voteOf v.toNat (fr.act.map fun l => (l, (fr.seen.lane l).pred p.toNat != (n == 1))))).vals :=
  Writes.of fun s => (rfl : exec (.vote d n p v t) s = execVote d n p v t s)

/-! ## GRED and GSCAN (R122, R123) -/

/-- The parts of a reduction: the cells of its results, which raise nothing, and each step's exceptions. -/
abbrev redParts (cells : List RCell) (rs : RedFlags) : List FloatPart := ⟨cells, [], 0, 0⟩ :: rs.map fun x => ⟨[], x.1, x.2.1, x.2.2⟩

/-- A part that raised nothing leaves the exceptions as they are. -/
theorem floatFlags_cons_quiet (fr : Issue) (once : Bool) (rs : RedFlags) (s : State) :
    floatFlags fr once (([], 0, 0) :: rs) s = floatFlags fr once rs s := by
  simp [floatFlags]

/-- The body of a reduction records what its steps raised, and commits its results. -/
theorem floatBody_redParts (fr : Issue) (cells : List RCell) (rs : RedFlags) (s : State) :
    floatBody none false (redParts cells rs) fr s = floatCommit none false rs cells fr s := by
  have hraised : (redParts cells rs).map FloatPart.raised = ([], 0, 0) :: rs := by
    rw [redParts, List.map_cons, List.map_map]
    exact congrArg _ (List.map_id rs)
  have hcells : (redParts cells rs).flatMap FloatPart.cells = cells := by
    simp [List.flatMap_map]
  unfold floatBody floatCommit
  rw [hraised, hcells, floatFlags_cons_quiet]

/-- A level of the tree leaves a value. -/
theorem redLevel_ne_nil (f : Nat) {xs : List RedVal} (h : xs ≠ []) : (redLevel f xs).1 ≠ [] := by
  fun_cases redLevel f xs
  · simp
  · exact h

/-- The tree leaves a value (R122). -/
theorem redTree_ne_nil (f n : Nat) {xs : List RedVal} (h : xs ≠ []) : (redTree f n xs).1 ≠ [] := by
  induction n generalizing xs with
  | zero => exact h
  | succ n ih => exact ih (redLevel_ne_nil f h)

/-- The form of GRED and GSCAN, which differ in the destinations that they take (R122, R123). -/
abbrev redForm (d a : RegField) (f : BitVec 4) (rule : DestRule) : Form :=
  { cls := .vector, acc := { dual := true, moves := decide (8 ≤ f.toNat) }, dst := some { f := d }, srcs := regs [a], rule := rule }

/-- What GRED combines the values of all lanes to, and what its steps raised (R122). -/
def Issue.reduced (fr : Issue) (a : RegField) (f : BitVec 4) : List RedVal × RedFlags :=
  redTree f.toNat 6 ((List.range 64).map (fr.redIn f.toNat a))

theorem Issue.reduced_ne_nil (fr : Issue) (a : RegField) (f : BitVec 4) : (fr.reduced a f).1 ≠ [] := redTree_ne_nil _ _ (by simp)

/-- GRED's parts, in the frame that it reads (R122). -/
def gredParts (d a : RegField) (f : BitVec 4) (fr : Issue) : List FloatPart :=
  redParts ((fr.doers { f := d }).flatMap fun l => fr.destCells l { f := d } (((fr.reduced a f).1.map fun x => x.res.vals).headD []))
    (fr.reduced a f).2

/-- The frame as GRED reads it: without tangents for an S destination (R122). -/
def Issue.forRed (fr : Issue) (d : RegField) : Issue := if isS d then { fr with tans := [] } else fr

/-- Recording and committing do not look at tangents. -/
theorem floatBody_forRed (lat : Option Nat) (once : Bool) (ps : List FloatPart) (fr : Issue) (d : RegField) (s : State) :
    floatBody lat once ps (fr.forRed d) s = floatBody lat once ps fr s := by
  unfold Issue.forRed
  split <;> rfl

/-- GRED has the body of a floating-point word: the tree always leaves a value to commit (R122). -/
theorem execGred_eq (d a : RegField) (f : BitVec 4) (t : Tail) (s : State) :
    execGred d a f t s = issue (redForm d a f .anyS) t s fun fr => floatBody none false (gredParts d a f (fr.forRed d)) fr := by
  dsimp only [execGred]
  congr 1
  funext fr s
  rw [← floatBody_forRed none false _ fr d, gredParts, floatBody_redParts, floatCommit]
  have hfold : (if isS d = true then { fr with tans := [] } else fr) = fr.forRed d := rfl
  have hred : redTree f.toNat 6 ((List.range 64).map ((fr.forRed d).redIn f.toNat a)) = (fr.forRed d).reduced a f := rfl
  have hne := (fr.forRed d).reduced_ne_nil a f
  rw [hfold, hred]
  generalize (fr.forRed d).reduced a f = r at hne ⊢
  obtain ⟨_ | ⟨x, xs⟩, rs⟩ := r
  · exact absurd rfl hne
  · cases floatFlags (fr.forRed d) false rs s <;> rfl

/-- What GSCAN's running combination leaves in each active lane, and what its steps raised (R123). -/
def Issue.scanned (fr : Issue) (a : RegField) (f : BitVec 4) (e : BitVec 1) : List (Nat × RedVal) × RedFlags :=
  scanFrom f.toNat (e == 1) ⟨redIdentity f.toNat, fr.tans.map fun _ => 0, []⟩ (fr.act.map (fr.redIn f.toNat a))

/-- GSCAN's parts (R123). -/
def gscanParts (d a : RegField) (f : BitVec 4) (e : BitVec 1) (fr : Issue) : List FloatPart :=
  redParts ((fr.scanned a f e).1.flatMap fun x => fr.destCells x.1 { f := d } x.2.res.vals) (fr.scanned a f e).2

/-- GSCAN has the body of a floating-point word (R123). -/
theorem execGscan_eq (d a : RegField) (f : BitVec 4) (e : BitVec 1) (t : Tail) (s : State) :
    execGscan d a f e t s = issue (redForm d a f .vOnly) t s fun fr => floatBody none false (gscanParts d a f e fr) fr := by
  dsimp only [execGscan]
  congr 1
  funext fr s
  exact (floatBody_redParts fr _ _ s).symm

/-! ## Dual words (R124) -/

/-- The shadows are numbered 1 to 4 (R124). -/
theorem badShadow_of {m : RegField} (h₁ : 1 ≤ m.toNat) (h₂ : m.toNat ≤ 4) : badShadow m = false := by
  have hzero : m ≠ 0 := by
    rintro rfl
    exact absurd h₁ (by decide)
  rw [badShadow, Bool.or_eq_false_iff]
  exact ⟨beq_eq_false_iff_ne.2 hzero, decide_eq_false (by omega)⟩

/-- Settles O27: VOTE by the number that its mode gives, GRED and GSCAN by the parts of their combinations, the dual words with a shadow number
that R124 admits. -/
theorem crossLaneInstructionsComplete : Obligations.CrossLaneInstructionsComplete := by
  intro d a b n t
  refine ⟨Writes.of fun s => (rfl : exec (.xchIdx d a b t) s = execXchIdx d a b t s),
    Writes.of fun s => (rfl : exec (.xchUp d a n t) s = execXchUp d a n t s),
    Writes.of fun s => (rfl : exec (.xchDown d a n t) s = execXchDown d a n t s),
    Writes.of fun s => (rfl : exec (.xchXor d a n t) s = execXchXor d a n t s),
    Writes.of fun s => (rfl : exec (.bcast d a b t) s = execBcast d a b t s),
    Writes.of fun s => (rfl : exec (.bcastImm d a n t) s = execBcastImm d a n t s),
    fun neg p v _ => (vote_writes d neg p v t).congr fun fr => ?_,
    fun f _ => .of (fun s => (rfl : exec (.gred d a f t) s = execGred d a f t s).trans (execGred_eq ..)) fun _ _ => rfl,
    fun f e _ => .of (fun s => (rfl : exec (.gscan d a f e t) s = execGscan d a f e t s).trans (execGscan_eq ..)) fun _ _ => rfl,
    fun m h₁ h₂ => ?_, Writes.of fun s => (rfl : exec (.dualzero d t) s = execDualzero d t s)⟩
  · rw [voteOf_eq]
    rfl
  · have hbad := badShadow_of h₁ h₂
    have hget (s : State) : exec (.dualget d a m t) s = execDualget d a m t s := rfl
    have hset (s : State) : exec (.dualset d a m t) s = execDualset d a m t s := rfl
    simp only [execDualget, execDualset, hbad] at hget hset
    exact ⟨Writes.of hget, Writes.of hset⟩

end Sys2Proof.Machine

namespace Sys2Proof.Machine
open Sys2Proof

/-! ## STREAM_FILL (R135, R181, R182) -/

theorem Table.find_modify_self {α : Type} {t : Table α} {i : Nat} {x : α} (h : t.find i = some x) (f : α → α) :
    (t.modify i f).find i = some (f x) := by
  rw [Table.find_modify, if_pos rfl, h]
  rfl

theorem workKept_readParts (s : State) (slot : Nat) (g : Group) (v : Nat) (got : Table (List (BitVec 8))) (ps : List (Nat × Acc × Loc))
    {u : State} {vals : List (List (BitVec 8))} {ids : List Nat} (h : s.readParts slot g v got ps = .ok (u, vals, ids)) : WorkKept s u := by
  induction ps generalizing s u vals ids with
  | nil => cases h; exact .refl s
  | cons p ps ih =>
    unfold State.readParts at h
    dsimp only at h
    split at h
    · cases h
    · next hone =>
      split at h <;> cases h
      next hrest =>
      refine .trans ?_ (ih _ hrest)
      split at hone
      · cases hone; exact .refl s
      · split at hone <;> cases hone
        next hr => exact workKept_readHere s _ _ _ _ _ _ hr

theorem workKept_readEntry (s : State) (slot : Nat) (g : Group) (v : Nat) (got : Table (List (BitVec 8))) (ps : List (Nat × Acc × Loc))
    {u : State} {vals : List (List (BitVec 8))} {ids : List Nat} (h : s.readEntry slot g v got ps = .ok (u, vals, ids)) : WorkKept s u := by
  unfold State.readEntry at h
  split at h
  · cases h
  · exact workKept_readParts s _ _ _ _ _ h

/-- A stream that has filled an entry stands at its next, and stops after its last. -/
def Stream.filled (x : Stream) : Stream := { x with pos := x.pos + 1, running := decide (x.pos + 1 < x.total), parked := none }

/-- A group whose stream `r` has filled an entry of queue `q`, reading the flights `ids`. -/
def Group.filled (g : Group) (r q : Nat) (e : QEntry) (ids : List Nat) : Group :=
  { g.pushed q e with readFrom := (g.readFrom ++ [] ++ ids).dedup, streams := g.streams.modify r Stream.filled }

theorem Group.filled_queues (g : Group) (r q : Nat) (e : QEntry) (ids : List Nat) (p : Nat) :
    (g.filled r q e ids).queues.getD p [] = if p = q then g.queues.getD q [] ++ [e] else g.queues.getD p [] :=
  Table.getD_put ..

theorem Group.filled_stream {g : Group} {r : Nat} {x : Stream} (hr : g.streams.find r = some x) (q : Nat) (e : QEntry) (ids : List Nat) :
    (g.filled r q e ids).streams.find r = some x.filled := Table.find_modify_self hr _

/-- What the stream engine reads touches no register. -/
theorem Group.filled_value (g : Group) (r q : Nat) (e : QEntry) (ids : List Nat) (c : RCell) : (g.filled r q e ids).valueAt c = g.valueAt c :=
  SameRegs.value (g := g) ⟨rfl, rfl, fun _ => ⟨rfl, rfl, rfl⟩⟩ c

/-- The stream engine of a core has taken its turn at a group's stream (R135). -/
def State.streamTurn (s : State) (slot r : Nat) : State :=
  s.setCore (slotCore slot) { s.core (slotCore slot) with sturn := 8 * slot + r }

/-- STREAM_FILL of an entry that is found, at no peer, and read. -/
theorem streamFill_fills {s s₂ : State} {slot r : Nat} {g : Group} {x : Stream} {locs : List Loc} {vals : List (List (BitVec 8))} {ids : List Nat}
    {accs : List Acc} (hg : s.groups.find slot = some g) (hx : g.streams.find r = some x) (hrun : x.running = true) (hp : g.preempted = false)
    (hroom : (g.queues.getD x.queue []).length < 4) (hq : ∀ q, x.parked = some q → s.isParked (coreDie (slotCore slot)) q = false)
    (ht : typeFloat x.ty = true → (s.gridOf g.team).tangents = 0 ∨ (s.gridOf g.team).tstride ≠ 0)
    (haccs : x.accs (s.gridOf g.team).tangents (s.gridOf g.team).tstride = accs) (hlocs : collect ((s.streamTurn slot r).elementLoc slot g) accs = .ok locs)
    (hpeers : peerParts (partsOf accs locs) = [])
    (hread : (s.streamTurn slot r).draw.2.readEntry slot g (s.streamTurn slot r).draw.1 [] (partsOf accs locs) = .ok (s₂, vals, ids)) :
    ∃ u, execStreamFill slot r s = .next u ∧ u.mem = s₂.mem ∧ u.groups.find slot = some (g.filled r x.queue (entryOf x.ty accs vals) ids) := by
  have hturn : s.setCore (slotCore slot) { s.core (slotCore slot) with sturn := 8 * slot + r } = s.streamTurn slot r := rfl
  have hpark : (x.parked.any fun q => (s.streamTurn slot r).isParked (coreDie (slotCore slot)) q) = false := (Option.any_eq_false _ _).2 hq
  have hstride : (typeFloat x.ty && decide (0 < (s.gridOf g.team).tangents) && (s.gridOf g.team).tstride == 0) = false := by
    cases hf : typeFloat x.ty
    · rfl
    · rcases ht hf with h | h <;> simp [h]
  have hkept : WorkKept s (locs.foldl State.used s₂) :=
    have hfirst : WorkKept s (s.streamTurn slot r).draw.2 := ⟨rfl, rfl⟩
    (hfirst.trans (workKept_readEntry _ _ _ _ _ _ hread)).trans (.foldl workKept_used locs s₂)
  have hpeer : (s.streamTurn slot r).readPeer slot (streamTag r x.pos) [] = .got (s.streamTurn slot r) [] [] := rfl
  refine ⟨({ locs.foldl State.used s₂ with groups := (locs.foldl State.used s₂).groups.modify slot fun g =>
      { g.pushed x.queue (entryOf x.ty accs vals) with readFrom := (g.readFrom ++ [] ++ ids).dedup } } : State).setStream slot r Stream.filled, ?_, ?_, ?_⟩
  · unfold execStreamFill
    simp only [hg, hx, hturn]
    rw [if_neg (by simp [hrun, hp, hroom, hpark]), if_neg (by rw [hstride]; exact Bool.false_ne_true)]
    simp only [haccs, hlocs, hpeers, hpeer, State.draw] at hread ⊢
    rw [hread]
    rfl
  · simp
  · unfold State.setStream
    dsimp only
    rw [Table.find_modify_self (Table.find_modify_self (hkept.groups ▸ hg) _) _]
    rfl

/-! ## A group whose own run ends -/

/-- End the run of a group, if it has one. -/
def State.endOwnRun (s : State) (slot : Nat) : State :=
  match (s.core (slotCore slot)).runs.find (slotSub slot) with
  | some r => if r.slot = slot then s.endRun (slotCore slot) (slotSub slot) else s
  | none => s

/-- EVERYTHING THE END OF A GROUP'S OWN RUN CAN DO. -/
theorem State.endOwnRun_cases (s : State) (slot : Nat) : s.endOwnRun slot = s ∨
    s.endOwnRun slot = s.endRun (slotCore slot) (slotSub slot) ∧ ∀ r, (s.core (slotCore slot)).runs.find (slotSub slot) = some r → r.slot = slot := by
  unfold State.endOwnRun
  split
  · next r hr =>
    split
    · next hs => exact .inr ⟨rfl, fun q hq => by rw [hr] at hq; cases hq; exact hs⟩
    · exact .inl rfl
  · exact .inl rfl

@[simp] theorem State.endOwnRun_mem (s : State) (slot : Nat) : (s.endOwnRun slot).mem = s.mem := by
  rcases s.endOwnRun_cases slot with h | ⟨h, -⟩ <;> simp [h]

theorem contains_endOwnRun (s : State) (slot : Nat) : Contains s (s.endOwnRun slot) := by
  rcases s.endOwnRun_cases slot with h | ⟨h, -⟩ <;> rw [h]
  · exact .refl s
  · exact contains_endRun s _ _

theorem State.endOwnRun_group {s : State} {slot : Nat} {g : Group} (hg : s.groups.find slot = some g) :
    ∃ hz, (s.endOwnRun slot).groups.find slot = some { g with hazards := hz } := by
  rcases s.endOwnRun_cases slot with h | ⟨h, -⟩ <;> rw [h]
  · exact ⟨g.hazards, hg⟩
  · exact endRun_groups s _ _ slot g hg

theorem State.endOwnRun_group_ne (s : State) {slot n : Nat} (hn : n ≠ slot) : (s.endOwnRun slot).groups.find n = s.groups.find n := by
  rcases s.endOwnRun_cases slot with h | ⟨h, hr⟩ <;> rw [h]
  exact endRun_groups_ne s _ _ n fun r hf => hr r hf ▸ hn.symm

/-! ## IMPRECISE_STORE_TRAP (R169, R170, R302) -/

/-- The record of an imprecise cause of a group's store: it carries the generation that the slot had when the store issued (R169). -/
def State.impreciseRecord (s : State) (slot : Nat) (g : Group) (p : Pending) : CoalRec :=
  { s.recordOf slot g p.cause p.addr p.pc p.replayed g.done true with gen := p.gen }

/-- An imprecise cause as it is delivered at the boundary of a set: TRAPRET resumes at the set's PC. -/
def Group.boundaryPending (g : Group) (p : Pending) (set : BitVec 64) : Pending :=
  { p with tpc := (g.lane (lowest set)).pc, hdr := (g.lane (lowest set)).clause, set := set }

/-- The oldest imprecise cause of a group has been taken and recorded. -/
def State.impreciseRecorded (s : State) (slot : Nat) (r : CoalRec) (ps : List Pending) : State :=
  (({ s with groups := s.groups.modify slot fun g => { g with imprecise := ps } } : State).coalesce (slotCore slot) r).1

theorem State.impreciseRecorded_frame (s : State) (slot : Nat) (r : CoalRec) (ps : List Pending) :
    ∃ a k, s.impreciseRecorded slot r ps =
      { s with groups := s.groups.modify slot fun g => { g with imprecise := ps }, cores := s.cores.put (slotCore slot) k, agenda := a } := by
  obtain ⟨a, k, h, -⟩ := coalesce_frame ({ s with groups := s.groups.modify slot fun g => { g with imprecise := ps } } : State) (slotCore slot) r
  exact ⟨a, k, h⟩

theorem execImpreciseStoreTrap_delivers {s : State} {slot : Nat} {g : Group} {p : Pending} {ps : List Pending}
    (hg : s.groups.find slot = some g) (hi : g.imprecise = p :: ps) (hp : g.preempted = false) (hs : g.stopped = false) (hd : g.done = false)
    (hn : g.pending = none) (ha : g.trap.active = false) (hc : (s.core (slotCore slot)).coal.length < 8) (hset : s.boundarySet slot g ≠ 0) :
    execImpreciseStoreTrap slot s =
      let w := (s.impreciseRecorded slot (s.impreciseRecord slot g p) ps).endOwnRun slot
      .next { w with groups := w.groups.modify slot fun g' =>
        { g' with wait := some .trap, pending := some (g.boundaryPending p (s.boundarySet slot g)) } } := by
  have hfull (r : CoalRec) : (s.core (slotCore slot)).coalFull r = false := coalFull_eq_false (.inl hc)
  unfold execImpreciseStoreTrap
  simp only [hg, hi, hp, hs, hd, hn, ha, hfull, Bool.or_self, Bool.false_eq_true, if_false, Option.isSome_none]
  rw [if_neg hset]
  simp only [State.impreciseRecord, hd]
  rfl

/-- IMPRECISE_STORE_TRAP of a group that can take its cause: the cause is recorded, and the group is suspended. -/
theorem impreciseStoreTrap_delivers {s : State} {slot : Nat} {g : Group} {p : Pending} {ps : List Pending}
    (hg : s.groups.find slot = some g) (hi : g.imprecise = p :: ps) (hp : g.preempted = false) (hs : g.stopped = false) (hd : g.done = false)
    (hn : g.pending = none) (ha : g.trap.active = false) (hc : (s.core (slotCore slot)).coal.length < 8) (hset : s.boundarySet slot g ≠ 0) :
    ∃ u hz, execImpreciseStoreTrap slot s = .next u ∧ u.mem = s.mem ∧
      u.groups.find slot = some { g with
        imprecise := ps, hazards := hz, wait := some .trap, pending := some (g.boundaryPending p (s.boundarySet slot g)) } ∧
      ∃ x ∈ (u.core (slotCore slot)).coal, x.Same (s.impreciseRecord slot g p) ∧ slotIn slot ∈ x.groups := by
  have hx := execImpreciseStoreTrap_delivers hg hi hp hs hd hn ha hc hset
  obtain ⟨x, hmem, hsame, hin, -⟩ := coalesce_record
    ({ s with groups := s.groups.modify slot fun g => { g with imprecise := ps } } : State) (slotCore slot) (s.impreciseRecord slot g p)
  change x ∈ ((s.impreciseRecorded slot (s.impreciseRecord slot g p) ps).core (slotCore slot)).coal at hmem
  obtain ⟨a, k, hv⟩ := s.impreciseRecorded_frame slot (s.impreciseRecord slot g p) ps
  have hgv : (s.impreciseRecorded slot (s.impreciseRecord slot g p) ps).groups.find slot = some { g with imprecise := ps } := by
    rw [hv]
    dsimp only
    rw [Table.find_modify_self hg]
  have hm : (s.impreciseRecorded slot (s.impreciseRecord slot g p) ps).mem = s.mem := by rw [hv]
  generalize s.impreciseRecorded slot (s.impreciseRecord slot g p) ps = v at hx hmem hgv hm
  obtain ⟨hz, hgu⟩ := State.endOwnRun_group hgv
  refine ⟨_, hz, hx, by simp [hm], ?_, x, by rwa [← (contains_endOwnRun v slot).coal] at hmem, hsame, hin _ (List.mem_singleton.2 rfl)⟩
  dsimp only
  rw [Table.find_modify_self hgu]

/-! ## COALESCER_CLOSE (R151, R302, R303, R382) -/

theorem execCoalescerClose_written {s s₂ : State} {core : Nat} {r : CoalRec} (hf : ((s.core core).coal.find? fun x => x.seq == r.seq) = some r)
    (hq : ∀ q, r.parked = some q → s.isParked q.1 q.2 = false) (hw : s.writeRecord core r = (s₂, .ok ())) :
    execCoalescerClose core r.seq s = .next
      (if r.deliver = false ∨ s₂.awaited core r = false then s₂.dropRecord core r.seq
       else if (s₂.ctx r.vdev r.ctx).hdlr = 0 then
         (s₂.dropRecord core r.seq).contain r.vdev r.ctx r.cause .core (r.addr.getD 0).toNat (some (r, core, (s.core core).world))
       else (s₂.dropRecord core r.seq).deliver core r) := by
  have hpark : (r.parked.any fun q => s.isParked q.1 q.2) = false := (Option.any_eq_false _ _).2 hq
  have haw : (s₂.dropRecord core r.seq).awaited core r = s₂.awaited core r := rfl
  have hctx : (s₂.dropRecord core r.seq).ctx r.vdev r.ctx = s₂.ctx r.vdev r.ctx := rfl
  unfold execCoalescerClose
  simp only [hf, hpark, hw, haw, hctx, Bool.false_eq_true, if_false, Bool.or_eq_true, Bool.not_eq_true']
  split_ifs <;> rfl

theorem dropRecord_coal (s : State) (core seq : Nat) : ∀ x ∈ ((s.dropRecord core seq).core core).coal, x.seq ≠ seq := by
  intro x hx
  rw [State.dropRecord, State.core_setCore_self] at hx
  simpa using (List.mem_filter.1 hx).2

/-- The trap state that the entry to a handler writes (R303). -/
def Pending.trapState (p : Pending) (r : CoalRec) : TrapState :=
  { active := true, cause := r.cause, kind := BitVec.ofNat 2 r.kind.code, addrv := r.addr.isSome, replayed := r.replayed, exited := r.exited,
    addr := (r.addr.getD 0) &&& 0x00FFFFFFFFFFFFFF, tpc := p.tpc.setWidth 64, lanes := p.lanes, aux := p.aux, seq := BitVec.ofNat 32 r.seq,
    hdr := p.hdr, set := p.set, excs := p.excs }

section
variable (g : Group) (p : Pending) (r : CoalRec) (hdlr : BitVec 56)

/-- The entry to a handler ends the group's suspension and writes its trap state. -/
theorem Group.enterHandler_state : (g.enterHandler p r hdlr).pending = none ∧ (g.enterHandler p r hdlr).wait = none ∧
    (g.enterHandler p r hdlr).trap = p.trapState r := ⟨rfl, rfl, rfl⟩

theorem Group.enterHandler_value (c : RCell) : (g.enterHandler p r hdlr).valueAt c = g.valueAt c := by
  have h := SameRegs.onLanes (g.encoded (((lanesOf p.set).filter fun l => !(g.lane l).exited).map Stored.pc))
    ((lanesOf p.set).filter fun l => !(g.lane l).exited)
    (fun x => { x with pc := hdlr, clause := none, held := false, tsync := false, stamp := g.runCount }) (fun _ => rfl) (fun _ => rfl) fun _ => rfl
  exact SameRegs.value (g := g) (g' := g.enterHandler p r hdlr) ⟨h.s, h.wins, h.lane⟩ c

/-- Every lane of the trapping set that has not exited is at the handler, and no other has moved. -/
theorem Group.enterHandler_pc {l : Nat} (hl : l < 64) :
    ((g.enterHandler p r hdlr).lane l).pc = if p.set.getLsbD l = true ∧ (g.lane l).exited = false then hdlr else (g.lane l).pc := by
  have hlane := Group.lane_onLanes (g.encoded (((lanesOf p.set).filter fun l => !(g.lane l).exited).map Stored.pc))
    ((lanesOf p.set).filter fun l => !(g.lane l).exited)
    (fun x => { x with pc := hdlr, clause := none, held := false, tsync := false, stamp := g.runCount }) ((lanesOf_nodup _).filter _) l
  have hin : ((lanesOf p.set).filter fun l => !(g.lane l).exited).contains l = true ↔ p.set.getLsbD l = true ∧ (g.lane l).exited = false := by
    simp [lanesOf, hl, and_comm]
  refine (congrArg Lane.pc hlane).trans ?_
  simp only [hin]
  split <;> rfl

end

/-- A group that awaits a record enters its handler. -/
theorem State.deliver_group {s : State} {core n : Nat} {r : CoalRec} {g : Group} {p : Pending} (hg : s.groups.find n = some g) (hc : slotCore n = core)
    (hn : slotIn n ∈ r.groups) (hp : g.pending = some p) (hw : g.wait = some .trap) :
    (s.deliver core r).groups.find n = some (g.enterHandler p r (s.ctx r.vdev r.ctx).hdlr) := by
  unfold State.deliver
  dsimp only
  rw [Table.find_mapVals, hg]
  simp [hc, hn, hp, hw]

/-- Settles O46: the entry that a stream fills, by what its reads keep of the group; the imprecise cause, by the record that coalescing leaves; and the
record that closes, by whether a group awaits it and a handler is set. -/
theorem streamAndTrapEventsComplete : Obligations.StreamAndTrapEventsComplete := by
  unfold Obligations.StreamAndTrapEventsComplete
  intro s slot core
  refine ⟨?_, ?_, ?_⟩
  · intro g r x locs s₂ vals ids hg hx hrun hp hroom hq ht accs s₁ hlocs hpeers hread
    obtain ⟨u, hu, hm, hgu⟩ := streamFill_fills hg hx hrun hp hroom hq ht rfl hlocs hpeers hread
    refine ⟨u, _, hu, hm, hgu, ?_, fun q hne => ?_, Group.filled_stream hx .., Group.filled_value _ _ _ _ _⟩
    · rw [Group.filled_queues, if_pos rfl]
    · rw [Group.filled_queues, if_neg hne]
  · intro g p ps hg hi hp hs hd hn ha hc hset
    obtain ⟨u, hz, hu, hm, hgu, x, hx, hsame, hin⟩ := impreciseStoreTrap_delivers hg hi hp hs hd hn ha hc hset
    exact ⟨u, _, hu, hm, hgu, rfl, rfl, rfl, fun c => SameRegs.value (g := g) ⟨rfl, rfl, fun _ => ⟨rfl, rfl, rfl⟩⟩ c,
      x, hx, hsame.deliver, hsame.cause, hin, hsame.vdev, hsame.ctx⟩
  · intro r s₂ hf hq hw
    have hx := execCoalescerClose_written hf hq hw
    refine ⟨fun h => ?_, fun hd haw hh => ?_, fun hd haw hh => ?_⟩
    · rw [if_pos h] at hx
      exact hx
    · rw [if_neg (by simp [hd, haw]), if_neg hh] at hx
      refine ⟨_, hx, rfl, dropRecord_coal s₂ core r.seq, fun n g p hg hc hn hp hwait => ?_⟩
      obtain ⟨hnone, hwake, htrap⟩ := g.enterHandler_state p r (s₂.ctx r.vdev r.ctx).hdlr
      have hgroup : ((s₂.dropRecord core r.seq).deliver core r).groups.find n = some (g.enterHandler p r (s₂.ctx r.vdev r.ctx).hdlr) :=
        State.deliver_group hg hc hn hp hwait
      refine ⟨_, hgroup, hnone, hwake, ?_⟩
      rw [htrap]
      exact ⟨rfl, rfl, rfl, rfl, rfl, rfl, rfl, rfl, rfl, rfl, g.enterHandler_value p r _, fun l => g.enterHandler_pc p r _⟩
    · rw [if_neg (by simp [hd, haw]), if_pos hh] at hx
      refine ⟨_, hx, (contain_ctx ..).1, ?_⟩
      rw [(contains_contain ..).coal]
      exact dropRecord_coal s₂ core r.seq

end Sys2Proof.Machine

namespace Sys2Proof.Machine
open Sys2Proof

/-! ## What entries of a table a filter leaves -/

/-- What a filter leaves in a table satisfies it. -/
theorem Table.of_find_keep {α : Type} {t : Table α} {p : Nat → α → Bool} {i : Nat} {x : α} (h : (Table.keep t p).find i = some x) : p i x = true :=
  (List.mem_filter.1 (Table.mem_of_find h)).2

/-! ## Changes of groups and cores alone -/

theorem SameOutside.ite {s u w : State} {p : Prop} [Decidable p] (h : SameOutside s u) (h' : SameOutside s w) : SameOutside s (if p then u else w) := by
  split
  · exact h
  · exact h'

theorem SameOutside.foldl {α : Type} {f : State → α → State} (hf : ∀ s x, SameOutside s (f s x)) (l : List α) (s : State) :
    SameOutside s (l.foldl f s) := by
  induction l generalizing s with
  | nil => exact .refl s
  | cons x xs ih => exact (hf s x).trans (ih _)

/-- A field that no change of groups and cores touches. -/
theorem SameOutside.vdevs {s u : State} (h : SameOutside s u) : u.vdevs = s.vdevs := by rw [h]

@[inherit_doc SameOutside.vdevs]
theorem SameOutside.kills {s u : State} (h : SameOutside s u) : u.kills = s.kills := by rw [h]

theorem endOwnRun_sameOutside (s : State) (slot : Nat) : SameOutside s (s.endOwnRun slot) := by
  rcases s.endOwnRun_cases slot with h | ⟨h, -⟩ <;> rw [h]
  · exact .refl s
  · exact endRun_sameOutside s _ _

theorem stopGroup_groups (s : State) (slot : Nat) :
    (s.stopGroup slot).groups = (s.endOwnRun slot).groups.modify slot fun g => { g with stopped := true } := rfl

theorem stopGroup_sameOutside (s : State) (slot : Nat) : SameOutside s (s.stopGroup slot) :=
  .trans (endOwnRun_sameOutside s slot) (u := s.endOwnRun slot) rfl

theorem stopGroups_sameOutside (s : State) (l : List Nat) : SameOutside s (s.stopGroups l) := by
  rw [stopGroups_eq]
  exact .foldl stopGroup_sameOutside l s

/-- Stopping groups leaves every other group as it was. -/
theorem stopGroups_others (s : State) {l : List Nat} {n : Nat} (hn : n ∉ l) : (s.stopGroups l).groups.find n = s.groups.find n := by
  rw [stopGroups_eq]
  induction l generalizing s with
  | nil => rfl
  | cons x xs ih =>
    obtain ⟨hx, hxs⟩ := not_or.1 (mt List.mem_cons.2 hn)
    rw [List.foldl_cons, ih (s.stopGroup x) hxs, stopGroup_groups, Table.find_modify, if_neg hx, State.endOwnRun_group_ne s hx]

/-! ## The KILLs (R155, R206, R217, R301, R347, R396, R421) -/

theorem mem_refuseAlso (l : List Victim) (v : Victim) : v ∈ refuseAlso l v := by
  unfold refuseAlso
  split
  · next h => exact List.contains_iff_mem.1 h
  · exact List.mem_append_right _ (List.mem_singleton.2 rfl)

/-- CORE_KILL stops the victim's groups on the core and leaves every other group. -/
theorem coreKill_stops (s : State) (core : Nat) (v : Victim) : ∃ u, execCoreKill core v s = .next u ∧ u.mem = s.mem ∧ v ∈ (u.core core).refused ∧
    (∀ slot ∈ s.victimOn v core, ∀ g, u.groups.find slot = some g → g.stopped = true) ∧
    ∀ slot, slot ∉ s.victimOn v core → u.groups.find slot = s.groups.find slot := by
  refine ⟨_, rfl, s.stopGroups_mem _, ?_, fun slot h g hg => stopGroups_stopped s _ slot h g hg, fun slot h => stopGroups_others s h⟩
  rw [State.core_setCore_self]
  exact mem_refuseAlso _ v

/-! ## CORE_DRAIN (R155, R300) -/

/-- What CORE_DRAIN leaves of the group in a slot. -/
def State.drainedGroup (s : State) (v : Victim) (core slot : Nat) (g : Group) : Group :=
  if (s.victimOn v core).contains slot then
    if s.flight.any fun f => f.kind != .store && f.slot == slot then g.drain else { g.drain with loads := [] }
  else g

/-- What CORE_DRAIN leaves of its core. -/
def State.drainedCore (s : State) (v : Victim) (core : Nat) : Core :=
  { s.core core with
    slotGen := (s.victimOn v core).foldl (fun (r : Regs 8) slot => r.set (slotIn slot) (r.get (slotIn slot) + 1)) (s.core core).slotGen,
    coal := ((s.core core).coal.filter fun r => !(victimHits v r.vdev r.ctx && r.parked.isSome)).map fun r =>
      if victimHits v r.vdev r.ctx then { r with deliver := false } else r }

/-- Fault slots that are given up leave nothing different but the dies and the pager's requests. -/
theorem foldl_freeFaults (core vd : Nat) (l : List Nat) (s : State) :
    ∃ d p, l.foldl (fun s c => s.freeFaults core vd c) s = { s with dies := d, pager := p } := by
  induction l generalizing s with
  | nil => exact ⟨_, _, rfl⟩
  | cons c cs ih =>
    obtain ⟨d, p, h⟩ := ih (s.freeFaults core vd c)
    exact ⟨d, p, h⟩

/-- EVERYTHING CORE_DRAIN CAN DO. -/
theorem execCoreDrain_drained (s : State) (core : Nat) (v : Victim) : ∃ ps ks d p, execCoreDrain core v s = .next { s with
    groups := s.groups.mapVals (s.drainedGroup v core), cores := s.cores.put core (s.drainedCore v core), peers := ps, keys := ks, dies := d,
    pager := p } := by
  unfold execCoreDrain
  dsimp only
  obtain ⟨d, p, h⟩ := foldl_freeFaults core v.vdev _ _
  rw [h]
  exact ⟨_, _, d, p, rfl⟩

theorem State.drainedGroup_of_mem (s : State) {v : Victim} {core slot : Nat} (h : slot ∈ s.victimOn v core) (g : Group) :
    (s.drainedGroup v core slot g).fifo = [] ∧ (s.drainedGroup v core slot g).imprecise = [] ∧ (s.drainedGroup v core slot g).pending = none ∧
      (s.drainedGroup v core slot g).stopped = true := by
  unfold State.drainedGroup
  rw [if_pos (List.contains_iff_mem.2 h)]
  split <;> exact ⟨rfl, rfl, rfl, rfl⟩

theorem State.drainedGroup_of_notMem (s : State) {v : Victim} {core slot : Nat} (h : slot ∉ s.victimOn v core) (g : Group) :
    s.drainedGroup v core slot g = g := if_neg (mt List.contains_iff_mem.1 h)

/-- No record of the victim delivers a group, and none waits for a page. -/
theorem State.drainedCore_coal (s : State) (v : Victim) (core : Nat) {r : CoalRec} (hr : r ∈ (s.drainedCore v core).coal)
    (hv : victimHits v r.vdev r.ctx = true) : r.deliver = false ∧ r.parked = none := by
  obtain ⟨x, hx, rfl⟩ := List.mem_map.1 hr
  have hkept := (List.mem_filter.1 hx).2
  cases hit : victimHits v x.vdev x.ctx
  · rw [if_neg (by simp [hit])] at hv
    exact absurd hv (by simp [hit])
  · rw [if_pos rfl]
    exact ⟨rfl, by simpa [hit] using hkept⟩

theorem coreDrain_drains (s : State) (core : Nat) (v : Victim) : ∃ u, execCoreDrain core v s = .next u ∧ u.mem = s.mem ∧
    (∀ slot ∈ s.victimOn v core, ∀ g, u.groups.find slot = some g → g.fifo = [] ∧ g.imprecise = [] ∧ g.pending = none ∧ g.stopped = true) ∧
    (∀ slot, slot ∉ s.victimOn v core → u.groups.find slot = s.groups.find slot) ∧ u.core core = s.drainedCore v core := by
  obtain ⟨ps, ks, d, p, h⟩ := execCoreDrain_drained s core v
  refine ⟨_, h, rfl, fun slot hs g hg => ?_, fun slot hs => ?_, State.core_setCore_self s core _⟩
  · rw [Table.find_mapVals] at hg
    obtain ⟨g₀, -, rfl⟩ := Option.map_eq_some_iff.1 hg
    exact s.drainedGroup_of_mem hs g₀
  · rw [Table.find_mapVals]
    cases s.groups.find slot with
    | none => rfl
    | some g => exact congrArg some (s.drainedGroup_of_notMem hs g)

/-! ## The DRAINs of the engines (R206, R217, R301, R347) -/

/-- A team none of whose channels has a command. -/
def Team.noCommands (t : Team) : Team := { t with chans := t.chans.mapVals fun _ c => { c with queue := [] } }

theorem Team.noCommands_queue (t : Team) : ∀ c ∈ t.noCommands.chans, c.2.queue = [] := by
  intro c hc
  obtain ⟨x, -, rfl⟩ := List.mem_map.1 hc
  rfl

theorem Team.noCommands_noCommands (t : Team) : t.noCommands.noCommands = t.noCommands := by
  simp [Team.noCommands, Table.mapVals, Function.comp_def]

theorem State.team_setTeam (s : State) (t n : Nat) (x : Team) : (s.setTeam t x).team n = if n = t then x else s.team n :=
  Table.getD_put s.teams t n Team.gone x

/-- Discarding the commands of teams changes the table of teams alone, and there the teams named. -/
theorem foldl_noCommands (l : List Nat) (s : State) : ∃ ts, (l.foldl (fun s t => s.setTeam t (s.team t).noCommands) s) = { s with teams := ts } ∧
    ∀ t, (l.foldl (fun s t => s.setTeam t (s.team t).noCommands) s).team t = if t ∈ l then (s.team t).noCommands else s.team t := by
  induction l generalizing s with
  | nil => exact ⟨s.teams, rfl, fun t => by simp⟩
  | cons x xs ih =>
    obtain ⟨ts, hts, ht⟩ := ih (s.setTeam x (s.team x).noCommands)
    refine ⟨ts, by rw [List.foldl_cons, hts]; rfl, fun t => ?_⟩
    rw [List.foldl_cons, ht, State.team_setTeam]
    by_cases hx : t = x
    · subst hx
      simp [Team.noCommands_noCommands]
    · simp [hx]

/-- EVERYTHING CASTER_DRAIN CAN DO. -/
theorem execCasterDrain_drained (s : State) (core : Nat) (v : Victim) : ∃ ts ps, execCasterDrain core v s = .next { s with teams := ts, peers := ps } ∧
    ∀ t ∈ s.victimTeams v, (s.team t).core = core → ({ s with teams := ts } : State).team t = (s.team t).noCommands := by
  obtain ⟨ts, hts, ht⟩ := foldl_noCommands ((s.victimTeams v).filter fun t => (s.team t).core == core) s
  have hx : execCasterDrain core v s = .next { ((s.victimTeams v).filter fun t => (s.team t).core == core).foldl
    (fun s t => s.setTeam t (s.team t).noCommands) s with peers := _ } := rfl
  rw [hts] at hx ht
  exact ⟨ts, _, hx, fun t hv hc => (ht t).trans (if_pos (List.mem_filter.2 ⟨hv, by simp [hc]⟩))⟩

theorem casterDrain_drains (s : State) (core : Nat) (v : Victim) : ∃ u, execCasterDrain core v s = .next u ∧ u.mem = s.mem ∧ u.groups = s.groups ∧
    ∀ t ∈ s.victimTeams v, (s.team t).core = core → (u.team t).jcnt = (s.team t).jcnt ∧ ∀ c ∈ (u.team t).chans, c.2.queue = [] := by
  obtain ⟨ts, ps, hx, ht⟩ := execCasterDrain_drained s core v
  refine ⟨_, hx, rfl, rfl, fun t hv hc => ?_⟩
  change (({ s with teams := ts } : State).team t).jcnt = _ ∧ ∀ c ∈ (({ s with teams := ts } : State).team t).chans, c.2.queue = []
  rw [ht t hv hc]
  exact ⟨rfl, Team.noCommands_queue _⟩

theorem State.die_setDie_self (s : State) (die : Nat) (x : Die) : (s.setDie die x).die die = x := (Table.getD_put ..).trans (if_pos rfl)

theorem walkerDrain_drains (s : State) (die : Nat) (v : Victim) : ∃ u, execWalkerDrain die v s = .next u ∧ u.mem = s.mem ∧ u.groups = s.groups ∧
    (∀ n w, (u.die die).walks.find n = some w → victimHits v w.vdev w.ctx = false) ∧
    ∀ n f, (u.die die).faults.find n = some f → victimHits v f.vdev f.ctx = false := by
  refine ⟨_, rfl, rfl, rfl, fun n w h => ?_, fun n f h => ?_⟩
  · change (((s.setDie die _).die die).walks).find n = some w at h
    rw [State.die_setDie_self] at h
    dsimp only at h
    simpa using Table.of_find_keep h
  · change (((s.setDie die _).die die).faults).find n = some f at h
    rw [State.die_setDie_self] at h
    dsimp only at h
    simpa using Table.of_find_keep h

/-! ## QSLOT_DRAIN (R384, R396) -/

theorem State.queue_setQueue_self (s : State) (vd q : Nat) (x : Queue) : (s.setQueue vd q x).queue vd q = x := by
  simp [State.queue, State.setQueue, State.vdev_setVdev, Table.getD_put]

theorem State.queue_setVdev (s : State) (vd v q : Nat) (x : VDev) (hx : x.queues = (s.vdev vd).queues) :
    (s.setVdev vd x).queue v q = s.queue v q := by
  unfold State.queue
  rw [State.vdev_setVdev]
  split
  · next h => rw [hx, h]
  · rfl

theorem State.queue_of_vdevs {s u : State} (h : u.vdevs = s.vdevs) (v q : Nat) : u.queue v q = s.queue v q := by
  unfold State.queue State.vdev
  rw [h]

/-- An interrupt leaves the queues as they are. -/
theorem State.interrupt_queue (s : State) (vd n v q : Nat) : (s.interrupt vd n).queue v q = s.queue v q := by
  have hpend (m : Regs 64) (l : List Nat) :
      (State.setVdev { s with remap := m } vd { s.vdev vd with msixPending := l }).queue v q = s.queue v q :=
    State.queue_setVdev { s with remap := m } vd v q _ rfl
  unfold State.interrupt
  dsimp only
  split
  · rfl
  · split
    · exact hpend _ _
    · refine State.queue_of_vdevs ?_ v q
      rfl

theorem State.interruptField_queue (s : State) (vd f v q : Nat) : (s.interruptField vd f).queue v q = s.queue v q := by
  unfold State.interruptField
  split
  · rfl
  · exact s.interrupt_queue vd f v q

/-- A queue that fails where it stood IDLE or ACTIVE is in ERROR, and its status and its interrupt are due. -/
theorem Queue.fail_of_open {k : Queue} (h : k.state = .idle ∨ k.state = .active) (c : Cause) (idx tag : Word) :
    k.fail c idx tag = { k with state := .error, cause := c, failIdx := idx, failTag := tag, statDue := true, evecDue := true } := by
  unfold Queue.fail
  rw [if_neg]
  rcases h with h | h <;> simp [h]

/-- A status block that is due and switched off is only counted as written. -/
theorem State.writeStatus_off {s : State} {vd q : Nat} (hd : (s.queue vd q).statDue = true) (hp : (s.queue vd q).parked = none)
    (hn : (s.queue vd q).noStat = true) : s.writeStatus vd q = (s.setQueue vd q { s.queue vd q with statDue := false }).raiseEvec vd q := by
  unfold State.writeStatus
  dsimp only
  rw [if_neg (by simp [hd, State.queueParked, hp]), if_pos hn]

theorem State.raiseEvec_queue (s : State) (vd q : Nat) : (s.raiseEvec vd q).queue vd q = { s.queue vd q with evecDue := false } := by
  unfold State.raiseEvec
  dsimp only
  split
  · rw [State.interruptField_queue, State.queue_setQueue_self]
  · next h => rw [← eq_false_of_ne_true h]

theorem qslotDrain_fails {s : State} {v : Victim} {q : Nat} (hq : s.victimQueues v = [q])
    (hs : (s.queue v.vdev q).state = .idle ∨ (s.queue v.vdev q).state = .active) (hn : (s.queue v.vdev q).noStat = true) :
    ∃ u, execQslotDrain v s = .next u ∧ u.mem = s.mem ∧ (u.queue v.vdev q).state = .error ∧ (u.queue v.vdev q).cause = .killed ∧
      (u.queue v.vdev q).mapped = false := by
  unfold execQslotDrain
  rw [hq, List.foldl_cons, List.foldl_nil]
  dsimp only
  rw [Queue.fail_of_open hs]
  have hself := s.queue_setQueue_self v.vdev q
  rw [State.writeStatus_off (by rw [hself]; rfl) (by rw [hself]) (by rw [hself]; exact hn)]
  refine ⟨_, rfl, by simp, ?_⟩
  rw [State.raiseEvec_queue, State.queue_setQueue_self, hself]
  exact ⟨rfl, rfl, rfl⟩


end Sys2Proof.Machine

namespace Sys2Proof.Machine
open Sys2Proof

/-- Requests that are answered NACK add replies, one for each, to their endpoints. -/
theorem foldl_answerNack (l : List PeerIn) (s : State) : ∃ n rs, l.foldl (fun s r => s.answerPeer r.ep false []) s =
    { s with nextId := n, replies := s.replies ++ rs } ∧ rs.length = l.length ∧ ∀ r ∈ rs, r.ok = false ∧ ∃ x ∈ l, r.ep = x.ep := by
  induction l generalizing s with
  | nil => exact ⟨s.nextId, [], by rw [List.append_nil]; rfl, rfl, by simp⟩
  | cons x xs ih =>
    obtain ⟨n, rs, h, hlen, hrs⟩ := ih (s.answerPeer x.ep false [])
    refine ⟨n, ⟨s.nextId, x.ep, false, [], false⟩ :: rs, ?_, congrArg (· + 1) hlen, fun r hr => ?_⟩
    · rw [List.foldl_cons, h]
      simp [State.answerPeer]
    · rcases List.mem_cons.1 hr with rfl | hr
      · exact ⟨rfl, x, List.mem_cons_self, rfl⟩
      · obtain ⟨hok, y, hy, he⟩ := hrs r hr
        exact ⟨hok, y, List.mem_cons_of_mem _ hy, he⟩

/-- EVERYTHING ENDPOINT_DRAIN CAN DO. -/
theorem execEndpointDrain_answered (s : State) (v : Victim) : ∃ n rs fs, execEndpointDrain v s = .next { s with
      nextId := n, replies := s.replies ++ rs, incoming := s.incoming.filter fun r => !(s.victimEndpoints v).contains r.ep, flight := fs } ∧
    rs.length = (s.incoming.filter fun r => (s.victimEndpoints v).contains r.ep).length ∧ ∀ r ∈ rs, r.ok = false ∧ r.ep ∈ s.victimEndpoints v := by
  obtain ⟨n, rs, h, hlen, hrs⟩ := foldl_answerNack (s.incoming.filter fun r => (s.victimEndpoints v).contains r.ep) s
  unfold execEndpointDrain
  dsimp only
  rw [h]
  refine ⟨n, rs, _, rfl, hlen, fun r hr => ?_⟩
  obtain ⟨hok, x, hx, he⟩ := hrs r hr
  exact ⟨hok, he ▸ List.contains_iff_mem.1 (List.mem_filter.1 hx).2⟩

theorem endpointDrain_answers (s : State) (v : Victim) : ∃ u, execEndpointDrain v s = .next u ∧ u.mem = s.mem ∧
    (u.incoming = s.incoming.filter fun r => !(s.victimEndpoints v).contains r.ep) ∧
    u.replies.length = s.replies.length + (s.incoming.filter fun r => (s.victimEndpoints v).contains r.ep).length ∧
    ∀ r ∈ u.replies, r ∈ s.replies ∨ r.ok = false ∧ r.ep ∈ s.victimEndpoints v := by
  obtain ⟨n, rs, fs, h, hlen, hrs⟩ := execEndpointDrain_answered s v
  exact ⟨_, h, rfl, rfl, by rw [← hlen, List.length_append], fun r hr => (List.mem_append.1 hr).imp_right (hrs r)⟩

/-! ## What containing contexts does to each context, and leaves of the kills (R9, R10, R396) -/

/-- A context that enters ERROR with a cause, unless it is there already. -/
def Ctx.entered (x : Ctx) (c : Cause) : Ctx := if x.state = 2 then x else { x with state := 2, cause := c }

theorem Ctx.entered_state (x : Ctx) (c : Cause) : (x.entered c).state = 2 := by
  unfold Ctx.entered
  split
  · assumption
  · rfl

theorem Ctx.entered_of_ne {x : Ctx} (h : x.state ≠ 2) (c : Cause) : x.entered c = { x with state := 2, cause := c } := if_neg h

theorem Ctx.entered_entered (x : Ctx) (c : Cause) : (x.entered c).entered c = x.entered c := if_pos (x.entered_state c)

section
variable (s : State) (vd ctx : Nat) (c : Cause)

theorem enterError_ctx (v d : Nat) : (s.enterError vd ctx c).ctx v d = if v = vd ∧ d = ctx then (s.ctx v d).entered c else s.ctx v d := by
  unfold State.enterError
  split
  · next h =>
    split
    · next he => obtain ⟨rfl, rfl⟩ := he; exact (if_pos h).symm
    · rfl
  · next h =>
    rw [State.ctx_setCtx]
    split
    · next he => obtain ⟨rfl, rfl⟩ := he; exact (Ctx.entered_of_ne h c).symm
    · rfl

/-- A fence puts its context in ERROR and leaves every other context. -/
theorem fence_ctx (v d : Nat) : (s.fence vd ctx c).ctx v d = if v = vd ∧ d = ctx then (s.ctx v d).entered c else s.ctx v d := by
  have hqueues : (s.fence vd ctx c).ctx v d =
      ((s.enterError vd ctx c).stopGroups ((s.enterError vd ctx c).victimSlots ⟨vd, some ctx⟩)).ctx v d := State.ctx_setVdev _ vd v d _ rfl
  rw [hqueues, ctx_of_vdevs _ (stopGroups_sameOutside _ _).vdevs, enterError_ctx]

theorem contain_ctx_eq (e : Engine) (addr : Nat) (met : Option (CoalRec × Nat × Nat)) (v d : Nat) :
    (s.contain vd ctx c e addr met).ctx v d = if v = vd ∧ d = ctx then (s.ctx v d).entered c else s.ctx v d := by
  rw [State.contain, fence_ctx, report_ctx]

@[simp] theorem State.fence_kills : (s.fence vd ctx c).kills = s.kills := by
  refine (stopGroups_sameOutside (s.enterError vd ctx c) _).kills.trans ?_
  unfold State.enterError
  split <;> rfl

@[simp] theorem State.contain_kills (e : Engine) (addr : Nat) (met : Option (CoalRec × Nat × Nat)) : (s.contain vd ctx c e addr met).kills = s.kills := by
  simp [State.contain]

/-- Containing a context for a cause that no access met is containing it, after the record that a core may make. -/
theorem containResident_cases : ∃ u met, (∃ cs a, u = { s with cores := cs, agenda := a }) ∧
    s.containResident vd ctx c = u.contain vd ctx c .core 0 met := by
  unfold State.containResident
  dsimp only
  split
  · next slot g _ =>
    obtain ⟨met, h⟩ := containRecord_contains s (slotCore slot) { s.recordOf slot g c none
      (((g.lanes.find? fun l => !l.2.exited).map fun l => l.2.pc).getD 0) false false false with
        vdev := vd, ctx := ctx, groups := ((s.victimSlots ⟨vd, some ctx⟩).filter fun x => slotCore x == slotCore slot).map slotIn } .core 0
    obtain ⟨a, k, hc, -⟩ := coalesce_frame s (slotCore slot) { s.recordOf slot g c none
      (((g.lanes.find? fun l => !l.2.exited).map fun l => l.2.pc).getD 0) false false false with
        vdev := vd, ctx := ctx, groups := ((s.victimSlots ⟨vd, some ctx⟩).filter fun x => slotCore x == slotCore slot).map slotIn, deliver := false }
    exact ⟨_, met, ⟨_, _, hc⟩, h⟩
  · exact ⟨s, none, ⟨s.cores, s.agenda, rfl⟩, rfl⟩

theorem containResident_ctx (v d : Nat) :
    (s.containResident vd ctx c).ctx v d = if v = vd ∧ d = ctx then (s.ctx v d).entered c else s.ctx v d := by
  obtain ⟨u, met, ⟨cs, a, rfl⟩, h⟩ := containResident_cases s vd ctx c
  rw [h, contain_ctx_eq]
  rfl

@[simp] theorem State.containResident_kills : (s.containResident vd ctx c).kills = s.kills := by
  obtain ⟨u, met, ⟨cs, a, rfl⟩, h⟩ := containResident_cases s vd ctx c
  rw [h, State.contain_kills]

end

/-- One step of `State.containVictim`. -/
def State.containOne (vd : Nat) (c : Cause) (s : State) (x : Nat × Ctx) : State :=
  if x.2.state = 2 || (x.2.state = 3 && x.2.cause != .none) then s.fence vd x.1 c else s.containResident vd x.1 c

theorem State.containOne_ctx (vd : Nat) (c : Cause) (s : State) (x : Nat × Ctx) (d : Nat) :
    (s.containOne vd c x).ctx vd d = if d = x.1 then (s.ctx vd d).entered c else s.ctx vd d := by
  unfold State.containOne
  split
  · simp [fence_ctx]
  · simp [containResident_ctx]

/-- Containing a list of contexts of a device puts each of them in ERROR, and leaves every other. -/
theorem foldl_containOne_ctx (vd : Nat) (c : Cause) (l : List (Nat × Ctx)) (s : State) (d : Nat) :
    (l.foldl (State.containOne vd c) s).ctx vd d = if d ∈ l.map Prod.fst then (s.ctx vd d).entered c else s.ctx vd d := by
  induction l generalizing s with
  | nil => simp
  | cons x xs ih =>
    rw [List.foldl_cons, ih, State.containOne_ctx]
    by_cases hx : d = x.1
    · simp [hx, Ctx.entered_entered]
    · simp only [List.map_cons, List.mem_cons, hx, false_or, if_false]

theorem containVictim_eq (s : State) (v : Victim) (c : Cause) : s.containVictim v c =
    ((s.vdev v.vdev).ctxs.filter fun x => victimHits v v.vdev x.1 && x.2.state != 0).foldl (State.containOne v.vdev c) s := rfl

theorem containVictim_ctx (s : State) (v : Victim) (c : Cause) {d : Nat} {x : Ctx} (hx : (s.vdev v.vdev).ctxs.find d = some x) (h0 : x.state ≠ 0)
    (hv : victimHits v v.vdev d = true) : (s.containVictim v c).ctx v.vdev d = x.entered c := by
  rw [containVictim_eq, foldl_containOne_ctx, if_pos (List.mem_map.2 ⟨(d, x), List.mem_filter.2 ⟨Table.mem_of_find hx, by simp [hv, h0]⟩, rfl⟩)]
  exact congrArg (Ctx.entered · c) (by simp [State.ctx, Table.getD, hx])

theorem foldl_kills {α : Type} {f : State → α → State} (hf : ∀ s x, (f s x).kills = s.kills) (l : List α) (s : State) :
    (l.foldl f s).kills = s.kills := by
  induction l generalizing s with
  | nil => rfl
  | cons x xs ih => rw [List.foldl_cons, ih, hf]

@[simp] theorem State.containVictim_kills (s : State) (v : Victim) (c : Cause) : (s.containVictim v c).kills = s.kills := by
  rw [containVictim_eq]
  refine foldl_kills (fun s x => ?_) _ s
  unfold State.containOne
  split <;> simp

/-! ## KILL_ACK (R396) -/

/-- The acknowledgement of one participant of several counts it off. -/
theorem execKillAck_counts {s : State} {v : Victim} {part : Nat} {k : Kill}
    (hk : (s.kills.find? fun k => k.victim == v && (k.waiting.contains part || k.waiting.isEmpty)) = some k) (ha : s.acks part v = true)
    {p : Nat} (hp : p ∈ k.waiting) (hne : p ≠ part) : execKillAck part v s = .next { s with
      kills := s.kills.map fun x => if x = k then { k with waiting := k.waiting.filter (· != part) } else x } := by
  have hleft : (k.waiting.filter (· != part)).isEmpty = false :=
    List.isEmpty_eq_false_iff_exists_mem.2 ⟨p, List.mem_filter.2 ⟨hp, by simpa using hne⟩⟩
  unfold execKillAck
  simp only [hk, ha, hleft, Bool.not_true, Bool.false_eq_true, if_false]

/-- The last acknowledgement finishes the kill. -/
theorem execKillAck_finishes {s : State} {v : Victim} {part : Nat} {k : Kill}
    (hk : (s.kills.find? fun k => k.victim == v && (k.waiting.contains part || k.waiting.isEmpty)) = some k) (ha : s.acks part v = true)
    (hw : k.waiting = [part]) : execKillAck part v s = .next (s.finishKill k) := by
  have hnone : (k.waiting.filter (· != part)).isEmpty = true := by simp [hw]
  unfold execKillAck
  simp only [hk, ha, hnone, Bool.not_true, Bool.false_eq_true, if_false, if_true]

theorem State.finishKill_contains {s : State} {k : Kill} (ht : k.then_ = 0) (hr : k.reply = none) :
    s.finishKill k = (({ s with kills := s.kills.filter (· != k) } : State).containVictim k.victim .killed).liftRefusals k.victim := by
  unfold State.finishKill
  rw [ht, hr]
  rfl

/-- A counted acknowledgement stands among the kills. -/
theorem mem_map_counted {l : List Kill} {k : Kill} (h : k ∈ l) (k' : Kill) : k' ∈ l.map fun x => if x = k then k' else x :=
  List.mem_map.2 ⟨k, h, if_pos rfl⟩

theorem killAck_finishes {s : State} {v : Victim} {part : Nat} {k : Kill}
    (hk : (s.kills.find? fun k => k.victim == v && (k.waiting.contains part || k.waiting.isEmpty)) = some k) (ha : s.acks part v = true)
    (hw : k.waiting = [part]) (ht : k.then_ = 0) (hr : k.reply = none) : ∃ u, execKillAck part v s = .next u ∧ k ∉ u.kills ∧ u.mem = s.mem ∧
      v ∉ u.qrefused ∧ v ∉ u.erefused ∧
      ∀ c x, (s.vdev v.vdev).ctxs.find c = some x → x.state = 1 → victimHits v v.vdev c = true →
        (u.ctx v.vdev c).state = 2 ∧ (u.ctx v.vdev c).cause = .killed := by
  have hv : k.victim = v := by
    have h := List.find?_some hk
    simp only [Bool.and_eq_true, beq_iff_eq] at h
    exact h.1
  refine ⟨_, (execKillAck_finishes hk ha hw).trans (congrArg _ (State.finishKill_contains ht hr)), ?_, ?_, ?_, ?_, fun c x hx h1 hh => ?_⟩
  · show k ∉ State.kills (State.containVictim _ _ _)
    rw [State.containVictim_kills]
    simp
  · simp
  · simp [State.liftRefusals, hv]
  · simp [State.liftRefusals, hv]
  · rw [hv]
    have h := containVictim_ctx ({ s with kills := s.kills.filter (· != k) } : State) v .killed hx (by simp [h1]) hh
    rw [Ctx.entered_of_ne (by simp [h1])] at h
    exact ⟨congrArg Ctx.state h, congrArg Ctx.cause h⟩

/-! ## KILL_ACK_TIMEOUT of a die (R397) -/

theorem execKillAckTimeout_die {s : State} {v : Victim} {die : Nat} {k : Kill} (hd : die < 2)
    (hk : (s.kills.find? fun k => k.victim == v && k.waiting.contains (400 + die)) = some k) (hp : ∃ p ∈ k.waiting, p ≠ 400 + die) :
    execKillAckTimeout (400 + die) v s = .next { s.resetDie die with
      kills := (s.resetDie die).kills.map fun x => if x = k then { k with waiting := k.waiting.filter (· != 400 + die) } else x } := by
  obtain ⟨p, hp, hne⟩ := hp
  have hleft : (k.waiting.filter (· != 400 + die)).isEmpty = false :=
    List.isEmpty_eq_false_iff_exists_mem.2 ⟨p, List.mem_filter.2 ⟨hp, by simpa using hne⟩⟩
  have hmod : (400 + die) % 100 = die := by omega
  have hpart : 400 + die < 300 ∨ 400 ≤ 400 + die ∧ 400 + die < 500 := by omega
  unfold execKillAckTimeout
  simp only [hk, hmod, if_neg (show ¬ 400 + die < 300 by omega), if_pos hpart, hleft, Bool.false_eq_true, if_false]

theorem resetDie_kills (s : State) (die : Nat) : (s.resetDie die).kills = s.kills := by
  unfold State.resetDie
  dsimp only
  rw [State.report_kills]
  exact foldl_kills (fun s vd => s.containVictim_kills ⟨vd, none⟩ .killed) _ s

/-- A die that is reset has no group, no team and no walk, and its devices are reported. -/
theorem resetDie_empty (s : State) (die : Nat) : (∀ slot g, (s.resetDie die).groups.find slot = some g → coreDie (slotCore slot) ≠ die) ∧
    (∀ t x, (s.resetDie die).teams.find t = some x → coreDie x.core ≠ die) ∧ ((s.resetDie die).die die).walks = [] ∧
    ∃ l, Report.devices 16 l ∈ (s.resetDie die).errors := by
  unfold State.resetDie
  dsimp only
  refine ⟨fun slot g h => ?_, fun t x h => ?_, ?_, ?_⟩
  · rw [State.report_groups, State.setDie_groups] at h
    dsimp only at h
    simpa using Table.of_find_keep h
  · rw [State.report_teams, State.setDie_teams] at h
    dsimp only at h
    simpa using Table.of_find_keep h
  · rw [State.die, State.report_dies, State.setDie_dies, Table.getD_put, if_pos rfl]
    rfl
  · rw [State.report_errors]
    exact ⟨_, List.mem_append_right _ (List.mem_singleton.2 rfl)⟩

end Sys2Proof.Machine

namespace Sys2Proof.Machine
open Sys2Proof

/-! ## What a slice boundary keeps of the time and of the meters (R392, R393) -/

/-- The time and every device's meters are as they were. -/
structure MetersKept (s u : State) : Prop where
  gtime : u.gtime = s.gtime
  meters : ∀ vd, (u.vdev vd).meters = (s.vdev vd).meters

theorem MetersKept.refl (s : State) : MetersKept s s := ⟨rfl, fun _ => rfl⟩

theorem MetersKept.trans {s u w : State} (h : MetersKept s u) (h' : MetersKept u w) : MetersKept s w :=
  ⟨h'.gtime.trans h.gtime, fun vd => (h'.meters vd).trans (h.meters vd)⟩

theorem MetersKept.foldl {α : Type} {f : State → α → State} (hf : ∀ s x, MetersKept s (f s x)) (l : List α) (s : State) :
    MetersKept s (l.foldl f s) := by
  induction l generalizing s with
  | nil => exact .refl s
  | cons x xs ih => exact (hf s x).trans (ih _)

theorem MetersKept.ite {s u w : State} {p : Prop} [Decidable p] (h : MetersKept s u) (h' : MetersKept s w) : MetersKept s (if p then u else w) := by
  split
  · exact h
  · exact h'

/-- A change of groups and cores. -/
theorem MetersKept.of_sameOutside {s u : State} (h : SameOutside s u) : MetersKept s u := by
  rw [h]
  exact ⟨rfl, fun _ => rfl⟩

/-- A change of a device that keeps its meters. -/
theorem MetersKept.setVdev (s : State) (vd : Nat) (x : VDev) (hx : x.meters = (s.vdev vd).meters) : MetersKept s (s.setVdev vd x) :=
  ⟨rfl, fun w => by
    rw [State.vdev_setVdev]
    split
    · next h => rw [hx, h]
    · rfl⟩

/-- A device at the end of a slice of which it had `u` µs: its finish tag counts them, and a CONFIGURE that waited takes effect (R378, R392). -/
def VDev.sliceEnded (d : VDev) (u : Nat) : VDev :=
  { d with
    tag := if u < d.slice then d.tag.add (d.share ((u : Int) - d.slice)) else d.tag, profile := d.configured.getD d.profile, configured := none }

section
variable (s : State)

theorem metersKept_refill (vd : Nat) : MetersKept s (s.refill vd) := by
  unfold State.refill
  dsimp only
  split
  · exact .refl s
  · exact .setVdev s vd _ rfl

theorem metersKept_updateEligible (v : Frac) (vd : Nat) : MetersKept s (s.updateEligible v vd) := by
  unfold State.updateEligible
  dsimp only
  split_ifs
  · exact .setVdev s vd _ rfl
  · exact .setVdev s vd _ rfl
  · exact .refl s

theorem setCore_sameOutside (core : Nat) (x : Core) : SameOutside s (s.setCore core x) := rfl

theorem freeBlocks_sameOutside (slot : Nat) (g : Group) : SameOutside s (s.freeBlocks slot g) := rfl

theorem compactSub_sameOutside (core sub : Nat) : SameOutside s (s.compactSub core sub) := by
  have hfree : SameOutside s ((s.runsOf core sub).foldl (fun s g => s.freeBlocks g.1 g.2) s) :=
    .foldl (fun s (g : Nat × Group) => freeBlocks_sameOutside s g.1 g.2) _ s
  unfold State.compactSub
  dsimp only
  refine (hfree.trans (setCore_sameOutside _ core _)).trans (.foldl (fun s m => ?_) _ _)
  split
  · exact .refl s
  · rfl

theorem compactIdle_sameOutside (core : Nat) : SameOutside s (s.compactIdle core) := by
  have hmoved : SameOutside s (((s.core core).compacting.filter fun sub => ((s.core core).runs.find sub).isNone).foldl (fun s sub => s.compactSub core sub) s) :=
    .foldl (fun s sub => compactSub_sameOutside s core sub) _ s
  exact .ite hmoved (hmoved.trans (setCore_sameOutside _ core _))

theorem compact_sameOutside (core : Nat) : SameOutside s (s.compact core) := by
  unfold State.compact
  refine .ite (.refl s) ((setCore_sameOutside s core { s.core core with compact := false }).trans ?_)
  dsimp only
  split
  · exact .refl _
  · exact .ite ((setCore_sameOutside _ core _).trans (compactIdle_sameOutside _ core)) (.refl _)

/-- A slice that closes keeps the time, and charges its device for the time that it had (R393). -/
theorem closeSlice_charges (vd u : Nat) : (s.closeSlice vd u).gtime = s.gtime ∧ ((s.closeSlice vd u).vdev vd).meters =
    (s.vdev vd).meters.set 0 ((s.vdev vd).meters.get 0 + BitVec.ofNat 64 ((s.vdev vd).coreCount * u)) := by
  have hcharge : ((s.charge vd u).vdev vd).meters =
      (s.vdev vd).meters.set 0 ((s.vdev vd).meters.get 0 + BitVec.ofNat 64 ((s.vdev vd).coreCount * u)) := by
    rw [State.charge, State.vdev_setVdev, if_pos rfl]
  have hclosed : MetersKept (s.charge vd u) (((s.charge vd u).setVdev vd (((s.charge vd u).vdev vd).sliceEnded u)).refill vd) :=
    (MetersKept.setVdev _ vd (((s.charge vd u).vdev vd).sliceEnded u) rfl).trans (metersKept_refill _ vd)
  have hkept : MetersKept (s.charge vd u) (s.closeSlice vd u) := by
    refine hclosed.trans ?_
    unfold State.closeSlice
    exact .ite (.setVdev _ vd _ (by rfl)) (.setVdev _ vd _ (by rfl))
  exact ⟨hkept.gtime, (hkept.meters vd).trans hcharge⟩

end

/-- The devices of a set as a boundary finds them: their buckets refilled and their eligibility brought up to date. -/
def State.atBoundary (s : State) (set : Nat) (v : Frac) : State :=
  (s.devicesOf set).foldl (fun s vd => (s.refill vd).updateEligible v vd) s

theorem metersKept_atBoundary (s : State) (set : Nat) (v : Frac) : MetersKept s (s.atBoundary set v) :=
  .foldl (fun s vd => (metersKept_refill s vd).trans (metersKept_updateEligible _ v vd)) _ s

/-- The state in which a slice that has run its full length has been closed and its set stands at the boundary. -/
def State.fullSliceClosed (s : State) (set vd : Nat) : State :=
  let s₁ := ({ s with gtime := max s.gtime ((s.set set).began + 1000 * (s.vdev vd).slice) } : State).closeSlice vd (s.vdev vd).slice
  ((s₁.atBoundary set (s.set set).v).coresOf vd).foldl State.compact (s₁.atBoundary set (s.set set).v)

theorem State.fullSliceClosed_charges (s : State) (set vd : Nat) :
    (s.fullSliceClosed set vd).gtime = max s.gtime ((s.set set).began + 1000 * (s.vdev vd).slice) ∧
    ((s.fullSliceClosed set vd).vdev vd).meters.get 0 =
      (s.vdev vd).meters.get 0 + BitVec.ofNat 64 ((s.vdev vd).coreCount * (s.vdev vd).slice) := by
  have hclosed := closeSlice_charges ({ s with gtime := max s.gtime ((s.set set).began + 1000 * (s.vdev vd).slice) } : State) vd (s.vdev vd).slice
  unfold State.fullSliceClosed
  dsimp only
  generalize ({ s with gtime := max s.gtime ((s.set set).began + 1000 * (s.vdev vd).slice) } : State).closeSlice vd (s.vdev vd).slice = s₁ at hclosed
  obtain ⟨htime, hmeters⟩ := hclosed
  have hkept : MetersKept s₁ (((s₁.atBoundary set (s.set set).v).coresOf vd).foldl State.compact (s₁.atBoundary set (s.set set).v)) :=
    (metersKept_atBoundary s₁ set _).trans (.foldl (fun s c => .of_sameOutside (compact_sameOutside s c)) _ _)
  refine ⟨hkept.gtime.trans htime, ?_⟩
  rw [hkept.meters, hmeters, Regs.get_set_self]
  rfl

/-- SLICE_END of a device that is eligible closes its slice in full, whichever device runs next. -/
theorem sliceEnd_closes {s : State} {set vd : Nat} (hr : (s.set set).running = some vd) (he : s.eligibleNow vd = true) :
    ∃ u, execSliceEnd set s = .next u ∧ u.gtime = (s.fullSliceClosed set vd).gtime ∧ u.vdevs = (s.fullSliceClosed set vd).vdevs := by
  unfold execSliceEnd
  simp only [hr, he, if_true]
  split
  · exact ⟨_, rfl, rfl, rfl⟩
  · split
    · exact ⟨_, rfl, rfl, rfl⟩
    · exact ⟨_, rfl, rfl, rfl⟩

/-! ## The boundary of an idle set (R392) -/

/-- What `put` leaves in a table: every entry but the one that stood at the key. -/
theorem Table.mem_put_of_mem {α : Type} {t : Table α} {i n : Nat} {y : α} (x : α) (h : (n, y) ∈ t) :
    (n, y) ∈ t.put i x ∨ n = i ∧ t.find i = some y := by
  induction t with
  | nil => cases h
  | cons kv t ih =>
    obtain ⟨k, v⟩ := kv
    unfold Table.put
    split
    · exact .inl (List.mem_cons_of_mem _ h)
    · split
      · next hik =>
        rcases List.mem_cons.1 h with he | ht
        · cases he
          exact .inr ⟨hik.symm, by rw [Table.find_cons, if_pos hik]⟩
        · exact .inl (List.mem_cons_of_mem _ ht)
      · next hik =>
        rcases List.mem_cons.1 h with he | ht
        · exact .inl (he ▸ List.mem_cons_self)
        · rw [Table.find_cons, if_neg hik]
          exact (ih ht).imp_left (List.mem_cons_of_mem _)

theorem State.mem_devicesOf {s : State} {set n : Nat} : n ∈ s.devicesOf set ↔ ∃ d, (n, d) ∈ s.vdevs ∧ d.state ≠ .absent ∧ d.setKey = set := by
  simp [State.devicesOf]

theorem State.vdev_of_find {s : State} {vd : Nat} {d : VDev} (h : s.vdevs.find vd = some d) : s.vdev vd = d := by
  rw [State.vdev, Table.getD, h]
  rfl

/-- A change of a device that keeps its state and its place leaves it on its set. -/
theorem State.mem_devicesOf_setVdev {s : State} {vd : Nat} {x : VDev} (hs : x.state = (s.vdev vd).state) (hk : x.setKey = (s.vdev vd).setKey)
    (set n : Nat) : n ∈ (s.setVdev vd x).devicesOf set ↔ n ∈ s.devicesOf set := by
  rw [State.mem_devicesOf, State.mem_devicesOf]
  constructor
  · rintro ⟨d, hd, hstate, hset⟩
    rcases mem_put _ _ _ _ hd with he | hd
    · cases he
      cases hf : s.vdevs.find vd with
      | none => exact absurd (hs.trans (by rw [State.vdev, Table.getD, hf]; rfl)) hstate
      | some d =>
        rw [State.vdev_of_find hf] at hs hk
        exact ⟨d, Table.mem_of_find hf, hs ▸ hstate, hk ▸ hset⟩
    · exact ⟨d, hd, hstate, hset⟩
  · rintro ⟨d, hd, hstate, hset⟩
    rcases Table.mem_put_of_mem (i := vd) x hd with hd | ⟨rfl, hf⟩
    · exact ⟨d, hd, hstate, hset⟩
    · rw [State.vdev_of_find hf] at hs hk
      exact ⟨x, Table.mem_of_find (Table.find_put_self ..), hs ▸ hstate, hk ▸ hset⟩

/-- A device that is eligible is recorded so, and stays on its set with the others. -/
theorem updateEligible_records {s : State} {vd : Nat} (he : s.eligibleNow vd = true) (v : Frac) :
    ((s.updateEligible v vd).vdev vd).eligible = true ∧ ∀ set n, n ∈ (s.updateEligible v vd).devicesOf set ↔ n ∈ s.devicesOf set := by
  unfold State.updateEligible
  dsimp only
  rw [he]
  cases hd : (s.vdev vd).eligible
  · refine ⟨?_, State.mem_devicesOf_setVdev rfl rfl⟩
    rw [if_pos (by rfl), State.vdev_setVdev, if_pos rfl]
  · exact ⟨hd, fun _ _ => Iff.rfl⟩

/-- The one of two devices that runs next: the smaller finish tag, the first on a tie (R392). -/
def State.sooner (s : State) (b : Option Nat) (vd : Nat) : Option Nat :=
  match b with
  | none => some vd
  | some x => if (s.vdev vd).tag.lt (s.vdev x).tag then some vd else some x

theorem State.chooseDevice_eq (s : State) (set : Nat) :
    s.chooseDevice set = ((s.devicesOf set).filter fun vd => (s.vdev vd).eligible).foldl s.sooner none := rfl

/-- Of one device, listed any number of times, that one is chosen. -/
theorem State.foldl_sooner_only (s : State) {vd : Nat} {l : List Nat} (h : ∀ n ∈ l, n = vd) {b : Option Nat} (hb : b = some vd ∨ b = none ∧ l ≠ []) :
    l.foldl s.sooner b = some vd := by
  induction l generalizing b with
  | nil => exact hb.resolve_right fun h => h.2 rfl
  | cons n ns ih =>
    obtain rfl := h n List.mem_cons_self
    refine ih (fun m hm => h m (List.mem_cons_of_mem _ hm)) (.inl ?_)
    rcases hb with rfl | ⟨rfl, -⟩
    · exact ite_self _
    · rfl

/-- The only eligible device of a set is chosen. -/
theorem State.chooseDevice_of_only {s : State} {set vd : Nat} (he : (s.vdev vd).eligible = true) (hd : ∀ n, n ∈ s.devicesOf set ↔ n = vd) :
    s.chooseDevice set = some vd :=
  s.foldl_sooner_only (fun n hn => (hd n).1 (List.mem_filter.1 hn).1)
    (.inr ⟨rfl, List.ne_nil_of_mem (List.mem_filter.2 ⟨(hd vd).2 rfl, he⟩)⟩)

/-- SLICE_END of an idle set gives the slice to its eligible device. -/
theorem sliceEnd_idle {s : State} {set vd : Nat} (hd : s.devicesOf set = [vd]) (hr : (s.vdev vd).prof 0x18 31 0 = 0) (he : s.eligibleNow vd = true)
    (hn : (s.set set).running = none) :
    ∃ u, execSliceEnd set s = .next u ∧ (u.set set).running = some vd ∧ (u.set set).began = s.gtime ∧ u.mem = s.mem := by
  have hfill : s.refill vd = s := if_pos (.inl hr)
  obtain ⟨helig, hmem⟩ := updateEligible_records he (s.set set).v
  have hchoose := State.chooseDevice_of_only (set := set) helig fun n => (hmem set n).trans (by simp [hd])
  have hset (u : State) (p : PlaceSet) : ({ u with sets := u.sets.put set p } : State).set set = p := (Table.getD_put ..).trans (if_pos rfl)
  unfold execSliceEnd
  simp only [hn, hd, List.foldl_cons, List.foldl_nil, hfill, hchoose, reduceCtorEq, if_false]
  refine ⟨_, rfl, ?_, ?_, ?_⟩
  · exact congrArg PlaceSet.running (hset ..)
  · exact (congrArg PlaceSet.began (hset ..)).trans (metersKept_updateEligible s _ vd).gtime
  · simp

/-! ## The token bucket (R393) -/

theorem bucketEmpty_empties {s : State} {vd : Nat} (hr : (s.vdev vd).prof 0x18 31 0 ≠ 0) (ha : (s.vdev vd).state ≠ .absent) :
    ∃ u, execBucketEmpty vd s = .next u ∧ u.mem = s.mem ∧ (u.vdev vd).bucket = 0 ∧
      (∀ q k, (u.vdev vd).queues.find q = some k → k.mapped = false) ∧
      (s.holdsSlice vd = true → .sliceEnd (s.vdev vd).setKey ∈ u.agenda) := by
  unfold execBucketEmpty
  dsimp only
  rw [if_neg (not_or.2 ⟨hr, ha⟩)]
  generalize hw : s.setVdev vd { s.vdev vd with
    bucket := 0, bucketAt := s.gtime, queues := (s.vdev vd).queues.mapVals fun _ k => k.unmap } = w
  have hvdev : w.vdev vd = { s.vdev vd with
      bucket := 0, bucketAt := s.gtime, queues := (s.vdev vd).queues.mapVals fun _ k => k.unmap } := by
    rw [← hw, State.vdev_setVdev, if_pos rfl]
  have hsets : w.sets = s.sets := by rw [← hw]; rfl
  have hmem : w.mem = s.mem := by rw [← hw]; rfl
  have hholds : w.holdsSlice vd = s.holdsSlice vd := by
    unfold State.holdsSlice
    rw [hsets, hvdev]
    rfl
  have hqueues (q : Nat) (k : Queue) (h : (w.vdev vd).queues.find q = some k) : k.mapped = false := by
    rw [hvdev, Table.find_mapVals] at h
    obtain ⟨x, -, rfl⟩ := Option.map_eq_some_iff.1 h
    rfl
  cases hh : w.holdsSlice vd
  · exact ⟨_, rfl, hmem, by rw [if_neg (by decide), hvdev], hqueues, fun h => absurd (hholds.trans h) (by simp [hh])⟩
  · refine ⟨_, rfl, hmem, ?_, hqueues, fun _ => List.mem_cons_self⟩
    exact congrArg VDev.bucket hvdev

theorem updateEligible_bucket (s : State) (v : Frac) (vd n : Nat) : ((s.updateEligible v vd).vdev n).bucket = (s.vdev n).bucket := by
  have h (x : VDev) (hx : x.bucket = (s.vdev vd).bucket) : ((s.setVdev vd x).vdev n).bucket = (s.vdev n).bucket := by
    rw [State.vdev_setVdev]
    split
    · next hn => rw [hx, hn]
    · rfl
  unfold State.updateEligible
  dsimp only
  split_ifs
  · exact h _ rfl
  · exact h _ rfl
  · rfl

theorem bucketRecover_refills {s : State} {vd : Nat} (hr : (s.vdev vd).prof 0x18 31 0 ≠ 0) (ha : (s.vdev vd).state ≠ .absent) :
    ∃ u, execBucketRecover vd s = .next u ∧ u.mem = s.mem ∧
      (u.vdev vd).bucket = max (s.vdev vd).bucket (min ((s.vdev vd).prof 0x18 63 32) ((s.vdev vd).coreCount * (s.vdev vd).slice)) := by
  unfold execBucketRecover
  dsimp only
  rw [if_neg (not_or.2 ⟨hr, ha⟩)]
  refine ⟨_, rfl, by simp, ?_⟩
  rw [updateEligible_bucket, State.vdev_setVdev, if_pos rfl]
  rfl

/-- KILL_ACK_TIMEOUT of a die that is not the last to acknowledge. -/
theorem killAckTimeout_die {s : State} {v : Victim} {die : Nat} {k : Kill} (hd : die < 2)
    (hk : (s.kills.find? fun k => k.victim == v && k.waiting.contains (400 + die)) = some k) (hp : ∃ p ∈ k.waiting, p ≠ 400 + die) :
    ∃ u, execKillAckTimeout (400 + die) v s = .next u ∧ { k with waiting := k.waiting.filter (· != 400 + die) } ∈ u.kills ∧
      (∀ slot g, u.groups.find slot = some g → coreDie (slotCore slot) ≠ die) ∧ (∀ t x, u.teams.find t = some x → coreDie x.core ≠ die) ∧
      (u.die die).walks = [] ∧ ∃ l, Report.devices 16 l ∈ u.errors :=
  ⟨_, execKillAckTimeout_die hd hk hp, mem_map_counted (resetDie_kills s die ▸ List.mem_of_find?_eq_some hk) _, resetDie_empty s die⟩

/-- SLICE_END of a device that is eligible charges it for its full slice (R393). -/
theorem sliceEnd_full {s : State} {set vd : Nat} (he : s.eligibleNow vd = true) (hr : (s.set set).running = some vd) :
    ∃ u, execSliceEnd set s = .next u ∧ u.gtime = max s.gtime ((s.set set).began + 1000 * (s.vdev vd).slice) ∧
      (u.vdev vd).meters.get 0 = (s.vdev vd).meters.get 0 + BitVec.ofNat 64 ((s.vdev vd).coreCount * (s.vdev vd).slice) := by
  obtain ⟨u, hu, htime, hvdevs⟩ := sliceEnd_closes hr he
  obtain ⟨hend, hcharge⟩ := s.fullSliceClosed_charges set vd
  refine ⟨u, hu, htime.trans hend, ?_⟩
  rw [← hcharge, State.vdev, State.vdev, hvdevs]

/-- Settles O55: each KILL by the list that it adds the victim to, each DRAIN by what its filter leaves, the acknowledgements by the kill that they
count off or finish, and the slices and buckets by what a boundary keeps of the meters. That SLICE_END charges the full slice is the model's reading of
R393 (DEDUCED: log 40), and the participants' numbers are its own (DESIGN CHOICE: log 43). -/
theorem killAndSliceEventsComplete : Obligations.KillAndSliceEventsComplete := by
  unfold Obligations.KillAndSliceEventsComplete
  intro s v core die
  obtain ⟨u, hu, hmem, hdrained, hothers, hcore⟩ := coreDrain_drains s core v
  have hself (x : Core) : (s.setCore core x).core core = x := s.core_setCore_self core x
  have hdie (x : Die) : (s.setDie die x).die die = x := s.die_setDie_self die x
  refine ⟨coreKill_stops s core v, ⟨u, hu, hmem, hdrained, hothers, fun r hr hv => s.drainedCore_coal v core (hcore ▸ hr) hv⟩,
    fun slot hs => ⟨u, hu, ?_⟩, ⟨_, rfl, by rw [hself], by rw [hself]; exact mem_refuseAlso ..⟩,
    ⟨_, rfl, by rw [hself], by rw [hself]; exact mem_refuseAlso ..⟩, ⟨_, rfl, by rw [hdie], by rw [hdie]; exact mem_refuseAlso ..⟩,
    ⟨_, rfl, by rw [hdie], by rw [hdie]; exact mem_refuseAlso ..⟩, ⟨_, rfl, rfl, mem_refuseAlso ..⟩, ⟨_, rfl, rfl, mem_refuseAlso ..⟩,
    ⟨_, rfl, rfl, rfl, congrArg Core.mq (hself _)⟩, casterDrain_drains s core v, ⟨_, rfl, rfl, rfl, rfl⟩, walkerDrain_drains s die v,
    fun q hq hs hn => qslotDrain_fails hq hs hn, endpointDrain_answers s v, fun part k hk ha => ⟨fun p hp hne => ?_, killAck_finishes hk ha⟩,
    fun k hd hk hp => killAckTimeout_die hd hk hp, fun set vd hd hr he => ⟨sliceEnd_idle hd hr he, fun hrun _ => sliceEnd_full he hrun⟩,
    fun vd hr ha => ⟨bucketEmpty_empties hr ha, bucketRecover_refills hr ha⟩⟩
  · rw [hcore, State.drainedCore, hs]
    exact Regs.get_set_self ..
  · exact ⟨_, execKillAck_counts hk ha hp hne, mem_map_counted (List.mem_of_find?_eq_some hk) _, rfl⟩

end Sys2Proof.Machine

namespace Sys2Proof.Machine
open Sys2Proof

/-! ## Bytes and cells (R5) -/

@[simp] theorem toBytes_length (n x : Nat) : (toBytes n x).length = n := by
  induction n generalizing x with
  | zero => rfl
  | succ n ih => rw [toBytes, List.length_cons, ih]

theorem ofBytes_toBytes (n x : Nat) : ofBytes (toBytes n x) = x % 2 ^ (8 * n) := by
  induction n generalizing x with
  | zero => simp [toBytes, ofBytes, Nat.mod_one]
  | succ n ih => rw [toBytes, ofBytes, ih, BitVec.toNat_ofNat, Nat.mul_succ, pow_add, Nat.mul_comm (2 ^ (8 * n)), Nat.mod_mul]; rfl

theorem ofBytes_lt (bs : List (BitVec 8)) : ofBytes bs < 2 ^ (8 * bs.length) := by
  induction bs with
  | nil => exact Nat.one_pos
  | cons b bs ih =>
    have hb := b.isLt
    rw [ofBytes, List.length_cons, Nat.mul_succ, pow_add]
    omega

@[simp] theorem readCells_length (m : List Host.Cell) (k n : Nat) : (readCells m k n).length = n := by simp [readCells]

/-- The bytes just written are read. -/
theorem readCells_writeCells_self (m : List Host.Cell) (k : Nat) {n : Nat} {bs : List (BitVec 8)} (h : bs.length = n) :
    readCells (writeCells m k bs) k n = bs := by
  refine List.ext_getElem (by simp [h]) fun i hi hb => ?_
  simp only [readCells, List.getElem_map, List.getElem_range, readCell_writeCells]
  rw [if_pos ⟨Nat.le_add_right .., by omega⟩, Nat.add_sub_cancel_left, List.getD_eq_getElem _ _ hb]

/-- A cell outside the bytes written keeps its value. -/
theorem readCell_writeCells_outside (m : List Host.Cell) {k j : Nat} {bs : List (BitVec 8)} (h : j < k ∨ k + bs.length ≤ j) :
    readCell (writeCells m k bs) j = readCell m j := by
  rw [readCell_writeCells, if_neg (by omega)]

/-! ## Atomics in a slice (R165, R167) -/

section
variable {s : State} {l : Loc} {c o : Nat} (hl : l.place = .sram c o) (hbad : (s.core c).sramBad = [])
include hl hbad

/-- A slice none of whose words has a detected error is read as it stands (R153). -/
theorem State.readLoc_slice (n : Nat) : s.readLoc l n = .ok (readCells s.mem l.place.key n) := by
  simp [State.readLoc, hl, Core.badWords, hbad]

/-- A write to it changes nothing but the memory. -/
theorem State.writeLoc_slice (bs : List (BitVec 8)) : s.writeLoc l bs = .ok { s with mem := writeCells s.mem l.place.key bs } := by
  simp [State.writeLoc, hl, State.writeSlice, hbad]

/-- A read-modify-write there returns the bytes that it found, and stores what its kind makes of them, if anything. -/
theorem State.performPart_slice {k : FifoKind} (hk : k ≠ .store) (n : Nat) (a : Acc) :
    s.performPart k (n, a, l) = .ok ((k.result a (readCells s.mem l.place.key a.size)).elim s fun new =>
      { s with mem := writeCells s.mem l.place.key new }, [(n, readCells s.mem l.place.key a.size)]) := by
  cases k with
  | store => exact absurd rfl hk
  | atom | cas =>
    simp only [State.performPart, State.readLoc_slice hl hbad]
    split
    · next h => rw [h]; rfl
    · next h => rw [h, State.writeLoc_slice hl hbad]; rfl

end

/-- Where a value stands in the order of a TYPE: signed, but for .N32 (R165). -/
def atomRank (ty x : Nat) : Int := if ty = 1 then x else (BitVec.ofNat (8 * atomSize ty) x).toInt

/-- The comparison of the smaller and larger is that of the ranks. -/
theorem atomRank_lt_iff (ty p q : Nat) : (if ty = 1 then decide (p < q) else (BitVec.ofNat (8 * atomSize ty) p).slt (BitVec.ofNat (8 * atomSize ty) q)) = true ↔
    atomRank ty p < atomRank ty q := by
  unfold atomRank
  split <;> simp [BitVec.slt]

theorem atomFn_min (ty old x : Nat) : atomFn 1 ty old x = if atomRank ty x < atomRank ty old then x else old := by
  simp only [atomFn, atomRank_lt_iff]

theorem atomFn_max (ty old x : Nat) : atomFn 2 ty old x = if atomRank ty old < atomRank ty x then x else old := by
  simp only [atomFn, atomRank_lt_iff]

/-- A sum in a TYPE's format fits the TYPE (R32, R165). -/
theorem atomFmt_sum_lt {ty : Nat} (h : 3 ≤ ty) (h6 : ty < 6) (terms : List (List Nat)) :
    ((atomFmt ty).sumProd false 0 terms).1 < 2 ^ (8 * atomSize ty) := by
  have hmw : 0 < (atomFmt ty).mw ∧ 1 + (atomFmt ty).ew + (atomFmt ty).mw = 8 * atomSize ty := by interval_cases ty <;> decide
  have hr := (Exact.isResult_toFmt (atomFmt ty) hmw.1 .nearest false 0 (sumOf (terms.map fun t => prodOf (t.map (atomFmt ty).value)))).2
  rwa [hmw.2] at hr

/-- What an atomic stores fits its TYPE. -/
theorem atomFn_lt {op ty old x : Nat} (hty : ty < 6) (hop : op < 10) (hv : atomValid op ty = true) (ho : old < 2 ^ (8 * atomSize ty))
    (hx : x < 2 ^ (8 * atomSize ty)) : atomFn op ty old x < 2 ^ (8 * atomSize ty) := by
  have hite {p : Prop} [Decidable p] {u v : Nat} (hu : u < 2 ^ (8 * atomSize ty)) (hv : v < 2 ^ (8 * atomSize ty)) :
      (if p then u else v) < 2 ^ (8 * atomSize ty) := by
    split
    · exact hu
    · exact hv
  interval_cases op
  · exact Nat.mod_lt _ (Nat.two_pow_pos _)
  · exact hite hx ho
  · exact hite hx ho
  · exact BitVec.isLt _
  · exact BitVec.isLt _
  · exact BitVec.isLt _
  · exact hx
  · simp only [atomFn]; split <;> omega
  · exact hite hx (by omega)
  · exact atomFmt_sum_lt (by simpa [atomValid] using hv) hty _

/-- Settles O13: what performing the entry leaves in the slice, and the function by function meaning of what it stores. -/
theorem atomicsApplyTheirFunction : Obligations.AtomicsApplyTheirFunction := by
  intro s n a l c o hl hbad key bytes
  have hlen : bytes.length = a.size := readCells_length ..
  refine ⟨?_, fun hdata => ⟨fun heq => ?_, fun hne => ?_⟩⟩
  · intro op ty hty hop hv hsize hdata w old x less
    have hold : old < 2 ^ (8 * atomSize ty) := by rw [← hsize, ← hlen]; exact ofBytes_lt bytes
    have hx : x < 2 ^ (8 * atomSize ty) := by rw [← hsize, ← hdata]; exact ofBytes_lt a.data
    have hless (p q : Nat) : less p q ↔ atomRank ty p < atomRank ty q := by
      simp only [less, w, atomRank]
      rw [hsize]
      split
      · exact Nat.cast_lt.symm
      · rfl
    refine ⟨_, atomFn op ty old x, State.performPart_slice hl hbad (by simp) n a, ?_, fun k hk => ?_, rfl, ?_⟩
    · show ofBytes (readCells (writeCells s.mem key (toBytes a.size (atomFn op ty old x))) key a.size) = _
      rw [readCells_writeCells_self _ _ (toBytes_length ..), ofBytes_toBytes, hsize, Nat.mod_eq_of_lt (atomFn_lt hty hop hv hold hx)]
    · exact readCell_writeCells_outside _ (by rwa [toBytes_length])
    have hbit (i : Nat) (y : Nat) (hy : y < 2 ^ (8 * atomSize ty)) : (BitVec.ofNat (8 * atomSize ty) y).toNat.testBit i = y.testBit i := by
      rw [BitVec.toNat_ofNat, Nat.mod_eq_of_lt hy]
    refine ⟨?_, ?_, ?_, ?_, ?_, ?_, ?_, ?_, ?_, ?_⟩ <;> rintro rfl
    · simp only [atomFn, w, hsize]
    · rw [atomFn_min]
      simp only [hless]
      split <;> omega
    · rw [atomFn_max]
      simp only [hless]
      split <;> omega
    · intro i
      simp only [atomFn, BitVec.toNat_and, Nat.testBit_and, hbit i _ hold, hbit i _ hx]
    · intro i
      simp only [atomFn, BitVec.toNat_or, Nat.testBit_or, hbit i _ hold, hbit i _ hx]
    · intro i
      simp only [atomFn, BitVec.toNat_xor, Nat.testBit_xor, hbit i _ hold, hbit i _ hx]
    · rfl
    · rfl
    · simp [atomFn]
    · rfl
  · refine ⟨{ s with mem := writeCells s.mem key a.data }, ?_, rfl, readCells_writeCells_self _ _ hdata,
      fun k hk => readCell_writeCells_outside _ (by rwa [hdata])⟩
    rw [State.performPart_slice hl hbad (by simp) n a, FifoKind.result, if_pos heq]
    rfl
  · rw [State.performPart_slice hl hbad (by simp) n a, FifoKind.result, if_neg hne]
    rfl

end Sys2Proof.Machine

namespace Sys2Proof.Machine
open Sys2Proof

/-! ## What a memory word's effect leaves of runs and slots (R55) -/

/-- Every core's runs are as they were, and the same slots hold a group. -/
structure RunsKept (s u : State) : Prop where
  runs : ∀ c, (u.core c).runs = (s.core c).runs
  slots : ∀ n, (u.groups.find n).isSome = (s.groups.find n).isSome

theorem RunsKept.refl (s : State) : RunsKept s s := ⟨fun _ => rfl, fun _ => rfl⟩

theorem RunsKept.trans {s u w : State} (h : RunsKept s u) (h' : RunsKept u w) : RunsKept s w :=
  ⟨fun c => (h'.runs c).trans (h.runs c), fun n => (h'.slots n).trans (h.slots n)⟩

theorem RunsKept.ite {s u w : State} {p : Prop} [Decidable p] (h : RunsKept s u) (h' : RunsKept s w) : RunsKept s (if p then u else w) := by
  split
  · exact h
  · exact h'

theorem RunsKept.foldl {α : Type} {f : State → α → State} (hf : ∀ s x, RunsKept s (f s x)) (l : List α) (s : State) :
    RunsKept s (l.foldl f s) := by
  induction l generalizing s with
  | nil => exact .refl s
  | cons x xs ih => exact (hf s x).trans (ih _)

/-- A change outside groups and cores. -/
theorem RunsKept.of_eq {s u : State} (hg : u.groups = s.groups) (hc : u.cores = s.cores) : RunsKept s u :=
  ⟨fun c => by rw [State.core, hc]; rfl, fun n => by rw [hg]⟩

section
variable (s : State)

theorem runsKept_modify (n : Nat) (f : Group → Group) : RunsKept s { s with groups := s.groups.modify n f } :=
  ⟨fun _ => rfl, fun m => by
    simp only [Table.find_modify]
    split <;> simp⟩

theorem runsKept_setCore {c : Nat} {x : Core} (h : x.runs = (s.core c).runs) : RunsKept s (s.setCore c x) :=
  ⟨fun d => by
    rw [State.core_setCore]
    split
    · next hd => rw [h, hd]
    · rfl, fun _ => rfl⟩

/-- A change of the issuing group. -/
theorem RunsKept.became {s u : State} (h : RunsKept s u) (fr : Issue) (f : Group → Group) : RunsKept s (fr.became u f) :=
  h.trans (runsKept_modify u _ f)

theorem runsKept_commit (fr : Issue) (lat : Option Nat) (cs : List RCell) : RunsKept s (fr.commit s lat cs) := runsKept_modify s _ _

theorem runsKept_setTeam (n : Nat) (x : Team) : RunsKept s (s.setTeam n x) := .of_eq rfl rfl

theorem runsKept_discard (core scope : Nat) : RunsKept s (s.discard core scope) := by
  unfold State.discard
  refine .trans (u := if 3 ≤ scope then s.setCore core { s.core core with l1 := [], l1Bad := [] } else s) (.ite (runsKept_setCore s rfl) (.refl s)) ?_
  dsimp only
  generalize (if 3 ≤ scope then _ else s) = u
  split <;> split <;> exact .of_eq rfl rfl

/-! ### Laggard boost (R278) and barrier objects (R176) -/

/-- No core's field has changed but its clock offset and the detected errors of its slice; outside cores, memory and clusters nothing has. -/
structure LagOnly (s u : State) : Prop where
  outside : u = { s with mem := u.mem, clusters := u.clusters, cores := u.cores }
  core : ∀ c, u.core c = { s.core c with lag := (u.core c).lag, sramBad := (u.core c).sramBad }

variable {s}

theorem LagOnly.refl : LagOnly s s := ⟨rfl, fun _ => rfl⟩

theorem LagOnly.trans {u w : State} (h : LagOnly s u) (h' : LagOnly u w) : LagOnly s w :=
  ⟨h'.outside.trans (by rw [h.outside]), fun c => (h'.core c).trans (by rw [h.core c])⟩

theorem LagOnly.ite {u w : State} {p : Prop} [Decidable p] (h : LagOnly s u) (h' : LagOnly s w) : LagOnly s (if p then u else w) := by
  split
  · exact h
  · exact h'

theorem LagOnly.foldl {α : Type} {f : State → α → State} (hf : ∀ s x, LagOnly s (f s x)) (l : List α) (s : State) : LagOnly s (l.foldl f s) := by
  induction l generalizing s with
  | nil => exact .refl
  | cons x xs ih => exact (hf s x).trans (ih _)

theorem LagOnly.runsKept {u : State} (h : LagOnly s u) : RunsKept s u :=
  ⟨fun c => by rw [h.core c], fun n => by rw [h.outside]⟩

variable (s)

/-- A core's clock offset, or the errors of its slice, are changed. -/
theorem lagOnly_setCore {c : Nat} {x : Core} (h : x = { s.core c with lag := x.lag, sramBad := x.sramBad }) : LagOnly s (s.setCore c x) :=
  ⟨rfl, fun d => by
    rw [State.core_setCore]
    split
    · next hd => rw [hd]; exact h
    · rfl⟩

theorem lagOnly_moveStep (taker giver : Nat) : LagOnly s (s.moveStep taker giver) := by
  unfold State.moveStep
  dsimp only
  split
  · exact .refl
  · next h =>
    have hne : taker ≠ giver := fun he => h (by simp [he])
    refine (lagOnly_setCore s (c := taker) (x := { s.core taker with lag := (s.core taker).lag + 1 }) rfl).trans (lagOnly_setCore _ ?_)
    rw [State.core_setCore, if_neg hne.symm]

theorem lagOnly_modCluster (cl : Nat) (f : Cluster → Cluster) : LagOnly s (s.modCluster cl f) := ⟨rfl, fun _ => rfl⟩

theorem lagOnly_lagEvent (cl key : Nat) : LagOnly s (s.lagEvent cl key) := by
  unfold State.lagEvent
  split
  · exact .refl
  · exact .ite ((lagOnly_modCluster s _ _).trans (.foldl (fun s _ => lagOnly_moveStep s _ _) _ _)) (lagOnly_modCluster s _ _)

theorem lagOnly_lagFlip (key : Nat) : LagOnly s (s.lagFlip key) := .foldl (fun s _ => lagOnly_lagEvent s _ _) _ _

theorem lagOnly_lagArrive (team key : Nat) : LagOnly s (s.lagArrive team key) := lagOnly_modCluster s _ _

theorem lagOnly_lagTsync (team n : Nat) : LagOnly s (s.lagTsync team n) := by
  unfold State.lagTsync
  refine (lagOnly_lagArrive s team (2 ^ 60 + n)).trans ?_
  dsimp only
  split
  · exact .refl
  · exact .ite (.ite (lagOnly_lagEvent _ _ _) (lagOnly_modCluster _ _ _)) .refl

theorem lagOnly_mem (m : List Host.Cell) : LagOnly s { s with mem := m } := ⟨rfl, fun _ => rfl⟩

theorem lagOnly_writeSlice (core off : Nat) (bs : List (BitVec 8)) : LagOnly s (s.writeSlice core off bs) := by
  unfold State.writeSlice
  exact (LagOnly.ite (p := (s.core core).sramBad.isEmpty) .refl (lagOnly_setCore s rfl)).trans (lagOnly_mem _ _)

theorem lagOnly_setBarrier (p : Place) (b : Barrier) : LagOnly s (s.setBarrier p b) := by
  unfold State.setBarrier
  refine .ite (.trans ?_ (lagOnly_lagFlip _ _)) ?_
  all_goals
    split
    · exact lagOnly_writeSlice s _ _ _
    · exact lagOnly_mem s _

theorem runsKept_setBarrier (p : Place) (b : Barrier) : RunsKept s (s.setBarrier p b) := (lagOnly_setBarrier s p b).runsKept

end

/-! ## What a ready memory word does, by its body -/

/-- A word whose body answers the state that `eff` says, in which every run and slot is as it was, does that. -/
theorem Does.of_kept {α : Type} {i : Instr} {t : Tail} {f : Form} {ok : α → Issue → State → Prop} {eff : α → Issue → State → State}
    {moved : α → Issue → BitVec 64} {body : Issue → State → Except Stop (State × BitVec 64)} (he : ∀ s, exec i s = issue f t s body)
    (hb : ∀ x fr s, ok x fr s → body fr s = .ok (eff x fr s, moved x fr)) (hk : ∀ x fr s, ok x fr s → RunsKept s (eff x fr s)) :
    Does i t f ok eff moved :=
  .of body he hb (fun x fr s core h => (hk x fr s h).runs core) fun x fr s h => (hk x fr s h).slots _

/-- A body that answers one state or another. -/
theorem ite_ok (p : Prop) [Decidable p] (s u : State) (m : BitVec 64) :
    (if p then .ok (s, m) else .ok (u, m) : Except Stop (State × BitVec 64)) = .ok (if p then s else u, m) := by split <;> rfl

/-- A check that is made on a condition, and passes. -/
theorem ite_check {α : Type} (p : Prop) [Decidable p] {x : Except Stop Unit} (y : Except Stop α) (h : p → x = .ok ()) :
    (if p then x >>= fun _ => y else y) = y := by
  split
  · next hp => rw [h hp, ok_bind]
  · rfl

/-! ## Checks that a memory word meets -/

section
variable {s : State} {fr : Issue}

/-- No earlier acquiring read is waited for where none is unfixed (R250). -/
theorem Issue.clear.afterAcquires (h : fr.clear) : s.afterAcquires fr = .ok () := by
  have hnone : (fr.g.loads.find? fun l => acquires l.flav && !l.fixed) = none := by
    simpa [Issue.clear] using h
  rw [State.afterAcquires, hnone]

theorem State.readsFixed_of_nil (h : fr.g.loads = []) : s.readsFixed fr = .ok () := by rw [State.readsFixed, h]

theorem State.afterAcquires_of_nil (h : fr.g.loads = []) : s.afterAcquires fr = .ok () :=
  Issue.clear.afterAcquires fun l hl => by simp [h] at hl

/-- A release waits for nothing where the FIFO is empty, and the scope awaits no earlier write (R250). -/
theorem State.writesDone_of_empty {scope : Nat} {sc : Bool} (hf : fr.g.fifo = []) (hu : s.unreleased fr.site.slot fr.g scope sc = [])
    (hn : s.nbStores fr.site.slot fr.g.team fr.g.seq scope sc = []) : s.writesDone fr scope sc = .ok () := by
  simp [State.writesDone, hf, hu, hn]

theorem Issue.strideOk_of {js : List Nat} (h : js = [] ∨ (s.gridOf fr.g.team).tstride ≠ 0) : fr.strideOk s js = .ok () := by
  rw [Issue.strideOk, if_neg]
  rcases h with h | h <;> simp [h]

theorem checkAccs_of_none {accs : List Acc} {f : Acc → Option Cause} (h : ∀ a ∈ accs, f a = none) : checkAccs accs f = .ok () := by
  have hnone : firstBad accs f = none := by
    simpa [firstBad] using h
  rw [checkAccs, hnone]

theorem alignOk_of {accs : List Acc} (h : ∀ a ∈ accs, a.ea.toNat % a.size = 0) : alignOk accs = .ok () :=
  checkAccs_of_none fun a ha => by simp [h a ha]

/-- Step 2 of R158 finds no fault where every window access is located. -/
theorem State.windowOk_of {team : Nat} {u : BufUse} {accs : List Acc}
    (h : ∀ a ∈ accs, isWindow a.ea.toNat = true → ∃ l, s.windowLoc team u a.ea.toNat a.size = .ok l) : s.windowOk team u accs = .ok () := by
  unfold State.windowOk
  dsimp only
  rw [List.filterMap_eq_nil_iff.2 fun a ha => ?_]
  · rfl
  · split
    · next hw =>
      obtain ⟨l, hl⟩ := h a ha hw
      rw [hl]
    · rfl

/-- A window access that is located lies where its slice is (R137). -/
theorem State.sliceOf_of_windowLoc {team : Nat} {u : BufUse} {ea size : Nat} {l : Loc} (h : s.windowLoc team u ea size = .ok l) :
    s.sliceOf team ea size = l := by
  unfold State.windowLoc at h
  unfold State.sliceOf
  split at h
  · cases h
  · next hw =>
    rw [hw]
    dsimp only at h ⊢
    split at h
    · cases h
    · split at h <;> cases h
      rfl

theorem collect_of_forall₂ {α β ε : Type} {f : α → Except ε β} {xs : List α} {ys : List β} (h : List.Forall₂ (fun x y => f x = .ok y) xs ys) :
    collect f xs = .ok ys := by
  induction h with
  | nil => rfl
  | cons hx _ ih => rw [collect, hx, ih]

/-- Accesses that reach locations are located there (R158). -/
theorem State.locate_of_reaches {k : Access} {u : BufUse} {accs : List Acc} {ls : List Loc} (h : List.Forall₂ (Reaches s fr k u) accs ls) :
    s.locate fr k u accs = .ok ls := by
  have hall : ∀ a ∈ accs, ∃ l, Reaches s fr k u a l := fun a ha => by
    obtain ⟨n, hn, rfl⟩ := List.getElem_of_mem ha
    exact ⟨_, h.get hn (h.length_eq ▸ hn)⟩
  have halign : alignOk accs = .ok () := alignOk_of fun a ha => (hall a ha).choose_spec.1
  have hwindow : s.windowOk fr.g.team u accs = .ok () := State.windowOk_of fun a ha hw => by
    obtain ⟨l, -, hl⟩ := hall a ha
    exact ⟨l, by rwa [if_pos hw] at hl⟩
  rw [State.locate, halign, hwindow, ok_bind, ok_bind]
  refine collect_of_forall₂ (h.imp fun a l ⟨_, hl⟩ => ?_)
  split
  · next hw =>
    rw [if_pos hw] at hl
    rw [State.sliceOf_of_windowLoc hl]
  · next hw =>
    rw [if_neg hw] at hl
    obtain ⟨x, hx⟩ := hl
    exact State.groupLoc_of_lookCore hx

theorem State.fifoRoom_of (h : fr.g.fifo.length < 16) : s.fifoRoom fr = .ok () := if_neg (Nat.not_le.2 h)

end

end Sys2Proof.Machine

namespace Sys2Proof.Machine
open Sys2Proof

/-! ## Locations and peers (R158, R416) -/

/-- The numbered accesses of an instruction lie where it has located them. -/
theorem partsOf_locs {accs : List Acc} {ls : List Loc} (h : accs.length = ls.length) : (partsOf accs ls).map (fun p => p.2.2) = ls := by
  have hzip : (partsOf accs ls).map Prod.snd = accs.zip ls := List.map_snd_zip (by simp [h])
  have hlocs : (accs.zip ls).map Prod.snd = ls := List.map_snd_zip (by omega)
  calc (partsOf accs ls).map (fun p => p.2.2) = ((partsOf accs ls).map Prod.snd).map Prod.snd := (List.map_map ..).symm
    _ = ls := by rw [hzip, hlocs]

theorem mem_partsOf {accs : List Acc} {ls : List Loc} {p : Nat × Acc × Loc} (h : p ∈ partsOf accs ls) : p.2.2 ∈ ls :=
  (List.of_mem_zip (List.of_mem_zip (a := p.1) (b := p.2) h).2).2

theorem peerParts_eq_nil {accs : List Acc} {ls : List Loc} (h : ∀ l ∈ ls, l.isPeer = false) : peerParts (partsOf accs ls) = [] := by
  simp only [peerParts, List.filter_eq_nil_iff, Bool.not_eq_true]
  exact fun p hp => h _ (mem_partsOf hp)

section
variable {s u : State}

theorem runsKept_readPeer {slot tag : Nat} {parts : List (Nat × Acc × Loc)} {vals : Table (List (BitVec 8))} {ids : List Nat}
    (h : s.readPeer slot tag parts = .got u vals ids) : RunsKept s u := by
  have hserve {w : State} {vals' : Table (List (BitVec 8))} {n : Nat} {v : PeerRead} {ids' : List Nat} (hv : ∀ x, v ≠ .got x vals ids)
      (hs : (if vals'.length = n then PeerRead.got w vals' ids' else v) = .got u vals ids) : u = w := by
    split at hs
    · cases hs
      rfl
    · exact absurd hs (hv u)
  unfold State.readPeer at h
  dsimp only at h
  split at h
  · cases h
    exact .refl s
  · split at h
    · rw [hserve (by simp) h]
      exact .of_eq rfl rfl
    · split at h
      · cases h
      · cases h
      · rw [hserve (by simp) h]
        exact .of_eq rfl rfl

/-- Reading a load's accesses to peers changes no run. -/
theorem runsKept_peerValues {fr : Issue} {parts : List (Nat × Acc × Loc)} {x : State × Table (List (BitVec 8))}
    (h : s.peerValues fr parts = .ok x) : RunsKept s x.1 := by
  unfold State.peerValues at h
  dsimp only at h
  split at h
  · cases h
    exact .refl s
  · split at h
    · cases h
    · cases h
    · next hgot =>
      split at h <;> cases h
      exact (runsKept_readPeer hgot).trans (runsKept_modify _ _ _)

end

/-! ## LD and LDM (R163, R164) -/

section
variable (fr : Issue) (d a : RegField) (words n size : Nat) (moves : List Nat)

/-- The tangents that a load moves: those of a float TYPE into V registers (R161; DEDUCED: log 64). -/
def Issue.loadMoves (floats : Bool) : List Nat := if floats = true ∧ isS d = false then fr.tans else []

/-- The lanes that a load reads for: one for an S destination (R163). -/
def Issue.loadLanes : List Nat := if isS d then [lowest fr.site.set] else fr.act

/-- The accesses of a load (R161, R164). -/
def Issue.loadAccs (s : State) : List Acc := (fr.loadLanes d).flatMap fun l =>
  laneAccs l (fr.ea l a fr.mods.offset) size n (s.gridOf fr.g.team).tstride moves (fun _ _ => []) fun _ _ => []

/-- Where the pieces that a load reads go, with the tangents that are written +0 (R21, R164). -/
def Issue.loadDests : List Dest := (fr.loadLanes d).flatMap fun l => (0 :: moves).flatMap fun j => (List.range n).map fun m =>
  let whole := fr.destOf l d (words * n) j (if j = 0 ∧ moves = [] then fr.tans else [])
  { whole with keys := (whole.keys.drop (m * words)).take words, zeros := if m = 0 then whole.zeros else [] }

end

/-- The body of LD and LDM for a TYPE, the number of its words, the pieces of a lane and their size. -/
def Issue.loadBody (fr : Issue) (s : State) (d a : RegField) (ty words n size : Nat) (floats : Bool) : Except Stop (State × BitVec 64) := do
  let moves := fr.loadMoves d floats
  let accs := fr.loadAccs d a n size moves s
  s.afterAcquires fr
  fr.strideOk s moves
  let ls ← s.locate fr .load .groupLoad accs
  let x ← s.peerValues fr (partsOf accs ls)
  if accs.isEmpty && fr.mods.flavour.1 == 0 then .ok (x.1, 0)
  else .ok (fr.enterLoad x.1 ty (accs.zip (fr.loadDests d words n moves)) ls x.2 0 false, 0)

/-- LD's form (R163). -/
abbrev ldForm (d a : RegField) (h : BitVec 2) (ty : BitVec 4) : Form :=
  { cls := .memory, acc := accMem (ty != 6) 1, dst := some { f := d, width := typeWords ty.toNat }, srcs := [baseOpnd a],
    bad := fun _ => badBase a || decide (9 < ty.toNat) || h.toNat == 3 }

/-- LDM's form (R164). -/
abbrev ldmForm (d a : RegField) (h : BitVec 2) (c : BitVec 3) : Form :=
  { cls := .memory, acc := accMem false 1, dst := some { f := d, count := c.toNat + 1 }, srcs := [baseOpnd a],
    bad := fun _ => badBase a || h == 3 || badRun d (c.toNat + 1), pre := fun i => i.runOk d (c.toNat + 1) true }

theorem Issue.loadMoves_eq (fr : Issue) (d : RegField) (floats : Bool) : fr.loadMoves d floats = if floats && !isS d then fr.tans else [] := by
  simp [Issue.loadMoves]

/-- The model tests for no tangents by `isEmpty`. -/
theorem Issue.loadDests_eq (fr : Issue) (d : RegField) (words n : Nat) (moves : List Nat) : fr.loadDests d words n moves =
    (if isS d then [lowest fr.site.set] else fr.act).flatMap fun l => (0 :: moves).flatMap fun j => (List.range n).map fun m =>
      let whole := fr.destOf l d (words * n) j (if j = 0 && moves.isEmpty then fr.tans else [])
      { whole with keys := (whole.keys.drop (m * words)).take words, zeros := if m = 0 then whole.zeros else [] } := by
  simp [Issue.loadDests, Issue.loadLanes]

theorem exec_ld (d a : RegField) (h : BitVec 2) (ty : BitVec 4) (t : Tail) (s : State) :
    exec (.ld d a h ty t) s = issue (ldForm d a h ty) t s fun fr s =>
      fr.loadBody s d a ty.toNat (typeWords ty.toNat) 1 (typeSize ty.toNat) (typeFloat ty.toNat) := by
  simp only [Issue.loadBody, Issue.loadMoves_eq, Issue.loadDests_eq]
  rfl

theorem exec_ldm (d a : RegField) (h : BitVec 2) (fl : BitVec 1) (c : BitVec 3) (t : Tail) (s : State) :
    exec (.ldm d a h fl c t) s = issue (ldmForm d a h c) t s fun fr s =>
      fr.loadBody s d a (if fl = 1 then 7 else 4) 1 (c.toNat + 1) 4 (decide (fl = 1)) := by
  simp only [Issue.loadBody, Issue.loadMoves_eq, Issue.loadDests_eq, Nat.mul_one, Nat.one_mul]
  rfl

/-- A load whose accesses are located, and have their values where they go to a peer, is entered. -/
theorem Issue.loadBody_eq {fr : Issue} {s : State} {d a : RegField} {ty words n size : Nat} {floats : Bool} {ls : List Loc}
    {x : State × Table (List (BitVec 8))} (hclear : fr.clear) (hstride : fr.loadMoves d floats = [] ∨ (s.gridOf fr.g.team).tstride ≠ 0)
    (hreach : List.Forall₂ (Reaches s fr .load .groupLoad) (fr.loadAccs d a n size (fr.loadMoves d floats) s) ls)
    (hpeer : s.peerValues fr (partsOf (fr.loadAccs d a n size (fr.loadMoves d floats) s) ls) = .ok x) :
    fr.loadBody s d a ty words n size floats =
      .ok (if fr.loadAccs d a n size (fr.loadMoves d floats) s = [] ∧ fr.mods.flavour.1 = 0 then x.1
        else fr.enterLoad x.1 ty ((fr.loadAccs d a n size (fr.loadMoves d floats) s).zip (fr.loadDests d words n (fr.loadMoves d floats))) ls x.2 0 false, 0) := by
  simp only [Issue.loadBody, hclear.afterAcquires, Issue.strideOk_of hstride, State.locate_of_reaches hreach, hpeer, ok_bind, Bool.and_eq_true,
    List.isEmpty_iff, beq_iff_eq, ite_ok]

/-- What peers answer, or nothing where no access goes to one. -/
theorem State.peerValues_of {s : State} {fr : Issue} {accs : List Acc} {ls : List Loc} {x : State × Table (List (BitVec 8))}
    (h : ((∀ l ∈ ls, l.isPeer = false) ∧ x = (s, [])) ∨ s.peerValues fr (partsOf accs ls) = .ok x) :
    s.peerValues fr (partsOf accs ls) = .ok x := by
  rcases h with ⟨hnone, rfl⟩ | h
  · simp [State.peerValues, peerParts_eq_nil hnone]
  · exact h

/-- Settles O28: both words have one body. -/
theorem loadsComplete : Obligations.LoadsComplete := by
  intro d a h ty fl c t enters
  have henters {i : Instr} {f : Form} {ty words n size : Nat} {floats : Bool} {more : Issue → Prop}
      (he : ∀ s, exec i s = issue f t s fun fr s => fr.loadBody s d a ty words n size floats) : enters i f ty words n size floats more := by
    refine .of_kept he ?_ ?_
    · rintro x fr s ⟨-, hclear, hstride, hreach, hpeer⟩
      exact Issue.loadBody_eq hclear hstride hreach (State.peerValues_of hpeer)
    · rintro x fr s ⟨-, -, -, -, hpeer⟩
      have hx := runsKept_peerValues (State.peerValues_of hpeer)
      refine .ite hx (hx.trans (.became ?_ _ _))
      exact .of_eq rfl rfl
  exact ⟨henters (exec_ld d a h ty t), henters (exec_ldm d a h fl c t)⟩

end Sys2Proof.Machine

namespace Sys2Proof.Machine
open Sys2Proof

/-! ## ST and STM (R163, R164) -/

/-- The accesses of a store with their bytes (R161, R164). -/
def Issue.storeAccs (fr : Issue) (s : State) (d a : RegField) (words n size : Nat) (moves : List Nat) : List Acc := fr.act.flatMap fun l =>
  laneAccs l (fr.ea l a fr.mods.offset) size n (s.gridOf fr.g.team).tstride moves
    (fun j m => ((bytesOf (fr.wordsAt l d words j)).drop (m * size)).take size) fun _ _ => []

/-- The state with a store entered in the FIFO of its group (R142). -/
def Issue.storeEntered (fr : Issue) (s : State) (accs : List Acc) : State :=
  fr.became s fun g => { g with seq := g.seq + 1, fifo := g.fifo ++
    [{ seq := fr.g.seq, pc := fr.site.pc, gen := (s.core (slotCore fr.site.slot)).slotGen.get (slotIn fr.site.slot), kind := .store,
       accs := accs, locs := [], flav := fr.mods.flavour.1, scope := fr.mods.flavour.2, load := none, parked := none }] }

/-- The model enters it and then counts it. -/
theorem Issue.storeEntered_eq (fr : Issue) (s : State) (accs : List Acc) :
    (fr.change (fr.enterFifo s .store accs [] none fr.g.seq) fun g => { g with seq := g.seq + 1 }) = fr.storeEntered s accs := by
  simp only [Issue.change, Issue.enterFifo, Issue.storeEntered, Issue.became, Table.modify_modify]
  rfl

/-- A store whose accesses meet no fault enters the FIFO if that has room. -/
theorem storeBody_eq {fr : Issue} {s : State} {d a : RegField} {words n size : Nat} {floats : Bool} {accs : List Acc}
    (haccs : accs = fr.storeAccs s d a words n size (if floats then fr.tans else [])) (hclear : fr.clear)
    (hstride : (if floats then fr.tans else []) = [] ∨ (s.gridOf fr.g.team).tstride ≠ 0)
    (hplace : ∀ x ∈ accs, x.ea.toNat % x.size = 0 ∧
      (isWindow x.ea.toNat = true → ∃ l, s.windowLoc fr.g.team .groupStore x.ea.toNat x.size = .ok l))
    (hroom : fr.g.fifo.length < 16) :
    storeBody fr s d a size n words floats = .ok (if accs = [] ∧ fr.mods.flavour.1 = 0 then s else fr.storeEntered s accs, 0) := by
  have halign : alignOk accs = .ok () := alignOk_of fun x hx => (hplace x hx).1
  have hwindow : s.windowOk fr.g.team .groupStore accs = .ok () := State.windowOk_of fun x hx => (hplace x hx).2
  subst haccs
  unfold Issue.storeAccs at *
  simp only [storeBody, hclear.afterAcquires, Issue.strideOk_of hstride, halign, hwindow, State.fifoRoom_of hroom, ok_bind, Bool.and_eq_true,
    List.isEmpty_iff, beq_iff_eq, Issue.storeEntered_eq, ite_ok]

/-- Settles O29: both words have one body. -/
theorem storesComplete : Obligations.StoresComplete := by
  intro d a h ty fl c t enters
  have henters {i : Instr} {f : Form} {words n size : Nat} {floats : Bool} {more : Issue → Prop}
      (he : ∀ s, exec i s = issue f t s fun fr s => storeBody fr s d a size n words floats) : enters i f words n size floats more := by
    refine .of_kept he ?_ fun _ fr s _ => .ite (.refl s) (.became (.refl s) _ _)
    rintro - fr s ⟨-, hclear, hstride, hplace, hroom⟩
    exact storeBody_eq rfl hclear hstride hplace hroom
  exact ⟨henters fun _ => rfl, henters fun _ => rfl⟩

end Sys2Proof.Machine

namespace Sys2Proof.Machine
open Sys2Proof

/-! ## ATOM, CAS and CAS128 (R165 to R168) -/

/-- No access is refused where none of the locations is. -/
theorem partsOf_find_eq_none {accs : List Acc} {ls : List Loc} {f : Loc → Bool} (h : ∀ l ∈ ls, f l = false) :
    (partsOf accs ls).find? (fun p => f p.2.2) = none := by
  simp only [List.find?_eq_none, Bool.not_eq_true]
  exact fun p hp => h _ (mem_partsOf hp)

/-- Every access goes to a peer. -/
theorem peerParts_all_iff {accs : List Acc} {ls : List Loc} (h : accs.length = ls.length) :
    ((peerParts (partsOf accs ls)).length = (partsOf accs ls).length && !(partsOf accs ls).isEmpty) = true ↔
      accs ≠ [] ∧ ∀ l ∈ ls, l.isPeer = true := by
  have hempty : partsOf accs ls = [] ↔ accs = [] := by
    rw [← List.length_eq_zero_iff, ← List.length_eq_zero_iff]
    simp [partsOf, h]
  have hall : (∀ p ∈ partsOf accs ls, p.2.2.isPeer = true) ↔ ∀ l ∈ ls, l.isPeer = true := by
    rw [← List.forall_mem_map (f := fun p : Nat × Acc × Loc => p.2.2) (P := fun l => l.isPeer = true), partsOf_locs h]
  rw [Bool.and_eq_true, decide_eq_true_eq, peerParts, List.length_filter_eq_length_iff, hall, and_comm, Bool.not_eq_true', Bool.eq_false_iff, Ne,
    List.isEmpty_iff, hempty]

/-- A read-modify-write's question to a peer changes no run. -/
theorem runsKept_askPeer {s : State} {fr : Issue} {parts : List (Nat × Acc × Loc)} {x : State × Table (List (BitVec 8))}
    (h : s.askPeer fr parts = .ok x) : RunsKept s x.1 := by
  unfold State.askPeer at h
  split at h
  · cases h
    exact .refl s
  · split at h
    · cases h
    · split at h <;> cases h
      exact .of_eq rfl rfl

theorem runsKept_peerTouched (s : State) (core : Nat) (k : FifoKind) (parts : List (Nat × Acc × Loc)) (olds : Table (List (BitVec 8))) :
    RunsKept s (s.peerTouched core k parts olds) := by
  refine .foldl (fun s p => ?_) _ _
  split
  · exact .refl s
  · exact .of_eq rfl rfl

section
variable (fr : Issue) (u : State) (k : FifoKind) (ty pp : Nat) (accs : List Acc) (dests : List Dest) (ls : List Loc) (got : Table (List (BitVec 8)))

/-- The state with a read-modify-write entered in the FIFO, unless it goes to peers only, and among the loads (R142, R165, R417). -/
def Issue.rmwEntered : State :=
  let gen := (u.core (slotCore fr.site.slot)).slotGen.get (slotIn fr.site.slot)
  fr.became { u with nextId := u.nextId + 1 } fun g => { g with
    seq := g.seq + 1,
    fifo := if accs ≠ [] ∧ (∀ l ∈ ls, l.isPeer = true) then g.fifo else g.fifo ++
      [{ seq := fr.g.seq, pc := fr.site.pc, gen := gen, kind := k, accs := accs, locs := ls, flav := fr.mods.flavour.1,
         scope := fr.mods.flavour.2, load := some u.nextId, parked := none }],
    loads := g.loads ++ [{ id := u.nextId, seq := g.seq, gen := gen, pc := fr.site.pc, ty := ty, accs := accs.zip dests,
                           flav := fr.mods.flavour.1, scope := fr.mods.flavour.2, pp := pp, locs := ls, got := got, deferred := true,
                           ord := ls.any fun l => attrOrd l.attr }] }

/-- The model enters the one, then the other. -/
theorem Issue.rmwEntered_eq (h : accs.length = ls.length) :
    fr.enterLoad (if (peerParts (partsOf accs ls)).length = (partsOf accs ls).length && !(partsOf accs ls).isEmpty then u
      else fr.enterFifo u k accs ls (some u.nextId) fr.g.seq) ty (accs.zip dests) ls got pp true = fr.rmwEntered u k ty pp accs dests ls got := by
  simp only [Issue.rmwEntered, peerParts_all_iff h]
  split
  · rfl
  · simp only [Issue.enterLoad, Issue.enterFifo, Issue.change, Issue.became, Table.modify_modify]
    rfl

end

/-- A read-modify-write whose accesses are located where it is available, and have their answers where they go to a peer, is entered. -/
theorem rmwBody_eq {fr : Issue} {s : State} {k : FifoKind} {ty pp : Nat} {hostOk : Bool} {accs : List Acc} {dests : List Dest} {ls : List Loc}
    {x : State × Table (List (BitVec 8))} (hclear : fr.clear) (hreach : List.Forall₂ (Reaches s fr .rmw .groupStore) accs ls)
    (hplace : ∀ l ∈ ls, attrHostCache l.attr = false ∧ atomRefused hostOk l = false) (hroom : fr.g.fifo.length < 16)
    (hpeer : if peerParts (partsOf accs ls) = [] then x = (s, [])
      else s.beforePeer fr = .ok () ∧ s.askPeer fr (peerParts (partsOf accs ls)) = .ok x) :
    rmwBody fr s k ty false hostOk pp accs dests =
      .ok (if accs = [] ∧ fr.mods.flavour.1 = 0 then x.1.peerTouched (slotCore fr.site.slot) k (peerParts (partsOf accs ls)) x.2
        else fr.rmwEntered (x.1.peerTouched (slotCore fr.site.slot) k (peerParts (partsOf accs ls)) x.2) k ty pp accs dests ls x.2, 0) := by
  have hbefore : (!(peerParts (partsOf accs ls)).isEmpty) = true → s.beforePeer fr = .ok () := fun hne => by
    rw [if_neg (by simpa using hne)] at hpeer
    exact hpeer.1
  have hask : s.askPeer fr (peerParts (partsOf accs ls)) = .ok x := by
    split at hpeer
    · next hnone => rw [hnone, hpeer, State.askPeer]
    · exact hpeer.2
  have hcache := partsOf_find_eq_none (accs := accs) fun l hl => (hplace l hl).1
  have htype := partsOf_find_eq_none (accs := accs) (f := fun l => false || atomRefused hostOk l) fun l hl => (hplace l hl).2
  simp only [rmwBody, hclear.afterAcquires, State.locate_of_reaches hreach, hcache, htype, State.fifoRoom_of hroom, ok_bind]
  rw [ite_check _ _ hbefore, hask, ok_bind, Issue.rmwEntered_eq _ _ _ _ _ _ _ _ _ hreach.length_eq]
  simp only [Bool.and_eq_true, List.isEmpty_iff, beq_iff_eq, ite_ok]

/-- ATOM's form (R165). -/
abbrev atomForm (d a b : RegField) (op ty : Nat) : Form :=
  { cls := .memory, acc := accAtomic true false, dst := some { f := d, width := if ty = 2 then 2 else 1 },
    srcs := [baseOpnd a, { f := b, width := if ty = 2 then 2 else 1 }], bad := fun _ => badBase a || decide (5 < ty) || decide (11 < op) }

section
variable (d a b : RegField) (off : Int) (op ty : Nat) (fr : Issue) (s : State)

/-- The accesses of ATOM with their operand bytes (R161, R165). -/
def Issue.atomAccs (moves : List Nat) : List Acc := fr.act.flatMap fun l =>
  laneAccs l (fr.ea l a off) (atomSize ty) 1 (s.gridOf fr.g.team).tstride moves
    (fun j _ => (bytesOf (fr.wordsAt l b (if ty = 2 then 2 else 1) j)).take (atomSize ty)) fun _ _ => []

/-- Where ATOM's old values go. -/
def Issue.atomDests (moves : List Nat) : List Dest := fr.act.flatMap fun l => (0 :: moves).map fun j =>
  fr.destOf l d (if ty = 2 then 2 else 1) j (if j = 0 && moves.isEmpty then fr.tans else [])

/-- The body of ATOM for an OP and a TYPE (R165). -/
def atomBody : Except Stop (State × BitVec 64) := do
  require (!(!fr.tans.isEmpty && (op == 10 || op == 11) && atomValid op ty)) .tangentUnsupported
  let moves := if op = 9 && atomValid op ty then fr.tans else []
  fr.strideOk s moves
  rmwBody fr s (.atom op ty) (atomLoadType ty) (!atomValid op ty) ((op == 0 || op == 6) && decide (ty < 3)) 0
    (fr.atomAccs a b off ty s moves) (fr.atomDests d ty moves)

theorem exec_atom (t : Tail) : exec (.atom d a b t) s =
    issue (atomForm d a b ((Tail.modifiers t).extField 24 4) ((Tail.modifiers t).extField 20 4)) t s
      (atomBody d a b (Tail.modifiers t).offset20 ((Tail.modifiers t).extField 24 4) ((Tail.modifiers t).extField 20 4)) := rfl

variable {op ty fr s}

/-- A valid ATOM that need not compare tangents, nor move them without TSTRIDE, is issued as every read-modify-write. -/
theorem atomBody_eq (hv : atomValid op ty = true) (ht : fr.tans = [] ∨ (op ≠ 10 ∧ op ≠ 11))
    (hs : (if op = 9 then fr.tans else []) = [] ∨ (s.gridOf fr.g.team).tstride ≠ 0) :
    atomBody d a b off op ty fr s = rmwBody fr s (.atom op ty) (atomLoadType ty) false ((op == 0 || op == 6) && decide (ty < 3)) 0
      (fr.atomAccs a b off ty s (if op = 9 then fr.tans else [])) (fr.atomDests d ty (if op = 9 then fr.tans else [])) := by
  have hreq : require (!(!fr.tans.isEmpty && (op == 10 || op == 11))) .tangentUnsupported = .ok () := by
    rcases ht with ht | ⟨h10, h11⟩
    · simp [ht, require]
    · simp [h10, h11, require]
  simp only [atomBody, hv, hreq, ok_bind, Bool.and_true, decide_eq_true_eq, Issue.strideOk_of hs, Bool.not_true]

end

/-- Settles O30: each word by the body that all three share. -/
theorem atomicsComplete : Obligations.AtomicsComplete := by
  intro d a b t m off enters
  have henters {i : Instr} {f : Form} {k : FifoKind} {ty pp : Nat} {hostOk : Bool} {more : Issue → State → Prop} {accs : Issue → State → List Acc}
      {dests : Issue → List Dest} {body : Issue → State → Except Stop (State × BitVec 64)} (he : ∀ s, exec i s = issue f t s body)
      (hb : ∀ fr s, more fr s → body fr s = rmwBody fr s k ty false hostOk pp (accs fr s) (dests fr)) :
      enters i f k ty hostOk pp more accs dests := by
    refine .of_kept he ?_ ?_
    · rintro x fr s ⟨hmore, hclear, hreach, hplace, hroom, hpeer⟩
      exact (hb fr s hmore).trans (rmwBody_eq hclear hreach hplace hroom hpeer)
    · rintro x fr s ⟨-, -, -, -, -, hpeer⟩
      have hx : RunsKept s x.2.1 := by
        split at hpeer
        · rw [hpeer]
          exact .refl s
        · exact runsKept_askPeer hpeer.2
      have ht := hx.trans (runsKept_peerTouched x.2.1 (slotCore fr.site.slot) k (peerParts (partsOf (accs fr s) x.1)) x.2.2)
      refine .ite ht (ht.trans (.became ?_ _ _))
      exact .of_eq rfl rfl
  refine ⟨?_, ?_⟩
  · rintro op ty hop hty hv w moves
    have hm (fr : Issue) : fr.atomDests d ty (moves fr) = fr.act.flatMap fun l => (0 :: moves fr).map fun j =>
        fr.destOf l d w j (if j = 0 ∧ moves fr = [] then fr.tans else []) := by
      simp only [Issue.atomDests, Bool.and_eq_true, decide_eq_true_eq, List.isEmpty_iff, w]
    simp only [← hm]
    refine henters (f := atomForm d a b op ty) (fun s => ?_) fun fr s h => atomBody_eq d a b off hv h.1 h.2
    rw [hop, hty]
    exact exec_atom d a b s t
  · intro cas ty
    refine ⟨fun hty => henters (fun s => ?_) fun _ _ _ => rfl, henters (fun s => rfl) fun _ _ _ => rfl⟩
    have h2 : decide (2 < ty) = false := decide_eq_false (Nat.not_lt.2 hty)
    show casInstr d a b true (atomLoadType ty) (atomSize ty) (if ty = 2 then 2 else 1) (decide (2 < ty)) (decide (5 < ty)) t s = _
    rw [h2]
    rfl

end Sys2Proof.Machine

namespace Sys2Proof.Machine
open Sys2Proof

/-! ## BUFDCL, BUFSET and BUFQ (R173 to R175) -/

section
variable {s : State} {fr : Issue} {n : Nat}

theorem State.bufGranted_of (h : n < (s.gridOf fr.g.team).bufn) : s.bufGranted fr n = .ok () := if_pos h

theorem State.bufGranted_of_not (h : ¬ n < (s.gridOf fr.g.team).bufn) : s.bufGranted fr n = trapE .bufBounds := if_neg h

theorem runsKept_setBuf (b : Option Buffer) : RunsKept s (fr.setBuf s n b) := runsKept_setTeam s _ _

/-- An engine uses the buffer of a number. -/
theorem any_busy_iff {bufs : Table Buffer} : (bufs.find n).any Buffer.busy = true ↔
    ∃ b, bufs.find n = some b ∧ (b.state = .filling ∨ b.state = .draining) := by
  simp [Option.any_eq_true, Buffer.busy]

end

/-- A word that executes once writes its destination, and no run. -/
theorem runsKept_writeOnce (s : State) (fr : Issue) (d : RegField) (ws : List Word) : RunsKept s (fr.writeOnce s d ws) :=
  runsKept_commit s fr none _

/-- BUFDCL's form (R173). -/
abbrev bufdclForm (a : RegField) : Form := { cls := .memory, srcs := [baseOpnd a], bad := fun _ => !isS a }

section
variable (fr : Issue) (s : State) (n : Nat) (a : RegField)

/-- BASE of a declaration (R173). -/
def Issue.bufBase : Nat := ((fr.read 0 (baseOpnd a) 0).headD 0).toNat % 2 ^ 32

/-- SIZE of a declaration (R173). -/
def Issue.bufSize : Nat := ((fr.read 0 (baseOpnd a) 0).headD 0).toNat / 2 ^ 32

/-- A declaration overlaps no other buffer, as an empty range never does (R173). -/
def Issue.bufApart : Bool :=
  fr.bufSize a = 0 || (s.team fr.g.team).bufs.all fun x => x.1 == n || decide (x.2.base + x.2.size ≤ fr.bufBase a) ||
    decide (fr.bufBase a + fr.bufSize a ≤ x.2.base)

theorem Issue.bufApart_iff : fr.bufApart s n a = true ↔ (fr.bufSize a = 0 ∨ ∀ x ∈ (s.team fr.g.team).bufs, x.1 = n ∨
    x.2.base + x.2.size ≤ fr.bufBase a ∨ fr.bufBase a + fr.bufSize a ≤ x.2.base) := by
  simp only [Issue.bufApart, Bool.or_eq_true, decide_eq_true_eq, List.all_eq_true, beq_iff_eq, or_assoc]

/-- BUFDCL's body (R173). -/
def bufdclBody : Except Stop (State × BitVec 64) := do
  s.afterAcquires fr
  require (decide (fr.bufBase a + fr.bufSize a ≤ (s.gridOf fr.g.team).sramsz)) .sramRange
  s.bufGranted fr n
  require (decide (fr.bufBase a % 256 = 0 ∧ fr.bufSize a % 256 = 0)) .bufBounds
  require (fr.bufApart s n a) .bufBounds
  require (!((s.team fr.g.team).bufs.find n).any Buffer.busy) .bufState
  .ok (fr.setBuf s n (if fr.bufSize a = 0 then none else some ⟨fr.bufBase a, fr.bufSize a, .empty, 0, fr.bufBase a⟩), 0)

end

theorem exec_bufdcl (n : BitVec 6) (a : RegField) (t : Tail) (s : State) :
    exec (.bufdcl n a t) s = issue (bufdclForm a) t s fun fr s => bufdclBody fr s n.toNat a := rfl

/-- BUFSET's body (R174). -/
def bufsetBody (n : Nat) (e : BitVec 2) (fr : Issue) (s : State) : Except Stop (State × BitVec 64) := do
  s.afterAcquires fr
  s.bufGranted fr n
  match (s.team fr.g.team).bufs.find n with
  | none => trapE .bufBounds
  | some b => if b.busy then trapE .bufState else .ok (fr.setBuf s n (some { b with state := if e = 0 then .empty else .full }), 0)

theorem exec_bufset (n : BitVec 6) (e : BitVec 2) (t : Tail) (s : State) :
    exec (.bufset n e t) s = issue { cls := .memory, bad := fun _ => e == 1 || e == 3 } t s (bufsetBody n.toNat e) := rfl

/-- BUFQ's body (R175). -/
def bufqBody (d a : RegField) (fr : Issue) (s : State) : Except Stop (State × BitVec 64) := do
  s.afterAcquires fr
  s.bufGranted fr a.toNat
  .ok (fr.writeOnce s d (bufWords ((s.team fr.g.team).bufs.find a.toNat)), 0)

theorem exec_bufq (d a : RegField) (t : Tail) (s : State) : exec (.bufq d a t) s =
    issue { cls := .memory, dst := some { f := d, width := 2 }, rule := .anyS, bad := fun _ => a.getLsbD 6 } t s (bufqBody d a) := rfl

@[simp] theorem bufWords_length (b : Option Buffer) : (bufWords b).length = 2 := by cases b <;> rfl

section
variable {fr : Issue} {s : State} {n : Nat} {a : RegField}

/-- A declaration inside the allocation and the grant, in its place and not in use, is made (R173). -/
theorem bufdclBody_declares (hc : fr.clear) (hi : fr.bufBase a + fr.bufSize a ≤ (s.gridOf fr.g.team).sramsz)
    (hg : n < (s.gridOf fr.g.team).bufn) (he : fr.bufBase a % 256 = 0 ∧ fr.bufSize a % 256 = 0) (ha : fr.bufApart s n a = true)
    (hb : ((s.team fr.g.team).bufs.find n).any Buffer.busy = false) :
    bufdclBody fr s n a =
      .ok (fr.setBuf s n (if fr.bufSize a = 0 then none else some ⟨fr.bufBase a, fr.bufSize a, .empty, 0, fr.bufBase a⟩), 0) := by
  simp only [bufdclBody, hc.afterAcquires, decide_eq_true hi, State.bufGranted_of hg, decide_eq_true he, ha, hb, Bool.not_false, require_true, ok_bind]

/-- One beyond the allocation traps SRAM_RANGE (R173). -/
theorem bufdclBody_outside (hc : fr.clear) (hi : ¬ fr.bufBase a + fr.bufSize a ≤ (s.gridOf fr.g.team).sramsz) :
    bufdclBody fr s n a = trapE .sramRange := by
  simp only [bufdclBody, hc.afterAcquires, decide_eq_false hi, require_false, ok_bind]
  rfl

/-- One that is inside it, but beyond the grant or out of place, traps BUF_BOUNDS (R173). -/
theorem bufdclBody_misplaced (hc : fr.clear) (hi : fr.bufBase a + fr.bufSize a ≤ (s.gridOf fr.g.team).sramsz)
    (h : ¬ n < (s.gridOf fr.g.team).bufn ∨ ¬ (fr.bufBase a % 256 = 0 ∧ fr.bufSize a % 256 = 0) ∨ fr.bufApart s n a = false) :
    bufdclBody fr s n a = trapE .bufBounds := by
  simp only [bufdclBody, hc.afterAcquires, decide_eq_true hi, require_true, ok_bind]
  by_cases hg : n < (s.gridOf fr.g.team).bufn
  · rw [State.bufGranted_of hg, ok_bind]
    by_cases he : fr.bufBase a % 256 = 0 ∧ fr.bufSize a % 256 = 0
    · rw [decide_eq_true he, require_true, ok_bind, (h.resolve_left (· hg)).resolve_left (· he)]
      rfl
    · rw [decide_eq_false he]
      rfl
  · rw [State.bufGranted_of_not hg]
    rfl

/-- One of a buffer in use traps BUF_STATE (R173). -/
theorem bufdclBody_in_use (hc : fr.clear) (hi : fr.bufBase a + fr.bufSize a ≤ (s.gridOf fr.g.team).sramsz)
    (hg : n < (s.gridOf fr.g.team).bufn) (he : fr.bufBase a % 256 = 0 ∧ fr.bufSize a % 256 = 0) (ha : fr.bufApart s n a = true)
    (hb : ((s.team fr.g.team).bufs.find n).any Buffer.busy = true) : bufdclBody fr s n a = trapE .bufState := by
  simp only [bufdclBody, hc.afterAcquires, decide_eq_true hi, State.bufGranted_of hg, decide_eq_true he, ha, hb, Bool.not_true, require_true, ok_bind]
  rfl

/-- BUFSET of a number in the grant that names no buffer traps BUF_BOUNDS (R174). -/
theorem bufsetBody_undeclared {e : BitVec 2} (hc : fr.clear) (hg : n < (s.gridOf fr.g.team).bufn) (hf : (s.team fr.g.team).bufs.find n = none) :
    bufsetBody n e fr s = trapE .bufBounds := by
  simp only [bufsetBody, hc.afterAcquires, State.bufGranted_of hg, ok_bind, hf]

/-- BUFSET of a declared buffer traps BUF_STATE where an engine uses it, else it is made EMPTY or FULL (R174). -/
theorem bufsetBody_declared {e : BitVec 2} {b : Buffer} (hc : fr.clear) (hg : n < (s.gridOf fr.g.team).bufn)
    (hf : (s.team fr.g.team).bufs.find n = some b) : bufsetBody n e fr s =
      if b.busy then trapE .bufState else .ok (fr.setBuf s n (some { b with state := if e = 0 then .empty else .full }), 0) := by
  simp only [bufsetBody, hc.afterAcquires, State.bufGranted_of hg, ok_bind, hf]

end

/-- What BUFQ writes of a buffer, by its state (R175). -/
theorem bufWords_some (b : Buffer) : bufWords (some b) =
    [BitVec.ofNat 32 (b.state.code + (if b.state = .filling ∨ b.state = .draining then 4 * b.ch else 0) + 64),
     BitVec.ofNat 32 (if b.state = .filling then b.wp else b.base)] := by
  simp only [bufWords, Buffer.busy, Bool.or_eq_true, beq_iff_eq]

/-- Settles O32: each word by its body, check by check. -/
theorem bufferInstructionsComplete : Obligations.BufferInstructionsComplete := by
  intro n e a d t granted bufs setTo inUse fd base size even inside apart fs fq
  have hapart (fr : Issue) (s : State) : apart fr s ↔ fr.bufApart s n.toNat a = true := (fr.bufApart_iff s n.toNat a).symm
  have hbusy (fr : Issue) (s : State) : inUse fr s ↔ ((bufs fr s).find n.toNat).any Buffer.busy = true := any_busy_iff.symm
  refine ⟨?_, ?_, ?_, ?_, ?_, ?_, ?_, ?_, ?_⟩
  · refine .of_kept (exec_bufdcl n a t) ?_ fun _ fr s _ => runsKept_setTeam s _ _
    rintro - fr s ⟨hc, hi, hg, he, ha, hb⟩
    exact (bufdclBody_declares hc hi hg he ((hapart fr s).1 ha) (Bool.eq_false_iff.2 fun h => hb ((hbusy fr s).2 h))).trans rfl
  · refine .of _ (exec_bufdcl n a t) ?_
    rintro fr s ⟨hc, hi, h⟩
    exact bufdclBody_misplaced hc hi (h.imp_right (Or.imp_right fun ha => Bool.eq_false_iff.2 fun h => ha ((hapart fr s).2 h)))
  · exact .of _ (exec_bufdcl n a t) fun fr s ⟨hc, hi⟩ => bufdclBody_outside hc hi
  · refine .of _ (exec_bufdcl n a t) ?_
    rintro fr s ⟨hc, hi, hg, he, ha, hb⟩
    exact bufdclBody_in_use hc hi hg he ((hapart fr s).1 ha) ((hbusy fr s).1 hb)
  · refine .of_kept (exec_bufset n e t) ?_ fun _ fr s _ => runsKept_setTeam s _ _
    rintro b fr s ⟨hc, hg, hf, hb⟩
    have hidle : ¬ b.busy = true := fun h => hb ((hbusy fr s).2 (by rw [hf]; exact h))
    exact (bufsetBody_declared hc hg hf).trans (if_neg hidle)
  · refine .of _ (exec_bufset n e t) ?_
    rintro fr s ⟨hc, h⟩
    by_cases hg : granted fr s n.toNat
    · exact bufsetBody_undeclared hc hg (h.resolve_left (· hg))
    · simp only [bufsetBody, hc.afterAcquires, State.bufGranted_of_not hg, ok_bind]
      rfl
  · refine .of _ (exec_bufset n e t) ?_
    rintro fr s ⟨hc, hg, b, hf, hb⟩
    exact (bufsetBody_declared hc hg hf).trans (if_pos (by simpa [Buffer.busy] using hb))
  · refine .of_kept (exec_bufq d a t) ?_ fun _ fr s _ => runsKept_commit s fr none _
    rintro - fr s ⟨hc, hg⟩
    simp only [bufqBody, hc.afterAcquires, State.bufGranted_of hg, ok_bind, Issue.writeOnce, bufWords_length]
    cases hf : (s.team fr.g.team).bufs.find a.toNat with
    | none => rfl
    | some b =>
      rw [bufWords_some]
      rfl
  · refine .of _ (exec_bufq d a t) ?_
    rintro fr s ⟨hc, hg⟩
    simp only [bufqBody, hc.afterAcquires, State.bufGranted_of_not hg, ok_bind]
    rfl

end Sys2Proof.Machine

namespace Sys2Proof.Machine
open Sys2Proof

/-! ## FENCE (R171) -/

/-- FENCE's body. -/
def fenceBody (fr : Issue) (s : State) : Except Stop (State × BitVec 64) := do
  s.afterAcquires fr
  s.readsFixed fr
  if releases fr.mods.flavour.1 then s.writesDone fr fr.mods.flavour.2 (fr.mods.flavour.1 == 4) else .ok ()
  .ok (if acquires fr.mods.flavour.1 then s.discard (slotCore fr.site.slot) fr.mods.flavour.2 else s, 0)

theorem exec_fence (t : Tail) (s : State) :
    exec (.fence t) s = issue { cls := .memory, acc := { needOrder := true, flavs := [1, 2, 3, 4] } } t s fenceBody := rfl

/-- FENCE completes where what it orders is done. -/
theorem fenceBody_eq {fr : Issue} {s : State} (hl : fr.g.loads = [])
    (hw : releases fr.mods.flavour.1 = true → s.writesDone fr fr.mods.flavour.2 (fr.mods.flavour.1 == 4) = .ok ()) :
    fenceBody fr s = .ok (if acquires fr.mods.flavour.1 then s.discard (slotCore fr.site.slot) fr.mods.flavour.2 else s, 0) := by
  simp only [fenceBody, State.afterAcquires_of_nil hl, State.readsFixed_of_nil hl, ok_bind]
  exact ite_check _ _ hw

/-! ## PREF (R172) -/

/-- Nothing has changed but a core's copies of memory. -/
structure CopiesOnly (core : Nat) (s u : State) : Prop where
  outside : u = { s with cores := u.cores }
  core : ∀ c, u.core c = if c = core then { s.core c with l1 := (u.core c).l1, l1Bad := (u.core c).l1Bad } else s.core c

section
variable {core : Nat} {s u w : State}

theorem CopiesOnly.refl : CopiesOnly core s s := ⟨rfl, fun _ => by split <;> rfl⟩

theorem CopiesOnly.trans (h : CopiesOnly core s u) (h' : CopiesOnly core u w) : CopiesOnly core s w :=
  ⟨h'.outside.trans (by rw [h.outside]), fun c => by
    rw [h'.core c, h.core c]
    split <;> rfl⟩

theorem copiesOnly_fillL1 (l : Loc) (bs : List (BitVec 8)) : CopiesOnly core s (s.fillL1 core l bs) :=
  ⟨rfl, fun c => by
    unfold State.fillL1
    dsimp only
    rw [State.core_setCore]
    split
    · next h => rw [h]
    · rfl⟩

theorem CopiesOnly.runsKept (h : CopiesOnly core s u) : RunsKept s u :=
  ⟨fun c => by
    rw [h.core c]
    split <;> rfl, fun n => by rw [h.outside]⟩

/-- Translations do not depend on the copies. -/
theorem CopiesOnly.lookCore (h : CopiesOnly core s u) (g : Group) (k : Access) (ea : Nat) :
    u.lookCore core (u.owner g).1 (u.owner g).2 k ea = s.lookCore core (s.owner g).1 (s.owner g).2 k ea := by
  have hc := h.core core
  rw [if_pos rfl] at hc
  unfold State.lookCore
  rw [hc, h.outside]
  rfl

end

section
variable {s : State} {fr : Issue} {level ea : Nat}

/-- PREF of an address that may be read copies its line at .L1, and changes nothing else. -/
theorem State.prefetch_of_ok {l : Loc} {x : Xlation} (h : s.lookCore (slotCore fr.site.slot) (s.owner fr.g).1 (s.owner fr.g).2 .load ea = .ok l x) :
    ∃ u, s.prefetch fr level ea = .ok u ∧ CopiesOnly (slotCore fr.site.slot) s u ∧ (level ≠ 0 → u = s) := by
  unfold State.prefetch
  dsimp only
  rw [h]
  dsimp only
  split
  · next h0 =>
    have hlevel : ¬ level ≠ 0 := fun hne => by simp [hne] at h0
    split
    · exact ⟨s, rfl, .refl, fun _ => rfl⟩
    · exact ⟨_, rfl, copiesOnly_fillL1 _ _, fun hne => absurd hne hlevel⟩
  · exact ⟨s, rfl, .refl, fun _ => rfl⟩

/-- PREF of an address that faults changes dies and the pager at most. -/
theorem State.prefetch_of_fault {c : Cause} {p : Nat} (h : s.lookCore (slotCore fr.site.slot) (s.owner fr.g).1 (s.owner fr.g).2 .load ea = .fault c p) :
    ∃ u, s.prefetch fr level ea = .ok u ∧ u.groups = s.groups ∧ u.teams = s.teams ∧ u.mem = s.mem ∧ u.cores = s.cores := by
  have hask (b : Bool) (w : State) (vd ctx gpa : Nat) : (if b then w.askPager vd ctx gpa none else w).groups = w.groups ∧
      (if b then w.askPager vd ctx gpa none else w).teams = w.teams ∧ (if b then w.askPager vd ctx gpa none else w).mem = w.mem ∧
      (if b then w.askPager vd ctx gpa none else w).cores = w.cores := by
    unfold State.askPager
    dsimp only
    split
    · split <;> exact ⟨rfl, rfl, rfl, rfl⟩
    · exact ⟨rfl, rfl, rfl, rfl⟩
  unfold State.prefetch
  dsimp only
  rw [h]
  by_cases hc : c = .xlateNotPresent
  · subst hc
    exact ⟨_, rfl, hask _ (s.dropWalks (coreDie (slotCore fr.site.slot)) (s.owner fr.g).1 (s.owner fr.g).2 ea) _ _ _⟩
  · simp only
    exact ⟨_, rfl, rfl, rfl, rfl, rfl⟩

/-- What PREF does for one access: nothing for a window address. -/
def Issue.prefetchAcc (fr : Issue) (level : Nat) (s : State) (x : Acc) : Except Stop State :=
  if isWindow x.ea.toNat then .ok s else s.prefetch fr level x.ea.toNat

/-- PREF of addresses in the window, or that may be read. -/
theorem foldE_prefetchAcc_of_ok (accs : List Acc) (h : ∀ a ∈ accs, isWindow a.ea.toNat = true ∨
    ∃ l x, s.lookCore (slotCore fr.site.slot) (s.owner fr.g).1 (s.owner fr.g).2 .load a.ea.toNat = .ok l x) :
    ∃ u, foldE (fr.prefetchAcc level) s accs = .ok u ∧ CopiesOnly (slotCore fr.site.slot) s u ∧ (level ≠ 0 → u = s) := by
  induction accs generalizing s with
  | nil => exact ⟨s, rfl, .refl, fun _ => rfl⟩
  | cons a accs ih =>
    have hone : ∃ u, fr.prefetchAcc level s a = .ok u ∧ CopiesOnly (slotCore fr.site.slot) s u ∧ (level ≠ 0 → u = s) := by
      unfold Issue.prefetchAcc
      split
      · exact ⟨s, rfl, .refl, fun _ => rfl⟩
      · next hw =>
        obtain ⟨l, x, hx⟩ := (h a (List.mem_cons_self ..)).resolve_left hw
        exact State.prefetch_of_ok hx
    obtain ⟨u, hu, hcu, hsu⟩ := hone
    obtain ⟨w, hw, hcw, hsw⟩ := ih (s := u) fun b hb => by
      rw [hcu.lookCore]
      exact h b (List.mem_cons_of_mem _ hb)
    refine ⟨w, ?_, hcu.trans hcw, fun hne => (hsw hne).trans (hsu hne)⟩
    rw [foldE, hu]
    exact hw

end

/-- The addresses of PREF, one for each active lane. -/
def Issue.prefAccs (fr : Issue) (a : RegField) : List Acc := fr.act.map fun n => ⟨n, 0, fr.ea n a fr.mods.offset, 1, [], []⟩

/-- PREF's body (R172). -/
def prefBody (l : BitVec 2) (a : RegField) (fr : Issue) (s : State) : Except Stop (State × BitVec 64) := do
  s.afterAcquires fr
  s.windowOk fr.g.team .groupLoad (fr.prefAccs a)
  let u ← foldE (fr.prefetchAcc l.toNat) s (fr.prefAccs a)
  .ok (u, 0)

/-- PREF's form. -/
abbrev prefForm (l : BitVec 2) (a : RegField) : Form :=
  { cls := .memory, acc := { ext := true }, srcs := [baseOpnd a], bad := fun _ => badBase a || l == 3 }

theorem exec_pref (l : BitVec 2) (a : RegField) (t : Tail) (s : State) : exec (.pref l a t) s = issue (prefForm l a) t s (prefBody l a) := rfl

/-- PREF answers what its accesses come to, where those to the window lie inside it. -/
theorem prefBody_eq {l : BitVec 2} {a : RegField} {fr : Issue} {s u : State} (hc : fr.clear)
    (hw : ∀ n ∈ fr.act, isWindow (fr.ea n a fr.mods.offset).toNat = true →
      ∃ x, s.windowLoc fr.g.team .groupLoad (fr.ea n a fr.mods.offset).toNat 1 = .ok x)
    (hu : foldE (fr.prefetchAcc l.toNat) s (fr.prefAccs a) = .ok u) : prefBody l a fr s = .ok (u, 0) := by
  have hwindow : s.windowOk fr.g.team .groupLoad (fr.prefAccs a) = .ok () := State.windowOk_of <| by
    simpa [Issue.prefAccs] using hw
  simp only [prefBody, hc.afterAcquires, hwindow, hu, ok_bind]

/-- PREF where its accesses come to a state with the runs and slots as they were. -/
theorem Ready.prefetches {l : BitVec 2} {a : RegField} {t : Tail} {s : State} {core sc : Nat} {r : Run} {g : Group} {fr : Issue} {s₁ u : State}
    (h : Ready (prefForm l a) t s core sc r g fr s₁) (hb : prefBody l a fr s₁ = .ok (u, 0)) (hk : RunsKept s₁ u) :
    ∃ v, exec (.pref l a t) s = .next v ∧ OneGroup u v core fr.site.slot := by
  obtain ⟨hs, hf, -⟩ := h.slots
  exact ⟨_, (exec_pref l a t s).trans (issue_ready h _ _ _ hb), (h.does u 0 (hk.runs core) (by rw [hk.slots, hs, hf]; rfl)).1⟩

/-- Settles O31: FENCE by its body; PREF by what its accesses come to, one after another where all may be read, or the only one where it faults. -/
theorem fencesAndPrefetchComplete : Obligations.FencesAndPrefetchComplete := by
  intro l a t
  refine ⟨.of_kept (exec_fence t) ?_ fun _ fr s _ => .ite (runsKept_discard s _ _) (.refl s), ?_⟩
  · rintro - fr s ⟨hl, hr⟩
    exact fenceBody_eq hl fun h => State.writesDone_of_empty (hr h).1 (hr h).2.1 (hr h).2.2
  · intro f s core sc r g fr s₁ h hc seen ea hacc
    have hw : ∀ n ∈ fr.act, isWindow (ea n) = true → ∃ x, s₁.windowLoc fr.g.team .groupLoad (ea n) 1 = .ok x := fun n hn hn' => by
      have := hacc n hn
      rwa [if_pos hn'] at this
    by_cases hall : ∀ n ∈ fr.act, isWindow (ea n) = true ∨ ∃ x k, seen (ea n) = .ok x k
    · obtain ⟨u, hu, hcu, hsu⟩ := foldE_prefetchAcc_of_ok (level := l.toNat) (fr.prefAccs a) (s := s₁) (fr := fr) (by
        simpa [Issue.prefAccs] using hall)
      obtain ⟨v, hv, hone⟩ := h.prefetches (prefBody_eq hc hw hu) hcu.runsKept
      refine ⟨v, u, hv, hone, by rw [hcu.outside], by rw [hcu.outside], by rw [hcu.outside], fun _ => ⟨fun hl => hsu ?_, hcu.outside, hcu.core⟩⟩
      exact fun h0 => hl (BitVec.eq_of_toNat_eq h0)
    · obtain ⟨n, hn, hnw, hnok⟩ : ∃ n ∈ fr.act, isWindow (ea n) = false ∧ ¬ ∃ x k, seen (ea n) = .ok x k := by
        simpa using hall
      obtain ⟨hact, c, p, hfault⟩ : fr.act = [n] ∧ ∃ c p, seen (ea n) = .fault c p := by
        have := hacc n hn
        rw [if_neg (by simp [hnw])] at this
        exact this.resolve_left hnok
      obtain ⟨u, hu, hg, ht, hm, hcores⟩ := State.prefetch_of_fault (level := l.toNat) hfault
      have hfold : foldE (fr.prefetchAcc l.toNat) s₁ (fr.prefAccs a) = .ok u := by
        have hx : fr.prefetchAcc l.toNat s₁ ⟨n, 0, fr.ea n a fr.mods.offset, 1, [], []⟩ = .ok u := by
          rw [Issue.prefetchAcc, if_neg (by simpa using hnw)]
          exact hu
        rw [Issue.prefAccs, hact, List.map_singleton, foldE, hx]
        rfl
      obtain ⟨v, hv, hone⟩ := h.prefetches (prefBody_eq hc hw hfold) (.of_eq hg hcores)
      exact ⟨v, u, hv, hone, hg, ht, hm, fun hx => absurd hx hall⟩

end Sys2Proof.Machine

namespace Sys2Proof.Machine
open Sys2Proof

/-! ## The barrier words (R176, R178, R242, R243) -/

section
variable {fr : Issue} {s : State} {u : BufUse} {a : RegField} {l : Loc}

/-- What every barrier word meets before it acts (R158, R176, R250): earlier reads and writes are done, and the object is located. -/
structure Issue.BarrierReady (fr : Issue) (s : State) (u : BufUse) (a : RegField) (l : Loc) : Prop where
  reads : fr.g.loads = []
  align : (fr.ea 0 a fr.mods.offset).toNat % 16 = 0
  window : isWindow (fr.ea 0 a fr.mods.offset).toNat = true
  loc : s.windowLoc fr.g.team u (fr.ea 0 a fr.mods.offset).toNat 16 = .ok l
  good : s.barrierBad l.place = false
  writes : if releases fr.mods.flavour.1 then s.writesDone fr fr.mods.flavour.2 false = .ok () else s.ownWritesDone fr l.place = .ok ()

theorem Issue.BarrierReady.eq (h : fr.BarrierReady s u a l) : s.barrierReady fr u a = .ok (fr.ea 0 a fr.mods.offset, l.place) := by
  have hloc : s.barrierLoc fr u (fr.ea 0 a fr.mods.offset) = .ok l.place := by
    simp [State.barrierLoc, h.align, h.window, h.loc, h.good]
  have hw := h.writes
  simp only [State.barrierReady, State.readsFixed_of_nil h.reads, hloc, ok_bind]
  split at hw <;> simp_all only [ok_bind] <;> rfl

end

/-- The form of a barrier word with a source in D (R178). -/
abbrev barSourceForm (d a : RegField) (flavs : List Nat) : Form :=
  { cls := .memory, acc := accBar flavs, srcs := [baseOpnd a, { f := d }], bad := fun _ => !isS a || !isSZ d }

/-- The form of a barrier word with a destination D (R178). -/
abbrev barDestForm (d a : RegField) (flavs : List Nat) : Form :=
  { cls := .memory, acc := accBar flavs, dst := some { f := d }, srcs := [baseOpnd a], bad := fun _ => !isS a }

/-- The word in the source D. -/
def Issue.barValue (fr : Issue) (d : RegField) : Word := ((fr.read 0 { f := d } 0).headD 0).setWidth 32

/-- The body of a barrier word with a source. -/
def barSourceBody (d a : RegField) (u : BufUse) (act : Issue → State → DWord → Place → Word → Except Stop State) (fr : Issue) (s : State) :
    Except Stop (State × BitVec 64) := do
  let x ← s.barrierReady fr u a
  let v ← act fr s x.1 x.2 (fr.barValue d)
  .ok (v.afterBarrier fr, 0)

/-- The body of a barrier word with a destination: it writes the phase read before. -/
def barDestBody (d a : RegField) (u : BufUse) (act : Issue → State → DWord → Place → Except Stop State) (fr : Issue) (s : State) :
    Except Stop (State × BitVec 64) := do
  let x ← s.barrierReady fr u a
  let v ← act fr s x.1 x.2
  .ok (fr.writeOnce (v.afterBarrier fr) d [BitVec.ofNat 32 (s.barrierAt x.2).phase], 0)

theorem barSource_eq (d a : RegField) (flavs : List Nat) (u : BufUse) (t : Tail) (s : State)
    (act : Issue → State → DWord → Place → Word → Except Stop State) :
    barSource d a flavs u t s act = issue (barSourceForm d a flavs) t s (barSourceBody d a u act) := rfl

theorem barDest_eq (d a : RegField) (flavs : List Nat) (u : BufUse) (t : Tail) (s : State)
    (act : Issue → State → DWord → Place → Except Stop State) :
    barDest d a flavs u t s act = issue (barDestForm d a flavs) t s (barDestBody d a u act) := rfl

section
variable {fr : Issue} {s v : State} {u : BufUse} {d a : RegField} {l : Loc} {e : Stop}

/-- A barrier word with a source answers what its action answers, its acquire being made. -/
theorem barSourceBody_ok {act : Issue → State → DWord → Place → Word → Except Stop State} (h : fr.BarrierReady s u a l)
    (ha : act fr s (fr.ea 0 a fr.mods.offset) l.place (fr.barValue d) = .ok v) : barSourceBody d a u act fr s = .ok (v.afterBarrier fr, 0) := by
  simp only [barSourceBody, h.eq, ok_bind, ha]

theorem barSourceBody_error {act : Issue → State → DWord → Place → Word → Except Stop State} (h : fr.BarrierReady s u a l)
    (ha : act fr s (fr.ea 0 a fr.mods.offset) l.place (fr.barValue d) = .error e) : barSourceBody d a u act fr s = .error e := by
  simp only [barSourceBody, h.eq, ok_bind, ha, error_bind]

/-- One with a destination writes the phase besides. -/
theorem barDestBody_ok {act : Issue → State → DWord → Place → Except Stop State} (h : fr.BarrierReady s u a l)
    (ha : act fr s (fr.ea 0 a fr.mods.offset) l.place = .ok v) :
    barDestBody d a u act fr s = .ok (fr.writeOnce (v.afterBarrier fr) d [BitVec.ofNat 32 (s.barrierAt l.place).phase], 0) := by
  simp only [barDestBody, h.eq, ok_bind, ha]

theorem barDestBody_error {act : Issue → State → DWord → Place → Except Stop State} (h : fr.BarrierReady s u a l)
    (ha : act fr s (fr.ea 0 a fr.mods.offset) l.place = .error e) : barDestBody d a u act fr s = .error e := by
  simp only [barDestBody, h.eq, ok_bind, ha, error_bind]

end

/-- The change of an object by a barrier word, or BARRIER_OVERFLOW with nothing written (R176). -/
def changeBarrier (f : Barrier → Option Barrier) (s : State) (ea : DWord) (p : Place) : Except Stop State :=
  (orOverflow ea (f (s.barrierAt p))).map (s.setBarrier p)

section
variable {f : Barrier → Option Barrier} {s : State} {ea : DWord} {p : Place}

theorem changeBarrier_of_some {b : Barrier} (h : f (s.barrierAt p) = some b) : changeBarrier f s ea p = .ok (s.setBarrier p b) := by
  rw [changeBarrier, h]
  rfl

theorem changeBarrier_of_none (h : f (s.barrierAt p) = none) : changeBarrier f s ea p = trapA .barrierOverflow ea := by
  rw [changeBarrier, h]
  rfl

end

/-- init of a count that fits (R176). -/
def Barrier.initTo (c : Word) (b : Barrier) : Option Barrier := if c.toNat = 0 ∨ 65535 < c.toNat then none else some (b.init c.toNat)

/-- The subtraction of a number that fits from TX (R176). -/
def Barrier.subTx (n : Word) (b : Barrier) : Option Barrier := if 2 ^ 31 ≤ n.toNat then none else b.addTx (-(n.toNat : Int))

theorem exec_barinit (d a : RegField) (t : Tail) (s : State) : exec (.barinit d a t) s =
    issue (barSourceForm d a [0, 2]) t s (barSourceBody d a .groupStore fun _ s ea p c => changeBarrier (Barrier.initTo c) s ea p) := rfl

theorem exec_barexp (d a : RegField) (t : Tail) (s : State) : exec (.barexp d a t) s =
    issue (barSourceForm d a [0, 2]) t s (barSourceBody d a .groupStore fun _ s ea p n => changeBarrier (Barrier.subTx n) s ea p) := rfl

theorem exec_bararv (d a : RegField) (t : Tail) (s : State) : exec (.bararv d a t) s =
    issue (barDestForm d a [0, 2, 3]) t s (barDestBody d a .groupStore fun _ s ea p => changeBarrier Barrier.arrive s ea p) := rfl

theorem exec_barwait (d a : RegField) (t : Tail) (s : State) : exec (.barwait d a t) s =
    issue (barSourceForm d a [0, 1]) t s (barSourceBody d a .groupLoad fun fr s _ p token => awaitPhase fr s p token) := rfl

theorem exec_cbarwait (d a : RegField) (t : Tail) (s : State) : exec (.cbarwait d a t) s =
    issue (barSourceForm d a [0, 1]) t s (barSourceBody d a .groupLoad fun fr s _ p token => awaitPhase fr s p token) := rfl

theorem exec_bartest (d a : RegField) (t : Tail) (s : State) : exec (.bartest d a t) s =
    issue (barDestForm d a [0, 1]) t s (barDestBody d a .groupLoad fun _ s _ _ => .ok s) := rfl

/-- The mark of a group at an object, or BARRIER_OVERFLOW (R243). -/
def markTeam (fr : Issue) (s : State) (ea : DWord) (p : Place) : Except Stop State :=
  (s.teamMark fr.g.team (ea.toNat - sramBase) fr.g.num p).elim (trapA .barrierOverflow ea) .ok

theorem exec_cbararv (d a : RegField) (t : Tail) (s : State) : exec (.cbararv d a t) s =
    issue (barDestForm d a [0, 2, 3]) t s (barDestBody d a .groupStore markTeam) := by
  have hact : (fun (i : Issue) (s : State) (ea : DWord) (p : Place) => match s.teamMark i.g.team (ea.toNat - sramBase) i.g.num p with
      | some s => .ok s
      | none => trapA .barrierOverflow ea) = markTeam := by
    funext i s ea p
    unfold markTeam
    split
    · next h => rw [h]; rfl
    · next h => rw [h]; rfl
  rw [← barDest_eq, ← hact]
  rfl

/-- complete() flips the phase where nothing is pending (R176). -/
theorem Barrier.complete_eq (b : Barrier) :
    b.complete = if b.pending = 0 ∧ b.tx = 0 then { b with phase := (b.phase + 1) % 2 ^ 32, pending := b.expect } else b := by
  simp only [Barrier.complete, Bool.and_eq_true, decide_eq_true_eq, beq_iff_eq]

theorem Barrier.arrive_of_pending {b : Barrier} (h : b.pending ≠ 0) : b.arrive = some ({ b with pending := b.pending - 1 } : Barrier).complete := if_neg h

theorem Barrier.arrive_of_none {b : Barrier} (h : b.pending = 0) : b.arrive = none := if_pos h

section
variable {n : Word} {b : Barrier}

theorem Barrier.subTx_of_fits (hn : n.toNat < 2 ^ 31) (hlo : -(2 ^ 31) ≤ b.tx - n.toNat) (hhi : b.tx - n.toNat < 2 ^ 31) :
    b.subTx n = some ({ b with tx := b.tx - n.toNat } : Barrier).complete := by
  rw [Barrier.subTx, if_neg (Nat.not_le.2 hn), Barrier.addTx, if_pos (by omega), ← Int.sub_eq_add_neg]

theorem Barrier.subTx_of_overflow (h : 2 ^ 31 ≤ n.toNat ∨ b.tx - n.toNat < -(2 ^ 31)) : b.subTx n = none := by
  by_cases hn : 2 ^ 31 ≤ n.toNat
  · exact if_pos hn
  · rw [Barrier.subTx, if_neg hn, Barrier.addTx, if_neg (by omega)]

end

section
variable {s : State} {team key num : Nat} {p : Place}

/-- The groups of a team that have not retired are all marked (R243). -/
theorem State.allMarked_iff {more : List Nat} : s.allMarked team key more = true ↔
    ∀ kg ∈ s.groups, kg.2.team = team → kg.2.num ∈ (s.team team).marks.getD key [] ++ more := by
  simp only [State.allMarked, List.all_eq_true, Bool.or_eq_true, bne_iff_ne, List.contains_iff_mem, imp_iff_not_or, Ne]

theorem State.teamMark_of_some_missing (h : ¬ s.allMarked team key [num] = true) : s.teamMark team key num p =
    some (s.setTeam team { s.team team with marks := (s.team team).marks.put key (num :: (s.team team).marks.getD key []).dedup }) := if_neg h

theorem State.teamMark_of_all (h : s.allMarked team key [num] = true) : s.teamMark team key num p = (s.barrierAt p).arrive.map fun b =>
    ((s.setTeam team { s.team team with marks := (s.team team).marks.del key }).lagArrive team p.key).setBarrier p b := if_pos h

end

theorem runsKept_afterBarrier (fr : Issue) (s : State) : RunsKept s (s.afterBarrier fr) := .ite (runsKept_discard s _ _) (.refl s)

theorem awaitPhase_of_ne {fr : Issue} {s : State} {p : Place} {token : Word} (h : (s.barrierAt p).phase ≠ token.toNat) :
    awaitPhase fr s p token = .ok s := if_neg h

/-- Settles O33: every word by its action on the object, once what comes before it is done. -/
theorem barrierInstructionsComplete : Obligations.BarrierInstructionsComplete := by
  intro d a t ea ready after flip src dst value phase overflows
  have hready {u : BufUse} {l : Loc} {fr : Issue} {s : State} (h : ready u l fr s) : fr.BarrierReady s u a l := by
    obtain ⟨hl, hal, hw, hloc, hgood, hwrites⟩ := h
    refine ⟨hl, hal, hw, hloc, hgood, ?_⟩
    split at hwrites
    · next hr => rw [if_pos hr, State.writesDone_of_empty hwrites.1 hwrites.2.1 hwrites.2.2]
    · next hr => rw [if_neg hr, hwrites]
  have hflip (b : Barrier) : flip b = b.complete := b.complete_eq.symm
  have hset (fr : Issue) (s : State) (p : Place) (b : Barrier) : RunsKept s (after fr (s.setBarrier p b)) :=
    (runsKept_setBarrier s p b).trans (runsKept_afterBarrier fr _)
  have hphase {fr : Issue} {s s' u : State} {p : Place} (h : RunsKept s s') : RunsKept s (phase fr u p s') :=
    (h.trans (runsKept_afterBarrier fr s')).trans (runsKept_commit _ _ _ _)
  refine ⟨?_, ?_, ?_, ?_, ?_, ?_, ?_, ?_, ?_⟩
  · refine .of_kept (exec_barinit d a t) ?_ fun l fr s _ => hset fr s _ _
    rintro l fr s ⟨h, hlo, hhi⟩
    exact barSourceBody_ok (hready h) (changeBarrier_of_some (if_neg (show ¬ (value fr = 0 ∨ 65535 < value fr) by omega)))
  · refine .of _ (exec_barinit d a t) ?_
    rintro fr s ⟨⟨l, h⟩, hv⟩
    exact barSourceBody_error (hready h) (changeBarrier_of_none (if_pos hv))
  · refine .of_kept (exec_barexp d a t) ?_ fun l fr s _ => hset fr s _ _
    rintro l fr s ⟨h, hv, hlo, hhi⟩
    rw [hflip]
    exact barSourceBody_ok (hready h) (changeBarrier_of_some (Barrier.subTx_of_fits hv hlo hhi))
  · refine .of _ (exec_barexp d a t) ?_
    rintro fr s ⟨l, h, hv⟩
    exact barSourceBody_error (hready h) (changeBarrier_of_none (Barrier.subTx_of_overflow hv))
  · refine .of_kept (exec_bararv d a t) ?_ fun l fr s _ => hphase (runsKept_setBarrier s _ _)
    rintro l fr s ⟨h, hp⟩
    rw [hflip]
    exact barDestBody_ok (hready h) (changeBarrier_of_some (Barrier.arrive_of_pending hp))
  · refine .of _ (exec_bararv d a t) ?_
    rintro fr s ⟨l, h, hp⟩
    exact barDestBody_error (hready h) (changeBarrier_of_none (Barrier.arrive_of_none hp))
  · have hwait {i : Instr} (hi : ∀ s, exec i s =
        issue (src [0, 1]) t s (barSourceBody d a .groupLoad fun fr s _ p token => awaitPhase fr s p token)) :
        Does i t (src [0, 1]) (fun l fr s => ready .groupLoad l fr s ∧ (s.barrierAt l.place).phase ≠ value fr) (fun _ fr s => after fr s) := by
      refine .of_kept hi ?_ fun l fr s _ => runsKept_afterBarrier fr s
      rintro l fr s ⟨h, hne⟩
      exact barSourceBody_ok (hready h) (awaitPhase_of_ne hne)
    rintro i (rfl | rfl)
    · exact hwait (exec_barwait d a t)
    · exact hwait (exec_cbarwait d a t)
  · refine .of_kept (exec_bartest d a t) ?_ fun l fr s _ => hphase (.refl s)
    rintro l fr s h
    exact barDestBody_ok (hready h) rfl
  · intro key marks all setMarks
    have hall (fr : Issue) (s : State) : all fr s ↔ s.allMarked fr.g.team (key fr) [fr.g.num] = true := State.allMarked_iff.symm
    refine ⟨?_, ?_, ?_⟩
    · refine .of_kept (exec_cbararv d a t) ?_ fun l fr s _ => hphase (runsKept_setTeam s _ _)
      rintro l fr s ⟨h, hn⟩
      refine barDestBody_ok (hready h) ?_
      rw [markTeam, State.teamMark_of_some_missing (fun h' => hn ((hall fr s).2 h'))]
      rfl
    · refine .of_kept (exec_cbararv d a t) ?_ fun l fr s _ => hphase ?_
      · rintro l fr s ⟨h, hm, hp⟩
        refine barDestBody_ok (hready h) ?_
        rw [markTeam, State.teamMark_of_all ((hall fr s).1 hm), Barrier.arrive_of_pending hp, hflip]
        rfl
      · exact ((runsKept_setTeam s _ _).trans (lagOnly_lagArrive _ _ _).runsKept).trans (runsKept_setBarrier _ _ _)
    · refine .of _ (exec_cbararv d a t) ?_
      rintro fr s ⟨l, h, hm, hp⟩
      refine barDestBody_error (hready h) ?_
      rw [markTeam, State.teamMark_of_all ((hall fr s).1 hm), Barrier.arrive_of_none hp]
      rfl

end Sys2Proof.Machine

namespace Sys2Proof.Machine
open Sys2Proof

/-! ## Reading at issue (R158, R163) -/

section
variable {s u : State}

theorem runsKept_fillL1 (s : State) (core : Nat) (l : Loc) (bs : List (BitVec 8)) : RunsKept s (s.fillL1 core l bs) := runsKept_setCore s rfl

theorem runsKept_readCoherent {core v n : Nat} {l : Loc} {bs : List (BitVec 8)} (h : s.readCoherent core v l n = .ok (u, bs)) : RunsKept s u := by
  unfold State.readCoherent at h
  split at h
  · split at h
    · split at h <;> cases h
      exact .refl s
    · dsimp only at h
      split at h
      · cases h
        exact runsKept_fillL1 s _ _ _
      · split at h <;> cases h
        exact .ite ((runsKept_fillL1 s _ _ _).trans (.of_eq rfl rfl)) (runsKept_fillL1 s _ _ _)
  · split at h <;> cases h
    exact .refl s

theorem runsKept_readHere {slot seq v n : Nat} {g : Group} {l : Loc} {bs : List (BitVec 8)} {ids : List Nat}
    (h : s.readHere slot g seq v l n = .ok (u, bs, ids)) : RunsKept s u := by
  unfold State.readHere at h
  split at h
  · cases h
  · next hr =>
    split at h
    · cases h
    · split at h <;> cases h
      exact runsKept_readCoherent hr

theorem runsKept_readParts {slot v : Nat} {g : Group} {got : Table (List (BitVec 8))} {ps : List (Nat × Acc × Loc)} {bs : List (List (BitVec 8))}
    {ids : List Nat} (h : s.readParts slot g v got ps = .ok (u, bs, ids)) : RunsKept s u := by
  induction ps generalizing s u bs ids with
  | nil =>
    cases h
    exact .refl s
  | cons p ps ih =>
    unfold State.readParts at h
    dsimp only at h
    split at h
    · cases h
    · next w _ _ hone =>
      have hw : RunsKept s w := by
        split at hone
        · cases hone
          exact .refl s
        · split at hone <;> cases hone
          next hr => exact runsKept_readHere hr
      split at h <;> cases h
      next hmore => exact hw.trans (ih hmore)

/-- A read at issue changes no run. -/
theorem runsKept_loadNow {fr : Issue} {eas : List DWord} {n : Nat} {x : State × List (List (BitVec 8))} (h : s.loadNow fr eas n = .ok x) :
    RunsKept s x.1 := by
  unfold State.loadNow at h
  obtain ⟨_, _, h⟩ := bind_ok h
  obtain ⟨ls, _, h⟩ := bind_ok h
  obtain ⟨y, hpeer, h⟩ := bind_ok h
  dsimp only at h
  split at h
  · cases h
  · cases h
  · next hparts =>
    cases h
    refine (runsKept_peerValues hpeer).trans (.trans (.trans ?_ (runsKept_readParts hparts)) (runsKept_modify _ _ _))
    exact .of_eq rfl rfl

end

/-! ## AQLOAD (R181, R183) -/

/-- Of the elements with a property of which one is known, there are two exactly when another one has it. -/
theorem one_lt_length_filter_iff {α : Type} {p : α → Bool} {l : List α} {k : Nat} {x : α} (hk : l[k]? = some x) (hx : p x = true) :
    1 < (l.filter p).length ↔ ∃ j y, j ≠ k ∧ l[j]? = some y ∧ p y = true := by
  induction l generalizing k with
  | nil => simp at hk
  | cons z l ih =>
    cases k with
    | zero =>
      obtain rfl : z = x := by simpa using hk
      rw [List.filter_cons_of_pos hx, List.length_cons, Nat.lt_add_left_iff_pos, List.length_pos_iff_exists_mem]
      constructor
      · rintro ⟨y, hy⟩
        obtain ⟨hy, hpy⟩ := List.mem_filter.1 hy
        obtain ⟨j, hj⟩ := List.mem_iff_getElem?.1 hy
        exact ⟨j + 1, y, by omega, by simpa using hj, hpy⟩
      · rintro ⟨j, y, hj, hy, hpy⟩
        obtain ⟨i, rfl⟩ := Nat.exists_eq_succ_of_ne_zero hj
        exact ⟨y, List.mem_filter.2 ⟨List.mem_iff_getElem?.2 ⟨i, by simpa using hy⟩, hpy⟩⟩
    | succ k =>
      have hk' : l[k]? = some x := by simpa using hk
      have hmem : x ∈ l.filter p := List.mem_filter.2 ⟨List.mem_iff_getElem?.2 ⟨k, hk'⟩, hx⟩
      by_cases hz : p z = true
      · rw [List.filter_cons_of_pos hz, List.length_cons]
        exact ⟨fun _ => ⟨0, z, by omega, rfl, hz⟩, fun _ => Nat.lt_add_of_pos_left (List.length_pos_of_mem hmem)⟩
      · rw [List.filter_cons_of_neg hz, ih hk']
        constructor
        · rintro ⟨j, y, hj, hy, hpy⟩
          exact ⟨j + 1, y, by omega, by simpa using hy, hpy⟩
        · rintro ⟨j, y, hj, hy, hpy⟩
          cases j with
          | zero =>
            obtain rfl : z = y := by simpa using hy
            exact absurd hpy hz
          | succ j => exact ⟨j, y, by omega, by simpa using hy, hpy⟩

/-- The queue that a record names, if it stands for a stream (R181). -/
def RecordKind.queue? : RecordKind → Option Nat
  | .good r => some r.queue
  | _ => none

theorem RecordKind.queue?_eq_some {k : RecordKind} {q : Nat} : k.queue? = some q ↔ ∃ r, k = .good r ∧ r.queue = q := by
  cases k <;> simp [RecordKind.queue?]

/-- AQLOAD refuses the record of a number (R183). -/
def refusedAt (kinds : List RecordKind) (k : Nat) : Bool :=
  match kinds.getD k .absent with
  | .absent => false
  | .bad => true
  | .good r => decide (1 < (kinds.filter fun x => x.queue? == some r.queue).length)

/-- A stream is entered for a good record (R181). -/
def putRecord (tb : Table Stream) (k : Nat) : RecordKind → Table Stream
  | .good r => tb.put k r
  | _ => tb

/-- The streams of the records read (R181). -/
def streamTable (kinds : List RecordKind) : Table Stream :=
  (List.range kinds.length).foldl (fun tb k => putRecord tb k (kinds.getD k .absent)) []

/-- A record that is malformed, or one of two for one queue (R183). -/
def WrongRecord (recs : List (List (BitVec 8))) (k : Nat) : Prop := ∃ bs, recs[k]? = some bs ∧
  (recordOf64 bs = .bad ∨ ∃ r, recordOf64 bs = .good r ∧
    ∃ j bs' r', j ≠ k ∧ recs[j]? = some bs' ∧ recordOf64 bs' = .good r' ∧ r'.queue = r.queue)

/-- Another record names the queue of a good one. -/
theorem another_names_iff {recs : List (List (BitVec 8))} {k : Nat} {bs : List (BitVec 8)} {r : Stream} (hbs : recs[k]? = some bs)
    (hr : recordOf64 bs = .good r) : 1 < ((recs.map recordOf64).filter fun x => x.queue? == some r.queue).length ↔
      ∃ j bs' r', j ≠ k ∧ recs[j]? = some bs' ∧ recordOf64 bs' = .good r' ∧ r'.queue = r.queue := by
  have hk : (recs.map recordOf64)[k]? = some (.good r) := by rw [List.getElem?_map, hbs, Option.map_some, hr]
  rw [one_lt_length_filter_iff hk (by simp [RecordKind.queue?])]
  simp only [List.getElem?_map, Option.map_eq_some_iff, beq_iff_eq, RecordKind.queue?_eq_some]
  constructor
  · rintro ⟨j, y, hj, ⟨bs', hbs', rfl⟩, r', hr', hq⟩
    exact ⟨j, bs', r', hj, hbs', hr', hq⟩
  · rintro ⟨j, bs', r', hj, hbs', hr', hq⟩
    exact ⟨j, _, hj, ⟨bs', hbs', rfl⟩, r', hr', hq⟩

/-- AQLOAD refuses the records that are wrong. -/
theorem refusedAt_iff (recs : List (List (BitVec 8))) (k : Nat) : refusedAt (recs.map recordOf64) k = true ↔ WrongRecord recs k := by
  unfold refusedAt WrongRecord
  rw [List.getD_eq_getElem?_getD, List.getElem?_map]
  cases hbs : recs[k]? with
  | none => simp
  | some bs =>
    simp only [Option.map_some, Option.getD_some, Option.some.injEq, exists_eq_left']
    cases hr : recordOf64 bs with
    | absent => simp
    | bad => simp
    | good r => simpa using another_names_iff hbs hr

theorem WrongRecord.lt_length {recs : List (List (BitVec 8))} {k : Nat} (h : WrongRecord recs k) : k < recs.length := by
  obtain ⟨bs, hbs, -⟩ := h
  exact (List.getElem?_eq_some_iff.1 hbs).1

/-- No record is refused. -/
theorem find_refused_eq_none {recs : List (List (BitVec 8))} (h : ∀ k, ¬ WrongRecord recs k) :
    (List.range (recs.map recordOf64).length).find? (refusedAt (recs.map recordOf64)) = none := by
  simp only [List.find?_range_eq_none, Bool.not_eq_true', Bool.eq_false_iff, Ne, refusedAt_iff]
  exact fun k _ => h k

/-- The first wrong record is the one refused. -/
theorem find_refused_eq_some {recs : List (List (BitVec 8))} {k : Nat} (h : WrongRecord recs k) (hf : ∀ j, j < k → ¬ WrongRecord recs j) :
    (List.range (recs.map recordOf64).length).find? (refusedAt (recs.map recordOf64)) = some k := by
  simp only [List.find?_range_eq_some, Bool.not_eq_true', Bool.eq_false_iff, Ne, refusedAt_iff, List.mem_range, List.length_map]
  exact ⟨h, h.lt_length, hf⟩

/-- The table of streams holds each good record at its number. -/
theorem streamTable_eq (recs : List (List (BitVec 8))) : streamTable (recs.map recordOf64) =
    (List.range recs.length).foldl (fun tb k => putRecord tb k (recordOf64 (recs.getD k []))) [] := by
  rw [streamTable, List.length_map]
  refine List.foldl_ext _ _ _ fun tb k hk => congrArg (putRecord tb k) ?_
  have hk : k < recs.length := List.mem_range.1 hk
  simp only [List.getD_eq_getElem?_getD, List.getElem?_map, List.getElem?_eq_getElem hk, Option.map_some, Option.getD_some]

/-- AQLOAD's form (R183). -/
abbrev aqloadForm (n : BitVec 4) (a : RegField) : Form :=
  { cls := .memory, acc := { ext := true }, srcs := [baseOpnd a], bad := fun _ => !isS a || n == 0 || decide (8 < n.toNat) }

/-- AQLOAD's body. -/
def aqloadBody (n : Nat) (a : RegField) (fr : Issue) (s : State) : Except Stop (State × BitVec 64) := do
  s.afterAcquires fr
  let ea := fr.ea 0 a fr.mods.offset
  requireA (decide (ea.toNat % 64 = 0)) .align ea
  let x ← s.loadNow fr ((List.range n).map fun k => ea + BitVec.ofNat 64 (64 * k)) 64
  match (List.range (x.2.map recordOf64).length).find? (refusedAt (x.2.map recordOf64)) with
  | some k => trapA .illegalField (ea + BitVec.ofNat 64 (64 * k))
  | none => .ok (fr.change (x.1.forgetStreams fr.site.slot fun _ => true) fun g =>
      { g with streams := streamTable (x.2.map recordOf64), queues := [] }, 0)

theorem exec_aqload (n : BitVec 4) (a : RegField) (t : Tail) (s : State) :
    exec (.aqload n a t) s = issue (aqloadForm n a) t s (aqloadBody n.toNat a) := rfl

section
variable {n : Nat} {a : RegField} {fr : Issue} {s : State}

theorem aqloadBody_misaligned (hc : fr.clear) (ha : (fr.ea 0 a fr.mods.offset).toNat % 64 ≠ 0) :
    aqloadBody n a fr s = trapA .align (fr.ea 0 a fr.mods.offset) := by
  simp only [aqloadBody, hc.afterAcquires, ha, decide_false, ok_bind]
  rfl

variable {x : State × List (List (BitVec 8))} (hc : fr.clear) (ha : (fr.ea 0 a fr.mods.offset).toNat % 64 = 0)
  (hx : s.loadNow fr ((List.range n).map fun k => fr.ea 0 a fr.mods.offset + BitVec.ofNat 64 (64 * k)) 64 = .ok x)
include hc ha hx

/-- AQLOAD of records none of which is wrong replaces the group's. -/
theorem aqloadBody_loads (hw : ∀ k, ¬ WrongRecord x.2 k) : aqloadBody n a fr s = .ok (fr.change (x.1.forgetStreams fr.site.slot fun _ => true)
    fun g => { g with streams := streamTable (x.2.map recordOf64), queues := [] }, 0) := by
  simp only [aqloadBody, hc.afterAcquires, ha, decide_true, requireA, if_true, ok_bind, hx, find_refused_eq_none hw]

/-- AQLOAD refuses the first wrong record. -/
theorem aqloadBody_refuses {k : Nat} (hw : WrongRecord x.2 k) (hf : ∀ j, j < k → ¬ WrongRecord x.2 j) :
    aqloadBody n a fr s = trapA .illegalField (fr.ea 0 a fr.mods.offset + BitVec.ofNat 64 (64 * k)) := by
  simp only [aqloadBody, hc.afterAcquires, ha, decide_true, requireA, if_true, ok_bind, hx, find_refused_eq_some hw hf]

end

theorem runsKept_forgetStreams (s : State) (slot : Nat) (named : Nat → Bool) : RunsKept s (s.forgetStreams slot named) := .of_eq rfl rfl

/-! ## AQSTART, AQSTOP and QFLUSH (R183) -/

/-- The form of a word with a mask register. -/
abbrev maskForm (a : RegField) : Form := { cls := .memory, srcs := [{ f := a }], bad := fun _ => !isSZ a }

/-- The mask. -/
def Issue.mask (fr : Issue) (a : RegField) : Word := ((fr.read 0 { f := a } 0).headD 0).setWidth 32

/-- The body of a word with a mask register. -/
def maskBody (a : RegField) (act : Issue → State → Word → Except Stop State) (fr : Issue) (s : State) : Except Stop (State × BitVec 64) :=
  (act fr s (fr.mask a)).map fun s => (s, 0)

/-- The streams that a mask names. -/
def namedBy (m : Word) : List Nat := (List.range 8).filter fun j => m.getLsbD j

theorem mem_namedBy {m : Word} {j : Nat} : j ∈ namedBy m ↔ j < 8 ∧ m.getLsbD j = true := by simp [namedBy]

/-- AQSTART waits for the writes before a stream, at its record's scope. -/
def startOk (fr : Issue) (s : State) (j : Nat) : Except Stop Unit :=
  match fr.g.streams.find j with
  | some r => s.writesDone fr r.scope false
  | none => .ok ()

/-- The stream of a number starts at entry 0, and its queue is emptied. -/
def startStream (g : Group) (j : Nat) : Group :=
  match g.streams.find j with
  | none => g
  | some r => { g with queues := g.queues.del r.queue, streams := g.streams.put j { r with running := true, pos := 0, kept := none, parked := none } }

/-- AQSTART's action. -/
def startStreams (fr : Issue) (s : State) (m : Word) : Except Stop State := do
  s.afterAcquires fr
  require ((namedBy m).all fun j => (fr.g.streams.find j).isSome) .illegalField
  allOk (startOk fr s) (namedBy m)
  .ok (fr.change (s.forgetStreams fr.site.slot (namedBy m).contains) fun g => (namedBy m).foldl startStream g)

theorem exec_aqstart (a : RegField) (t : Tail) (s : State) : exec (.aqstart a t) s = issue (maskForm a) t s (maskBody a startStreams) := rfl

theorem exec_aqstop (a : RegField) (t : Tail) (s : State) : exec (.aqstop a t) s =
    issue (maskForm a) t s (maskBody a fun fr s m => .ok (fr.change (s.forgetStreams fr.site.slot fun j => decide (j < 8) && m.getLsbD j) fun g =>
      { g with streams := g.streams.mapVals fun j r => if j < 8 && m.getLsbD j then { r with running := false, parked := none } else r })) := rfl

theorem exec_qflush (a : RegField) (t : Tail) (s : State) : exec (.qflush a t) s =
    issue (maskForm a) t s (maskBody a fun fr s m => .ok (fr.change s fun g =>
      { g with queues := g.queues.keep fun q _ => !(decide (q < 6) && m.getLsbD q) })) := rfl

theorem allOk_of {α ε : Type} {f : α → Except ε Unit} {l : List α} (h : ∀ x ∈ l, f x = .ok ()) : allOk f l = .ok () := by
  induction l with
  | nil => rfl
  | cons x xs ih =>
    rw [allOk, h x (List.mem_cons_self ..)]
    exact ih fun y hy => h y (List.mem_cons_of_mem _ hy)

section
variable {fr : Issue} {s : State} {m : Word}

/-- AQSTART starts valid streams before which every write is performed. -/
theorem startStreams_ok (hc : fr.clear) (h : ∀ j, j < 8 → m.getLsbD j = true → ∃ r, fr.g.streams.find j = some r ∧ s.writesDone fr r.scope false = .ok ()) :
    startStreams fr s m = .ok (fr.change (s.forgetStreams fr.site.slot (namedBy m).contains) fun g => (namedBy m).foldl startStream g) := by
  have hnamed : ∀ j ∈ namedBy m, ∃ r, fr.g.streams.find j = some r ∧ s.writesDone fr r.scope false = .ok () := fun j hj =>
    h j (mem_namedBy.1 hj).1 (mem_namedBy.1 hj).2
  have hvalid : ((namedBy m).all fun j => (fr.g.streams.find j).isSome) = true := List.all_eq_true.2 fun j hj => by
    obtain ⟨r, hr, -⟩ := hnamed j hj
    rw [hr, Option.isSome_some]
  have hstart : allOk (startOk fr s) (namedBy m) = .ok () := allOk_of fun j hj => by
    obtain ⟨r, hr, hw⟩ := hnamed j hj
    rw [startOk, hr]
    exact hw
  simp only [startStreams, hc.afterAcquires, hvalid, require_true, hstart, ok_bind]

/-- AQSTART of a stream that is not valid traps. -/
theorem startStreams_invalid {j : Nat} (hc : fr.clear) (hj : j < 8) (hm : m.getLsbD j = true) (hf : fr.g.streams.find j = none) :
    startStreams fr s m = trapE .illegalField := by
  have hvalid : ((namedBy m).all fun j => (fr.g.streams.find j).isSome) = false := by
    rw [List.all_eq_false]
    exact ⟨j, mem_namedBy.2 ⟨hj, hm⟩, by simp [hf]⟩
  simp only [startStreams, hc.afterAcquires, hvalid, require_false, ok_bind]
  rfl

end

/-- Settles O34: AQLOAD by its records, AQSTART by the streams named, AQSTOP and QFLUSH at once. -/
theorem streamInstructionsComplete : Obligations.StreamInstructionsComplete := by
  intro n a t fl ea reads wrong fm mask tables
  refine ⟨?_, ?_, ?_, ?_, ?_, ?_, ?_⟩
  · refine .of_kept (exec_aqload n a t) ?_ ?_
    · rintro x fr s ⟨hc, ha, hx, hw⟩
      exact (aqloadBody_loads hc ha hx hw).trans (by rw [streamTable_eq]; rfl)
    · rintro x fr s ⟨-, -, hx, -⟩
      exact ((runsKept_loadNow hx).trans (runsKept_forgetStreams _ _ _)).became fr _
  · exact .of _ (exec_aqload n a t) fun fr s ⟨hc, ha⟩ => aqloadBody_misaligned hc ha
  · intro k
    refine .of _ (exec_aqload n a t) ?_
    rintro fr s ⟨hc, ha, u, recs, hx, hw, hf⟩
    exact aqloadBody_refuses hc ha hx hw hf
  · refine .of_kept (exec_aqstart a t) ?_ fun _ fr s _ => (runsKept_forgetStreams s _ _).became fr _
    rintro - fr s ⟨hc, h⟩
    rw [maskBody, startStreams_ok hc fun j hj hm => ?_]
    · rfl
    · obtain ⟨r, hr, hfifo, hu, hn⟩ := h j hj hm
      exact ⟨r, hr, State.writesDone_of_empty hfifo hu hn⟩
  · refine .of _ (exec_aqstart a t) ?_
    rintro fr s ⟨hc, j, hj, hm, hf⟩
    rw [maskBody, startStreams_invalid (m := fr.mask a) hc hj hm hf]
    rfl
  · refine .of_kept (exec_aqstop a t) ?_ fun _ fr s _ => (runsKept_forgetStreams s _ _).became fr _
    rintro - fr s -
    simp only [maskBody, Bool.and_eq_true, decide_eq_true_eq]
    rfl
  · exact .of_kept (exec_qflush a t) (fun _ _ _ _ => rfl) fun _ fr s _ => (RunsKept.refl s).became fr _

end Sys2Proof.Machine

namespace Sys2Proof.Machine
open Sys2Proof

/-! ## Item queues (R99, R144, R184) -/

theorem runsKept_setItemQueue (s : State) (team q : Nat) (x : ItemQueue) : RunsKept s (s.setItemQueue team q x) := runsKept_setCore s rfl

/-- The items that ITEMPUSH appends: those of the active lanes, or the one of a scalar source (R184). -/
def Issue.itemsOf (fr : Issue) (a : RegField) : List (Nat × Nat) := (if isSZ a then [lowest fr.site.set] else fr.act).map fun l =>
  (((fr.read l { f := a, tan := false } 0).headD 0).toNat % 2 ^ 32, 1)

/-- ITEMPUSH's body. -/
def itempushBody (q : BitVec 2) (a : RegField) (fr : Issue) (s : State) : Except Stop (State × BitVec 64) :=
  match s.itemQueue fr.g.team q.toNat with
  | none => trapE .itemQueue
  | some iq =>
    if iq.range then trapE .itemQueue
    else if !iq.tail.isEmpty then .error (fr.suspend s (.itemRoom q.toNat))
    else
      let y := ({ iq with tail := fr.itemsOf a } : ItemQueue).settle
      let s := s.setItemQueue fr.g.team q.toNat y
      if y.tail.isEmpty then .ok (s, 0)
      else .ok (fr.change (s.endRun (slotCore fr.site.slot) (slotSub fr.site.slot)) fun g => { g with wait := some (.itemRoom q.toNat) }, 0)

/-- ITEMPUSH's form. -/
abbrev itempushForm (a : RegField) : Form := { cls := .memory, acc := { index := true }, srcs := [{ f := a, tan := false }] }

theorem exec_itempush (q : BitVec 2) (a : RegField) (t : Tail) (s : State) :
    exec (.itempush q a t) s = issue (itempushForm a) t s (itempushBody q a) := rfl

/-- The lanes of the set that have finished their item (R99). -/
def Issue.finished (fr : Issue) (p : BitVec 3) : List Nat := (lanesOf fr.site.set).filter fun l => (fr.seen.lane l).pred p.toNat

/-- REFILL's body. -/
def refillBody (d : RegField) (p : BitVec 3) (q : BitVec 2) (x : BitVec 9) (fr : Issue) (s : State) : Except Stop (State × BitVec 64) :=
  match s.itemQueue fr.g.team q.toNat with
  | none => trapR .itemQueue d
  | some iq =>
    let taken := (fr.finished p).zip iq.items
    let gone := (fr.finished p).drop taken.length
    let s := s.setItemQueue fr.g.team q.toNat ({ iq with items := iq.items.drop taken.length } : ItemQueue).settle
    let s := fr.commit s none (taken.flatMap fun y => (fr.destOf y.1 d 1 0 fr.tans).cells y.1 [y.2] ++ [RCell.p y.1 p.toNat false])
    .ok (fr.change s fun g => g.onLanes gone fun y => { y with pc := fr.site.pc + (x.signExtend 56 <<< 2), clause := none }, laneSet gone)

/-- REFILL's form. -/
abbrev refillForm (d : RegField) (p : BitVec 3) : Form :=
  { cls := .scalar, acc := { index := true }, dst := some { f := d }, reads := [.p p.toNat], writes := [.p p.toNat], rule := .vOnly,
    bad := fun _ => p == 0 }

theorem exec_refill (d : RegField) (p : BitVec 3) (q : BitVec 2) (x : BitVec 9) (t : Tail) (s : State) :
    exec (.refill d p q x t) s = issue (refillForm d p) t s (refillBody d p q x) := rfl

section
variable {q : BitVec 2} {a : RegField} {fr : Issue} {s : State}

/-- ITEMPUSH appends where no append waits and every item enters. -/
theorem itempushBody_appends {iq : ItemQueue} (hq : s.itemQueue fr.g.team q.toNat = some iq) (hr : iq.range = false) (ht : iq.tail = [])
    (he : ({ iq with tail := fr.itemsOf a } : ItemQueue).settle.tail = []) : itempushBody q a fr s =
      .ok (s.setItemQueue fr.g.team q.toNat ({ iq with tail := fr.itemsOf a } : ItemQueue).settle, 0) := by
  have hfree : ¬ (!iq.tail.isEmpty) = true := by simp [ht]
  have hin : ({ iq with tail := fr.itemsOf a } : ItemQueue).settle.tail.isEmpty = true := by rw [he, List.isEmpty_nil]
  unfold itempushBody
  rw [hq]
  dsimp only
  rw [if_neg (Bool.eq_false_iff.1 hr), if_neg hfree, if_pos hin]

theorem itempushBody_not_granted (hq : s.itemQueue fr.g.team q.toNat = none) : itempushBody q a fr s = trapE .itemQueue := by
  simp only [itempushBody, hq]

theorem itempushBody_range {iq : ItemQueue} (hq : s.itemQueue fr.g.team q.toNat = some iq) (hr : iq.range = true) :
    itempushBody q a fr s = trapE .itemQueue := by
  simp only [itempushBody, hq, hr, if_true]

end

/-- Settles O35: ITEMPUSH and REFILL by what the queue of the team is. -/
theorem itemQueueInstructionsComplete : Obligations.ItemQueueInstructionsComplete := by
  intro q a d p x t fp items enter fr' done
  refine ⟨?_, ?_, ?_, ?_⟩
  · refine .of_kept (exec_itempush q a t) ?_ fun iq fr s _ => runsKept_setItemQueue s _ _ _
    rintro iq fr s ⟨hq, hr, ht, he⟩
    exact itempushBody_appends hq hr ht he
  · refine .of _ (exec_itempush q a t) ?_
    rintro fr s (hq | ⟨iq, hq, hr⟩)
    · exact itempushBody_not_granted hq
    · exact itempushBody_range hq hr
  · refine .of_kept (exec_refill d p q x t) ?_ fun iq fr s _ =>
      ((runsKept_setItemQueue s _ _ _).trans (runsKept_commit _ fr none _)).became fr _
    intro iq fr s hq
    simp only [refillBody, hq]
    rfl
  · refine .of _ (exec_refill d p q x t) ?_
    intro fr s hq
    simp only [refillBody, hq]
    rfl

end Sys2Proof.Machine

namespace Sys2Proof.Machine
open Sys2Proof

/-! ## A body that ends runs -/

/-- No run has begun that was not there, and the same slots hold a group. -/
structure RunsFewer (s u : State) : Prop where
  runs : ∀ c n q, (u.core c).runs.find n = some q → (s.core c).runs.find n = some q
  slots : ∀ n, (u.groups.find n).isSome = (s.groups.find n).isSome

theorem RunsKept.fewer {s u : State} (h : RunsKept s u) : RunsFewer s u := ⟨fun c n q hq => by rwa [h.runs c] at hq, h.slots⟩

theorem RunsFewer.trans {s u w : State} (h : RunsFewer s u) (h' : RunsFewer u w) : RunsFewer s w :=
  ⟨fun c n q hq => h.runs c n q (h'.runs c n q hq), fun n => (h'.slots n).trans (h.slots n)⟩

theorem runsFewer_endRun (s : State) (core sc : Nat) : RunsFewer s (s.endRun core sc) :=
  ⟨fun _ _ _ => endRun_runs_some, fun n => by
    unfold State.endRun
    split
    · rfl
    · next r _ => exact ((runsKept_setCore s (c := core) (x := { s.core core with runs := (s.core core).runs }) rfl).trans (runsKept_modify _ r.slot _)).slots n⟩

/-- A word whose body answers the state that `eff` says, in which no run has begun, does that. -/
theorem Does.of_fewer {α : Type} {i : Instr} {t : Tail} {f : Form} {ok : α → Issue → State → Prop} {eff : α → Issue → State → State}
    {moved : α → Issue → BitVec 64} {body : Issue → State → Except Stop (State × BitVec 64)} (he : ∀ s, exec i s = issue f t s body)
    (hb : ∀ x fr s, ok x fr s → body fr s = .ok (eff x fr s, moved x fr)) (hk : ∀ x fr s, ok x fr s → RunsFewer s (eff x fr s)) :
    Does i t f ok eff moved := by
  intro s core sc r g fr s₁ x h hx
  obtain ⟨hs, hf, hq⟩ := h.slots
  have hfew := hk x fr s₁ hx
  obtain ⟨g₂, hg₂⟩ : ∃ g₂, (eff x fr s₁).groups.find fr.site.slot = some g₂ :=
    Option.isSome_iff_exists.1 (by rw [hfew.slots, hs, hf, Option.isSome_some])
  obtain ⟨hone, g', hg', hadv, -⟩ := State.finish_moved (eff x fr s₁) core sc fr.site t.stall (moved x fr) g₂ hg₂
    fun q h' => (hq q (hfew.runs core sc q h')).trans hs.symm
  refine ⟨_, (he s).trans (issue_ready h _ _ _ (hb x fr s₁ hx)), hone, fun g₃ h₃ => ⟨g', hg', ?_⟩⟩
  obtain rfl : g₂ = g₃ := Option.some.inj (hg₂.symm.trans h₃)
  exact hadv

/-! ## The release from TSYNC (R180) -/

/-- A group has arrived: every lane that has not exited waits, and nothing of it is outstanding. -/
def State.arrived (s : State) (kg : Nat × Group) : Bool :=
  !kg.2.alive.isEmpty && kg.2.alive.all (fun l => (kg.2.lane l).tsync) && kg.2.loads.isEmpty && kg.2.fifo.isEmpty &&
  !(s.flight.any fun f => f.slot == kg.1 && f.inSram)

theorem State.arrived_iff {s : State} {kg : Nat × Group} : s.arrived kg = true ↔
    kg.2.alive ≠ [] ∧ (∀ l ∈ kg.2.alive, (kg.2.lane l).tsync = true) ∧ kg.2.loads = [] ∧ kg.2.fifo = [] ∧
      ∀ f ∈ s.flight, f.slot = kg.1 → f.inSram = false := by
  simp only [State.arrived, Bool.and_eq_true, Bool.not_eq_true', List.isEmpty_eq_false_iff, List.all_eq_true, List.isEmpty_iff, List.any_eq_false,
    beq_iff_eq, and_assoc, not_and, Bool.not_eq_true]

/-- The team's groups are released. -/
def State.syncTeam (s : State) (team : Nat) : State :=
  { s with groups := s.groups.mapVals fun _ g => if g.team == team then g.synced else g }

/-- Whether the team's groups are to be released: some thread waits, and every group has arrived. -/
def State.syncs (s : State) (team : Nat) : Bool :=
  (s.groups.filter fun kg => kg.2.team == team).any (fun kg => kg.2.lanes.any fun x => x.2.tsync) &&
    (s.groups.filter fun kg => kg.2.team == team).all s.arrived

theorem State.syncs_iff {s : State} {team : Nat} : s.syncs team = true ↔
    (∃ kg ∈ s.groups, kg.2.team = team ∧ ∃ x ∈ kg.2.lanes, x.2.tsync = true) ∧ ∀ kg ∈ s.groups, kg.2.team = team → s.arrived kg = true := by
  simp only [State.syncs, Bool.and_eq_true, List.any_eq_true, List.all_eq_true, List.mem_filter, beq_iff_eq, and_imp, and_assoc]

theorem State.tsyncRelease_eq (s : State) (team : Nat) : s.tsyncRelease team = if s.syncs team then
    ((s.syncTeam team).setTeam team { s.team team with tsyncs := (s.team team).tsyncs + 1 }).lagTsync team ((s.team team).tsyncs + 1) else s := rfl

theorem State.tsyncRelease_groups {s : State} {team : Nat} (h : s.syncs team = true) :
    (s.tsyncRelease team).groups = s.groups.mapVals fun _ g => if g.team == team then g.synced else g := by
  rw [s.tsyncRelease_eq, if_pos h]
  exact (workKept_lagTsync _ team _).groups

theorem runsKept_syncTeam (s : State) (team : Nat) : RunsKept s (s.syncTeam team) :=
  ⟨fun _ => rfl, fun n => by rw [State.syncTeam, Table.find_mapVals, Option.isSome_map]⟩

theorem runsKept_tsyncRelease (s : State) (team : Nat) : RunsKept s (s.tsyncRelease team) := by
  rw [s.tsyncRelease_eq]
  exact .ite (((runsKept_syncTeam s team).trans (runsKept_setTeam _ _ _)).trans (lagOnly_lagTsync _ _ _).runsKept) (.refl s)

section
variable (g : Group)

theorem Group.synced_team : g.synced.team = g.team := by
  rw [Group.synced, Group.onLanes_rest]

/-- No lane exits by a release. -/
theorem Group.synced_alive : g.synced.alive = g.alive := by
  refine List.filter_congr fun l _ => congrArg not ?_
  exact Group.onLanes_keeps Lane.exited (fun x => { x with tsync := false, stamp := g.runCount }) (fun _ => rfl) g g.alive l

/-- No lane of a released group waits that has not exited. -/
theorem Group.synced_tsync {l : Nat} (h : l ∈ g.synced.alive) : (g.synced.lane l).tsync = false := by
  rw [Group.synced_alive] at h
  change ((g.onLanes g.alive fun x => { x with tsync := false, stamp := g.runCount }).lane l).tsync = false
  rw [Group.lane_onLanes _ _ _ g.alive_nodup, if_pos (List.contains_iff_mem.2 h)]

end

/-- TSYNC's body. -/
def tsyncBody (fr : Issue) (s : State) : Except Stop (State × BitVec 64) := do
  s.readsFixed fr
  s.writesDone fr 1 false
  .ok (State.tsyncRelease (State.endRun (fr.change s fun g =>
    (g.advance (lanesOf fr.site.set) fr.site.len).onLanes (lanesOf fr.site.set) fun x => { x with tsync := true })
    (slotCore fr.site.slot) (slotSub fr.site.slot)) fr.g.team, fr.site.set)

theorem exec_tsync (t : Tail) (s : State) : exec (.tsync t) s = issue { cls := .memory } t s tsyncBody := rfl

/-- TSYNC makes its set wait where the group's earlier accesses are performed at TEAM scope. -/
theorem tsync_does (t : Tail) : Does (.tsync t) t { cls := .memory }
    (fun (_ : Unit) fr s => fr.g.loads = [] ∧ fr.g.fifo = [] ∧ s.unreleased fr.site.slot fr.g 1 false = [])
    (fun _ fr s => State.tsyncRelease (State.endRun (fr.became s fun g =>
      (g.advance (lanesOf fr.site.set) fr.site.len).onLanes (lanesOf fr.site.set) fun x => { x with tsync := true })
      (slotCore fr.site.slot) (slotSub fr.site.slot)) fr.g.team) (fun _ fr => fr.site.set) := by
  refine .of_fewer (exec_tsync t) ?_ fun _ fr s _ =>
    (((RunsKept.refl s).became fr _).fewer.trans (runsFewer_endRun _ _ _)).trans (runsKept_tsyncRelease _ _).fewer
  rintro - fr s ⟨hl, hf, hu⟩
  simp only [tsyncBody, State.readsFixed_of_nil hl, State.writesDone_of_empty (scope := 1) (sc := false) hf hu rfl, ok_bind]
  rfl

/-- Nothing is released while a group of the team has not arrived. -/
theorem State.tsyncRelease_eq_self {s : State} {team : Nat} {kg : Nat × Group} (hk : kg ∈ s.groups) (ht : kg.2.team = team) (h : ¬ s.arrived kg = true) :
    s.tsyncRelease team = s := by
  rw [s.tsyncRelease_eq, if_neg fun hs => h ((State.syncs_iff.1 hs).2 kg hk ht)]

/-- No lane of the team waits once its groups are released. -/
theorem State.tsyncRelease_unheld {s : State} {team : Nat} (h : s.syncs team = true) {kg : Nat × Group} (hk : kg ∈ (s.tsyncRelease team).groups)
    (ht : kg.2.team = team) {l : Nat} (hl : l ∈ kg.2.alive) : (kg.2.lane l).tsync = false := by
  rw [State.tsyncRelease_groups h] at hk
  obtain ⟨⟨k, g⟩, -, rfl⟩ := List.mem_map.1 hk
  dsimp only at ht hl ⊢
  by_cases hg : (g.team == team) = true
  · rw [if_pos hg] at hl ⊢
    exact g.synced_tsync hl
  · rw [if_neg hg] at ht
    exact absurd (beq_iff_eq.2 ht) hg

/-! ## A barrier object is read as it was written (R176) -/

/-- The bytes of an object give the object back. -/
theorem Barrier.of_bytes {b : Barrier} (hphase : b.phase < 2 ^ 32) (hpending : b.pending < 2 ^ 16) (hexpect : b.expect < 2 ^ 16)
    (hlo : -(2 ^ 31) ≤ b.tx) (hhi : b.tx < 2 ^ 31) (hrest : b.rest < 2 ^ 31) : Barrier.of b.bytes = b := by
  have h0 : (b.bytes.drop (4 * 0)).take 4 = toBytes 4 b.phase := rfl
  have h1 : (b.bytes.drop (4 * 1)).take 4 = toBytes 4 (b.pending + 65536 * b.expect) := rfl
  have h2 : (b.bytes.drop (4 * 2)).take 4 = toBytes 4 (BitVec.ofInt 32 b.tx).toNat := rfl
  have h3 : (b.bytes.drop (4 * 3)).take 4 = toBytes 4 ((if b.ovf then 1 else 0) + 2 * b.rest) := rfl
  have hcounts : b.pending + 65536 * b.expect < 2 ^ (8 * 4) := by omega
  have hword : (if b.ovf then 1 else 0) + 2 * b.rest < 2 ^ (8 * 4) := by split <;> omega
  have htx : (BitVec.ofInt 32 b.tx).toInt = b.tx := by
    rw [BitVec.toInt_ofInt]
    exact Int.bmod_eq_of_le (by omega) (by omega)
  have hovf : bit ((if b.ovf then 1 else 0) + 2 * b.rest) 0 = b.ovf := by
    cases b.ovf <;> simp [bit]
  have hp : (b.pending + 65536 * b.expect) % 65536 = b.pending := by omega
  have he : (b.pending + 65536 * b.expect) / 65536 = b.expect := by omega
  have hr : ((if b.ovf then 1 else 0) + 2 * b.rest) / 2 = b.rest := by split <;> omega
  simp only [Barrier.of, h0, h1, h2, h3, ofBytes_toBytes, Nat.mod_eq_of_lt hphase, Nat.mod_eq_of_lt hcounts, Nat.mod_eq_of_lt hword,
    Nat.mod_eq_of_lt (BitVec.isLt _), BitVec.ofNat_toNat, BitVec.setWidth_eq, htx, hovf, hp, he, hr]

@[simp] theorem Barrier.bytes_length (b : Barrier) : b.bytes.length = 16 := by simp [Barrier.bytes]

/-- What is written of an object is its bytes. -/
theorem State.setBarrier_mem (s : State) (p : Place) (b : Barrier) : (s.setBarrier p b).mem = writeCells s.mem p.key b.bytes := by
  unfold State.setBarrier
  rw [ite_mem, State.lagFlip_mem, ite_self]
  split
  · exact State.writeSlice_mem ..
  · rfl

/-- Settles O36: TSYNC's set waits, the team is released when all have arrived, and an object is read from its bytes. -/
theorem teamSynchronizationAndBarrierObjects : Obligations.TeamSynchronizationAndBarrierObjects := by
  refine ⟨tsync_does, fun s team => ⟨?_, ?_⟩, ?_⟩
  · rintro ⟨kg, hk, ht, h⟩
    refine State.tsyncRelease_eq_self hk ht fun ha => ?_
    obtain ⟨halive, hwait, hloads, hfifo, hflight⟩ := State.arrived_iff.1 ha
    rcases h with h | ⟨l, hl, h⟩ | h | h | ⟨f, hf, hs, h⟩
    · exact halive h
    · exact absurd (hwait l hl) (by simp [h])
    · exact h hloads
    · exact h hfifo
    · exact absurd (hflight f hf hs) (by simp [h])
  · intro hsome hall kg hk ht l hl
    exact State.tsyncRelease_unheld (State.syncs_iff.2 ⟨hsome, fun kg hk ht => State.arrived_iff.2 (hall kg hk ht)⟩) hk ht hl
  · intro s p b hphase hpending hexpect hlo hhi hrest
    refine ⟨?_, fun a ha => ?_, (lagOnly_setBarrier s p b).outside, (lagOnly_setBarrier s p b).core⟩
    · rw [State.barrierAt, State.setBarrier_mem, readCells_writeCells_self _ _ b.bytes_length, Barrier.of_bytes hphase hpending hexpect hlo hhi hrest]
    · rw [State.setBarrier_mem, readCell_writeCells_outside _ (by rwa [b.bytes_length])]

end Sys2Proof.Machine

namespace Sys2Proof.Machine
open Sys2Proof

/-! ## Checks that a matrix word meets (R194, R199, R203) -/

@[simp] theorem refuseIf_false (c : Cause) : refuseIf false c = .ok () := rfl

section
variable {s : State} {fr : Issue} {team off : Nat}

/-- BAROFF names no barrier, or an aligned one in range (R191, R194). -/
def State.BarOk (s : State) (team off : Nat) : Prop := off = noBarrier ∨ (off % 16 = 0 ∧ (s.window team (barAddr off) 16).isSome)

theorem State.BarOk.align (h : s.BarOk team off) : barAlign off = .ok () :=
  if_neg fun ⟨hne, hodd⟩ => hodd (h.resolve_left hne).1

theorem State.BarOk.range (h : s.BarOk team off) : s.barRange team off = .ok () :=
  if_neg fun ⟨hne, hnone⟩ => by
    have hsome := (h.resolve_left hne).2
    rw [Option.isNone_iff_eq_none.1 hnone] at hsome
    cases hsome

theorem State.spansOk_of {spans : List (Nat × Nat)} (h : ∀ x ∈ spans, s.spanOk team x.1 x.2 = true) : s.spansOk team spans = .ok () := by
  have hnone : (spans.find? fun x => !s.spanOk team x.1 x.2) = none := by simpa using h
  rw [State.spansOk, hnone]

theorem State.tileOk_of {n : Nat} (h : n < (s.gridOf fr.g.team).accn) : s.tileOk fr n = .ok () := by
  rw [State.tileOk, decide_eq_false (Nat.not_le.2 h), refuseIf_false]

theorem State.queueRoom_of (h : (s.core (slotCore fr.site.slot)).mq.length < 32) : s.queueRoom fr = .ok () := if_neg (Nat.not_le.2 h)

/-- A row stride is 0 or, for a dense operand, at least the dense row (R188, R189). -/
def rowStrideOk (q mp : BitVec 128) (isB : Bool) : Prop := mapRstride mp = 0 ∨ (opSparse q = false ∧ denseRow isB (mapType mp) ≤ mapRstride mp)

/-- A descriptor meets every check of R199, and latches these maps; `sp` is what the instruction requires of SP. -/
structure State.OpFits (s : State) (team : Nat) (q : BitVec 128) (sp : Option Bool) (maps : List (BitVec 128)) : Prop where
  reserved : quadField q 25 7 = 0 ∧ quadField q 48 16 = 0 ∧ quadField q 96 32 = 0 ∧ (opSparse q = true ∨ quadField q 14 8 = 0)
  sparse : ∀ v, sp = some v → opSparse q = v
  steps : 1 ≤ opSteps q ∧ opSteps q ≤ 1024
  tile : opAcc q < (s.gridOf team).accn
  granted : ∀ k ∈ opMaps q, k < (s.gridOf team).omn ∧ ((s.team team).maps.find k).isSome
  latched : maps = (opMaps q).map fun k => (s.team team).maps.getD k 0
  types : mapType (maps.getD 0 0) = mapType (maps.getD 1 0) ∧ mapType (maps.getD 0 0) ≠ 3
  roles : mapRole (maps.getD 0 0) = false ∧ mapRole (maps.getD 1 0) = true
  strides : rowStrideOk q (maps.getD 0 0) false ∧ rowStrideOk q (maps.getD 1 0) true
  bitmaps : ∀ mp ∈ maps.drop 2, mapType mp = 3
  sat : opSat q = true → mapType (maps.getD 0 0) = 2
  tag : opInit q = true ∨ (opAcc q ∈ s.tagsMet team ↔ mapType (maps.getD 0 0) = 2)
  bar : s.BarOk team (opBar q)
  spans : s.operandsOk team q maps = .ok ()
  tangents : mapType (maps.getD 0 0) = 2 ∨ (s.gridOf team).tangents = 0 ∨ (s.gridOf team).tstride ≠ 0

/-- A row stride that is in order is not refused (R199 step 3). -/
theorem rowStrideOk.not_short {q mp : BitVec 128} {isB : Bool} (h : rowStrideOk q mp isB) :
    (mapRstride mp != 0 && (opSparse q || decide (mapRstride mp < denseRow isB (mapType mp)))) = false := by
  rcases h with h | ⟨hdense, hrow⟩
  · simp [h]
  · simp [hdense, hrow]

/-- The checks of R199 answer the maps of a descriptor that meets them. -/
theorem State.OpFits.checkOp {q : BitVec 128} {sp : Option Bool} {maps : List (BitVec 128)} (h : s.OpFits fr.g.team q sp maps) :
    s.checkOp fr q sp = .ok maps := by
  obtain ⟨⟨hr₁, hr₂, hr₃, hr₄⟩, hsp, ⟨hlo, hhi⟩, htile, hmaps, hlatch, ⟨hsame, hnobits⟩, ⟨hroleA, hroleB⟩, ⟨hrowA, hrowB⟩, hbits, hsat, htag,
    hbar, hspans, htan⟩ := h
  have hfields : (quadField q 25 7 != 0 || quadField q 48 16 != 0 || quadField q 96 32 != 0 || (!opSparse q && quadField q 14 8 != 0)) = false := by
    rcases hr₄ with h | h <;> simp [hr₁, hr₂, hr₃, h]
  have hgrant : ((opMaps q).any fun n => decide ((s.gridOf fr.g.team).omn ≤ n) || ((s.team fr.g.team).maps.find n).isNone) = false :=
    List.any_eq_false.2 fun k hk => by
      obtain ⟨hlt, hset⟩ := hmaps k hk
      simp [hlt, Option.isSome_iff_ne_none.1 hset]
  have hshape : (sp.any (· != opSparse q) || opSteps q == 0 || decide (1024 < opSteps q) || decide ((s.gridOf fr.g.team).accn ≤ opAcc q)) = false := by
    have hany : sp.any (· != opSparse q) = false := by
      cases sp with
      | none => rfl
      | some v => simp [hsp v rfl]
    simp [hany, hhi, htile]
    omega
  have htype : (mapType (maps.getD 0 0) != mapType (maps.getD 1 0)) = false := by rw [hsame, bne_self_eq_false]
  have hbitmap : ((maps.drop 2).any fun m => mapType m != 3) = false := List.any_eq_false.2 fun m hm => by simp [hbits m hm]
  have hsaturate : (opSat q && !(mapType (maps.getD 0 0) == 2)) = false := by
    cases h : opSat q with
    | false => rfl
    | true =>
      rw [hsat h]
      rfl
  have hmeets : (!opInit q && ((s.tagsMet fr.g.team).contains (opAcc q) != (mapType (maps.getD 0 0) == 2))) = false := by
    rcases htag with h | h
    · rw [h, Bool.not_true, Bool.false_and]
    · have hsameTag : (s.tagsMet fr.g.team).contains (opAcc q) = (mapType (maps.getD 0 0) == 2) := by
        rw [Bool.eq_iff_iff, List.contains_iff_mem, beq_iff_eq, h]
      rw [hsameTag, bne_self_eq_false, Bool.and_false]
  have hstride : (!(mapType (maps.getD 0 0) == 2) && (s.gridOf fr.g.team).tangents != 0 && (s.gridOf fr.g.team).tstride == 0) = false := by
    rcases htan with h | h | h
    · rw [h]
      rfl
    · rw [h, bne_self_eq_false, Bool.and_false, Bool.false_and]
    · rw [beq_false_of_ne h, Bool.and_false]
  unfold State.checkOp
  dsimp only
  rw [← hlatch, hfields, hshape, hgrant, hrowA.not_short, hrowB.not_short, hroleA, hroleB, htype,
    beq_false_of_ne hnobits, hbitmap, hsaturate, hmeets, hstride, hbar.align, hbar.range, hspans]
  simp only [Bool.and_false, Bool.or_false, Bool.not_true, refuseIf_false, ok_bind]

/-- An address quad meets every check of R203. -/
structure State.QuadFits (s : State) (team : Nat) (q : BitVec 128) (floats : Bool) : Prop where
  stride : quadField q 64 32 = 0 ∨ 256 ≤ quadField q 64 32
  aligned : quadField q 0 64 % 16 = 0 ∧ quadField q 64 32 % 16 = 0
  bar : s.BarOk team (quadField q 96 32)
  rows : ∀ j, j < (if floats then (s.gridOf team).tangents + 1 else 1) → ∀ r, r < 64 →
    s.spanOk team (tileRow q (s.gridOf team).tstride r j) 256 = true
  tangents : floats = false ∨ (s.gridOf team).tangents = 0 ∨ (s.gridOf team).tstride ≠ 0

theorem State.QuadFits.checkQuad {q : BitVec 128} {floats : Bool} (h : s.QuadFits fr.g.team q floats) : s.checkQuad fr q floats = .ok () := by
  have hshape : (quadField q 64 32 != 0 && decide (quadField q 64 32 < 256)) = false := by
    rcases h.stride with h | h <;> simp [h]
  have hstride : (floats && (s.gridOf fr.g.team).tangents != 0 && (s.gridOf fr.g.team).tstride == 0) = false := by
    rcases h.tangents with h | h | h <;> simp [h]
  have hspans : s.spansOk fr.g.team ((List.range (if floats then (s.gridOf fr.g.team).tangents + 1 else 1)).flatMap fun j =>
      (List.range 64).map fun r => (tileRow q (s.gridOf fr.g.team).tstride r j, 256)) = .ok () :=
    State.spansOk_of fun x hx => by
      obtain ⟨j, hj, hx⟩ := List.mem_flatMap.1 hx
      obtain ⟨r, hr, rfl⟩ := List.mem_map.1 hx
      exact h.rows j (List.mem_range.1 hj) r (List.mem_range.1 hr)
  unfold State.checkQuad
  dsimp only
  rw [hshape, decide_eq_true h.aligned, h.bar.align, h.bar.range, hspans, hstride]
  rfl

end

/-! ## Issuing an operation (R192, R194, R206) -/

section
variable (s : State) (core : Nat) (o : MatrixOp)

/-- The unit refuses an operation of a victim; a FAILED team's is discarded, and any other enters the queue. -/
theorem State.enqueueOp_eq {o : MatrixOp} {team : Nat} (h : o.team = team) :
    s.enqueueOp core o =
      if ∃ v ∈ (s.core core).mrefused, victimHits v (s.gridOf team).vdev (s.gridOf team).ctx = true then s
      else match (s.team team).mfailed with
        | some k => s.keepFor team o.signers k
        | none => State.setCore { s with nextId := s.nextId + 1 } core { s.core core with mq := (s.core core).mq ++ [{ o with id := s.nextId }] } := by
  subst h
  unfold State.enqueueOp
  simp only [List.any_eq_true]
  rfl

theorem runsKept_keepFor (team : Nat) (signers : List Nat) (k : Kept) : RunsKept s (s.keepFor team signers k) :=
  ⟨fun _ => rfl, fun n => by
    unfold State.keepFor
    rw [Table.find_mapVals, Option.isSome_map]⟩

theorem runsKept_enqueueOp : RunsKept s (s.enqueueOp core o) := by
  unfold State.enqueueOp
  dsimp only
  refine .ite (.refl s) ?_
  split
  · exact runsKept_keepFor s _ _ _
  · exact .trans (u := { s with nextId := s.nextId + 1 }) (.of_eq rfl rfl) (runsKept_setCore _ rfl)

end


/-! ## The matrix words (R199 to R203) -/

section
variable (fr : Issue) (s : State) (m : Nat) (q : BitVec 128) (maps : List (BitVec 128))

/-- A muster of the issuing group's team. -/
def Issue.muster : Muster := (s.team fr.g.team).musters.getD m Muster.none

/-- The muster once the group has signed it (R202). -/
def Issue.signs : Muster := { fr.muster s m with
  signed := (fr.muster s m).signed + 2 ^ fr.g.num, desc := q, maps := if (fr.muster s m).signed = 0 then maps else (fr.muster s m).maps,
  pc := fr.site.pc, after := fr.afterNow :: (fr.muster s m).after }

/-- What MSIGN does once its checks are met: the last signature issues the operation, any other is recorded (R202). -/
def signBody : Except Stop (State × BitVec 64) :=
  let y := fr.signs s m q maps
  if y.signed = y.mask then do
    s.queueRoom fr
    .ok (s.musterIssue (slotCore fr.site.slot) fr.g.team m y, 0)
  else .ok (s.setTeam fr.g.team { s.team fr.g.team with musters := (s.team fr.g.team).musters.put m y }, 0)

/-- MSIGN's body. -/
def msignBody (a : RegField) : Except Stop (State × BitVec 64) := do
  let maps ← s.checkOp fr (fr.quadOf a) none
  refuseIf (decide ((s.gridOf fr.g.team).musn ≤ m) || !bit (fr.muster s m).mask fr.g.num || bit (fr.muster s m).signed fr.g.num ||
    ((fr.muster s m).signed != 0 && (fr.muster s m).desc != fr.quadOf a)) .musterMismatch
  signBody fr s m (fr.quadOf a) maps

end

/-- The form of a matrix word that names an S quad. -/
abbrev quadForm (r : RegField) : Form := { cls := .matrix, srcs := [runOpnd r 4], bad := fun _ => badRunAt 4 r }

/-- What a word does that puts its operation into the queue, its checks met (R192). -/
def opBody (kind : MatKind) (quad : BitVec 128) (maps : List (BitVec 128)) (fr : Issue) (s : State) : Except Stop (State × BitVec 64) := do
  s.queueRoom fr
  .ok (fr.issueOp s kind quad maps, 0)

theorem opBody_ok {kind : MatKind} {quad : BitVec 128} {maps : List (BitVec 128)} {fr : Issue} {s : State}
    (h : (s.core (slotCore fr.site.slot)).mq.length < 32) : opBody kind quad maps fr s = .ok (fr.issueOp s kind quad maps, 0) := by
  rw [opBody, State.queueRoom_of h, ok_bind]

/-- MMA's and MMAS's body, SP being what the word requires (R199). -/
def mmBody (sp : Bool) (d : RegField) (fr : Issue) (s : State) : Except Stop (State × BitVec 64) := do
  let maps ← s.checkOp fr (fr.quadOf d) (some sp)
  opBody .mm (fr.quadOf d) maps fr s

theorem mmBody_ok {sp : Bool} {d : RegField} {maps : List (BitVec 128)} {fr : Issue} {s : State}
    (hq : s.OpFits fr.g.team (fr.quadOf d) (some sp) maps) (hr : (s.core (slotCore fr.site.slot)).mq.length < 32) :
    mmBody sp d fr s = .ok (fr.issueOp s .mm (fr.quadOf d) maps, 0) := by
  rw [mmBody, hq.checkOp, ok_bind, opBody_ok hr]

section
variable (d : RegField) (t : Tail) (s : State) (n u : BitVec 6) (x : BitVec 1)

theorem exec_mma : exec (.mma d t) s = issue (quadForm d) t s (mmBody false d) := rfl

theorem exec_mmas : exec (.mmas d t) s = issue (quadForm d) t s (mmBody true d) := rfl

theorem exec_mmz : exec (.mmz x n t) s = issue { cls := .matrix } t s fun fr s => (do
    s.tileOk fr n.toNat
    opBody (.mmz n.toNat (x == 1)) 0 [] fr s) := rfl

theorem exec_accld : exec (.accld x n d t) s = issue (quadForm d) t s fun fr s => (do
    s.tileOk fr n.toNat
    s.checkQuad fr (fr.quadOf d) (x == 0)
    opBody (.accld n.toNat (x == 1)) (fr.quadOf d) [] fr s) := rfl

theorem exec_accst : exec (.accst n d t) s = issue (quadForm d) t s fun fr s => (do
    s.tileOk fr n.toNat
    s.checkQuad fr (fr.quadOf d) (!(s.tagsMet fr.g.team).contains n.toNat)
    opBody (.accst n.toNat) (fr.quadOf d) [] fr s) := rfl

theorem exec_accmv : exec (.accmv n u t) s = issue { cls := .matrix } t s fun fr s => (do
    s.tileOk fr n.toNat
    s.tileOk fr u.toNat
    opBody (.accmv n.toNat u.toNat) 0 [] fr s) := rfl

theorem exec_accadd : exec (.accadd x n u t) s = issue { cls := .matrix } t s fun fr s => (do
    s.tileOk fr n.toNat
    s.tileOk fr u.toNat
    refuseIf ((s.tagsMet fr.g.team).contains n.toNat != (s.tagsMet fr.g.team).contains u.toNat ||
      (x == 1 && !(s.tagsMet fr.g.team).contains n.toNat)) .matrixFormat
    opBody (.accadd n.toNat u.toNat (x == 1)) 0 [] fr s) := rfl

end

theorem exec_msign (m : BitVec 4) (a : RegField) (t : Tail) (s : State) :
    exec (.msign m a t) s = issue (quadForm a) t s fun fr s => msignBody fr s m.toNat a := rfl

section
variable {fr : Issue} {s : State} {m : Nat} {a : RegField} {maps : List (BitVec 128)}

/-- A descriptor that meets the checks, and that the group may sign in the muster, is signed (R202). -/
theorem msignBody_signs (hq : s.OpFits fr.g.team (fr.quadOf a) none maps) (hm : m < (s.gridOf fr.g.team).musn)
    (hmask : bit (fr.muster s m).mask fr.g.num = true) (hnew : bit (fr.muster s m).signed fr.g.num = false)
    (hdesc : (fr.muster s m).signed = 0 ∨ (fr.muster s m).desc = fr.quadOf a) :
    msignBody fr s m a = signBody fr s m (fr.quadOf a) maps := by
  have hsame : ((fr.muster s m).signed != 0 && (fr.muster s m).desc != fr.quadOf a) = false := by
    rcases hdesc with h | h <;> simp [h]
  rw [msignBody, hq.checkOp, ok_bind, decide_eq_false (Nat.not_le.2 hm), hmask, hnew, hsame]
  rfl

/-- The last signature needs room in the queue, and no other does (R192, R202). -/
theorem signBody_ok {q : BitVec 128}
    (hr : (fr.signs s m q maps).signed = (fr.signs s m q maps).mask → (s.core (slotCore fr.site.slot)).mq.length < 32) :
    signBody fr s m q maps = .ok (if (fr.signs s m q maps).signed = (fr.signs s m q maps).mask
      then s.musterIssue (slotCore fr.site.slot) fr.g.team m (fr.signs s m q maps)
      else s.setTeam fr.g.team { s.team fr.g.team with musters := (s.team fr.g.team).musters.put m (fr.signs s m q maps) }, 0) := by
  rw [signBody]
  split
  · next hfull => rw [State.queueRoom_of (hr hfull), ok_bind]
  · rfl

theorem runsKept_musterIssue (core team : Nat) (x : Muster) : RunsKept s (s.musterIssue core team m x) :=
  (runsKept_setTeam s team _).trans (runsKept_enqueueOp _ core _)

/-- ACCADD's tags agree, and are S32 where it saturates (R203). -/
theorem addTags_ok {tags : List Nat} {n u : Nat} {x : BitVec 1} (htags : n ∈ tags ↔ u ∈ tags) (hsat : x = 1 → n ∈ tags) :
    (tags.contains n != tags.contains u || (x == 1 && !tags.contains n)) = false := by
  have hsame : tags.contains n = tags.contains u := by rw [Bool.eq_iff_iff, List.contains_iff_mem, List.contains_iff_mem, htags]
  have hint : (x == 1 && !tags.contains n) = false := by
    by_cases hx : x = 1
    · rw [List.contains_iff_mem.2 (hsat hx), Bool.not_true, Bool.and_false]
    · rw [beq_false_of_ne hx, Bool.false_and]
  rw [hint, hsame, bne_self_eq_false, Bool.false_or]

end

/-- Settles O37: each word enters the operation that it names once its checks are met; MSIGN by what the signature makes of the muster. -/
theorem matrixInstructionsComplete : Obligations.MatrixInstructionsComplete := by
  intro d x n u m t fq q team room tile victim enq op bar fits address
  have henq (fr : Issue) (s : State) (o : MatrixOp) (ho : o.team = fr.g.team) : enq fr s o = s.enqueueOp (slotCore fr.site.slot) o :=
    (State.enqueueOp_eq s _ ho).symm
  have hissue (fr : Issue) (s : State) (kind : MatKind) (quad : BitVec 128) (maps : List (BitVec 128)) :
      enq fr s (op fr kind quad maps) = fr.issueOp s kind quad maps := henq fr s (op fr kind quad maps) rfl
  have hkept (fr : Issue) (s : State) (kind : MatKind) (quad : BitVec 128) (maps : List (BitVec 128)) :
      RunsKept s (enq fr s (op fr kind quad maps)) := by
    rw [hissue]
    exact runsKept_enqueueOp s _ _
  have htile {fr : Issue} {s : State} {k : Nat} (h : tile fr s k) : s.tileOk fr k = .ok () := State.tileOk_of h
  have hfits {sp : Option Bool} {maps : List (BitVec 128)} {fr : Issue} {s : State} (h : fits sp maps fr s) :
      s.OpFits fr.g.team (fr.quadOf d) sp maps := by
    obtain ⟨h₁, h₂, h₃, h₄, hsp, hlo, hhi, hacc, hmaps, hlatch, hsame, hty, hra, hrb, hwa, hwb, hbits, hsat, htag, hbar, hspans, htan⟩ := h
    exact ⟨⟨h₁, h₂, h₃, h₄⟩, hsp, ⟨hlo, hhi⟩, hacc, hmaps, hlatch, ⟨hsame, hty⟩, ⟨hra, hrb⟩, ⟨hwa, hwb⟩, hbits, hsat, htag, hbar, hspans, htan⟩
  have haddress {floats : Bool} {fr : Issue} {s : State} (h : address floats fr s) : s.checkQuad fr (fr.quadOf d) floats = .ok () := by
    obtain ⟨hstride, hbase, hrows, hbar, hspans, htan⟩ := h
    exact State.QuadFits.checkQuad ⟨hstride, ⟨hbase, hrows⟩, hbar, hspans, htan⟩
  refine ⟨?_, ?_, ?_, ?_, ?_, ?_, ?_, ?_⟩
  · refine .of_kept (exec_mma d t) ?_ fun _ _ _ _ => hkept _ _ _ _ _
    rintro maps fr s ⟨hf, hr⟩
    rw [hissue]
    exact mmBody_ok (hfits hf) hr
  · refine .of_kept (exec_mmas d t) ?_ fun _ _ _ _ => hkept _ _ _ _ _
    rintro maps fr s ⟨hf, hr⟩
    rw [hissue]
    exact mmBody_ok (hfits hf) hr
  · refine .of_kept (exec_mmz t · n x) ?_ fun _ _ _ _ => hkept _ _ _ _ _
    rintro - fr s ⟨hn, hr⟩
    rw [hissue, htile hn, opBody_ok hr]
    rfl
  · refine .of_kept (exec_accld d t · n x) ?_ fun _ _ _ _ => hkept _ _ _ _ _
    rintro - fr s ⟨hn, ha, hr⟩
    rw [hissue, htile hn, haddress ha, opBody_ok hr]
    rfl
  · refine .of_kept (exec_accst d t · n) ?_ fun _ _ _ _ => hkept _ _ _ _ _
    rintro - fr s ⟨hn, ha, hr⟩
    rw [hissue, htile hn, haddress ha, opBody_ok hr]
    rfl
  · refine .of_kept (exec_accmv t · n u) ?_ fun _ _ _ _ => hkept _ _ _ _ _
    rintro - fr s ⟨hn, hu, hr⟩
    rw [hissue, htile hn, htile hu, opBody_ok hr]
    rfl
  · refine .of_kept (exec_accadd t · n u x) ?_ fun _ _ _ _ => hkept _ _ _ _ _
    rintro - fr s ⟨hn, hu, htags, hsat, hr⟩
    rw [hissue, htile hn, htile hu, addTags_ok htags hsat, opBody_ok hr]
    rfl
  · intro now signed setMuster
    have hlast (maps : List (BitVec 128)) (fr : Issue) (s : State) :
        enq fr (setMuster fr s { Muster.none with mask := (signed maps fr s).mask })
          { op fr .mm (signed maps fr s).desc (signed maps fr s).maps with
            signers := (List.range 16).filter (bit (signed maps fr s).signed), after := (signed maps fr s).after, pc := (signed maps fr s).pc } =
        s.musterIssue (slotCore fr.site.slot) fr.g.team m.toNat (signed maps fr s) := henq fr _ _ rfl
    refine .of_kept (exec_msign m d t) ?_ ?_
    · rintro maps fr s ⟨hf, hm, hmask, hnew, hdesc, hr⟩
      rw [msignBody_signs (hfits hf) hm hmask hnew hdesc]
      refine (signBody_ok hr).trans ?_
      dsimp only
      rw [hlast]
      rfl
    · intro maps fr s _
      dsimp only
      rw [hlast]
      exact .ite (runsKept_musterIssue _ _ _) (runsKept_setTeam s _ _)

end Sys2Proof.Machine

namespace Sys2Proof.Machine
open Sys2Proof

/-! ## OMSET and MSTCFG (R200, R201) -/

/-- A map that the team is granted, whose reserved bits are 0 and whose base and strides are multiples of 16, a bitmap's row stride being 0 (R200). -/
def mapOk (s : State) (team n : Nat) (q : BitVec 128) : Prop :=
  n < (s.gridOf team).omn ∧ quadField q 56 8 = 0 ∧ quadField q 115 13 = 0 ∧ mapBase q % 16 = 0 ∧ quadField q 64 32 % 16 = 0 ∧
    mapRstride q % 16 = 0 ∧ (mapType q = 3 → mapRstride q = 0)

/-- OMSET refuses a map that is not in order. -/
def mapBad (s : State) (team n : Nat) (q : BitVec 128) : Bool :=
  decide ((s.gridOf team).omn ≤ n) || quadField q 56 8 != 0 || quadField q 115 13 != 0 || mapBase q % 16 != 0 || quadField q 64 32 % 16 != 0 ||
    mapRstride q % 16 != 0 || (mapType q == 3 && mapRstride q != 0)

theorem mapBad_eq_false_iff {s : State} {team n : Nat} {q : BitVec 128} : mapBad s team n q = false ↔ mapOk s team n q := by
  simp [mapBad, mapOk, and_assoc]

theorem exec_omset (n : BitVec 4) (a : RegField) (t : Tail) (s : State) :
    exec (.omset n a t) s = issue (quadForm a) t s fun fr s => (do
      refuseIf (mapBad s fr.g.team n.toNat (fr.quadOf a)) .matrixShape
      .ok (s.setTeam fr.g.team { s.team fr.g.team with maps := (s.team fr.g.team).maps.put n.toNat (fr.quadOf a) }, 0)) := rfl

/-- A muster that the team is granted and that nothing has signed, with a mask of groups that the team began with (R201). -/
def musterFree (s : State) (fr : Issue) (m v : Nat) : Prop :=
  m < (s.gridOf fr.g.team).musn ∧ v < 65536 ∧ v < 2 ^ s.teamGroups fr.g.team ∧ (fr.muster s m).signed = 0

/-- MSTCFG refuses any other. -/
def musterBusy (s : State) (fr : Issue) (m v : Nat) : Bool :=
  decide ((s.gridOf fr.g.team).musn ≤ m) || decide (65536 ≤ v) || decide (2 ^ s.teamGroups fr.g.team ≤ v) || (fr.muster s m).signed != 0

theorem musterBusy_eq_false_iff {s : State} {fr : Issue} {m v : Nat} : musterBusy s fr m v = false ↔ musterFree s fr m v := by
  simp [musterBusy, musterFree, and_assoc]

/-- The word that a scalar source gives. -/
def Issue.scalarWord (fr : Issue) (a : RegField) : Nat := ((fr.read 0 { f := a, tan := false } 0).headD 0).toNat % 2 ^ 32

theorem exec_mstcfg (m : BitVec 4) (a : RegField) (t : Tail) (s : State) :
    exec (.mstcfg m a t) s = issue { cls := .matrix, srcs := [{ f := a, tan := false }], bad := fun _ => !isSZ a } t s fun fr s => (do
      refuseIf (musterBusy s fr m.toNat (fr.scalarWord a)) .musterMismatch
      .ok (s.setTeam fr.g.team { s.team fr.g.team with
        musters := (s.team fr.g.team).musters.put m.toNat ⟨fr.scalarWord a, 0, 0, [], 0, []⟩ }, 0)) := rfl

/-! ## MMWAIT and MMSTAT (R204, R205) -/

/-- How MMWAIT raises a kept cause: with the address and PC kept, to resume after it (R204). -/
def Kept.raisedByWait (k : Kept) : Trap :=
  { cause := k.cause, addr := k.addr, aux := k.pc.setWidth 64, after := true, clears := some 0, replayed := k.replayed }

/-- MMWAIT's body. -/
def mmwaitBody (fr : Issue) (s : State) : Except Stop (State × BitVec 64) :=
  if s.matrixCount fr.g != 0 then .error (fr.suspend s .matrix)
  else match fr.g.mkept with
    | k :: _ => .error (.trap k.raisedByWait)
    | [] => .ok (s.discard (slotCore fr.site.slot) 3, 0)

theorem exec_mmwait (t : Tail) (s : State) : exec (.mmwait t) s = issue { cls := .matrix } t s mmwaitBody := rfl

section
variable {fr : Issue} {s : State}

theorem mmwaitBody_acquires (hc : s.matrixCount fr.g = 0) (hk : fr.g.mkept = []) :
    mmwaitBody fr s = .ok (s.discard (slotCore fr.site.slot) 3, 0) := by simp [mmwaitBody, hc, hk]

theorem mmwaitBody_raises {k : Kept} {ks : List Kept} (hc : s.matrixCount fr.g = 0) (hk : fr.g.mkept = k :: ks) :
    mmwaitBody fr s = .error (.trap k.raisedByWait) := by simp [mmwaitBody, hc, hk]

end

/-- The words that MMSTAT reads: the low one of FLAGS, the count, a kept cause and FAILED, and the rerun counter. -/
def mmstatWords (fr : Issue) (s : State) : List Word :=
  [BitVec.ofNat 32 ((s.team fr.g.team).mflags.toNat % 32 + 256 * min 255 (s.matrixCount fr.g) +
      2 ^ 16 * (fr.g.mkept.head?.map fun k => k.cause.code).getD 0 + if (s.team fr.g.team).mfailed.isSome then 2 ^ 24 else 0),
    BitVec.ofNat 32 (min (2 ^ 32 - 1) (s.ctx (s.owner fr.g).1 (s.owner fr.g).2).reruns)]

/-- The state in which MMSTAT writes: FLAGS are cleared where it says so. -/
def mmstatClears (c : BitVec 1) (fr : Issue) (s : State) : State :=
  if c = 1 then s.setTeam fr.g.team { s.team fr.g.team with mflags := 0 } else s

theorem exec_mmstat (d : RegField) (c : BitVec 1) (t : Tail) (s : State) : exec (.mmstat d c t) s =
    issue { cls := .matrix, dst := some { f := d, width := 2 }, rule := .anyS, bad := fun _ => !isS d && !isV d } t s
      fun fr s => .ok (fr.writeOnce (mmstatClears c fr s) d (mmstatWords fr s), 0) := rfl

/-- Settles O38: OMSET and MSTCFG by what they refuse, MMWAIT by what the group keeps, MMSTAT by the words that it reads. -/
theorem matrixStateInstructionsComplete : Obligations.MatrixStateInstructionsComplete := by
  intro n m a d c t fq q good fm v free fd
  have hgood (fr : Issue) (s : State) : mapBad s fr.g.team n.toNat (fr.quadOf a) = false ↔ good fr s := mapBad_eq_false_iff
  have hfree (fr : Issue) (s : State) : musterBusy s fr m.toNat (fr.scalarWord a) = false ↔ free fr s := musterBusy_eq_false_iff
  refine ⟨?_, ?_, ?_, ?_, ?_, ?_, ?_⟩
  · refine .of_kept (exec_omset n a t) ?_ fun _ fr s _ => runsKept_setTeam s _ _
    intro _ fr s h
    rw [(hgood fr s).2 h]
    rfl
  · refine .of _ (exec_omset n a t) ?_
    intro fr s h
    rw [Bool.of_not_eq_false (mt (hgood fr s).1 h)]
    rfl
  · refine .of_kept (exec_mstcfg m a t) ?_ fun _ fr s _ => runsKept_setTeam s _ _
    intro _ fr s h
    rw [(hfree fr s).2 h]
    rfl
  · refine .of _ (exec_mstcfg m a t) ?_
    intro fr s h
    rw [Bool.of_not_eq_false (mt (hfree fr s).1 h)]
    rfl
  · exact .of_kept (exec_mmwait t) (fun _ fr s ⟨hc, hk⟩ => mmwaitBody_acquires hc hk) fun _ fr s _ => runsKept_discard s _ _
  · exact fun k ks => .of _ (exec_mmwait t) fun fr s ⟨hc, hk⟩ => mmwaitBody_raises hc hk
  · refine .of_kept (exec_mmstat d c t) ?_ fun _ fr s _ => (RunsKept.ite (runsKept_setTeam s _ _) (.refl s)).trans (runsKept_commit _ fr none _)
    intro _ fr s _
    have hfailed (x : Option Kept) : (if x.isSome then 2 ^ 24 else 0 : Nat) = if x = none then 0 else 2 ^ 24 := by cases x <;> rfl
    simp only [Issue.writeOnce, mmstatWords, hfailed]
    cases hk : fr.g.mkept with
    | nil => rfl
    | cons k ks => rfl

end Sys2Proof.Machine

namespace Sys2Proof.Machine
open Sys2Proof

/-! ## Channels of a team (R208, R215) -/

/-- The first command of a channel leaves its queue as it is. -/
@[simp] theorem Channel.begin_queue (x : Channel) : x.begin.queue = x.queue := by
  unfold Channel.begin
  split
  · split <;> rfl
  · rfl

section
variable (s : State) (team ch : Nat)

theorem State.chan_putChan (x : Channel) : ((s.putChan team ch x).team team).chan ch = x := by
  rw [State.putChan, State.team_setTeam_self]
  exact (Table.getD_put ..).trans (if_pos rfl)

theorem State.chan_putCmd (c : CopyCmd) :
    ((s.putCmd team ch c).team team).chan ch =
      { (s.team team).chan ch with queue := c :: ((s.team team).chan ch).queue.drop 1 } := s.chan_putChan team ch _

/-- A change of a buffer leaves every channel as it was. -/
theorem State.chan_modBuf (key : Nat) (f : Buffer → Buffer) : ((s.modBuf key f).team team).chan ch = (s.team team).chan ch := by
  unfold State.modBuf
  rw [State.team_setTeam]
  split
  · next h => rw [h]; rfl
  · rfl

theorem State.chan_modBufs (l : List Nat) (f : Buffer → Buffer) :
    ((l.foldl (fun s k => s.modBuf k f) s).team team).chan ch = (s.team team).chan ch := by
  induction l generalizing s with
  | nil => rfl
  | cons k ks ih => rw [List.foldl_cons, ih, State.chan_modBuf]

end

/-! ## COPY_ROW (R209, R214 to R219, R420) -/

/-- A command stands at its next row, or after the last one (or a sparse tile) at its next pass (R214, R219). -/
def CopyCmd.rowOn (c : CopyCmd) (g : CopyGeo) : CopyCmd :=
  let last := g.sparse || decide (g.drows ≤ c.row + 1)
  { c with row := if last then 0 else c.row + 1, pass := if last then c.pass + 1 else c.pass, parked := none, got := [], pos := 0 }

/-- A written row moves its command on, sets WP and ORs the row's exceptions into FLAGS (R215). -/
theorem State.chan_rowDone (s : State) (team ch : Nat) (c : CopyCmd) (g : CopyGeo) (k : Nat) (idx : List Int) (fl : BitVec 6) :
    ((s.rowDone team ch c g k idx fl).team team).chan ch = { (s.team team).chan ch with
      queue := c.rowOn g :: ((s.team team).chan ch).queue.drop 1
      wp := if c.pass = 0 && c.toWindow then c.wpAfter g idx c.row else ((s.team team).chan ch).wp
      flags := ((s.team team).chan ch).flags ||| (fl &&& 0x1F) } := by
  have hbufs (p : Prop) [Decidable p] (u : State) (f : Buffer → Buffer) :
      ((if p then c.src.foldl (fun s b => s.modBuf b f) u else u).team team).chan ch = (u.team team).chan ch := by
    split
    · exact u.chan_modBufs team ch _ f
    · rfl
  unfold State.rowDone
  refine (hbufs ..).trans ?_
  split
  · split
    · exact (State.chan_modBuf ..).trans (State.chan_putChan ..)
    · exact State.chan_putChan ..
  · exact State.chan_putChan ..

/-- A T cause discards a channel's commands and is kept (R216). -/
theorem State.chan_failChan (s : State) (team ch : Nat) (pc : BitVec 56) (replayed : Bool) (cc : Cause) (ea : Nat) :
    ((s.failChan team ch pc replayed cc ea).team team).chan ch = { (s.team team).chan ch with
      queue := [], failed := true, kept := some ⟨cc, some (BitVec.ofNat 64 ea), pc, replayed⟩ } := State.chan_putChan ..

section
variable (s : State) (team ch : Nat)

/-- The caster at work for a channel. -/
abbrev State.chanAgent : Agent := s.agentOf (chanTag team ch) .caster team

/-- The core's channels take their turns from this one on (R209). -/
def State.chanServed : State := s.setCore (s.team team).core { s.core (s.team team).core with cturn := 16 * team + ch }

/-- The read-modify-write of a signal, in flight to its endpoint (R420). -/
def State.signalFlight (op ep : Nat) (c : CopyCmd) : Flight :=
  let w := s.chanAgent team ch
  let off := ofWords (c.desc.take 2)
  ⟨s.nextId, w.tag, w.core, coreDie w.core, w.vdev, w.ctx, 0, 0, c.pc, .atom (if op = 0 then 6 else 0) 2,
    [(0, ⟨0, 0, BitVec.ofNat 64 off, 8, bytesOf (c.desc.drop 2), []⟩, ⟨endpointPlace ep off, none, 0, w.vdev, 0⟩)], none, true⟩

/-- A signal has been sent (R420). -/
def State.signalSent (op ep : Nat) (c : CopyCmd) : State :=
  State.putCmd { s.chanServed team ch with nextId := s.nextId + 1, flight := s.flight ++ [s.signalFlight team ch op ep c] }
    team ch { c with sent := true }

/-- What stops a row: a wait, an absent page on which it parks, or a cause (R216, R217). -/
def State.copyStops (w : Agent) (c : CopyCmd) (write : Bool) : EngStop → State
  | .hold => s.putCmd team ch c
  | .absent ea gpa => match s.agentPark w write ea gpa c.parked with
    | none => s.putCmd team ch c
    | some (u, q) => u.putCmd team ch { c with parked := some q }
  | .cause cc ea => if cc.kind = .F then s.containCopy team c w cc ea else s.failChan team ch c.pc c.parked.isSome cc ea

/-- What becomes of a row whose source has been read and converted, `k` being the team's tangents (R214 to R217). -/
def State.deliverRow (w : Agent) (c : CopyCmd) (k : Nat) (got : List (BitVec 8)) (parts : List (Nat × List (BitVec 8))) (map : List Bool)
    (idx : List Int) (fl : BitVec 6) : State :=
  match s.rowRefused team c c.geo parts with
  | some (cc, ea) => s.copyStops team ch w c true (.cause cc ea)
  | none => match s.copyWrite w team c parts with
    | (u, n, some e) => u.copyStops team ch w { c with got := got, pos := n } true e
    | (u, _, none) => u.rowDone team ch { c with bitmap := if c.pass = 0 then map else c.bitmap } c.geo k idx fl

end

section
variable {s : State} {team ch : Nat} {c : CopyCmd}

/-- A row that is refused with a cause of kind T fails the channel (R216). -/
theorem State.deliverRow_refused {w : Agent} {k : Nat} {got : List (BitVec 8)} {parts : List (Nat × List (BitVec 8))} {map : List Bool}
    {idx : List Int} {fl : BitVec 6} {cc : Cause} {ea : Nat} (hr : s.rowRefused team c c.geo parts = some (cc, ea)) (hT : cc.kind = .T) :
    s.deliverRow team ch w c k got parts map idx fl = s.failChan team ch c.pc c.parked.isSome cc ea := by
  rw [State.deliverRow, hr]
  exact if_neg (by simp [hT])

/-- A row that is not refused, and whose every part is located, is written. -/
theorem State.deliverRow_written {w : Agent} {k n : Nat} {got : List (BitVec 8)} {parts : List (Nat × List (BitVec 8))} {map : List Bool}
    {idx : List Int} {fl : BitVec 6} {u : State} (hr : s.rowRefused team c c.geo parts = none)
    (hw : s.copyWrite w team c parts = (u, n, none)) : s.deliverRow team ch w c k got parts map idx fl =
      u.rowDone team ch { c with bitmap := if c.pass = 0 then map else c.bitmap } c.geo k idx fl := by
  rw [State.deliverRow, hr]
  dsimp only
  rw [hw]

variable (hc : s.chanReady team ch = some c) (ht : s.chanTurn (s.team team).core = some (16 * team + ch))
include hc ht

/-- COPY_ROW of a signal not yet sent sends it (R420). -/
theorem copyRow_signal {op ep : Nat} (hk : c.kind = .sig op ep) (hs : c.sent = false) :
    exec (.copyRow team ch) s = .next (s.signalSent team ch op ep c) := by
  change execCopyRow team ch s = _
  unfold execCopyRow
  rw [hc]
  refine (if_neg (by simp [ht])).trans ?_
  dsimp only
  split
  · next h =>
    cases hk.symm.trans h
    exact if_neg (by simp [hs])
  · next h => exact absurd hk (h _ _)

/-- COPY_ROW of any other command with a pass left delivers its row, once that is read and converted (R214 to R219). -/
theorem copyRow_row (hk : ∀ op ep, c.kind ≠ .sig op ep) (hp : c.pass < c.geo.passes (s.gridOf team).tangents) {u : State}
    {got : List (BitVec 8)} {parts : List (Nat × List (BitVec 8))} {map : List Bool} {idx : List Int} {fl : BitVec 6}
    (hrow : (s.chanServed team ch).rowParts (s.chanAgent team ch) team c c.geo (s.gridOf team).tstride = (u, got, .ok (parts, map, idx, fl))) :
    exec (.copyRow team ch) s =
      .next (u.deliverRow team ch (s.chanAgent team ch) c (s.gridOf team).tangents got parts map idx fl) := by
  unfold State.chanServed at hrow
  change execCopyRow team ch s = _
  unfold execCopyRow
  rw [hc]
  refine (if_neg (by simp [ht])).trans ?_
  dsimp only
  split
  · next h => exact absurd h (hk _ _)
  · refine (if_neg (Nat.not_le.2 hp)).trans ?_
    rw [hrow]
    unfold State.deliverRow
    dsimp only
    cases u.rowRefused team c c.geo parts with
    | some x => rfl
    | none =>
      obtain ⟨v, n, e⟩ := u.copyWrite (s.chanAgent team ch) team c parts
      cases e with
      | none => rfl
      | some e => cases e <;> rfl

end

/-! ## COPY_COMPLETE (R215, R216, R218, R420) -/

section
variable (s : State) (team ch n : Nat)

/-- The current command leaves its channel, and the next one becomes current (R215). -/
def State.popCmd : State :=
  s.putChan team ch (Channel.begin { (s.team team).chan ch with queue := ((s.team team).chan ch).queue.drop 1 })

/-- The bytes of a completed command are added to the device's copy meter (R218). -/
def State.countCopied : State :=
  let vd := (s.gridOf team).vdev
  let x := s.popCmd team ch
  x.setVdev vd { x.vdev vd with meters := (x.vdev vd).meters.set 3 ((x.vdev vd).meters.get 3 + BitVec.ofNat 64 n) }

/-- A completed command counts its bytes on barriers; the last that overflows is answered (R218). -/
def State.countBars (bars : List Nat) : State × Option Nat :=
  bars.foldl (fun (y : State × Option Nat) b => ((y.1.countFor team b n).1, if (y.1.countFor team b n).2 then some (y.2.getD b) else y.2)) (s, none)

theorem State.chan_popCmd_queue : (((s.popCmd team ch).team team).chan ch).queue = ((s.team team).chan ch).queue.drop 1 := by
  rw [State.popCmd, State.chan_putChan, Channel.begin_queue]

theorem State.meter_countCopied : ((s.countCopied team ch n).vdev (s.gridOf team).vdev).meters.get 3 =
    (s.vdev (s.gridOf team).vdev).meters.get 3 + BitVec.ofNat 64 n := by
  unfold State.countCopied
  dsimp only
  rw [State.vdev_setVdev, if_pos rfl]
  exact Regs.get_set_self ..

theorem State.countBars_nil : s.countBars team n [] = (s, none) := rfl

theorem State.countBars_one {b : Nat} {u : State} (h : s.countFor team b n = (u, false)) : s.countBars team n [b] = (u, none) := by
  simp [State.countBars, h]

end

section
variable {s : State} {team ch : Nat} {c : CopyCmd} (hc : s.chanReady team ch = some c) (hw : s.agentWaits (s.chanAgent team ch) = false)
include hc hw

/-- COPY_COMPLETE of a signal that has been sent and is performed (R420). -/
theorem copyComplete_signal {op ep : Nat} (hk : c.kind = .sig op ep) (hs : c.sent = true) :
    exec (.copyComplete team ch) s = .next (s.popCmd team ch) := by
  change execCopyComplete team ch s = _
  unfold execCopyComplete
  rw [hc]
  dsimp only
  rw [hk]
  exact if_pos (by simp [hs, hw])

/-- COPY_COMPLETE of any other command that has made its passes counts its bytes, where no barrier overflows (R218). -/
theorem copyComplete_counts (hk : ∀ op ep, c.kind ≠ .sig op ep) (hp : c.geo.passes (s.gridOf team).tangents ≤ c.pass) {u : State}
    (hb : (s.countCopied team ch (c.geo.passes (s.gridOf team).tangents * c.geo.counts)).countBars team
      (c.geo.passes (s.gridOf team).tangents * c.geo.counts) (c.bars c.geo) = (u, none)) :
    exec (.copyComplete team ch) s = .next u := by
  unfold State.countBars State.countCopied State.popCmd at hb
  change execCopyComplete team ch s = _
  unfold execCopyComplete
  rw [hc]
  dsimp only
  split
  · next h => exact absurd h (hk _ _)
  · refine (if_neg (by simp [hp, hw])).trans ?_
    dsimp only at hb
    rw [hb]

end

/-- Settles O50: a row by what becomes of it when it is delivered, a completion by the barriers that it counts on. That a row refused at the destination
leaves the memory as it was is the model's reading (DESIGN CHOICE: log 69). -/
theorem copyRowsComplete : Obligations.CopyRowsComplete := by
  unfold Obligations.CopyRowsComplete
  intro s team ch c hc gr w s0 chan turn
  refine ⟨fun op ep ht hk hs => ?_, fun s₁ s₂ got n parts map idx fl ht hk hp hrow hr hw => ?_,
    fun s₁ got parts map idx fl cc ea ht hk hp hrow hr hT => ?_, fun op ep hk hs hw => ?_, fun s₂ hk hp hw => ⟨fun hb => ?_, fun b hb hcount => ?_⟩⟩
  · exact ⟨_, s.signalFlight team ch op ep c, copyRow_signal hc ht hk hs, rfl, rfl, rfl, rfl, congrArg Channel.queue (State.chan_putCmd ..)⟩
  · have hchan := s₂.chan_rowDone team ch { c with bitmap := if c.pass = 0 then map else c.bitmap } c.geo gr.tangents idx fl
    refine ⟨_, (copyRow_row hc ht hk hp hrow).trans (congrArg _ (State.deliverRow_written hr hw)), State.rowDone_mem .., ?_, ?_⟩
    · exact congrArg Channel.flags hchan
    · exact congrArg Channel.queue hchan
  · have hchan := s₁.chan_failChan team ch c.pc c.parked.isSome cc ea
    exact ⟨_, (copyRow_row hc ht hk hp hrow).trans (congrArg _ (State.deliverRow_refused hr hT)), State.failChan_mem .., congrArg Channel.queue hchan,
      congrArg Channel.failed hchan, congrArg Channel.kept hchan⟩
  · exact ⟨_, copyComplete_signal hc hw hk hs, rfl, State.chan_popCmd_queue ..⟩
  · have hnone (n : Nat) : (s.countCopied team ch n).countBars team n (c.bars c.geo) = (s.countCopied team ch n, none) := by
      rw [hb, State.countBars_nil]
    exact ⟨_, copyComplete_counts hc hw hk hp (hnone _), rfl, State.chan_popCmd_queue .., State.meter_countCopied ..⟩
  · exact copyComplete_counts hc hw hk hp (by rw [hb]; exact State.countBars_one _ _ _ hcount)

end Sys2Proof.Machine

namespace Sys2Proof.Machine
open Sys2Proof

/-! ## Entering a command (R209, R221) -/

section
variable {s : State} {fr : Issue} {ch : Nat}

/-- A channel that is granted and not FAILED takes commands (R221 step 2). -/
theorem State.chanOk_of (hg : ch < (s.gridOf fr.g.team).chn) (hf : ((s.team fr.g.team).chan ch).failed = false) : s.chanOk fr ch = .ok () := by
  rw [State.chanOk, decide_eq_false (Nat.not_le.2 hg), hf]
  rfl

theorem State.chanGranted_of (hg : ch < (s.gridOf fr.g.team).chn) : s.chanGranted fr ch = .ok () := by
  rw [State.chanGranted, decide_eq_false (Nat.not_le.2 hg)]
  rfl

theorem State.chanGranted_of_not (hg : ¬ ch < (s.gridOf fr.g.team).chn) : s.chanGranted fr ch = trapE .copyChannelState := by
  rw [State.chanGranted, decide_eq_true (Nat.le_of_not_lt hg)]
  rfl

/-- A command stands last in its channel's queue, and an empty channel begins it (R209, R215). -/
theorem Issue.acceptCmd_eq (c : CopyCmd) : fr.acceptCmd s ch c =
    let x := (s.team fr.g.team).chan ch
    let y : Channel := { x with queue := x.queue ++ [c] }
    s.setTeam fr.g.team { s.team fr.g.team with chans := (s.team fr.g.team).chans.put ch (if x.queue = [] then y.begin else y) } := by
  simp only [Issue.acceptCmd, List.isEmpty_iff]

end

/-- The buffers of a command: its destination's becomes FILLING by its channel, each of its source's DRAINING (R140). -/
def State.takeBufs (s : State) (ch : Nat) (dst : Option Nat) (src : List Nat) : State :=
  src.foldl (fun s k => s.modBuf k fun b => { b with state := .draining, ch := ch })
    (match dst with
      | some k => s.modBuf k fun b => { b with state := .filling, ch := ch, wp := b.base }
      | none => s)

theorem runsKept_modBuf (s : State) (key : Nat) (f : Buffer → Buffer) : RunsKept s (s.modBuf key f) := runsKept_setTeam s _ _

theorem runsKept_takeBufs (s : State) (ch : Nat) (dst : Option Nat) (src : List Nat) : RunsKept s (s.takeBufs ch dst src) := by
  refine .trans ?_ (.foldl (fun s k => runsKept_modBuf s k _) src _)
  cases dst with
  | none => exact .refl s
  | some k => exact runsKept_modBuf s k _

/-- The kind with which a command stands in its queue: a copy to or from a peer names the package's endpoint (R419). -/
def State.queuedKind (s : State) (fr : Issue) : CopyKind → CopyKind
  | .peer get vep => .peer get ((s.endpointOf (s.owner fr.g).1 (s.owner fr.g).2 vep).getD 0)
  | k => k

/-- A command converts between types (R213). -/
def CopyKind.typed (k : CopyKind) : Prop := k = .cpyt ∨ k = .cpyo

section
variable (fr : Issue) (s : State) (kind : CopyKind) (a : RegField)

/-- The control word of a command (R211). -/
def Issue.copyCtl : BitVec 28 := fr.mods.ext.getD 0

/-- The format register that a command's control word names (R211). -/
def Issue.copyFmt : BitVec 64 := (s.team fr.g.team).fmts.get (ctlField fr.copyCtl 0 5)

/-- The geometry of the command that a word with its descriptor at `a` gives. -/
def Issue.copyGeo : CopyGeo := geoOf kind (fr.sregs a 8) fr.copyCtl (fr.copyFmt s)

/-- A converting command names a storage type or a format register, a pair of R213, and of a narrow format a usable register (R221 step 3). -/
structure Issue.TypesFit : Prop where
  named : ctlField fr.copyCtl 5 3 = 0 ∨ ctlField fr.copyCtl 0 5 = 0
  pair : pairOk (kind == .cpyo) (fr.copyGeo s kind a).st (fr.copyGeo s kind a).ct = true
  format : (fr.copyGeo s kind a).st = 0 → ctlField fr.copyCtl 0 5 < (s.gridOf fr.g.team).fmtn ∧ fr.copyFmt s ≠ 0 ∧
    ((Narrow.of (fr.copyFmt s)).bsm = true → (if kind = .cpyt then (fr.copyGeo s kind a).cols else (fr.copyGeo s kind a).dcols) % 16 = 0)

/-- A command of a channel meets every check of R221, and takes these buffers. -/
structure Issue.CopyFits (ch : Nat) (x : Option Nat × List Nat) : Prop where
  granted : ch < (s.gridOf fr.g.team).chn
  working : ((s.team fr.g.team).chan ch).failed = false
  reserved : ((fr.sregs a 8).getD 1 0).extractLsb' 24 8 = 0 ∧ ((fr.sregs a 8).getD 3 0).extractLsb' 24 8 = 0 ∧
    (kind = .fill → (fr.sregs a 8).getD 5 0 = 0)
  types : kind.typed → fr.TypesFit s kind a
  shape : checkShape kind fr.copyCtl (fr.copyGeo s kind a) = .ok ()
  endpoint : s.checkEndpoint fr kind = .ok ()
  spans : s.checkCopy fr kind fr.copyCtl (fr.copyGeo s kind a) = .ok ()
  bufs : s.copyBufs fr kind (fr.copyGeo s kind a) = .ok x
  tangents : (fr.copyGeo s kind a).tan = true → (s.gridOf fr.g.team).tangents = 0 ∨ (s.gridOf fr.g.team).tstride ≠ 0

/-- The descriptor of a command is refused: a reserved bit of it is set, or it names a format register and another storage type (R221 step 1). -/
def Issue.descBad : Bool :=
  ((fr.sregs a 8).getD 1 0).extractLsb' 24 8 != 0 || ((fr.sregs a 8).getD 3 0).extractLsb' 24 8 != 0 ||
    (kind == .fill && (fr.sregs a 8).getD 5 0 != 0) ||
    ((kind == .cpyt || kind == .cpyo) && ctlField fr.copyCtl 5 3 != 0 && ctlField fr.copyCtl 0 5 != 0)

/-- The types of a converting command are refused (R221 step 3). -/
def Issue.typesBad : Bool :=
  (kind == .cpyt || kind == .cpyo) && (!pairOk (kind == .cpyo) (fr.copyGeo s kind a).st (fr.copyGeo s kind a).ct ||
    ((kind == .cpyt || kind == .cpyo) && (fr.copyGeo s kind a).st == 0 &&
      (decide ((s.gridOf fr.g.team).fmtn ≤ ctlField fr.copyCtl 0 5) || fr.copyFmt s == 0 ||
        ((Narrow.of (fr.copyFmt s)).bsm &&
          (if kind == .cpyt then (fr.copyGeo s kind a).cols else (fr.copyGeo s kind a).dcols) % 16 != 0))))

/-- The command that a word enters (R209, R210). -/
def Issue.copyCmd (x : Option Nat × List Nat) : CopyCmd :=
  ⟨s.queuedKind fr kind, fr.sregs a 8, fr.copyCtl, fr.copyFmt s, fr.site.pc, [fr.afterNow], 0, 0, x.1, x.2, [], false, none, [], 0⟩

end

section
variable {fr : Issue} {s : State} {kind : CopyKind} {a : RegField} {ch : Nat} {x : Option Nat × List Nat}

theorem Issue.CopyFits.descBad_eq_false (h : fr.CopyFits s kind a ch x) : fr.descBad kind a = false := by
  obtain ⟨hsrc, hdst, hfill⟩ := h.reserved
  refine Bool.eq_false_iff.2 fun hbad => ?_
  simp only [Issue.descBad, hsrc, hdst, bne_self_eq_false, Bool.false_or, Bool.or_eq_true, Bool.and_eq_true, beq_iff_eq, bne_iff_ne] at hbad
  obtain ⟨hk, hset⟩ | ⟨⟨hk, hst⟩, hreg⟩ := hbad
  · exact hset (hfill hk)
  · exact (h.types hk).named.elim hst hreg

theorem Issue.CopyFits.typesBad_eq_false (h : fr.CopyFits s kind a ch x) : fr.typesBad s kind a = false := by
  refine Bool.eq_false_iff.2 fun hbad => ?_
  simp only [Issue.typesBad, Bool.or_eq_true, Bool.and_eq_true, Bool.not_eq_true', decide_eq_true_eq, beq_iff_eq, bne_iff_ne] at hbad
  obtain ⟨hk, hbad⟩ := hbad
  obtain ⟨-, hpair, hformat⟩ := h.types hk
  obtain hbad | ⟨⟨-, hst⟩, hbad⟩ := hbad
  · exact Bool.eq_false_iff.1 hbad hpair
  · obtain ⟨hgrant, hset, hrows⟩ := hformat hst
    obtain (hbad | hbad) | ⟨hbsm, hbad⟩ := hbad
    · exact Nat.not_le.2 hgrant hbad
    · exact hset hbad
    · exact hbad (hrows hbsm)

/-- A command that meets the checks of R221 enters its channel's queue and takes its buffers. -/
theorem Issue.CopyFits.acceptCopy (h : fr.CopyFits s kind a ch x) :
    fr.acceptCopy s kind ch a = .ok ((fr.acceptCmd s ch (fr.copyCmd s kind a x)).takeBufs ch x.1 x.2, 0) := by
  have htan : ((fr.copyGeo s kind a).tan && (s.gridOf fr.g.team).tangents != 0 && (s.gridOf fr.g.team).tstride == 0) = false := by
    cases ht : (fr.copyGeo s kind a).tan with
    | false => rfl
    | true => rcases h.tangents ht with h | h <;> simp [h]
  have hdesc := h.descBad_eq_false
  have htypes := h.typesBad_eq_false
  have hshape := h.shape
  have hspans := h.spans
  have hbufs := h.bufs
  unfold Issue.descBad at hdesc
  unfold Issue.typesBad at htypes
  unfold Issue.copyGeo Issue.copyFmt Issue.copyCtl at *
  unfold Issue.acceptCopy
  dsimp only
  rw [hdesc, State.chanOk_of h.granted h.working, htypes, hshape, h.endpoint, hspans, hbufs, htan]
  simp only [refuseIf_false, ok_bind]
  rfl

end

/-- Settles O39: every word by the command that it enters and the buffers that this takes. -/
theorem copyInstructionsComplete : Obligations.CopyInstructionsComplete := by
  intro c a t desc ctl chan fmt accepts
  have haccepts {i : Instr} {form : CopyKind} (kind : Issue → CopyKind) (queued : Issue → State → CopyKind)
      (hq : ∀ fr s, s.queuedKind fr (kind fr) = queued fr s)
      (he : ∀ s, exec i s = issue (copyForm form c.toNat a) t s fun fr s => fr.acceptCopy s (kind fr) c.toNat a) :
      accepts i form kind queued := by
    refine .of_kept he ?_ fun x _ s _ => (runsKept_setTeam s _ _).trans (runsKept_takeBufs _ c.toNat x.1 x.2)
    rintro x fr s ⟨hgrant, -, hfailed, hsrc, hdst, hfill, htypes, hshape, hend, hspans, hbufs, htan⟩
    have hfits : fr.CopyFits s (kind fr) a c.toNat x :=
      ⟨hgrant, hfailed, ⟨hsrc, hdst, hfill⟩, fun hk =>
        let ⟨hnamed, hpair, hformat⟩ := htypes hk
        ⟨hnamed, hpair, hformat⟩, hshape, hend, hspans, hbufs, htan⟩
    rw [hfits.acceptCopy, Issue.acceptCmd_eq, Issue.copyCmd, hq]
    rfl
  refine ⟨?_, haccepts _ _ (fun _ _ => rfl) fun _ => rfl⟩
  intro x hx
  fin_cases hx
  all_goals exact haccepts _ _ (fun _ _ => rfl) fun _ => rfl

end Sys2Proof.Machine

namespace Sys2Proof.Machine
open Sys2Proof

/-! ## PSIG (R420) -/

/-- PSIG's form. -/
abbrev psigForm (ch : Nat) (a : RegField) : Form :=
  { cls := .copy, first := fun s slot g => s.chanFree slot g ch, acc := { needExt := true }, srcs := [runOpnd a 4],
    bad := fun m => badRunAt 4 a || (m.ext.getD 0 &&& ~~~(0x3F : BitVec 28)) != 0 || (m.ext.getD 0).getLsbD 1 }

section
variable (fr : Issue) (s : State) (ch : Nat) (a : RegField)

/-- The package's endpoint that a signal names (R419). -/
def Issue.signalEndpoint : Option Nat := s.endpointOf (s.owner fr.g).1 (s.owner fr.g).2 (ctlField fr.copyCtl 2 4)

/-- The command of a signal to an endpoint (R420). -/
def Issue.signalCmd (ep : Nat) : CopyCmd :=
  ⟨.sig (ctlField fr.copyCtl 0 2) ep, fr.sregs a 4, fr.copyCtl, 0, fr.site.pc, [fr.afterNow], 0, 0, none, [], [], false, none, [], 0⟩

/-- PSIG's body. -/
def psigBody : Except Stop (State × BitVec 64) := do
  s.chanOk fr ch
  s.checkEndpoint fr (.sig (ctlField fr.copyCtl 0 2) (ctlField fr.copyCtl 2 4))
  requireA (decide (ofWords ((fr.sregs a 4).take 2) % 8 = 0)) .align (BitVec.ofNat 64 (ofWords ((fr.sregs a 4).take 2)))
  .ok (fr.acceptCmd s ch (fr.signalCmd a ((fr.signalEndpoint s).getD 0)), 0)

end

theorem exec_psig (c : BitVec 4) (a : RegField) (t : Tail) (s : State) :
    exec (.psig c a t) s = issue (psigForm c.toNat a) t s fun fr s => psigBody fr s c.toNat a := rfl

section
variable {fr : Issue} {s : State} {ch ep : Nat} {a : RegField}

/-- A signal to a bound endpoint passes the endpoint's check while the fabric is on (R419). -/
theorem State.checkEndpoint_signal {op : Nat} (hf : s.feature 5 = true) (he : fr.signalEndpoint s = some ep) :
    s.checkEndpoint fr (.sig op (ctlField fr.copyCtl 2 4)) = .ok () := by
  unfold Issue.signalEndpoint at he
  unfold State.checkEndpoint
  dsimp only
  rw [he, hf]
  rfl

/-- An aligned signal to a bound endpoint enters its channel. -/
theorem psigBody_ok (hg : ch < (s.gridOf fr.g.team).chn) (hw : ((s.team fr.g.team).chan ch).failed = false) (hf : s.feature 5 = true)
    (he : fr.signalEndpoint s = some ep) (ha : ofWords ((fr.sregs a 4).take 2) % 8 = 0) :
    psigBody fr s ch a = .ok (fr.acceptCmd s ch (fr.signalCmd a ep), 0) := by
  simp only [psigBody, State.chanOk_of hg hw, State.checkEndpoint_signal hf he, decide_eq_true ha, requireA, if_true, ok_bind, he, Option.getD_some]

end

/-! ## CHWAIT (R222) -/

/-- How CHWAIT raises a channel's kept cause: with the address and PC kept, to resume after it (R222). -/
def Kept.raisedByChwait (k : Kept) (ch : Nat) : Trap :=
  { cause := k.cause, addr := k.addr, aux := k.pc.setWidth 64, after := true, clears := some (ch + 1), replayed := k.replayed }

/-- The value of WP that CHWAIT waits for; none for ZERO (R222). -/
def Issue.awaitedWp (fr : Issue) (a : RegField) : Option Nat := if isZero a then none else some (fr.scalarWord a)

/-- CHWAIT's body. -/
def chwaitBody (fr : Issue) (s : State) (ch : Nat) (a : RegField) : Except Stop (State × BitVec 64) := do
  s.chanGranted fr ch
  match ((s.team fr.g.team).chan ch).kept with
  | some k => .error (.trap (k.raisedByChwait ch))
  | none =>
    if s.channelMet fr.g.team ch (fr.awaitedWp a) then .ok (s.discard (slotCore fr.site.slot) 3, 0)
    else .error (fr.suspend s (.channel ch (fr.awaitedWp a)))

theorem exec_chwait (c : BitVec 4) (a : RegField) (t : Tail) (s : State) : exec (.chwait c a t) s =
    issue { cls := .copy, srcs := [{ f := a, tan := false }], bad := fun _ => !isSZ a } t s fun fr s => chwaitBody fr s c.toNat a := rfl

section
variable {fr : Issue} {s : State} {ch : Nat} {a : RegField}

theorem chwaitBody_not_granted (hg : ¬ ch < (s.gridOf fr.g.team).chn) : chwaitBody fr s ch a = trapE .copyChannelState := by
  rw [chwaitBody, State.chanGranted_of_not hg]
  rfl

theorem chwaitBody_raises {k : Kept} (hg : ch < (s.gridOf fr.g.team).chn) (hk : ((s.team fr.g.team).chan ch).kept = some k) :
    chwaitBody fr s ch a = .error (.trap (k.raisedByChwait ch)) := by
  rw [chwaitBody, State.chanGranted_of hg, ok_bind, hk]

theorem chwaitBody_acquires (hg : ch < (s.gridOf fr.g.team).chn) (hk : ((s.team fr.g.team).chan ch).kept = none)
    (hm : s.channelMet fr.g.team ch (fr.awaitedWp a) = true) : chwaitBody fr s ch a = .ok (s.discard (slotCore fr.site.slot) 3, 0) := by
  rw [chwaitBody, State.chanGranted_of hg, ok_bind, hk]
  exact if_pos hm

end

/-! ## CHSTAT (R223) -/

/-- The form of a word that writes a pair. -/
abbrev pairForm (d : RegField) : Form := { cls := .copy, dst := some { f := d, width := 2 }, rule := .anyS, bad := fun _ => !isS d && !isV d }

/-- The words that CHSTAT reads: state, commands, FLAGS and kept cause, and WP. -/
def State.chanWords (s : State) (team : Nat) (x : Channel) : List Word :=
  [BitVec.ofNat 32 (s.chanState team x + 4 * x.queue.length + 64 * (x.flags.toNat % 32) +
    2 ^ 16 * ((x.kept.map fun k => k.cause.code).getD 0)), BitVec.ofNat 32 x.wp]

/-- The state in which CHSTAT writes: FLAGS are cleared where it says so. -/
def chstatClears (l : BitVec 1) (fr : Issue) (s : State) (ch : Nat) : State :=
  if l = 1 then s.putChan fr.g.team ch { (s.team fr.g.team).chan ch with flags := 0 } else s

/-- CHSTAT's body. -/
def chstatBody (fr : Issue) (s : State) (d : RegField) (l : BitVec 1) (ch : Nat) : Except Stop (State × BitVec 64) := do
  s.chanGranted fr ch
  .ok (fr.writeOnce (chstatClears l fr s ch) d (s.chanWords fr.g.team ((s.team fr.g.team).chan ch)), 0)

theorem exec_chstat (d : RegField) (l : BitVec 1) (c : BitVec 4) (t : Tail) (s : State) :
    exec (.chstat d l c t) s = issue (pairForm d) t s fun fr s => chstatBody fr s d l c.toNat := rfl

/-! ## FMTSET and FMTGET (R224) -/

/-- The 64-bit value of an S pair. -/
def Issue.pairValue (fr : Issue) (a : RegField) : BitVec 64 := BitVec.ofNat 64 (ofWords (fr.sregs a 2))

/-- A format register that is granted, with a valid value (R38, R224). -/
def fmtFits (s : State) (team n : Nat) (v : BitVec 64) : Prop := n < (s.gridOf team).fmtn ∧ Narrow.valid v = true

/-- FMTSET refuses any other. -/
def fmtBad (s : State) (team n : Nat) (v : BitVec 64) : Bool := decide ((s.gridOf team).fmtn ≤ n) || !Narrow.valid v

theorem fmtBad_eq_false_iff {s : State} {team n : Nat} {v : BitVec 64} : fmtBad s team n v = false ↔ fmtFits s team n v := by
  simp [fmtBad, fmtFits]

theorem exec_fmtset (n : BitVec 5) (a : RegField) (t : Tail) (s : State) : exec (.fmtset n a t) s =
    issue { cls := .copy, srcs := [runOpnd a 2], bad := fun _ => badRunAt 2 a } t s fun fr s => (do
      refuseIf (fmtBad s fr.g.team n.toNat (fr.pairValue a)) .copyFormat
      .ok (s.setTeam fr.g.team { s.team fr.g.team with fmts := (s.team fr.g.team).fmts.set n.toNat (fr.pairValue a) }, 0)) := rfl

/-- The words of a format register. -/
def fmtWords (v : BitVec 64) : List Word := [v.setWidth 32, (v >>> 32).setWidth 32]

theorem fmtWords_eq (v : BitVec 64) : fmtWords v = [v.extractLsb' 0 32, v.extractLsb' 32 32] := rfl

theorem exec_fmtget (d : RegField) (n : BitVec 5) (t : Tail) (s : State) : exec (.fmtget d n t) s =
    issue (pairForm d) t s fun fr s => (do
      refuseIf (decide ((s.gridOf fr.g.team).fmtn ≤ n.toNat)) .copyFormat
      .ok (fr.writeOnce s d (fmtWords ((s.team fr.g.team).fmts.get n.toNat)), 0)) := rfl

/-- Settles O40: the signal by its checks, the waits and the status by the channel that they read, the format registers by what is refused. -/
theorem channelInstructionsComplete : Obligations.ChannelInstructionsComplete := by
  intro c n l a d t chan granted set fs regs fw wp fd out ff fmtOk
  have hfits (fr : Issue) (s : State) : fmtBad s fr.g.team n.toNat (fr.pairValue a) = false ↔
      fmtOk fr s ∧ Narrow.valid (BitVec.ofNat 64 (ofWords (regs fr 2))) = true := fmtBad_eq_false_iff
  refine ⟨?_, ?_, ?_, ?_, ?_, ?_, ?_, ?_, ?_, ?_⟩
  · refine .of_kept (exec_psig c a t) ?_ fun _ _ s _ => runsKept_setTeam s _ _
    rintro ep fr s ⟨hg, -, hw, hf, he, ha⟩
    rw [psigBody_ok hg hw hf he ha, Issue.acceptCmd_eq]
    rfl
  · exact .of_kept (exec_chwait c a t) (fun _ fr s ⟨hg, hk, hm⟩ => chwaitBody_acquires hg hk hm) fun _ _ s _ => runsKept_discard s _ _
  · exact fun k => .of _ (exec_chwait c a t) fun fr s ⟨hg, hk⟩ => chwaitBody_raises hg hk
  · refine .of_kept (exec_chstat d l c t) ?_ fun _ fr s _ => (RunsKept.ite (runsKept_setTeam s _ _) (.refl s)).trans (runsKept_commit _ fr none _)
    intro _ fr s hg
    have hkept (k : Option Kept) : (k.map fun k => k.cause.code).getD 0 = match k with | some k => k.cause.code | none => 0 := by cases k <;> rfl
    rw [chstatBody, State.chanGranted_of hg, ok_bind, State.chanWords, hkept]
    rfl
  · exact .of _ (exec_chwait c a t) fun fr s hg => chwaitBody_not_granted hg
  · refine .of _ (exec_chstat d l c t) fun fr s hg => ?_
    rw [chstatBody, State.chanGranted_of_not hg]
    rfl
  · refine .of_kept (exec_fmtset n a t) (fun _ fr s h => ?_) fun _ _ s _ => runsKept_setTeam s _ _
    rw [(hfits fr s).2 h]
    rfl
  · refine .of _ (exec_fmtset n a t) fun fr s h => ?_
    rw [Bool.of_not_eq_false (mt (hfits fr s).1 (not_and_or.2 (h.imp_right Bool.eq_false_iff.1)))]
    rfl
  · refine .of_kept (exec_fmtget d n t) (fun _ fr s h => ?_) fun _ fr s _ => runsKept_commit s fr none _
    rw [decide_eq_false (Nat.not_le.2 h), fmtWords_eq]
    rfl
  · refine .of _ (exec_fmtget d n t) fun fr s h => ?_
    rw [decide_eq_true (Nat.le_of_not_lt h)]
    rfl

end Sys2Proof.Machine
